-- ==== Sys2Proof/Word.lean ====
section
/-! DEFINITION. The word types of the CZ8-460L model: what the manual numbers as bits (R4). -/

namespace Sys2Proof

/-- A byte of any memory of the module. -/
abbrev Byte := BitVec 8
/-- A 16-bit word: opcodes, tags, status and log codes (R10, R315, R332, R464). -/
abbrev Half := BitVec 16
/-- A 32-bit word: object ids, parameter words, registers, FP32 lanes (R9, R44, R311). -/
abbrev Word := BitVec 32
/-- A 64-bit word: offsets, lengths, masks, times (R311, R337). -/
abbrev Dword := BitVec 64

/-- A compute die C0 to C3 (R14). -/
abbrev DieIx := Fin 4
/-- Any of the eight dies in the order of the log's unit field: C0 to C3, M0, M1, L0, L1 (R362). -/
abbrev AllDieIx := Fin 8
/-- A media die M0 or M1. -/
abbrev MediaIx := Fin 2
/-- A partition 0 to 3 (R161). -/
abbrev PartIx := Fin 4
/-- A physical or logical array cluster of one die (R14, R37). -/
abbrev ClusterIx := Fin 16
/-- A vector engine VE0 to VE3 of one die, or a mover 0 to 3 of one die (R14, R45). -/
abbrev EngIx := Fin 4
/-- An optical link LINK00 to LINK23 (R14). -/
abbrev LinkIx := Fin 24
/-- A control queue 0 to 63 (R344). -/
abbrev QueueIx := Fin 64
/-- A mailbox channel 0 to 31 (R359). -/
abbrev MbxIx := Fin 32
/-- A flash parity group 0 to 127 (R248). -/
abbrev GroupIx := Fin 128

end Sys2Proof
end

