-- ==== Sys2Proof/Syntax.lean ====
section
/-! DEFINITION. The commands of the block: one constructor per row of spec/opcode_table.json, with the
operand types they carry.  A capsule or packet is given decoded (R311, R347); PAYLOAD_FLIT_RECEIVE and
SQ_ENTRY_TAKE carry raw bytes and decode them themselves.  Rows that time drives carry the module time
`t` (ns, R337) at which they fall; rows that a measurement drives carry what was measured. -/

namespace Sys2Proof

/-- The origin of a command (R362, R453). -/
inductive Origin where
  /-- PCIe control queue n (kind 0x1). -/
  | ctlq (n : QueueIx)
  /-- An MCTP endpoint by EID (kind 0x2); `i3c` when the message came over the I3C binding (R453, R465). -/
  | mctp (eid : Byte) (i3c : Bool)
  /-- A fabric node (kind 0x3) and the link its unit arrived on. -/
  | fabric (node : BitVec 20) (link : LinkIx)
  /-- Firmware (kind 0x4). -/
  | firmware
  /-- Hardware (kind 0x5). -/
  | hardware
  /-- A secure channel by its origin index (kind 0x6, R449). -/
  | secure (ix : BitVec 4)
deriving DecidableEq, Repr

/-- The fields of a capsule (R311) or of a control command packet (R347), decoded. -/
structure Capsule where
  /-- Who sent it. -/
  origin : Origin
  /-- The requester's tag (R315). -/
  tag : Half
  /-- Completion mode: 0 default, 1 DURABLE, 2 ABSORBED, 3 reserved (R311). -/
  completion : BitVec 2
  /-- The write must be atomic (R323). -/
  atomic : Bool
  /-- Start only after earlier commands of the same source on the object (R311, R325). -/
  barrier : Bool
  /-- True when every reserved field outside the route word is zero (R8, check 3 of R317). -/
  reservedZero : Bool
  /-- Partition addressed. -/
  partition : BitVec 2
  /-- Context id (R169). -/
  context : Byte
  /-- Object id (R9). -/
  object : Word
  /-- Byte offset, or the position the opcode defines. -/
  offset : Dword
  /-- Extent of the range acted on. -/
  length : Dword
  /-- Bytes of request data that follow. -/
  dataLen : Word
  /-- Parameter word 0. -/
  p0 : Word
  /-- Parameter word 1. -/
  p1 : Word
  /-- Parameter word 2. -/
  p2 : Word
  /-- Parameter word 3. -/
  p3 : Word
  /-- Parameter word 4. -/
  p4 : Word
  /-- Parameter word 5. -/
  p5 : Word
  /-- The answer goes to a result slot (packets only, R347). -/
  slotEn : Bool
  /-- The result slot within the queue (packets only, R347). -/
  slot : BitVec 6
  /-- Host address of the request data (packets only, R347). -/
  dataAddr : Dword
deriving DecidableEq, Repr

/-- What a code finds when a protected memory is read (R365, R367, R368). -/
inductive Ecc where
  /-- No error. -/
  | clean
  /-- A correctable error, corrected in the read (R367). -/
  | corrected
  /-- An error the code detects and cannot correct (R368). -/
  | uncorrectable
deriving DecidableEq, Repr

/-- An array slot without its op (R38). -/
structure ArraySlot where
  /-- Descriptor index. -/
  desc : Byte
  /-- Index register applied to the descriptor's addresses. -/
  ix : BitVec 4
  /-- Token set when the last result is written. -/
  token : BitVec 10
  /-- 1: set the token on completion. -/
  tokenEn : Bool
deriving DecidableEq, Repr

/-- A vector slot without its op (R44). -/
structure VecSlot where
  /-- Format code of the memory operand (R41). -/
  fmt : BitVec 4
  /-- Destination register. -/
  dst : BitVec 6
  /-- Source register a. -/
  srcA : BitVec 6
  /-- Source register b. -/
  srcB : BitVec 6
  /-- Source register c. -/
  srcC : BitVec 6
  /-- Index register applied to the scratchpad offset. -/
  ix : BitVec 4
  /-- 1: the operation reads or writes a scratchpad. -/
  memEn : Bool
  /-- Logical cluster whose scratchpad is addressed. -/
  memCluster : BitVec 4
  /-- Scratchpad byte offset. -/
  memAddr : BitVec 23
  /-- Offset per unit of the index register, in 64-byte units. -/
  ixStride : Half
  /-- 16-bit operand. -/
  imm : Half
  /-- Token set at retirement. -/
  token : BitVec 10
  /-- 1: set the token. -/
  tokenEn : Bool
  /-- Condition flag written by compare and reduction operations. -/
  flag : BitVec 5
  /-- 1: write the flag. -/
  flagEn : Bool
deriving DecidableEq, Repr

/-- A move slot without its op (R45). -/
structure MoveSlot where
  /-- Move descriptor index. -/
  mdesc : Byte
  /-- Index register applied to both addresses. -/
  ix : BitVec 4
  /-- Length in 64-byte units; 0 takes the descriptor's length. -/
  len : Half
  /-- Token set when the move completes. -/
  token : BitVec 10
  /-- 1: set the token. -/
  tokenEn : Bool
deriving DecidableEq, Repr

/-- A sync slot without its op (R49). -/
structure SyncSlot where
  /-- First token. -/
  tokA : BitVec 10
  /-- Second token. -/
  tokB : BitVec 10
  /-- 1: the second token takes part. -/
  bEn : Bool
  /-- 1: wait until any is SET; 0: until all are. -/
  any : Bool
  /-- Wait limit in µs; 0 means no limit. -/
  timeout : Half
deriving DecidableEq, Repr

/-- A control slot without its op (R56). -/
structure CtlSlot where
  /-- Destination register, or condition. -/
  fa : BitVec 4
  /-- Source register. -/
  fb : BitVec 4
  /-- Flag index. -/
  flag : BitVec 5
  /-- 32-bit immediate. -/
  imm : Word
  /-- Row offset from the start of the row section, in 16-bit units. -/
  target : BitVec 21
deriving DecidableEq, Repr

/-- How a codeword read ended on NAND (R249): the ladder's depth, a rebuild from the stripe, or neither. -/
inductive CodewordResult where
  /-- Decoded after this many extra reads (0 to 7). -/
  | decoded (depth : Fin 8)
  /-- Depth 7 failed and the stripe rebuilt it. -/
  | rebuilt
  /-- A second page of the stripe failed too. -/
  | uncorrectable
deriving DecidableEq, Repr

/-- How a write-back ended (R149). -/
inductive WritebackResult where
  /-- The extent write is held in staging. -/
  | held
  /-- It failed on the channel. -/
  | channelFailed
  /-- An uncorrectable HBM error was read by the tier engine. -/
  | hbmError
deriving DecidableEq, Repr

/-- What waits on pages (R155). -/
inductive Waiter where
  /-- The move at the head of a mover. -/
  | move (d : DieIx) (k : EngIx)
  /-- A command, by its (admission) number in the command table. -/
  | command (seq : Nat)
  /-- A chunk step. -/
  | chunk (shard : Word) (chunk : Nat)
  /-- A copy of a program image into row memory. -/
  | image (d : DieIx)
deriving DecidableEq, Repr

/-- An engine of R388, one die manager, the management core or a row sequencer (R389). -/
inductive HwUnit where
  /-- An array cluster of a compute die. -/
  | cluster (d : DieIx) (c : ClusterIx)
  /-- A vector engine. -/
  | vector (d : DieIx) (j : EngIx)
  /-- A mover. -/
  | mover (d : DieIx) (k : EngIx)
  /-- A scan engine of a media die. -/
  | scan (m : MediaIx) (e : Fin 8)
  /-- A flash channel. -/
  | channel (ch : Fin 128)
  /-- An optical link. -/
  | link (l : LinkIx)
  /-- A Futis core of a compute die; `service` when it runs the shard or search service. -/
  | futisCompute (d : DieIx) (core : Fin 8) (service : Bool)
  /-- A Futis core of a media die. -/
  | futisMedia (m : MediaIx) (core : EngIx)
  /-- A tier engine DMA channel of a compute die. -/
  | tierDma (d : DieIx)
  /-- A fabric DMA channel of a compute die. -/
  | fabricDma (d : DieIx)
  /-- A row sequencer. -/
  | sequencer (d : DieIx)
  /-- A die manager. -/
  | dieManager (d : AllDieIx)
  /-- The management core. -/
  | mgmtCore
deriving DecidableEq, Repr

/-- A reset domain being reset (R387). -/
inductive ResetTarget where
  /-- The streams, tasks and queue of one context. -/
  | context (id : Byte)
  /-- One engine. -/
  | engine (u : HwUnit)
  /-- One partition. -/
  | partition (p : PartIx)
  /-- The module. -/
  | whole
deriving DecidableEq, Repr

/-- The memory an ECC test port operation names (R374). -/
inductive EccTarget where
  /-- Scratchpad word. -/
  | scratchpad
  /-- Row memory word. -/
  | rowMemory
  /-- Vector register file word. -/
  | vectorFile
  /-- Descriptor table word. -/
  | descTable
  /-- HBM line. -/
  | hbm
  /-- Protected staging word. -/
  | staging
  /-- Block or lease table word. -/
  | tableSram
  /-- Flash-channel buffer word. -/
  | channelBuffer
deriving DecidableEq, Repr

/-- One test port operation's fields (R374). -/
structure EccReq where
  /-- The calling side: a Futis core of this die in this partition, or firmware (R375). -/
  futis : Option PartIx
  /-- The memory named. -/
  target : EccTarget
  /-- Physical cluster, engine, stack, channel or table index. -/
  unit : Byte
  /-- Word or line address. -/
  addr : Dword
  /-- Check bits given. -/
  chk : Dword
  /-- Data given: eight words for an HBM line, the first alone for an SRAM word. -/
  data : List Dword
deriving DecidableEq, Repr

/-- A register space software or firmware writes (R335, R374, R418, R458). -/
inductive RegSpace where
  /-- BAR0 of the PCIe function. -/
  | bar0
  /-- BAR4 of the PCIe function: the MSI-X table (R334). -/
  | bar4
  /-- The die control window of one die. -/
  | dieWindow (d : AllDieIx)
deriving DecidableEq, Repr

/-- Which PCIe reset reached the function (R364). -/
inductive FunctionResetKind where
  /-- Function-level reset. -/
  | flr
  /-- Hot reset. -/
  | hot
  /-- PERST# asserted. -/
  | perst
  /-- Link-down of the PCIe link. -/
  | linkDown
deriving DecidableEq, Repr

/-- What a training found (R284, R285). -/
structure TrainingResult where
  /-- True for a full training, false for a fast one. -/
  full : Bool
  /-- Wavelengths λ0–λ7 whose laser input meets R279. -/
  laser : BitVec 8
  /-- Usable wavelength set of this side's receiver. -/
  rxUsable : Word
  /-- Usable wavelength set the peer named. -/
  txUsable : Word
  /-- Rings that failed to lock while their light was present: transmit 0–31, receive 32–63 (R282). -/
  unlocked : BitVec 64
  /-- The peer answered with a training frame. -/
  frame : Bool
  /-- Flit format version of the peer's frame. -/
  version : BitVec 4
  /-- Node id of the peer's frame. -/
  peer : BitVec 20
  /-- The peer has encryption configured. -/
  peerEncrypted : Bool
  /-- The key check values agree. -/
  keyCheckOk : Bool
  /-- A lane marker named another index. -/
  laneMismatch : Bool
  /-- The fault that kept wavelengths away is local. -/
  localFault : Bool
deriving DecidableEq, Repr

/-- The state a flit was received in: after FEC and CRC (R287), with the GCM tag (R304). -/
structure FlitCheck where
  /-- Bytes the FEC corrected, by wavelength index. -/
  correctedBy : List (Fin 32 × Nat)
  /-- The FEC decoded. -/
  fecOk : Bool
  /-- The GCM tag verified, on an encrypted link. -/
  tagOk : Bool
deriving DecidableEq, Repr

/-- A sensor of R429. -/
inductive Sensor where
  /-- Junction of a compute die. -/
  | compute (d : DieIx)
  /-- Junction of a media die. -/
  | media (m : MediaIx)
  /-- A light die or its photonic circuit. -/
  | light (l : Fin 2)
  /-- An HBM stack. -/
  | hbm (k : Fin 8)
  /-- A NAND package case. -/
  | nand (g : GroupIx)
deriving DecidableEq, Repr

/-- A failure that a cast-on step found (R411, R413). -/
inductive StepResult where
  /-- Step 1: an image failed verification or the configuration flash could not be read. -/
  | imageFailed
  /-- Steps 2–4: a compute die failed twice. -/
  | computeDieFailed (d : DieIx)
  /-- Step 4: one stack failed training. -/
  | stackFailed (k : Fin 8)
  /-- Steps 2–3: one light die failed. -/
  | lightDieFailed (l : Fin 2)
  /-- Steps 2–3: M0's data blocks, M1 or both light dies failed. -/
  | fatalDieFailed
  /-- Step 5: a macro or checker of a unit failed. -/
  | checkerFailed (u : HwUnit)
  /-- Step 7: a channel failed calibration at 4,800 MT/s; `again` when it failed at 3,200 MT/s too. -/
  | channelFailed (ch : Fin 128) (again : Bool)
  /-- Step 8: the journal cannot be replayed. -/
  | journalFailed
deriving DecidableEq, Repr

/-- A kind of engine the placement engine fills (R172). -/
inductive TaskKind where
  /-- A stream, or a resumed stream. -/
  | stream
  /-- A chunk update on a vector engine. -/
  | update
  /-- A parcel scan or a span on a scan engine. -/
  | scan
deriving DecidableEq, Repr

/-- A numeric PLDM sensor or a MOD_STATUS state sensor (R466). -/
inductive PldmSensor where
  /-- Coolant inlet temperature. -/
  | inlet
  /-- Coolant outlet temperature. -/
  | outlet
  /-- Estimated flow. -/
  | flow
  /-- 48 V input power. -/
  | power
  /-- Junction temperature of a die. -/
  | junction (d : AllDieIx)
  /-- Temperature of an HBM stack. -/
  | stack (k : Fin 8)
  /-- The hottest NAND case. -/
  | nandHottest
  /-- Hold-up energy. -/
  | holdup
  /-- One MOD_STATUS bit. -/
  | status (bit : Fin 8)
deriving DecidableEq, Repr

/-- One constructor per row of the table of operations and events. -/
inductive Instr where
  /-- ROW_ISSUE (R40): The row sequencer fetches one row, checks every scratchpad address of its slots, and issues its slots followed by its rest rows. -/
  | rowIssue (d : DieIx) (fetch : Ecc) (desc : Ecc)
  /-- STALL_RELEASE (R43): A row held by a structural stall issues once the waiting pass's first vector enters, or once the mover queue has room. -/
  | stallRelease (d : DieIx)
  /-- STITCH_OVERRUN (R63): The count of issued cycles since the last stitch marker reaches 65,536 and the stream raises trap STITCH_OVERRUN. -/
  | stitchOverrun (d : DieIx)
  /-- PASS (R42): An array slot starts an unchained pass that casts on its stationary operand and streams its vectors. -/
  | pass (d : DieIx) (i : ClusterIx) (a : ArraySlot) (ecc : Ecc)
  /-- PASS_CHAIN (R80): An array slot starts a pass that chains behind the pass being streamed, with its cast-on front rippling in behind. -/
  | passChain (d : DieIx) (i : ClusterIx) (a : ArraySlot) (ecc : Ecc)
  /-- DRAIN (R83): An array slot arranges for a token to be set when every earlier pass of its cluster has written its last result. -/
  | drain (d : DieIx) (i : ClusterIx) (a : ArraySlot)
  /-- PASS_FIRST_VECTOR_ENTERS (R80): Once cast-on ends, the first streamed vector of a pass enters the array and frees the waiting place. -/
  | passFirstVectorEnters (d : DieIx) (c : ClusterIx)
  /-- ARRAY_RESULT_WRITE (R82): A deskewed result vector is written whole, applying acc, rescale and conversion, and is compared against the swatch result for a sampled pass. -/
  | arrayResultWrite (d : DieIx) (c : ClusterIx) (primFault : List Byte) (dupFault : List Byte) (ecc : Ecc)
  /-- PASS_COMPLETE (R82): A pass writes its last result, or unloads array row 127 in output-stationary mode, and sets its token. -/
  | passComplete (d : DieIx) (c : ClusterIx)
  /-- SWATCH_THIRD_EXECUTION (R384): After its save image is restored, the context runs again from its marker, with the primary's logical cluster mapped to a third cluster T. -/
  | swatchThirdExecution (d : DieIx)
  /-- SWATCH_DECIDE (R385): Cluster T writes the recorded result vector; it is compared with both captured versions and one cluster is retired. -/
  | swatchDecide (d : DieIx) (tFault : List Byte) (reached : Bool) (primScanFails : Bool) (dupScanFails : Bool)
  /-- SWATCH_REPLAY (R384): After the second restore, the context is replayed from the same marker on the die's clusters as they now stand. -/
  | swatchReplay (d : DieIx)
  /-- LOAD (R116): A vector engine reads 256 elements from a scratchpad into a register in FP32. -/
  | load (d : DieIx) (j : EngIx) (v : VecSlot) (ecc : Ecc)
  /-- STORE (R116): A vector engine writes a register to a scratchpad in a non-MX format. -/
  | store (d : DieIx) (j : EngIx) (v : VecSlot)
  /-- LOADP (R116): A vector engine loads 512 BF16 elements as packed pairs. -/
  | loadp (d : DieIx) (j : EngIx) (v : VecSlot) (ecc : Ecc)
  /-- STOREP (R116): A vector engine stores 512 BF16 elements from packed pairs. -/
  | storep (d : DieIx) (j : EngIx) (v : VecSlot)
  /-- ADD (R116): A vector engine adds two registers lane by lane. -/
  | add (d : DieIx) (j : EngIx) (v : VecSlot)
  /-- SUB (R116): A vector engine subtracts one register from another lane by lane. -/
  | sub (d : DieIx) (j : EngIx) (v : VecSlot)
  /-- MUL (R116): A vector engine multiplies two registers lane by lane. -/
  | mul (d : DieIx) (j : EngIx) (v : VecSlot)
  /-- FMA (R116): A vector engine performs a fused multiply-add with one rounding. -/
  | fma (d : DieIx) (j : EngIx) (v : VecSlot)
  /-- FNMA (R116): A vector engine computes c − a × b with one rounding. -/
  | fnma (d : DieIx) (j : EngIx) (v : VecSlot)
  /-- MAX (R116): A vector engine takes the larger of two lanes, giving NaN if either lane is NaN. -/
  | max (d : DieIx) (j : EngIx) (v : VecSlot)
  /-- MIN (R116): A vector engine takes the smaller of two lanes, giving NaN if either lane is NaN. -/
  | min (d : DieIx) (j : EngIx) (v : VecSlot)
  /-- ABS (R116): A vector engine takes the absolute value of each lane. -/
  | abs (d : DieIx) (j : EngIx) (v : VecSlot)
  /-- SIGN (R116): A vector engine writes −1, ±0 or +1 according to the sign of each lane. -/
  | sign (d : DieIx) (j : EngIx) (v : VecSlot)
  /-- SCALE (R116): A vector engine multiplies each lane by a signed power of two. -/
  | scale (d : DieIx) (j : EngIx) (v : VecSlot)
  /-- DIV (R116): A vector engine divides lane by lane with correct rounding. -/
  | div (d : DieIx) (j : EngIx) (v : VecSlot)
  /-- SQRT (R116): A vector engine takes the square root of each lane with correct rounding. -/
  | sqrt (d : DieIx) (j : EngIx) (v : VecSlot)
  /-- BCAST (R116): A vector engine copies one lane to every lane. -/
  | bcast (d : DieIx) (j : EngIx) (v : VecSlot)
  /-- MOVI (R116): A vector engine sets every lane to an immediate read as BF16. -/
  | movi (d : DieIx) (j : EngIx) (v : VecSlot)
  /-- CMP_LT (R116): A vector engine compares lanes for less-than and writes a flag. -/
  | cmpLt (d : DieIx) (j : EngIx) (v : VecSlot)
  /-- CMP_EQ (R116): A vector engine compares lanes for equality and writes a flag. -/
  | cmpEq (d : DieIx) (j : EngIx) (v : VecSlot)
  /-- SEL (R116): A vector engine selects a or b in each lane according to c. -/
  | sel (d : DieIx) (j : EngIx) (v : VecSlot)
  /-- RSUM (R117): A vector engine sums 256 lanes in a fixed binary tree into lane 0. -/
  | rsum (d : DieIx) (j : EngIx) (v : VecSlot)
  /-- RMAX (R116): A vector engine places the largest lane in lane 0. -/
  | rmax (d : DieIx) (j : EngIx) (v : VecSlot)
  /-- SURVEY (R104): A vector engine returns the largest-magnitude exponent of each of eight blocks of 32 lanes. -/
  | survey (d : DieIx) (j : EngIx) (v : VecSlot)
  /-- CONVERT (R105): A vector engine writes a packed MX or SINT8 record, choosing each block's scale from the survey results. -/
  | convert (d : DieIx) (j : EngIx) (v : VecSlot)
  /-- PADD (R116): A vector engine adds packed BF16 pairs. -/
  | padd (d : DieIx) (j : EngIx) (v : VecSlot)
  /-- PMUL (R116): A vector engine multiplies packed BF16 pairs. -/
  | pmul (d : DieIx) (j : EngIx) (v : VecSlot)
  /-- PFMA (R116): A vector engine performs a packed BF16 fused multiply-add. -/
  | pfma (d : DieIx) (j : EngIx) (v : VecSlot)
  /-- COEF (R127): The built-in update program loads and evaluates the coefficient entries and curves for the next UPDATE run. -/
  | coef (d : DieIx) (j : EngIx) (shard : Word) (group : Nat) (t : Word)
  /-- UPDATE (R124): The built-in update program applies the optimiser step to one 256-element update group. -/
  | update (d : DieIx) (j : EngIx) (shard : Word) (chunk : Nat) (group : Nat) (ecc : Ecc)
  /-- VECTOR_RETIRE (R114): A vector operation retires at issue plus its latency and writes its register, flag or scratchpad and its token. -/
  | vectorRetire (d : DieIx) (j : EngIx) (residueOk : Bool) (ecc : Ecc)
  /-- COPY (R45): A move slot queues a copy between store space and scratchpads on its mover. -/
  | copy (d : DieIx) (k : EngIx) (m : MoveSlot)
  /-- FILL (R45): A move slot queues a write of zeros to its destination. -/
  | fill (d : DieIx) (k : EngIx) (m : MoveSlot)
  /-- PREFETCH (R45): A move slot makes the source resident in HBM without moving data, and may change the current layer. -/
  | prefetch (d : DieIx) (k : EngIx) (m : MoveSlot)
  /-- MOVE_COMPLETE (R47): A move completes or fails, setting its token SET or FAILED and any remote notify token. -/
  | moveComplete (d : DieIx) (k : EngIx) (ecc : Ecc) (t : Nat)
  /-- WAIT (R50): A sync slot holds issue until the named tokens are SET. -/
  | wait (d : DieIx) (y : SyncSlot) (t : Nat)
  /-- WAIT_CLEAR (R49): A sync slot waits as WAIT does, then clears the tokens that satisfied it. -/
  | waitClear (d : DieIx) (y : SyncSlot) (t : Nat)
  /-- CLEAR (R49): A sync slot clears the named tokens. -/
  | clearOp (d : DieIx) (y : SyncSlot)
  /-- SET (R49): A sync slot sets the named tokens. -/
  | setOp (d : DieIx) (y : SyncSlot)
  /-- WAIT_SATISFIED (R50): A stalled wait becomes satisfied and the held row issues in full. -/
  | waitSatisfied (d : DieIx)
  /-- WAIT_TIMEOUT (R51): A wait with a nonzero limit passes its timeout and the stream raises trap WAIT_TIMEOUT. -/
  | waitTimeout (d : DieIx) (t : Nat)
  /-- END (R57): Issue stops, and the command completes once all issued work has finished. -/
  | endStream (d : DieIx) (k : CtlSlot)
  /-- STREAM_COMPLETE (R58): After END, the last outstanding work finishes and the command completes with its status from the tokens and recorded faults. -/
  | streamComplete (d : DieIx)
  /-- BRANCH (R57): Control continues at a target if the condition holds. -/
  | branch (d : DieIx) (k : CtlSlot)
  /-- LOOP (R57): A loop level is pushed and its body runs count times. -/
  | loop (d : DieIx) (k : CtlSlot)
  /-- IX_SET (R57): An index register is set to the immediate. -/
  | ixSet (d : DieIx) (k : CtlSlot)
  /-- IX_ADD (R57): An index register takes a register plus the immediate. -/
  | ixAdd (d : DieIx) (k : CtlSlot)
  /-- STITCH (R59): A stitch marker stops issue and drains the stream, then saves its save list and marker record, or writes the record only. -/
  | stitch (d : DieIx) (k : CtlSlot)
  /-- MARKER_SAVE_COMPLETE (R59): The drain and save of a stitch marker end; issue continues, or the context leaves the die if a pre-emption is pending. -/
  | markerSaveComplete (d : DieIx)
  /-- TRAP (R57): A control slot raises trap SOFTWARE with its code. -/
  | trap (d : DieIx) (k : CtlSlot)
  /-- MARK (R57): The immediate, plan_cycle and module time are written to the die's trace. -/
  | mark (d : DieIx) (k : CtlSlot)
  /-- FLAG_CLEAR (R57): A condition flag is cleared. -/
  | flagClear (d : DieIx) (k : CtlSlot)
  /-- PLACE_TASK (R172): The placement engine puts a waiting task on the first free engine of its kind, in fixed order and by priority. -/
  | placeTask (kind : TaskKind) (p : PartIx)
  /-- PREEMPT_REQUEST (R176): Scheduling firmware or the placement engine asks a running stream to leave its die at its next marker. -/
  | preemptRequest (d : DieIx)
  /-- TIME_SLICE_EXPIRY (R176): A running stream uses up its time slice while a task of equal or higher priority waits. -/
  | timeSliceExpiry (d : DieIx) (t : Nat)
  /-- STARVATION_LIMIT (R177): A stream task waits past the starvation limit, and hardware sends a pre-emption request within 10 µs. -/
  | starvationLimit (task : Nat) (t : Nat)
  /-- RESUME_STREAM (R179): A pre-empted stream is restored from its newest save image on the die it left and continues after its marker. -/
  | resumeStream (d : DieIx) (ecc : Ecc)
  /-- STO_MAP (R144): A store space range is mapped with a placement hint and its backing is reserved. -/
  | stoMap (c : Capsule)
  /-- STO_UNMAP (R144): A range is unmapped, and its frames, extents and backing are freed. -/
  | stoUnmap (c : Capsule)
  /-- STO_PIN (R154): A range is made resident and PINNED. -/
  | stoPin (c : Capsule)
  /-- STO_UNPIN (R144): The pinned pages of a range are returned to POOL. -/
  | stoUnpin (c : Capsule)
  /-- STO_READ (R144): Up to 16 MiB of store space is read to the fabric or into a result slot. -/
  | stoRead (c : Capsule)
  /-- STO_WRITE (R144): Up to 16 MiB is written to store space after RX_GRANT, page by page in address order. -/
  | stoWrite (c : Capsule)
  /-- STO_DISCARD (R144): A range is returned to ZERO without being written back. -/
  | stoDiscard (c : Capsule)
  /-- STO_QUERY (R146): Up to 512 page records are returned. -/
  | stoQuery (c : Capsule)
  /-- STO_SET_POLICY (R156): The partition's tier deadline, prefetch distance, idle age limit, floor and pin limit are set. -/
  | stoSetPolicy (c : Capsule)
  /-- PAGE_FETCH_START (R148): An access to a FLASH page starts exactly one fetch into a chosen frame. -/
  | pageFetchStart (p : PartIx) (page : Nat)
  /-- PAGE_FETCH_COMPLETE (R148): A fetch ends; the page becomes RESIDENT_CLEAN or POISONED, and waiting accesses proceed or fail. -/
  | pageFetchComplete (p : PartIx) (page : Nat) (readable : Bool) (t : Nat)
  /-- WRITEBACK_COMPLETE (R149): A dirty page's extent write is held in staging, so its frame is freed and it becomes FLASH, or the write fails and WRITEBACK_FAILED is logged. -/
  | writebackComplete (p : PartIx) (page : Nat) (r : WritebackResult)
  /-- FREE_RESERVE_EVICT (R152): A die with fewer than 256 free frames starts evicting ahead of need until it has 512. -/
  | freeReserveEvict (d : DieIx)
  /-- IDLE_AGE_EXPIRY (R158): A pool page whose age passes the idle age limit is written back if it is dirty, and evicted. -/
  | idleAgeExpiry (p : PartIx) (page : Nat) (t : Nat)
  /-- TIER_DEADLINE (R155): A request waiting on a page passes its tier deadline and ends with ST_LOWER_TIER_FAILED. -/
  | tierDeadline (w : Waiter) (t : Nat)
  /-- PREFETCH_LATE (R151): A window entry is still not resident when its need time passes, and a PREFETCH_LATE is counted. -/
  | prefetchLate (d : DieIx) (entry : Nat) (t : Nat)
  /-- PRG_LOAD (R67): A program image is checked and copied into pinned HBM as a program object. -/
  | prgLoad (c : Capsule)
  /-- PRG_RUN (R68): A command of a program is started in a context, with one stream per named die. -/
  | prgRun (c : Capsule)
  /-- PRG_UNLOAD (R67): A program object with no users is removed. -/
  | prgUnload (c : Capsule)
  /-- SHD_CREATE (R120): A shard is created on a compute die, and the shard service is started if needed. -/
  | shdCreate (c : Capsule)
  /-- SHD_DELETE (R119): A shard is deleted. -/
  | shdDelete (c : Capsule)
  /-- SHD_SET_GROUPS (R126): The group map and coefficient entries are written, to apply from step m + 1. -/
  | shdSetGroups (c : Capsule)
  /-- SHD_SET_CURVE (R127): One schedule curve is written. -/
  | shdSetCurve (c : Capsule)
  /-- SHD_IMPORT (R119): Master weights and state are copied in from store space for whole idle chunks. -/
  | shdImport (c : Capsule)
  /-- SHD_EXPORT (R119): Master weights and state are copied out to store space for whole chunks at a stated step. -/
  | shdExport (c : Capsule)
  /-- SHD_PUSH_GRAD (R130): A contribution to one chunk is decided at RX_GRANT, and its data is added once it has landed. -/
  | shdPushGrad (c : Capsule)
  /-- CHUNK_STEP_COMPLETE (R133): A chunk's update has written w, state and the published copy, so n_c advances, the slot is freed and held grants and reads are decided. -/
  | chunkStepComplete (shard : Word) (chunk : Nat)
  /-- STEP_LATE (R131): A chunk's step deadline passes without all contributors, so STEP_LATE is logged and the late flag is set. -/
  | stepLate (shard : Word) (chunk : Nat) (t : Nat)
  /-- SHD_CLOSE_STEP_ABANDON (R131): Waiting chunks discard their sums and are advanced to step t unchanged. -/
  | shdCloseStepAbandon (c : Capsule)
  /-- SHD_CLOSE_STEP_PARTIAL (R131): Waiting chunks run their step at once with the contributions present, scaled by C/r. -/
  | shdCloseStepPartial (c : Capsule)
  /-- SHD_STEP_STATUS (R135): The shard's step and per-chunk steps, counts and flags are reported. -/
  | shdStepStatus (c : Capsule)
  /-- SHD_READ_WEIGHTS (R134): Published weights of a stated step are returned, or the read is held until the step is reached. -/
  | shdReadWeights (c : Capsule)
  /-- SHD_EVENT_REPLY (R136): The status reply to a SHD_EVENT arrives, and any held SHARD_STEP is sent with the newest step. -/
  | shdEventReply (shard : Word) (code : Half) (status : Half)
  /-- SHD_EVENT_TIMEOUT (R136): No reply arrives within 10 ms, so the event is dropped and CQ_EVENT_LOST is logged. -/
  | shdEventTimeout (shard : Word) (code : Half) (t : Nat)
  /-- PAR_CREATE (R162): A partition is created from unowned compute dies. -/
  | parCreate (c : Capsule)
  /-- PAR_DELETE (R162): A partition is deleted, its dies are freed and its store space is unmapped. -/
  | parDelete (c : Capsule)
  /-- PAR_SET_SHARES (R161): A partition's shares of shared resources and its scheduling policy values are set. -/
  | parSetShares (c : Capsule)
  /-- PAR_SET_SWATCH (R163): A partition's swatch fraction is set. -/
  | parSetSwatch (c : Capsule)
  /-- PAR_QUERY (R161): The layout, shares, swatch fractions and context counts of every partition are reported. -/
  | parQuery (c : Capsule)
  /-- CTX_CREATE (R166): A context is created and its save images are reserved on every die of its partition. -/
  | ctxCreate (c : Capsule)
  /-- CTX_DELETE (R168): A context is deleted, and with the abort flag its work is first reset. -/
  | ctxDelete (c : Capsule)
  /-- CTX_SET (R175): A context's priority or die affinity is changed. -/
  | ctxSet (c : Capsule)
  /-- CTX_COUNTERS (R185): A consistent snapshot of a context's counter record is returned, optionally cleared in the same instant. -/
  | ctxCounters (c : Capsule)
  /-- CTX_QUERY (R165): The state, command, die and queue occupancy of up to 64 contexts are reported. -/
  | ctxQuery (c : Capsule)
  /-- SRV_OPEN (R181): A serving endpoint is opened. -/
  | srvOpen (c : Capsule)
  /-- SRV_SUBMIT (R181): A sequence is added to a serving endpoint. -/
  | srvSubmit (c : Capsule)
  /-- SRV_CANCEL (R184): A sequence is removed at once, or after the running step. -/
  | srvCancel (c : Capsule)
  /-- SRV_CLOSE (R184): A serving endpoint is closed once it has no sequences left. -/
  | srvClose (c : Capsule)
  /-- BATCH_ASSEMBLE (R182): Before each step, batch assembly fills the token budget and writes the batch page, then runs the step program. -/
  | batchAssemble (endpoint : Nat)
  /-- SERVING_STEP_COMPLETE (R184): A step command completes, finished sequences end, and failed steps end their batch's sequences. -/
  | servingStepComplete (endpoint : Nat)
  /-- COL_CREATE (R190): A collection is created, its flash is reserved, and the search service is started if needed. -/
  | colCreate (c : Capsule)
  /-- COL_DELETE (R189): A collection is deleted and its flash and keys are freed. -/
  | colDelete (c : Capsule)
  /-- COL_SET_CODEBOOK (R194): The codebook of an empty collection is written. -/
  | colSetCodebook (c : Capsule)
  /-- COL_SET_PARCELS (R194): The parcel centroids of an empty collection are written. -/
  | colSetParcels (c : Capsule)
  /-- COL_INSERT (R198): Items are inserted or replaced in the pending epoch. -/
  | colInsert (c : Capsule)
  /-- COL_REMOVE (R218): Items are deleted by id in the pending epoch. -/
  | colRemove (c : Capsule)
  /-- COL_PUBLISH (R217): The pending epoch is closed, and becomes current once its mutations have completed. -/
  | colPublish (c : Capsule)
  /-- AUTO_PUBLISH (R217): The publish interval expires and a publish is issued if the pending epoch holds a mutation. -/
  | autoPublish (col : Word) (t : Nat)
  /-- COL_QUERY (R205): An exact top-k query runs its traverse and scans parcels in order of their bounds until the stopping rule holds. -/
  | colQuery (c : Capsule)
  /-- PARCEL_SCAN_COMPLETE (R207): A scan engine ends a parcel scan for its queries, having sent the survivors to the search service. -/
  | parcelScanComplete (query : Nat) (parcel : Nat) (readable : Bool)
  /-- SURVIVOR_EVALUATE (R205): A survivor's full record is evaluated exactly and offered to the heap, lowering τ. -/
  | survivorEvaluate (query : Nat) (readable : Bool)
  /-- COL_FETCH (R215): Full records visible at an epoch are returned by id. -/
  | colFetch (c : Capsule)
  /-- COL_COMPACT (R221): Retired items up to the floor are removed and the graph is repaired. -/
  | colCompact (c : Capsule)
  /-- GRAPH_LINK (R211): The search service links an inserted item into the graph, possibly after the insert is acknowledged. -/
  | graphLink (col : Word) (item : Nat)
  /-- COL_STATUS (R188): Item counts, epochs, retention floor and graph state are reported. -/
  | colStatus (c : Capsule)
  /-- SCN_RUN (R233): A volume range is filtered and projected into a sink, span by span. -/
  | scnRun (c : Capsule)
  /-- SCAN_PAGE (R228): A scan engine reads, decodes and filters one scan page, handling bad, empty and unreadable pages. -/
  | scanPage (scan : Nat) (span : Nat) (readable : Bool)
  /-- SPAN_COMPLETE (R236): A span ends and releases its output in order where required. -/
  | spanComplete (scan : Nat) (span : Nat)
  /-- SCAN_SEQUENCE_FINISH (R242): An endpoint sequence fed by a scan finishes, and its item is inserted, scored or counted. -/
  | scanSequenceFinish (scan : Nat) (seq : Nat) (out : List Word)
  /-- SCAN_COMPLETE (R245): A scan finishes and returns its 224-byte summary. -/
  | scanComplete (scan : Nat)
  /-- SCN_CANCEL (R246): A running scan's spans stop after their current page and the scan completes with ST_ABORTED_RESET. -/
  | scnCancel (c : Capsule)
  /-- SCN_STATUS (R232): The summary of a running scan is returned as it stands. -/
  | scnStatus (c : Capsule)
  /-- SCN_CREDIT (R239): Output segments are returned to a RECORDS scan, letting a paused scan resume. -/
  | scnCredit (c : Capsule)
  /-- VOL_CREATE (R253): A volume is created with its size, completion mode, absorb buffer and key. -/
  | volCreate (c : Capsule)
  /-- VOL_DELETE (R267): A volume's leases are recalled, and it is deleted and its units freed. -/
  | volDelete (c : Capsule)
  /-- VOL_QUERY (R252): A volume's size, mode, absorb sequence, durable watermark and leases are reported. -/
  | volQuery (c : Capsule)
  /-- VOL_DISCARD (R258): Whole units of a range become ZERO, and partial units are zero-filled. -/
  | volDiscard (c : Capsule)
  /-- VOL_FLUSH (R252): The command completes once every earlier ABSORBED write has become durable. -/
  | volFlush (c : Capsule)
  /-- VOL_READ (R324): Sectors of a volume are sent as data segments. -/
  | volRead (c : Capsule)
  /-- VOL_WRITE (R322): Sectors are written after RX_GRANT, under the completion mode given. -/
  | volWrite (c : Capsule)
  /-- ABSORB_DESTAGE (R258): Absorbed writes are destaged and committed in sequence order, advancing the durable watermark. -/
  | absorbDestage (vol : Word)
  /-- LSE_ACQUIRE (R263): Plat sheets of a volume are leased to a fabric client. -/
  | lseAcquire (c : Capsule)
  /-- LSE_RELEASE (R263): A lease is ended. -/
  | lseRelease (c : Capsule)
  /-- LSE_READ (R266): A leased unit is read by physical address after the lease checks. -/
  | lseRead (c : Capsule)
  /-- LSE_RECALL_ACK (R267): The holder's reply acknowledges a recall, so the lease is revoked and the command goes on. -/
  | lseRecallAck (lease : Half) (node : BitVec 20) (status : Half)
  /-- LEASE_RECALL_TIMEOUT (R267): The recall timeout passes, so the lease is revoked and a violation is counted. -/
  | leaseRecallTimeout (lease : Half) (t : Nat)
  /-- LEASE_EXPIRY (R268): A lease reaches its expiry and is revoked. -/
  | leaseExpiry (lease : Half) (t : Nat)
  /-- CODEWORD_DECODE (R249): A flash page read completes and each codeword is decoded, retried, rebuilt or found uncorrectable. -/
  | codewordDecode (vol : Word) (unit : Nat) (codeword : BitVec 2) (r : CodewordResult)
  /-- WORDLINE_PROGRAM_COMPLETE (R259): A wordline program ends and its units leave staging, or it fails and is reprogrammed elsewhere. -/
  | wordlineProgramComplete (g : GroupIx) (slot : Fin 16) (ok : Bool)
  /-- BLOCK_ERASE_COMPLETE (R270): The erase of a victim superblock's blocks ends and they join the free pool. -/
  | blockEraseComplete (g : GroupIx) (failed : List (Fin 16))
  /-- GC_START (R269): A group's free superblocks fall below the low mark and collection chooses a victim. -/
  | gcStart (g : GroupIx)
  /-- GC_MOVE_COMMIT (R270): A batch of move records is committed, applying only where the entry still holds the victim's address. -/
  | gcMoveCommit (g : GroupIx)
  /-- WEAR_LEVEL (R271): A group's erase-count spread exceeds the wear limit, and static wear levelling relocates data. -/
  | wearLevel (g : GroupIx)
  /-- READ_THRESHOLD_REFRESH (R272): A block's read count reaches the read threshold and its superblock is refreshed. -/
  | readThresholdRefresh (g : GroupIx) (serial : Nat)
  /-- PATROL_READ (R273): The patrol period expires and a closed superblock is sample-read, then refreshed if needed. -/
  | patrolRead (g : GroupIx) (serial : Nat) (deepest : Fin 8) (rebuilt : Bool) (t : Nat)
  /-- RETENTION_REFRESH (R273): A superblock closed for 90 days is refreshed unconditionally. -/
  | retentionRefresh (g : GroupIx) (serial : Nat) (t : Nat)
  /-- ERASE_SUSPEND (R274): An erase is suspended because a read of another block on the die waits. -/
  | eraseSuspend (g : GroupIx) (slot : Fin 16) (t : Nat)
  /-- ERASE_RESUME (R274): A suspended erase resumes when no read waits. -/
  | eraseResume (g : GroupIx) (slot : Fin 16) (t : Nat)
  /-- HOLDUP_MEASURE (R260): Every 24 hours the hold-up store is measured and a weak result is flagged. -/
  | holdupMeasure (millijoule : Nat) (t : Nat)
  /-- MED_WEAR_LOG (R276): The wear record is returned. -/
  | medWearLog (c : Capsule)
  /-- MED_SET_POLICY (R277): The collection, wear, refresh, patrol and recall policy values are set. -/
  | medSetPolicy (c : Capsule)
  /-- MED_FORMAT (R275): Every volume, collection and store extent is erased and capacity is recomputed. -/
  | medFormat (c : Capsule)
  /-- PAYLOAD_FLIT_RECEIVE (R290): A numbered flit is corrected, checked, acknowledged or nacked, and its slots are delivered to units. -/
  | payloadFlitReceive (l : LinkIx) (flit : List Byte) (chk : FlitCheck)
  /-- IDLE_FLIT_RECEIVE (R289): An IDLE flit carries acknowledgements and credits and is dropped at the elastic buffer. -/
  | idleFlitReceive (l : LinkIx) (header : BitVec 128)
  /-- TRAINING_FRAME_RECEIVE (R285): A training frame is checked for version, node id, encryption, key check and usable set. -/
  | trainingFrameReceive (l : LinkIx) (r : TrainingResult)
  /-- CREDIT_RETURN_RECEIVE (R296): A batch credit return restores credits for classes and levels. -/
  | creditReturnReceive (l : LinkIx) (slots : List Nat)
  /-- LANE_CHANGE (R293): A lane change names a new active mask, and both sides switch at the flit named. -/
  | laneChange (l : LinkIx) (mask : Word) (firstSeq : BitVec 12)
  /-- LINK_DOWN_NOTICE (R286): A peer's link-down notice takes the link down. -/
  | linkDownNotice (l : LinkIx)
  /-- REPLAY_TIMEOUT (R290): No acknowledgement progresses for 2 µs and the transmitter resends. -/
  | replayTimeout (l : LinkIx) (t : Nat)
  /-- LINK_IDLE_TIMEOUT (R286): No valid flit arrives for 1 µs and the link goes down. -/
  | linkIdleTimeout (l : LinkIx) (t : Nat)
  /-- RETRAIN_TIMER (R286): The retry interval expires and a fast or full training is attempted. -/
  | retrainTimer (l : LinkIx) (t : Nat)
  /-- DARK_RETRY (R286): Every 100 ms a DARK link retries laser measurement. -/
  | darkRetry (l : LinkIx) (laser : BitVec 8) (t : Nat)
  /-- LINK_TRAINING (R284): A full or fast training runs T1 to T8 and ends UP, DARK or failed. -/
  | linkTraining (l : LinkIx) (r : TrainingResult) (t : Nat)
  /-- LASER_LOSS (R292): Laser input falls below its minimum, so the wavelength is shed on all lanes or the link goes DARK. -/
  | laserLoss (l : LinkIx) (lam : Fin 8)
  /-- RING_TRACK_TICK (R281): Each ring's tracking loop dithers its heater and moves it toward lock every 10 µs. -/
  | ringTrackTick (l : LinkIx) (ring : Fin 64) (heaterUw : Int)
  /-- RING_HOP_COMPLETE (R282): A ring hop ends and its wavelength is restored. -/
  | ringHopComplete (l : LinkIx) (ring : Fin 64) (locked : Bool)
  /-- SHED_CHECK (R292): Over each 1 ms a receiver sheds a wavelength whose corrected bytes or power fail the thresholds. -/
  | shedCheck (l : LinkIx) (corrected : List (Fin 32 × Nat)) (carried : Nat) (weak : Word) (t : Nat)
  /-- WAVELENGTH_RESTORE (R292): After 5 ms of clean PRBS a shed wavelength is restored. -/
  | wavelengthRestore (l : LinkIx) (i : Fin 32) (errors : Nat) (bytes : Nat) (t : Nat)
  /-- POWER_SHED_TICK (R294): The power-shed loop sheds or restores one wavelength according to payload use. -/
  | powerShedTick (l : LinkIx) (usePercent : Nat)
  /-- CREDIT_STALL_TIMEOUT (R299): A credit counter stays at zero for the stall limit, so waiting units are discarded and answered. -/
  | creditStallTimeout (l : LinkIx) (cls : Fin 4) (level : Fin 4) (t : Nat)
  /-- LINK_KEY_EXHAUSTED (R304): The flit counter of an encrypted link reaches 2^48 and the link goes down. -/
  | linkKeyExhausted (l : LinkIx)
  /-- QUARANTINE_HOLD_EXPIRY (R308): The quarantine hold expires and the link is released. -/
  | quarantineHoldExpiry (l : LinkIx) (t : Nat)
  /-- SLOT_SEND (R297): An output link with credit fills a slot from waiting units by class, level and rotation. -/
  | slotSend (l : LinkIx)
  /-- DATA_SEGMENT_RECEIVE (R320): A data segment is matched to its command and reservation and lands. -/
  | dataSegmentReceive (l : LinkIx) (src : BitVec 20) (tag : Half) (position : Nat) (data : List Byte) (t : Nat)
  /-- RX_GRANT (R318): The module grants a range of request data once the command's own conditions and landing space allow. -/
  | rxGrant (seq : Nat)
  /-- GRANT_DATA_TIMEOUT (R319): 100 ms pass after a grant with no byte arriving, and the command ends with ST_PROTOCOL_VIOLATION. -/
  | grantDataTimeout (seq : Nat) (t : Nat)
  /-- STRAY_REPLY_RECEIVE (R321): A status reply or RX_GRANT naming no module request is discarded and counted. -/
  | strayReplyReceive (l : LinkIx) (tag : Half)
  /-- PACKAGE_LINK_FAIL (R20): A package link fails training or passes its error threshold, so it is marked down and alternate routes are installed. -/
  | packageLinkFail (n : Fin 22)
  /-- LNK_QUERY (R306): Status records of the links in a mask are returned. -/
  | lnkQuery (c : Capsule)
  /-- LNK_COUNTERS (R307): Link counter records are read, optionally cleared. -/
  | lnkCounters (c : Capsule)
  /-- LNK_SET_POLICY (R305): Link width, shedding, quarantine and credit-stall policy values are set. -/
  | lnkSetPolicy (c : Capsule)
  /-- LNK_SET_ROUTE (R301): Route table entries are written on both light dies. -/
  | lnkSetRoute (c : Capsule)
  /-- LNK_SET_KEY (R304): Link keys and salts are installed and take effect through a fast training. -/
  | lnkSetKey (c : Capsule)
  /-- LNK_ENABLE (R305): A link is enabled. -/
  | lnkEnable (c : Capsule)
  /-- LNK_DISABLE (R305): A link is disabled and sends nothing. -/
  | lnkDisable (c : Capsule)
  /-- LNK_FAST_TRAINING (R305): A fast training of a link is ordered. -/
  | lnkFastTraining (c : Capsule)
  /-- LNK_FULL_TRAINING (R305): A full training of a link is ordered. -/
  | lnkFullTraining (c : Capsule)
  /-- LNK_RELEASE_QUARANTINE (R308): A link's quarantine is released and its violation count restarts. -/
  | lnkReleaseQuarantine (c : Capsule)
  /-- GRP_LOOKUP (R330): The directory entry holding an object's offset is returned. -/
  | grpLookup (c : Capsule)
  /-- GRP_SET (R330): Up to 4,096 directory changes are applied at once and persisted. -/
  | grpSet (c : Capsule)
  /-- GRP_DUMP (R330): A range of directory entries is returned. -/
  | grpDump (c : Capsule)
  /-- GRP_QUERY (R330): The group id, role, manager, member count and generation are returned. -/
  | grpQuery (c : Capsule)
  /-- MGT_IDENTIFY (R463): The identity row, node id and bundle versions are returned. -/
  | mgtIdentify (c : Capsule)
  /-- MGT_LOG_READ (R463): Lasting log entries are returned from a sequence number. -/
  | mgtLogRead (c : Capsule)
  /-- LOG_BATCH_WRITE (R463): Buffered log copies are written to the lasting log when 16 wait or 1 s has passed. -/
  | logBatchWrite (t : Nat)
  /-- FW_STAGE (R442): Request data is written into the firmware staging area. -/
  | fwStage (c : Capsule)
  /-- FW_COMMIT (R443): The staged bundle is checked, programmed, verified and committed. -/
  | fwCommit (c : Capsule)
  /-- FW_ABORT (R442): The staging area is discarded. -/
  | fwAbort (c : Capsule)
  /-- FW_QUERY (R441): Running, committed and staged bundle versions and the commit step are reported. -/
  | fwQuery (c : Capsule)
  /-- CFG_READ (R462): A configuration image or the running item values are returned. -/
  | cfgRead (c : Capsule)
  /-- CFG_WRITE (R462): The base image or one overlay image is replaced in its older slot. -/
  | cfgWrite (c : Capsule)
  /-- CFG_SELECT (R462): The active overlay mask is set. -/
  | cfgSelect (c : Capsule)
  /-- CFG_SET_ACCESS (R453): The access table is replaced. -/
  | cfgSetAccess (c : Capsule)
  /-- SEC_OTP_WRITE (R436): A field of the one-time-programmable identity row is written. -/
  | secOtpWrite (c : Capsule)
  /-- ERR_QUERY (R377): A die's error counters, remap tables, retired parts and self-test record are returned. -/
  | errQuery (c : Capsule)
  /-- ERR_INJECT (R377): One ECC test port operation is performed on any die. -/
  | errInject (c : Capsule)
  /-- ERR_SET_POLICY (R382): The scan rotation periods and residue limit are set. -/
  | errSetPolicy (c : Capsule)
  /-- ERR_REINSTATE (R377): A retired unit that passes its tests is returned to service. -/
  | errReinstate (c : Capsule) (passes : Bool)
  /-- ERR_SCAN (R377): A structural scan is run now on a named unit. -/
  | errScan (c : Capsule) (passes : Bool) (pattern : Nat)
  /-- STRUCTURAL_SCAN (R381): A scheduled structural scan of an out-of-service cluster or engine completes, and the unit is retired on failure. -/
  | structuralScan (u : HwUnit) (passes : Bool) (pattern : Nat)
  /-- WORD_REMAPPED (R370): Firmware installs a remap entry for a repeatedly failing word. -/
  | wordRemapped (d : AllDieIx) (sram : Nat) (addr : Nat) (u : HwUnit)
  /-- FRAME_RETIRE (R372): An HBM frame with repeated errors is copied to a free frame and retired. -/
  | frameRetire (d : DieIx) (p : PartIx) (page : Nat)
  /-- ECC_READ_RAW (R374): The test port returns a word's data and check bits as stored. -/
  | eccReadRaw (d : AllDieIx) (r : EccReq)
  /-- ECC_WRITE_SPLIT (R375): The test port stores given data and check bits and lists the word. -/
  | eccWriteSplit (d : AllDieIx) (r : EccReq)
  /-- ECC_WRITE (R374): The test port stores data with computed check bits. -/
  | eccWrite (d : AllDieIx) (r : EccReq)
  /-- ECC_READ (R374): The test port reads a word through the checker and reports result and syndrome. -/
  | eccRead (d : AllDieIx) (r : EccReq)
  /-- WATCHDOG (R389): A unit's watchdog finds no progress for its limit and starts the stated reset. -/
  | watchdog (u : HwUnit) (ns : Nat) (t : Nat)
  /-- ENGINE_RESET (R391): An engine is closed, its generation advanced, suspects recorded and in-flight work abandoned. -/
  | engineReset (u : HwUnit) (t : Nat)
  /-- ENGINE_REOPEN (R391): The die manager finishes resetting an engine, which reopens. -/
  | engineReopen (u : HwUnit) (t : Nat)
  /-- SUSPECT_REPLAY (R395): A suspect is replayed alone and released, or held if it reproduces the fault. -/
  | suspectReplay (u : HwUnit) (reproduced : Bool)
  /-- ESCALATION_TIMER (R401): A reset passes its deadline and the always-on timer starts the next level. -/
  | escalationTimer (r : ResetTarget) (t : Nat)
  /-- PARTITION_RESET (R398): Bind-off fences a partition, and its admitted commands get 10 ms to complete. -/
  | partitionReset (p : PartIx) (t : Nat)
  /-- BIND_OFF_DRAIN_EXPIRY (R398): At 10 ms remaining commands are aborted, then the partition is dumped, reset and unfenced. -/
  | bindOffDrainExpiry (p : PartIx) (unreadable : List HwUnit) (t : Nat)
  /-- MODULE_RESET (R399): Every partition is fenced and links go down, and the module dumps, flushes staging and restarts cast-on. -/
  | moduleReset (unreadable : List HwUnit) (t : Nat)
  /-- CONTEXT_RELEASE_TIMEOUT (R397): An engine has not released a reset context's work within 10 ms and is engine-reset. -/
  | contextReleaseTimeout (ctx : Byte) (u : HwUnit) (t : Nat)
  /-- PWR_CYCLE_IGNORED (R400): 48 V has not been removed 10 s after the request, so the data domains stay fenced. -/
  | pwrCycleIgnored (t : Nat)
  /-- RCV_RESET_CONTEXT (R397): A context reset is ordered. -/
  | rcvResetContext (c : Capsule)
  /-- RCV_RESET_ENGINE (R391): An engine reset is ordered. -/
  | rcvResetEngine (c : Capsule)
  /-- RCV_RESET_PARTITION (R398): A partition reset is ordered. -/
  | rcvResetPartition (c : Capsule)
  /-- RCV_RESET_MODULE (R399): A module reset is ordered. -/
  | rcvResetModule (c : Capsule)
  /-- RCV_QUERY (R406): Resets in progress, suspects, held contexts and engine generations are reported. -/
  | rcvQuery (c : Capsule)
  /-- RCV_RELEASE (R406): A held context whose command has ended is returned to EMPTY. -/
  | rcvRelease (c : Capsule)
  /-- RCV_DUMP (R403): A dump of the named units is taken. -/
  | rcvDump (c : Capsule) (unreadable : List HwUnit)
  /-- RCV_DUMP_READ (R406): A summary record, a dump or the dump region is read. -/
  | rcvDumpRead (c : Capsule)
  /-- AUX_POWER_UP (R409): 3.3 V has been in range for 10 ms, so module time starts and the management island runs. -/
  | auxPowerUp
  /-- AUX_POWER_LOSS (R409): 3.3 V is lost with 48 V present, so staging is flushed and the module switches off. -/
  | auxPowerLoss
  /-- MAIN_POWER_FAIL (R261): 48 V falls below 36 V for 2 µs, and staging is flushed to the flush blocks. -/
  | mainPowerFail (millivolt : Nat) (heldNs : Nat)
  /-- MAIN_POWER_RETURN (R410): 48 V returns with 3.3 V kept, and cast-on runs from step 2. -/
  | mainPowerReturn (millivolt : Nat) (t : Nat)
  /-- SUPPLY_OVERVOLTAGE (R410): 48 V stays above 66 V for 10 µs, the converter opens and this is handled as a loss. -/
  | supplyOvervoltage (millivolt : Nat) (heldNs : Nat)
  /-- SUPPLY_LOW (R410): 48 V lies between 36 V and 40 V, so degraded is set and the condition is logged. -/
  | supplyLow (millivolt : Nat) (t : Nat)
  /-- SUPPLY_HIGH (R410): 48 V lies between 60 V and 66 V, and the condition is logged. -/
  | supplyHigh (millivolt : Nat) (t : Nat)
  /-- CAST_ON (R411): Cast-on starts when its supply and clock conditions hold, and runs its steps in order. -/
  | castOn (t : Nat)
  /-- CAST_ON_STEP_END (R411): A cast-on step ends, and the next step starts or ready is set. -/
  | castOnStepEnd (found : List StepResult) (t : Nat)
  /-- REFCLK_LOST (R420): The clock monitor declares REFCLK failed, so it switches to the oscillator, fences data domains and flushes staging. -/
  | refclkLost (quietNs : Nat) (offPpm : Nat)
  /-- REFCLK_RESTORED (R422): REFCLK has been stable for 100 ms in safe mode, and the module resets to leave safe mode. -/
  | refclkRestored (stableNs : Nat)
  /-- REFCLK_LOCK (R409): REFCLK is stable for 10 ms and the PLL locks, so the management domain switches off the oscillator. -/
  | refclkLock (stableNs : Nat)
  /-- GATE_TIMER (R423): An idle compute die passes its gate timer and enters GATE. -/
  | gateTimer (d : DieIx) (t : Nat)
  /-- RETAIN_TIMER (R423): A gated die passes its retain timer and enters RETAIN. -/
  | retainTimer (d : DieIx) (t : Nat)
  /-- DIE_WAKE (R424): A task, interrupt or command makes a die leave GATE or RETAIN. -/
  | dieWake (d : DieIx) (t : Nat)
  /-- DIE_WAKE_COMPLETE (R424): A die finishes its exit, and held grants, segments and replies are released. -/
  | dieWakeComplete (d : DieIx) (t : Nat)
  /-- CAP_LOOP_TICK (R427): Every 10 µs the cap loop lowers or raises one die's rate step against the caps. -/
  | capLoopTick (inputMw : Nat) (partMw : List Nat) (t : Nat)
  /-- THERMAL_LOOP_TICK (R429): Every 100 µs a die above its thermal target lowers its rate step by one. -/
  | thermalLoopTick (d : DieIx) (milliC : Int) (t : Nat)
  /-- THERMAL_LIMIT (R429): A sensor reaches its hardware limit and the unit's stated throttling applies. -/
  | thermalLimit (x : Sensor) (milliC : Int)
  /-- THERMAL_TRIP (R429): A sensor reaches its trip, and the module flushes and shuts down without restarting. -/
  | thermalTrip (x : Sensor) (milliC : Int)
  /-- COOLANT_HOT (R432): The coolant inlet is above 40 °C and the module cap is lowered. -/
  | coolantHot (inletMilliC : Int)
  /-- COOLANT_FLOW_LOW (R432): Estimated flow stays low for 1 s above 600 W and the cap is lowered to 1,600 W. -/
  | coolantFlowLow (mlPerMin : Nat) (inputMw : Nat) (heldNs : Nat)
  /-- PWR_QUERY (R430): Per-die and module power, thermal and coolant figures are reported. -/
  | pwrQuery (c : Capsule)
  /-- PWR_SET_POLICY (R427): Caps, rate windows, thermal target, timers and spread are set. -/
  | pwrSetPolicy (c : Capsule)
  /-- PWR_SET_DIE_STATE (R430): A compute die is forced to RUN, GATE or RETAIN. -/
  | pwrSetDieState (c : Capsule)
  /-- PWR_SET_STATE_OFF (R425): A clean shutdown drains partitions, destages data and powers the dies off. -/
  | pwrSetStateOff (c : Capsule)
  /-- PWR_SET_STATE_ON (R425): The module leaves OFF and cast-on runs from step 2. -/
  | pwrSetStateOn (c : Capsule)
  /-- SHUTDOWN_DRAIN_TIMEOUT (R425): D2 of a clean shutdown has not ended after 60 s, so the power-loss flush is used instead. -/
  | shutdownDrainTimeout (t : Nat)
  /-- DIE_BLOCK_EN_WRITE (R419): The die manager enables or disables blocks of its die. -/
  | dieBlockEnWrite (d : AllDieIx) (chan : Bool) (v : Dword)
  /-- CTLQ_SQ_TAIL (R346): A submission doorbell write sets the tail, or stops the queue if it is out of range. -/
  | ctlqSqTail (n : QueueIx) (v : Word)
  /-- CTLQ_CQ_HEAD (R350): A completion doorbell write marks entries consumed and frees room. -/
  | ctlqCqHead (n : QueueIx) (v : Word)
  /-- CTLQ_ENABLE (R345): Writing enable 1 resets the indices and phase and starts serving the queue. -/
  | ctlqEnable (n : QueueIx) (v : Word)
  /-- CTLQ_DISABLE (R345): Writing enable 0 stops the taking of entries and drains the queue. -/
  | ctlqDisable (n : QueueIx) (v : Word)
  /-- SQ_ENTRY_TAKE (R348): The module takes one submission entry when room allows and decides it by the packet checks. -/
  | sqEntryTake (n : QueueIx) (packet : List Byte)
  /-- SQ_FETCH_FAIL (R353): A submission fetch or completion write fails and the queue stops. -/
  | sqFetchFail (n : QueueIx) (write : Bool)
  /-- REQUEST_DATA_READ (R349): An admitted command's request data read from host memory completes, or fails with an error. -/
  | requestDataRead (seq : Nat) (data : Option (List Byte)) (t : Nat)
  /-- COMPLETION_WRITE (R356): A command places its answer in its slot, writes its completion entry and signals. -/
  | completionWrite (n : QueueIx) (t : Nat)
  /-- CQ_EVENT_WRITE (R352): A shard event entry is written if room remains, or dropped and flagged. -/
  | cqEventWrite (n : QueueIx)
  /-- CQ_AGG_TIMER (R351): The aggregation time passes after the first unsignalled entry and the vector is signalled. -/
  | cqAggTimer (n : QueueIx) (t : Nat)
  /-- RSLT_RELEASE (R358): A DONE slot is made FREE, or a bad release is flagged. -/
  | rsltRelease (v : Word)
  /-- EVT_FORCE (R340): A write sets event flags as the hardware would and signals their vectors. -/
  | evtForce (v : Word)
  /-- EVT_ENABLE_WRITE (R343): Enabling an event with its flag set signals its vector. -/
  | evtEnableWrite (v : Word)
  /-- MOD_TIME_LOW_READ (R338): A 4-byte read of the low half of MOD_TIME latches the high half. -/
  | modTimeLowRead
  /-- MOD_EPOCH_OFFSET_WRITE (R339): A write of the epoch offset is stored and logged with the old and new values. -/
  | modEpochOffsetWrite (v : Dword)
  /-- MBX_HOST_WRITE (R360): The host sends a mailbox word, which is stored or counted as an overrun. -/
  | mbxHostWrite (n : MbxIx) (v : Word)
  /-- MBX_MODULE_WRITE (R360): A bound core sends a word to a module-to-host channel. -/
  | mbxModuleWrite (n : MbxIx) (v : Word)
  /-- MBX_TAKE (R360): The receiving side takes a mailbox word and clears full. -/
  | mbxTake (n : MbxIx)
  /-- MBX_CLR_OVERRUNS (R359): A write of clr_overruns zeroes the overrun count. -/
  | mbxClrOverruns (n : MbxIx)
  /-- FUNCTION_RESET (R364): FLR, hot reset, PERST# or PCIe link-down resets queues, slots and function registers. -/
  | functionReset (k : FunctionResetKind)
  /-- REGISTER_WRITE (R5): A write to a register with no behaviour of its own stores, sets or clears its fields as its access type states. -/
  | registerWrite (sp : RegSpace) (off : Nat) (eight : Bool) (v : Dword)
  /-- SECTOR_PROGRAM (R456): A configuration flash sector is programmed. -/
  | sectorProgram (writes : List (BitVec 28 × Byte))
  /-- BLOCK_ERASE (R456): A configuration flash block is erased. -/
  | blockErase (writes : List (BitVec 28 × Byte))
  /-- CFL_ERASE_SUSPEND (R456): A configuration flash erase is suspended. -/
  | cflEraseSuspend (addr : BitVec 28)
  /-- CFL_ERASE_RESUME (R456): A suspended configuration flash erase resumes. -/
  | cflEraseResume (addr : BitVec 28)
  /-- OTP_ENTER (R456): The identity row is shown in the window. -/
  | otpEnter (security : Bool) (writes : List (BitVec 28 × Byte))
  /-- OTP_EXIT (R456): The window returns from the identity row. -/
  | otpExit (security : Bool) (writes : List (BitVec 28 × Byte))
  /-- CFL_RESET (R456): A command sequence in progress is abandoned. -/
  | cflReset (addr : BitVec 28)
  /-- CFL_OPERATION_COMPLETE (R456): A configuration flash program or erase ends, or fails its verify. -/
  | cflOperationComplete (ok : Bool)
  /-- CFL_FETCH_DURING_ERASE (R457): A management core fetch suspends an active erase, which resumes after 100 µs without fetches. -/
  | cflFetchDuringErase (addr : BitVec 28) (t : Nat)
  /-- GET_VERSION (R447): SPDM version negotiation. -/
  | getVersion (eid : Byte)
  /-- GET_CAPABILITIES (R447): SPDM capabilities exchange. -/
  | getCapabilities (eid : Byte)
  /-- NEGOTIATE_ALGORITHMS (R447): SPDM algorithm negotiation with ML-DSA-65 and SHAKE256. -/
  | negotiateAlgorithms (eid : Byte) (mlDsa65 : Bool) (shake256 : Bool) (mlKem768 : Bool)
  /-- GET_DIGESTS (R447): SPDM certificate digests are returned. -/
  | getDigests (eid : Byte)
  /-- GET_CERTIFICATE (R447): The certificate chain of slot 0 is returned. -/
  | getCertificate (eid : Byte) (slot : BitVec 4) (offset : Half) (length : Half)
  /-- CHALLENGE (R447): An SPDM challenge is answered and logged as ATTESTED. -/
  | challenge (eid : Byte) (slot : BitVec 4) (nonce : List Byte)
  /-- GET_MEASUREMENTS (R448): Signed measurement blocks are returned. -/
  | getMeasurements (eid : Byte) (index : Byte) (nonce : List Byte)
  /-- KEY_EXCHANGE (R449): A secure session is opened with ML-KEM-768 and requester authentication. -/
  | keyExchange (eid : Byte) (key : Option (List Byte)) (proof : List Byte)
  /-- PLDM_SENSOR_READ (R466): A PLDM monitoring sensor is read. -/
  | pldmSensorRead (eid : Byte) (x : PldmSensor)
  /-- PLDM_FIRMWARE_UPDATE (R466): A PLDM firmware update pulls the bundle into staging or flash and applies it. -/
  | pldmFirmwareUpdate (eid : Byte) (image : List Byte)
  /-- MSIX_UNMASK (R343): A host write clears an MSI-X mask while the vector's pending bit is set, and the single pending message is sent. -/
  | msixUnmask (vec : BitVec 6)
  /-- PCIE_LINK_UP (R336): The PCIe link trains up, BAR0 begins to answer and MCTP over PCIe becomes available. -/
  | pcieLinkUp
  /-- D3HOT_TRANSITION (R364): The host moves the function into or out of D3hot, which stops or resumes taking entries, writing completions and sending MSI-X messages. -/
  | d3hotTransition (into : Bool)
  /-- ACK_INTERVAL_EXPIRY (R290): 50 ns pass since the last acknowledgement, so the receiver acknowledges its received PAYLOAD flits. -/
  | ackIntervalExpiry (l : LinkIx) (t : Nat)
  /-- SHED_HOLD_EXPIRY (R292): The 60 s hold on a wavelength shed four times within 60 s expires, and its PRBS trial may start. -/
  | shedHoldExpiry (l : LinkIx) (i : Fin 32) (t : Nat)
  /-- COOLANT_FLOW_RESTORED (R432): Estimated flow has been above 4.0 L/min for 10 s, so the 1,600 W cap imposed for low flow is lifted. -/
  | coolantFlowRestored (mlPerMin : Nat) (heldNs : Nat)
  /-- COOLANT_INLET_SHUTDOWN (R432): The coolant inlet stays above 45 °C for 1 s, and the module performs a thermal shutdown. -/
  | coolantInletShutdown (inletMilliC : Int) (heldNs : Nat)
  /-- ENERGY_CHARGE_TICK (R186): Every 1 ms the per-unit energy counters are read and the energy is charged to contexts or to module_unattributed_mj. -/
  | energyChargeTick (unitUj : List (Nat × Nat)) (t : Nat)
  /-- SCAN_PERIOD_EXPIRY (R382): A swatch cluster or idle-die scan period expires, and the unit is taken out of rotation for a structural scan, leaving the die without mirroring meanwhile. -/
  | scanPeriodExpiry (u : HwUnit) (t : Nat)
  /-- SET_ENDPOINT_ID (R465): The bus owner's MCTP control message assigns the module's EID, which then identifies its MCTP origin. -/
  | setEndpointId (eid : Byte) (i3c : Bool)
  /-- SETDASA (R474): The tray controller's SETDASA turns the static I3C address from the SLOT_ID pins into a dynamic address. -/
  | setdasa (static : BitVec 7) (dynamic : BitVec 7)
deriving DecidableEq, Repr

end Sys2Proof
end

