-- ==== Sys2Proof/Decode.lean ====
section
/-! DEFINITION. The table of operations and events gives no row any bits, so no word spells a command.
The units, packets, rows and descriptors that carry bits are decoded where they are received (Machine/Fabric.lean,
Machine/Operands.lean). -/

namespace Sys2Proof

/-- The command a table word spells: none, since the rows of the table carry no bits. -/
def decodeTableWord (_nbits _w : Nat) : Option Instr := none

end Sys2Proof
end

