-- ==== Sys2Proof/Config.lean ====
section
/-! DEFINITION. What the manual leaves open, as constants without a body (free values), and the functions of outside
standards that the manual only names.  Nothing in the model evaluates them, and no statement rests on their values. -/

namespace Sys2Proof.Config

/-! ## Free values (R139, R64, R95) -/

/-- A scratchpad byte left undefined by a command start: command start number and key (R139). -/
opaque freeByte : Nat → Nat → Byte
/-- A lane of a vector register left undefined by a command start: command start number, key and lane (R139). -/
opaque freeLane : Nat → Nat → Nat → Word
/-- A number the manual leaves open; applied to the counter `State.free`. -/
opaque freeNat : Nat → Nat

/-! ## Signatures and key agreement (R434 to R451) -/

/-- ML-DSA verification: public key digest or key, message, signature. -/
opaque mlDsaVerify : List Byte → List Byte → List Byte → Bool
/-- ML-DSA-65 signature of the attestation key over a message; the number tells signatures apart. -/
opaque mlDsaSign : List Byte → Nat → List Byte
/-- The SHAKE256 digest of root public key i in the boot ROM (R434). -/
opaque rootDigest : Nat → List Byte
/-- The contents of the boot ROM as measured (R448). -/
opaque romImage : List Byte
/-- The DER certificate chain of slot 0, built from the identity row (R446). -/
opaque certChain : List Byte → List Byte
/-- The requester's authentication of a key exchange is genuine: key digest, transcript (R449). -/
opaque requesterGenuine : List Byte → List Byte → Bool

/-! ## Links and memory codes (R287, R304, R365) -/

/-- The check bits a protected word of data gets; the first argument is the number of data bits. -/
opaque checkBits : Nat → List Dword → Dword
/-- The FEC parity of the first 244 bytes of a flit (R287). -/
opaque fecParity : List Byte → List Byte
/-- AES-256-GCM of a flit's slots: key, salt, flit counter, additional data, slots 0–5; ciphertext and tag (R304). -/
opaque gcmSeal : List Byte → Word → Nat → List Byte → List Byte → List Byte
/-- The plain slots 0–5 of an encrypted flit: key, salt, flit counter, ciphertext (R304). -/
opaque gcmOpen : List Byte → Word → Nat → List Byte → List Byte

/-! ## Choices of an implementation -/

/-- The fixed table of alternate package routes of R20: the dies crossed when a package link is down. -/
opaque pkgAlternate : Nat → Option (List Nat)
/-- The parity group a plat unit is placed on, out of those with room (R254): unit count so far. -/
opaque placeGroup : Nat → Nat
/-- The state that the debug path reads of a unit: dump sequence and unit key (R403, R404). -/
opaque unitState : Nat → Nat → List Byte
/-- The output a fault injected or a die's self-test record holds (R378). -/
opaque selfTestRecord : Nat → List Byte

end Sys2Proof.Config
end

