-- ==== Sys2Proof/Machine/Table.lean ====
section
/-! DEFINITION. Sparse tables in one canonical form (keys strictly rising), used for every memory, register
bank and record table of the model.  A table may be read with a default, which an unlisted key reads as; `put`
keeps no entry equal to that default, so that equal memories are equal data. -/

namespace Sys2Proof.Machine

/-- A table: pairs of key and value, keys strictly rising. -/
abbrev Tbl (α : Type) := List (Nat × α)

/-- A byte memory: a table of bytes. -/
abbrev Mem := Tbl Byte

/-- The value listed under a key. -/
def Tbl.get? {α : Type} : Tbl α → Nat → Option α
  | [], _ => none
  | (k', v) :: t, k => if k = k' then some v else Tbl.get? t k

/-- The value listed under a key, or the default. -/
def Tbl.getD {α : Type} (t : Tbl α) (k : Nat) (d : α) : α := (Tbl.get? t k).getD d

/-- The table with one key set. -/
def Tbl.set {α : Type} (k : Nat) (v : α) : Tbl α → Tbl α
  | [] => [(k, v)]
  | (k', v') :: t =>
    if k < k' then (k, v) :: (k', v') :: t
    else if k = k' then (k, v) :: t
    else (k', v') :: Tbl.set k v t

/-- The table without one key. -/
def Tbl.erase {α : Type} (k : Nat) : Tbl α → Tbl α
  | [] => []
  | (k', v') :: t => if k = k' then Tbl.erase k t else (k', v') :: Tbl.erase k t

/-- The bank with one key set; setting the default value removes the entry. -/
def Tbl.put {α : Type} [DecidableEq α] (d : α) (k : Nat) (v : α) (t : Tbl α) : Tbl α :=
  if v = d then Tbl.erase k t else Tbl.set k v t

/-- Whether a key is listed. -/
def Tbl.has {α : Type} (t : Tbl α) (k : Nat) : Bool := (Tbl.get? t k).isSome

/-- The table with a listed entry changed by a function; an unlisted key changes nothing. -/
def Tbl.modify {α : Type} (k : Nat) (f : α → α) : Tbl α → Tbl α
  | [] => []
  | (k', v') :: t => if k = k' then (k', f v') :: Tbl.modify k f t else (k', v') :: Tbl.modify k f t

/-- Every listed value changed by a function of key and value. -/
def Tbl.mapVals {α β : Type} (f : Nat → α → β) : Tbl α → Tbl β
  | [] => []
  | (k, v) :: t => (k, f k v) :: Tbl.mapVals f t

/-- The listed entries that a test keeps. -/
def Tbl.keep {α : Type} (f : Nat → α → Bool) : Tbl α → Tbl α
  | [] => []
  | (k, v) :: t => if f k v then (k, v) :: Tbl.keep f t else Tbl.keep f t

/-- The first listed entry that a test accepts. -/
def Tbl.find? {α : Type} (f : Nat → α → Bool) : Tbl α → Option (Nat × α)
  | [] => none
  | (k, v) :: t => if f k v then some (k, v) else Tbl.find? f t

/-- The number of listed entries that a test accepts. -/
def Tbl.count {α : Type} (f : Nat → α → Bool) : Tbl α → Nat
  | [] => 0
  | (k, v) :: t => (if f k v then 1 else 0) + Tbl.count f t

/-- Keys above a bound, strictly rising. -/
def Tbl.risingFrom {α : Type} (lo : Nat) : Tbl α → Bool
  | [] => true
  | (k, _) :: t => decide (lo ≤ k) && Tbl.risingFrom (k + 1) t

/-- The canonical form of a table: keys strictly rising. -/
def Tbl.wf {α : Type} (t : Tbl α) : Bool := Tbl.risingFrom 0 t

/-- The canonical form of a bank: strictly rising keys, and no entry equal to the default. -/
def Tbl.bankWf {α : Type} [DecidableEq α] (d : α) (t : Tbl α) : Bool :=
  Tbl.wf t && t.all fun e => decide (e.2 ≠ d)

/-- The canonical form of a zero-default memory. -/
def Mem.wf (m : Mem) : Bool := Tbl.bankWf (0 : Byte) m

/-- One byte of a memory whose unlisted bytes read as zero. -/
def Mem.read (m : Mem) (a : Nat) : Byte := Tbl.getD m a 0

/-- Write one byte of a memory whose unlisted bytes read as zero. -/
def Mem.write (a : Nat) (v : Byte) (m : Mem) : Mem := Tbl.put (0 : Byte) a v m

/-- `n` bytes of a memory from an address. -/
def Mem.readBytes (m : Mem) (a : Nat) : Nat → List Byte
  | 0 => []
  | n + 1 => Mem.read m a :: Mem.readBytes m (a + 1) n

/-- Write a run of bytes. -/
def Mem.writeBytes (a : Nat) : List Byte → Mem → Mem
  | [], m => m
  | b :: bs, m => Mem.writeBytes (a + 1) bs (Mem.write a b m)

/-- A range of a memory set to zero: every entry inside it removed. -/
def Mem.zeroRange (a n : Nat) (m : Mem) : Mem := Tbl.keep (fun k _ => decide (k < a ∨ a + n ≤ k)) m

/-- The little-endian value of a run of bytes (R4). -/
def leNat : List Byte → Nat
  | [] => 0
  | b :: bs => b.toNat + 256 * leNat bs

/-- `n` little-endian bytes of a value (R4). -/
def leBytes : Nat → Nat → List Byte
  | 0, _ => []
  | n + 1, v => BitVec.ofNat 8 (v % 256) :: leBytes n (v / 256)

/-- The bits [lo + w − 1 : lo] of a number (R4). -/
def bits (v lo w : Nat) : Nat := (v >>> lo) % 2 ^ w

/-- Bit `i` of a number. -/
def bit (v i : Nat) : Bool := v.testBit i

/-- `n` bytes of a list from a position, with zeros where the list ends. -/
def sliceBytes (bs : List Byte) (pos n : Nat) : List Byte :=
  let s := (bs.drop pos).take n
  s ++ List.replicate (n - s.length) 0

/-- The little-endian field of `n` bytes at a position of a list. -/
def fieldAt (bs : List Byte) (pos n : Nat) : Nat := leNat (sliceBytes bs pos n)

/-- Up to the next multiple. -/
def alignUp (n m : Nat) : Nat := ((n + m - 1) / m) * m

/-- Whether two ranges (start, length) overlap. -/
def overlaps (a n b m : Nat) : Bool := decide (0 < n ∧ 0 < m ∧ a < b + m ∧ b < a + n)

end Sys2Proof.Machine
end

