-- ==== Sys2Proof/Machine/Numbers.lean ====
section
/-! DEFINITION. Number formats, rounding and power-of-two scaling (chapter 4): exact values, the rounding of R95
and R98 to R101, FP32 arithmetic, survey and convert, packed records and rescale. -/

namespace Sys2Proof.Machine

/-- A value of the formats of R90 to R92, exact: (−1)^neg × m × 2^e, an infinity or NaN. -/
inductive Num where
  /-- NaN. -/
  | nan
  /-- An infinity of the given sign. -/
  | inf (neg : Bool)
  /-- A finite value, zeros with their sign. -/
  | fin (neg : Bool) (m : Nat) (e : Int)
deriving DecidableEq, Repr

/-- A rounding direction (R95): nearest even everywhere, directed in the bounds of exact search only. -/
inductive Rnd where
  /-- To nearest, ties to even. -/
  | near
  /-- Towards plus infinity. -/
  | up
  /-- Towards minus infinity. -/
  | down
deriving DecidableEq, Repr

/-- Bits of a number: one more than the position of its leading one. -/
def bitLen (m : Nat) : Nat := if m = 0 then 0 else Nat.log2 m + 1

/-- m ÷ 2^s rounded to an integer in the given direction, for a value of the given sign. -/
def roundShift (r : Rnd) (neg : Bool) (m s : Nat) : Nat :=
  let q := m >>> s
  let rest := m % 2 ^ s
  let half := 2 ^ (s - 1)
  let away : Bool :=
    if rest = 0 ∨ s = 0 then false
    else match r with
      | .near => decide (half < rest) || (decide (rest = half) && q.testBit 0)
      | .up => !neg
      | .down => neg
  if away then q + 1 else q

/-- m × 2^e rounded to a multiple of 2^g: the multiple. -/
def roundGrid (r : Rnd) (neg : Bool) (m : Nat) (e g : Int) : Nat :=
  if e < g then roundShift r neg m (g - e).toNat else m <<< (e - g).toNat

/-- A value rounded to an integer multiple of 2^g (R95). -/
def roundInt (neg : Bool) (m : Nat) (e g : Int) : Int :=
  let q : Int := roundGrid .near neg m e g
  if neg then -q else q

/-! ## Floating-point formats -/

/-- What R90 gives a floating-point element format. -/
structure FloatFmt where
  /-- Mantissa bits. -/
  mant : Nat
  /-- Exponent of the smallest subnormal. -/
  sub : Int
  /-- Code of the largest finite value. -/
  top : Nat
  /-- Width of the element. -/
  width : Nat
  /-- Code of infinity, where the format has one. -/
  infCode : Option Nat
  /-- Canonical NaN (R100), where the format has one. -/
  nanCode : Option Nat
deriving DecidableEq, Repr

/-- The floating-point formats by their codes of R41. -/
def floatFmt : Nat → FloatFmt
  | 0 => { mant := 23, sub := -149, top := 0x7F7FFFFF, width := 32, infCode := some 0x7F800000,
           nanCode := some 0x7FC00000 }
  | 1 => { mant := 7, sub := -133, top := 0x7F7F, width := 16, infCode := some 0x7F80, nanCode := some 0x7FC0 }
  | 2 => { mant := 10, sub := -24, top := 0x7BFF, width := 16, infCode := some 0x7C00, nanCode := some 0x7E00 }
  | 3 => { mant := 3, sub := -9, top := 0x7E, width := 8, infCode := none, nanCode := some 0x7F }
  | 4 => { mant := 2, sub := -16, top := 0x7B, width := 8, infCode := some 0x7C, nanCode := some 0x7E }
  | 5 => { mant := 2, sub := -4, top := 0x1F, width := 6, infCode := none, nanCode := none }
  | 6 => { mant := 3, sub := -3, top := 0x1F, width := 6, infCode := none, nanCode := none }
  | _ => { mant := 1, sub := -1, top := 0x7, width := 4, infCode := none, nanCode := none }

/-- The value of an element code (R90). -/
def FloatFmt.decode (f : FloatFmt) (c : Nat) : Num :=
  let neg := c.testBit (f.width - 1)
  let a := c % 2 ^ (f.width - 1)
  if a ≤ f.top then
    let ex := a >>> f.mant
    if ex = 0 then .fin neg a f.sub else .fin neg (a % 2 ^ f.mant + 2 ^ f.mant) (f.sub + (ex : Int) - 1)
  else if f.infCode = some a then .inf neg
  else .nan

/-- The sign bit of a code. -/
def FloatFmt.signed (f : FloatFmt) (neg : Bool) (a : Nat) : Nat := if neg then a + 2 ^ (f.width - 1) else a

/-- The magnitude code of a finite value rounded to the format, before saturation: codes count the values of the
format in order, so a value beyond the largest finite one gets a code above `top`. -/
def FloatFmt.magnitude (f : FloatFmt) (r : Rnd) (neg : Bool) (m : Nat) (e : Int) : Nat :=
  if m = 0 then 0
  else
    let lead : Int := (bitLen m : Int) - 1 + e - f.mant
    let g := if lead < f.sub then f.sub else lead
    (g - f.sub).toNat * 2 ^ f.mant + roundGrid r neg m e g

/-- A value rounded to FP32, BF16 or FP16 under R95, R98 and R100: code, and whether it saturated. -/
def FloatFmt.encode (f : FloatFmt) (r : Rnd) : Num → Nat × Bool
  | .nan => (f.nanCode.getD 0, false)
  | .inf neg => match f.infCode with
    | some c => (f.signed neg c, false)
    | none => (f.signed neg f.top, true)
  | .fin neg m e =>
    let a := f.magnitude r neg m e
    if f.top < a then (f.signed neg f.top, true) else (f.signed neg a, false)

/-! ## Exact arithmetic -/

/-- A signed integer from a sign and a magnitude. -/
def signedInt (neg : Bool) (m : Nat) : Int := if neg then -(m : Int) else m

/-- A finite value from a signed integer and an exponent; `z` is the sign of a zero. -/
def Num.ofInt (z : Bool) (v : Int) (e : Int) : Num := if v = 0 then .fin z 0 0 else .fin (v < 0) v.natAbs e

/-- The value with its sign turned. -/
def Num.neg : Num → Num
  | .nan => .nan
  | .inf n => .inf (!n)
  | .fin n m e => .fin (!n) m e

/-- The exact sum, with the special cases of R98. -/
def Num.add : Num → Num → Num
  | .nan, _ => .nan
  | _, .nan => .nan
  | .inf a, .inf b => if a = b then .inf a else .nan
  | .inf a, .fin .. => .inf a
  | .fin .., .inf b => .inf b
  | .fin n1 m1 e1, .fin n2 m2 e2 =>
    let e := if e1 ≤ e2 then e1 else e2
    let v := signedInt n1 (m1 <<< (e1 - e).toNat) + signedInt n2 (m2 <<< (e2 - e).toNat)
    Num.ofInt (n1 && n2) v e

/-- The exact product, with the special cases of R98. -/
def Num.mul : Num → Num → Num
  | .nan, _ => .nan
  | _, .nan => .nan
  | .inf a, .inf b => .inf (a != b)
  | .inf a, .fin b m _ => if m = 0 then .nan else .inf (a != b)
  | .fin a m _, .inf b => if m = 0 then .nan else .inf (a != b)
  | .fin n1 m1 e1, .fin n2 m2 e2 => .fin (n1 != n2) (m1 * m2) (e1 + e2)

/-- The value times 2^k. -/
def Num.scale (k : Int) : Num → Num
  | .fin n m e => .fin n m (e + k)
  | x => x

/-- The magnitude. -/
def Num.abs : Num → Num
  | .nan => .nan
  | .inf _ => .inf false
  | .fin _ m e => .fin false m e

/-- Whether the value is NaN. -/
def Num.isNan : Num → Bool
  | .nan => true
  | _ => false

/-- Whether the value is an infinity. -/
def Num.isInf : Num → Bool
  | .inf _ => true
  | _ => false

/-- Whether the value is ±0. -/
def Num.isZero : Num → Bool
  | .fin _ m _ => m == 0
  | _ => false

/-- Whether the sign is minus. -/
def Num.isNeg : Num → Bool
  | .nan => false
  | .inf n => n
  | .fin n _ _ => n

/-- a < b, false when either is NaN; zeros of both signs are equal. -/
def Num.lt : Num → Num → Bool
  | .nan, _ => false
  | _, .nan => false
  | .inf a, .inf b => a && !b
  | .inf a, .fin .. => a
  | .fin .., .inf b => !b
  | .fin n1 m1 e1, .fin n2 m2 e2 =>
    let e := if e1 ≤ e2 then e1 else e2
    decide (signedInt n1 (m1 <<< (e1 - e).toNat) < signedInt n2 (m2 <<< (e2 - e).toNat))

/-- a = b as values, false when either is NaN. -/
def Num.eqv (a b : Num) : Bool := !a.isNan && !b.isNan && !Num.lt a b && !Num.lt b a

/-- The larger of two values: NaN if either is NaN, and +0 of two zeros unless both are −0 (R116). -/
def Num.max (a b : Num) : Num :=
  if a.isNan || b.isNan then .nan
  else if a.isZero && b.isZero then (if a.isNeg then b else a)
  else if Num.lt a b then b else a

/-- The smaller of two values: NaN if either is NaN, and −0 of two zeros unless both are +0 (R116). -/
def Num.min (a b : Num) : Num :=
  if a.isNan || b.isNan then .nan
  else if a.isZero && b.isZero then (if a.isNeg then a else b)
  else if Num.lt b a then b else a

/-- The integer square root by bits, `n` bits of root still to find, on top of `r`. -/
def isqrtBits (v : Nat) : Nat → Nat → Nat
  | 0, r => r
  | n + 1, r => let r' := r + 2 ^ n; isqrtBits v n (if r' * r' ≤ v then r' else r)

/-! ## Rounded FP32 arithmetic -/

/-- A 32-bit word and whether forming it saturated (R103). -/
abbrev Sat := Word × Bool

/-- The value of an FP32 word. -/
def f32 (w : Word) : Num := (floatFmt 0).decode w.toNat

/-- A value rounded to FP32 in a given direction. -/
def toF32R (r : Rnd) (x : Num) : Sat := let p := (floatFmt 0).encode r x; (BitVec.ofNat 32 p.1, p.2)

/-- A value rounded to FP32 (R95). -/
def toF32 (x : Num) : Sat := toF32R .near x

/-- The quotient as an exact value or a value with a sticky bit below every rounding point of FP32, with the
special cases of R98; `none` for a finite nonzero value over zero, which gives the largest finite value. -/
def Num.div : Num → Num → Option Num
  | .nan, _ => some .nan
  | _, .nan => some .nan
  | .inf _, .inf _ => some .nan
  | .inf a, .fin b _ _ => some (.inf (a != b))
  | .fin a _ _, .inf b => some (.fin (a != b) 0 0)
  | .fin a m1 e1, .fin b m2 e2 =>
    if m2 = 0 then (if m1 = 0 then some .nan else none)
    else
      let k := 64 + bitLen m2
      let q := (m1 <<< k) / m2
      let st := if (m1 <<< k) % m2 = 0 then 0 else 1
      some (.fin (a != b) (2 * q + st) (e1 - e2 - k - 1))

/-- a ÷ b rounded to FP32 (R98). -/
def f32DivR (r : Rnd) (a b : Num) : Sat :=
  match Num.div a b with
  | some q => toF32R r q
  | none => (BitVec.ofNat 32 ((floatFmt 0).signed (a.isNeg != b.isNeg) (floatFmt 0).top), true)

/-- The square root with a sticky bit below every rounding point of FP32 (R98). -/
def Num.sqrt : Num → Num
  | .nan => .nan
  | .inf true => .nan
  | .inf false => .inf false
  | .fin n m e =>
    if m = 0 then .fin n 0 0
    else if n then .nan
    else
      let odd := e % 2 ≠ 0
      let v := (if odd then 2 * m else m) <<< 64
      let e' := ((if odd then e - 1 else e) - 64) / 2
      let r := isqrtBits v (bitLen v / 2 + 1) 0
      .fin false (2 * r + (if r * r = v then 0 else 1)) (e' - 1)

/-- a + b. -/
def f32Add (a b : Word) : Sat := toF32 (Num.add (f32 a) (f32 b))
/-- a − b. -/
def f32Sub (a b : Word) : Sat := toF32 (Num.add (f32 a) (f32 b).neg)
/-- a × b. -/
def f32Mul (a b : Word) : Sat := toF32 (Num.mul (f32 a) (f32 b))
/-- a × b + c with one rounding. -/
def f32Fma (a b c : Word) : Sat := toF32 (Num.add (Num.mul (f32 a) (f32 b)) (f32 c))
/-- c − a × b with one rounding. -/
def f32Fnma (a b c : Word) : Sat := toF32 (Num.add (f32 c) (Num.mul (f32 a) (f32 b)).neg)
/-- a ÷ b. -/
def f32Div (a b : Word) : Sat := f32DivR .near (f32 a) (f32 b)
/-- √a. -/
def f32Sqrt (a : Word) : Sat := toF32 (Num.sqrt (f32 a))
/-- The larger. -/
def f32Max (a b : Word) : Sat := toF32 (Num.max (f32 a) (f32 b))
/-- The smaller. -/
def f32Min (a b : Word) : Sat := toF32 (Num.min (f32 a) (f32 b))
/-- The magnitude. -/
def f32Abs (a : Word) : Sat := toF32 (Num.abs (f32 a))
/-- −1, ±0 or +1 by the sign, NaN for NaN. -/
def f32Sign (a : Word) : Sat :=
  toF32 (match f32 a with
    | .nan => .nan
    | .inf n => .fin n 1 0
    | .fin n m _ => if m = 0 then .fin n 0 0 else .fin n 1 0)
/-- a × 2^k. -/
def f32Scale (a : Word) (k : Int) : Sat := toF32 ((f32 a).scale k)
/-- 1.0. -/
def f32One : Word := 0x3F800000
/-- The canonical NaN. -/
def f32Nan : Word := 0x7FC00000

/-! ## Packed BF16 (R94) -/

/-- Half `h` of a lane as a value. -/
def bf16Half (w : Word) (h : Nat) : Num := (floatFmt 1).decode (bits w.toNat (16 * h) 16)

/-- A lane of two BF16 values, each rounded once; the number of saturations. -/
def packBf16 (lo hi : Num) : Word × Nat :=
  let a := (floatFmt 1).encode .near lo
  let b := (floatFmt 1).encode .near hi
  (BitVec.ofNat 32 (a.1 + b.1 * 65536), (if a.2 then 1 else 0) + (if b.2 then 1 else 0))

/-! ## Elements of any format -/

/-- Bits per element by format code (R90, R92). -/
def elemBits : Nat → Nat
  | 0 => 32 | 1 => 16 | 2 => 16 | 3 => 8 | 4 => 8 | 5 => 6 | 6 => 6 | 7 => 4 | 8 => 8 | 9 => 8 | 10 => 4 | 11 => 8
  | _ => 32

/-- Whether a format is an MX format. -/
def isMx (fmt : Nat) : Bool := decide (3 ≤ fmt ∧ fmt ≤ 8)

/-- Whether a format carries a scale or shift per block of 32. -/
def isBlock (fmt : Nat) : Bool := isMx fmt || fmt == 11

/-- Bytes that n elements take (R93). -/
def elemBytes (fmt n : Nat) : Nat := (n * elemBits fmt + 7) / 8

/-- Element `i` of packed bytes: its code (R93).  Every width packs little-endian within its bytes. -/
def elemCode (fmt : Nat) (bs : List Byte) (i : Nat) : Nat :=
  let w := elemBits fmt
  bits (fieldAt bs (i * w / 8) 4) (i * w % 8) w

/-- Codes packed into bytes (R93). -/
def packCodes (fmt : Nat) (codes : List Nat) : List Byte :=
  let w := elemBits fmt
  let v := codes.foldr (fun c acc => c % 2 ^ w + 2 ^ w * acc) 0
  leBytes (elemBytes fmt codes.length) v

/-- A two's complement integer of w bits. -/
def signedOf (w v : Nat) : Int := if 2 ^ (w - 1) ≤ v % 2 ^ w then (v % 2 ^ w : Nat) - (2 ^ w : Nat) else (v % 2 ^ w : Nat)

/-- The two's complement code of w bits. -/
def codeOf (w : Nat) (v : Int) : Nat := (v % (2 ^ w : Nat)).toNat

/-- The value of an element code without its block scale (R90, R92). -/
def elemValue (fmt c : Nat) : Num :=
  if fmt ≤ 7 then (floatFmt fmt).decode c
  else Num.ofInt false (signedOf (elemBits fmt) c) (if fmt = 8 then -6 else 0)

/-- The exponent of a block's scale byte: none for a NaN block (R91, R92). -/
def scaleExp (fmt : Nat) (b : Byte) : Option Int :=
  if fmt = 11 then (if b = 0x80 then none else some (signedOf 8 b.toNat))
  else if b = 0xFF then none else some ((b.toNat : Int) - 127)

/-- An element under a block scale, exact (R102). -/
def scaledValue (fmt c : Nat) (s : Option Int) : Num :=
  match s with
  | none => .nan
  | some k => (elemValue fmt c).scale k

/-- An element read into FP32 (R102); FP32 words are read unchanged. -/
def readElem (fmt c : Nat) : Sat := if fmt = 0 then (BitVec.ofNat 32 c, false) else toF32 (elemValue fmt c)

/-- What a conversion counts (R103). -/
structure Conv where
  /-- Elements saturated. -/
  sats : Nat
  /-- NaNs turned to integers. -/
  nans : Nat
deriving DecidableEq, Repr

/-- A value converted to an integer format with largest code `hi` and lowest `lo`, in units of 2^g (R101, R107). -/
def toIntCode (lo hi : Int) (g : Int) : Num → Int × Conv
  | .nan => (0, { sats := 0, nans := 1 })
  | .inf n => (if n then lo else hi, { sats := 1, nans := 0 })
  | .fin n m e =>
    let v := roundInt n m e g
    if hi < v then (hi, { sats := 1, nans := 0 })
    else if v < lo then (lo, { sats := 1, nans := 0 })
    else (v, { sats := 0, nans := 0 })

/-- The range of codes a conversion produces (R92). -/
def intRange (fmt : Nat) : Int × Int :=
  if fmt = 10 then (-7, 7) else if fmt = 12 then (-2147483648, 2147483647) else (-127, 127)

/-- A value converted to a format without block scales (R101, R107): element code and counts. -/
def toElem (fmt : Nat) (x : Num) : Nat × Conv :=
  if fmt ≤ 2 then
    let p := (floatFmt fmt).encode .near x
    (p.1, { sats := if p.2 then 1 else 0, nans := 0 })
  else
    let r := intRange fmt
    let p := toIntCode r.1 r.2 0 x
    (codeOf (elemBits fmt) p.1, p.2)

/-! ## Survey and convert (R104, R105, R118) -/

/-- One step of the survey: the largest magnitude so far, none once a NaN was seen. -/
def surveyStep (m : Option Num) (w : Word) : Option Num :=
  match m with
  | none => none
  | some a =>
    let x := f32 w
    if x.isNan then none
    else
      let b := if x.isInf then (floatFmt 0).decode (floatFmt 0).top else x.abs
      some (if Num.lt a b then b else a)

/-- The code of a block's survey (R104, R118): E, −512 for ZERO, −1,024 for NAN. -/
def survey (block : List Word) : Int :=
  match block.foldl surveyStep (some (.fin false 0 0)) with
  | some (.fin _ m e) => if m = 0 then -512 else (bitLen m : Int) - 1 + e
  | _ => -1024

/-- The offset of R105 by target format. -/
def convertOffset : Nat → Int
  | 3 => 8 | 4 => 15 | 5 => 4 | 6 => 2 | 7 => 2 | 8 => 0 | _ => 6

/-- The block exponent of a survey code (R105, R118): none for a NaN block. -/
def blockExponent (fmt : Nat) (r : Int) : Option Int :=
  if r = -512 then some 0
  else if -149 ≤ r ∧ r ≤ 127 then
    let x := r - convertOffset fmt
    some (if x < -127 then -127 else if 127 < x then 127 else x)
  else none

/-- One element converted on the grid of a block format (R101, R105); `inf5` is the numeric mode bit of R97. -/
def toBlockElem (fmt : Nat) (inf5 : Bool) (y : Num) : Nat × Nat :=
  if fmt ≤ 7 then
    let f := floatFmt fmt
    match y with
    | .nan => (0, 0)
    | .inf n => if inf5 && fmt == 4 then (f.signed n 0x7C, 0) else (f.signed n f.top, 1)
    | .fin n m e =>
      let a := f.magnitude .near n m e
      if f.top < a then (if inf5 && fmt == 4 then (f.signed n 0x7C, 0) else (f.signed n f.top, 1))
      else (f.signed n a, 0)
  else
    let p := toIntCode (-127) 127 (if fmt = 8 then -6 else 0) y
    (codeOf 8 p.1, p.2.sats)

/-- A converted block: its codes, its scale or shift byte, and the saturations. -/
structure BlockOut where
  /-- Element codes. -/
  codes : List Nat
  /-- Scale or shift byte. -/
  scale : Byte
  /-- Elements saturated. -/
  sats : Nat
deriving DecidableEq, Repr

/-- The scale or shift byte of a NaN block (R101). -/
def nanScale (fmt : Nat) : Byte := if fmt = 11 then 0x80 else 0xFF

/-- Convert one block of FP32 words with a survey code (R105). -/
def convertBlock (fmt : Nat) (inf5 : Bool) (block : List Word) (r : Int) : BlockOut :=
  let xb := if block.any fun w => (f32 w).isNan then none else blockExponent fmt r
  match xb with
  | none => { codes := block.map fun _ => 0, scale := nanScale fmt, sats := 0 }
  | some x =>
    let es := block.map fun w => toBlockElem fmt inf5 ((f32 w).scale (-x))
    { codes := es.map Prod.fst,
      scale := if fmt = 11 then BitVec.ofNat 8 (codeOf 8 x) else BitVec.ofNat 8 (x + 127).toNat,
      sats := (es.map Prod.snd).sum }

/-- The list cut into runs of n. -/
def chunksOf {α : Type} (n : Nat) : Nat → List α → List (List α)
  | 0, _ => []
  | k + 1, l => if l.isEmpty then [] else l.take n :: chunksOf n k (l.drop n)

/-- A whole vector of FP32 words as blocks of 32, each with its own survey (R104). -/
def convertAll (fmt : Nat) (inf5 : Bool) (ws : List Word) : List BlockOut :=
  (chunksOf 32 (ws.length / 32 + 1) ws).map fun b => convertBlock fmt inf5 b (survey b)

/-- The values of one block read back into FP32 (R102): words and saturations. -/
def readBlock (fmt : Nat) (codes : List Nat) (scale : Byte) : List Sat :=
  codes.map fun c => toF32 (scaledValue fmt c (scaleExp fmt scale))

/-! ## Vector-engine memory operands -/

/-- Bytes of a packed record of 256 elements, with its scales and padding (R94). -/
def recordBytes (fmt : Nat) : Nat := alignUp (elemBytes fmt 256 + 8) 64

/-- Bytes of the memory operand of a vector operation in a format. -/
def operandBytes (fmt : Nat) : Nat := if isBlock fmt then recordBytes fmt else elemBytes fmt 256

/-- The 256 elements of a memory operand read into FP32 (R102, R116). -/
def readOperand (fmt : Nat) (bs : List Byte) : List Sat :=
  (List.range 256).map fun i =>
    if isBlock fmt then
      toF32 (scaledValue fmt (elemCode fmt bs i) (scaleExp fmt (bs.getD (elemBytes fmt 256 + i / 32) 0)))
    else readElem fmt (elemCode fmt bs i)

/-- The 256 FP32 words stored in a format without scales: bytes and counts (R116).  FP32 words are stored
unchanged. -/
def storeOperand (fmt : Nat) (ws : List Word) : List Byte × Conv :=
  if fmt = 0 then (ws.flatMap fun w => leBytes 4 w.toNat, { sats := 0, nans := 0 })
  else
    let es := ws.map fun w => toElem fmt (f32 w)
    (packCodes fmt (es.map Prod.fst),
     { sats := (es.map fun e => e.2.sats).sum, nans := (es.map fun e => e.2.nans).sum })

/-- The packed record of R94 that CONVERT writes: bytes and saturations. -/
def convertRecord (fmt : Nat) (inf5 : Bool) (a : List Word) (r : List Word) : List Byte × Nat :=
  let bs := (chunksOf 32 8 a).mapIdx fun i b => convertBlock fmt inf5 b (signedOf 32 (r.getD i 0).toNat)
  let body := packCodes fmt (bs.flatMap BlockOut.codes) ++ bs.map BlockOut.scale
  (body ++ List.replicate (recordBytes fmt - body.length) 0, (bs.map BlockOut.sats).sum)

/-! ## INT32 paths and rescale (R77, R108, R109) -/

/-- Saturation to the INT32 range. -/
def satInt32 (v : Int) : Int := if 2147483647 < v then 2147483647 else if v < -2147483648 then -2147483648 else v

/-- A rescale entry's reserved field is nonzero (R108). -/
def rescaleBad (entry : Nat) : Bool := decide (entry >>> 22 ≠ 0)

/-- An INT32 value rescaled and converted to fmt_out (R109): element code and counts. -/
def rescaled (entry fmt : Nat) (a : Int) : Nat × Conv :=
  let mult := bits entry 0 16
  let v := Num.ofInt false (a * mult) (-(bits entry 16 6 : Int))
  toElem fmt v

end Sys2Proof.Machine
end

