-- ==== Sys2Proof/Machine/Codes.lean ====
section
/-! DEFINITION. The codes of the manual: command statuses (R332), log codes with their severities (R464) and
event flags (R341). -/

namespace Sys2Proof.Machine

/-! ## Status codes (R332) -/

def St.ok : Half := 0x0000
def St.pending : Half := 0x0001
def St.badOpcode : Half := 0x0100
def St.badParam : Half := 0x0101
def St.badObject : Half := 0x0102
def St.violation : Half := 0x0103
def St.notPermitted : Half := 0x0104
def St.mediaUncorrectable : Half := 0x0200
def St.mediaExhausted : Half := 0x0201
def St.readOnly : Half := 0x0202
def St.leaseStale : Half := 0x0203
def St.noResource : Half := 0x0300
def St.lowerTierFailed : Half := 0x0301
def St.authFailed : Half := 0x0400
def St.signatureInvalid : Half := 0x0401
def St.computeFault : Half := 0x0500
def St.swatchMismatch : Half := 0x0501
def St.epochRetired : Half := 0x0600
def St.fenced : Half := 0x0700
def St.abortedReset : Half := 0x0701
def St.linkDown : Half := 0x0702

/-! ## Log codes (R464) -/

def Lc.eccCorrected : Half := 0x0101
def Lc.wordRemapped : Half := 0x0102
def Lc.trap : Half := 0x0103
def Lc.remapFull : Half := 0x0104
def Lc.frameRetired : Half := 0x0105
def Lc.clusterRetired : Half := 0x0106
def Lc.engineRetired : Half := 0x0107
def Lc.eccUncorrectable : Half := 0x0108
def Lc.checkerFail : Half := 0x0109
def Lc.scanFail : Half := 0x010A
def Lc.swatchMismatch : Half := 0x010B
def Lc.residueMismatch : Half := 0x010C
def Lc.stagingLost : Half := 0x010D
def Lc.blockRetired : Half := 0x0201
def Lc.holdupWeak : Half := 0x0202
def Lc.capacityShort : Half := 0x0203
def Lc.wearWarning : Half := 0x0204
def Lc.writebackFailed : Half := 0x0205
def Lc.lowerTierLate : Half := 0x0206
def Lc.leaseRecallTimeout : Half := 0x0207
def Lc.eraseRefused : Half := 0x0208
def Lc.pagePoisoned : Half := 0x0209
def Lc.lowerTierFailed : Half := 0x020A
def Lc.mediaReadOnly : Half := 0x020B
def Lc.linkReleased : Half := 0x0301
def Lc.linkDown : Half := 0x0302
def Lc.linkNarrow : Half := 0x0303
def Lc.linkTrainFailed : Half := 0x0304
def Lc.protocolViolation : Half := 0x0305
def Lc.linkQuarantined : Half := 0x0306
def Lc.cqEventLost : Half := 0x0307
def Lc.pcieReset : Half := 0x0308
def Lc.linkFailed : Half := 0x0309
def Lc.linkKeyMismatch : Half := 0x030A
def Lc.linkKeyExhausted : Half := 0x030B
def Lc.stepLate : Half := 0x0401
def Lc.nonfiniteGrad : Half := 0x0402
def Lc.suspectHeld : Half := 0x0403
def Lc.sumsLost : Half := 0x0404
def Lc.engineReset : Half := 0x0501
def Lc.staleReply : Half := 0x0502
def Lc.dumpTaken : Half := 0x0503
def Lc.watchdog : Half := 0x0504
def Lc.partitionReset : Half := 0x0505
def Lc.resetEscalated : Half := 0x0506
def Lc.pwrCycleReq : Half := 0x0507
def Lc.pwrCycleIgnored : Half := 0x0508
def Lc.shutdownClean : Half := 0x0601
def Lc.refclkRestored : Half := 0x0602
def Lc.supplyLow : Half := 0x0603
def Lc.supplyHigh : Half := 0x0604
def Lc.mainPowerLost : Half := 0x0605
def Lc.powerLimitHit : Half := 0x0606
def Lc.coolantHot : Half := 0x0607
def Lc.coolantFlowLow : Half := 0x0608
def Lc.blockGated : Half := 0x0609
def Lc.refclkLost : Half := 0x060A
def Lc.castOnFailed : Half := 0x060B
def Lc.thermalTrip : Half := 0x060C
def Lc.configChanged : Half := 0x0701
def Lc.overlayChanged : Half := 0x0702
def Lc.accessChanged : Half := 0x0703
def Lc.keyChanged : Half := 0x0704
def Lc.partitionChanged : Half := 0x0705
def Lc.policyChanged : Half := 0x0706
def Lc.loopHeld : Half := 0x0707
def Lc.epochOffsetSet : Half := 0x0708
def Lc.fwStaged : Half := 0x0709
def Lc.fwCommitted : Half := 0x070A
def Lc.otpWritten : Half := 0x070B
def Lc.attested : Half := 0x070C
def Lc.sessionOpened : Half := 0x070D
def Lc.policyClipped : Half := 0x070E
def Lc.fwRejected : Half := 0x070F
def Lc.authFailure : Half := 0x0710
def Lc.cflWear : Half := 0x0711
def Lc.configLost : Half := 0x0712
def Lc.keyLost : Half := 0x0713
def Lc.recoveryEntered : Half := 0x0714

/-- The last code and the severity of each row of R464, in code order. -/
def logRows : List (Nat × BitVec 2) :=
  [(0x0102, 0), (0x0107, 1), (0x010D, 2), (0x0207, 1), (0x020B, 2), (0x0301, 0), (0x0308, 1), (0x030B, 2),
   (0x0403, 1), (0x0404, 2), (0x0503, 0), (0x0506, 1), (0x0508, 3), (0x0602, 0), (0x0609, 1), (0x060B, 2),
   (0x060C, 3), (0x070D, 0), (0x0711, 1), (0x0714, 2)]

/-- The severity of a log code (R464). -/
def logSeverity (code : Half) : BitVec 2 :=
  match logRows.find? fun r => decide (code.toNat ≤ r.1) with
  | some r => r.2
  | none => 0

/-! ## Event flags (R341) -/

def Ev.logNotify : Nat := 8
def Ev.logLost : Nat := 9
def Ev.mbxToHost : Nat := 10
def Ev.mbxToModule : Nat := 11
def Ev.queueError : Nat := 12
def Ev.cqEventLost : Nat := 13
def Ev.linkChange : Nat := 14
def Ev.wearWarning : Nat := 15
def Ev.releaseError : Nat := 16

/-! ## MOD_STATUS bits (R337) -/

def Sb.ready : Nat := 0
def Sb.degraded : Nat := 1
def Sb.readOnly : Nat := 2
def Sb.fenced : Nat := 3
def Sb.safeClock : Nat := 4
def Sb.recovery : Nat := 5
def Sb.thermalLimit : Nat := 6
def Sb.castOnBusy : Nat := 7

end Sys2Proof.Machine
end

