-- ==== Sys2Proof/Machine/State.lean ====
section
/-! DEFINITION. The state of the CZ8-460L as plain data: everything the manual gives the module.
One structure per subsystem; banks (`Tbl` with a default) hold the numbered units, so that a unit that stands
as it stood at reset is not listed. -/

namespace Sys2Proof.Machine

/-- No command of this model ends in a fault: the manual gives every event an effect, and an event whose
condition does not hold changes nothing. -/
inductive Fault where
deriving DecidableEq, Repr

/-- Why a command has no meaning. -/
inductive Refusal where
  /-- Raised by an arm of `exec` that has no meaning yet; safe, since the model then says nothing. -/
  | notModelled (mnemonic : String)
deriving DecidableEq, Repr

/-! ## Module, supplies, clock, host-visible control -/

/-- A condition that holds MOD_STATUS.degraded set (R337). -/
inductive Degrade where
  /-- A package link is down (R20). -/
  | packageLink (n : Nat)
  /-- An optical link is FAILED (R283). -/
  | link (n : Nat)
  /-- A cluster, engine or channel is retired (R371, R393). -/
  | unit (u : HwUnit)
  /-- A ring is marked failed (R282). -/
  | ring (link ring : Nat)
  /-- The hold-up store is weak (R260). -/
  | holdup
  /-- User capacity is short (R275). -/
  | capacity
  /-- 48 V lies between 36 V and 40 V (R410). -/
  | supplyLow
  /-- Coolant flow is low (R432). -/
  | flow
  /-- 1,024 frames of a die are retired (R372). -/
  | frames (d : Nat)
  /-- A stack or a die is out of service (R376, R413). -/
  | die (n : Nat)
  /-- A remap table of a shared macro is full, or staging is short (R371). -/
  | sram (d : Nat)
  /-- A configuration image or repair record is lost (R455). -/
  | config
deriving DecidableEq, Repr

/-- Supplies, module time, MOD registers and pins (R337, R408–R412, R474). -/
structure Sys where
  /-- 3.3 V auxiliary is present and the management island runs (R408). -/
  aux : Bool
  /-- 48 V main is present (R408). -/
  main : Bool
  /-- REFCLK is present and the management domain runs from the PLL (R409). -/
  refclk : Bool
  /-- Module time in ns from auxiliary power-up (R337); kept as a number, read modulo 2^64. -/
  time : Nat
  /-- High half latched by a 4-byte read of MOD_TIME's low half (R338). -/
  timeLatch : Option Word
  /-- MOD_STATUS (R337). -/
  status : Word
  /-- Conditions that hold MOD_STATUS.degraded set. -/
  degraded : List Degrade
  /-- MOD_CAUSE.cast_on_step. -/
  castStep : BitVec 4
  /-- MOD_CAUSE.step_failed. -/
  stepFailed : Bool
  /-- MOD_CAUSE.last_reset. -/
  lastReset : BitVec 4
  /-- MOD_EPOCH_OFFSET (R339). -/
  epochOffset : Dword
  /-- MOD_NODE.node_id (R337). -/
  node : BitVec 20
  /-- MOD_ID.stepping (R1, R337). -/
  stepping : BitVec 4
  /-- Cast-ons so far; the lease incarnation is this modulo 65,536 (R264). -/
  castOns : Nat
  /-- When the running cast-on began (R412). -/
  castAt : Nat
  /-- FAULT# is asserted (low) (R474). -/
  faultPin : Bool
  /-- FAULT# is held for a thermal trip until the next module reset (R474). -/
  tripLatched : Bool
  /-- PWR_CYCLE_REQ# is asserted (low) and since when (R400). -/
  pwrCycleReq : Option Nat
  /-- The data domains are powered (R408, R425). -/
  dataOn : Bool
  /-- The data domains are fenced by the clock monitor, a power-cycle request or a module reset (R420, R400, R399). -/
  dataFenced : Bool
  /-- Module state OFF after a clean shutdown (R425). -/
  off : Bool
  /-- A clean shutdown has been ordered and has not ended (R425). -/
  offAsked : Bool
  /-- When step D1 of a clean shutdown ended, while step D2 runs (R425). -/
  shutdownAt : Option Nat
  /-- The journal carries a clean mark (R425). -/
  cleanMark : Bool
  /-- The last flush wrote staging to the flush blocks (R261). -/
  flushed : Bool
  /-- A thermal shutdown has powered the dies off (R429). -/
  thermalOff : Bool
  /-- 48 V was removed for a power-cycle request, so that the next cast-on runs from step 1 (R400, R410). -/
  cycled : Bool
  /-- When SUPPLY_LOW was last logged (R410). -/
  lowLogged : Option Nat
  /-- When SUPPLY_HIGH was last logged (R410). -/
  highLogged : Option Nat
  /-- A module reset ordered during C2–C6 of a commit waits for C6 (R444). -/
  heldReset : Bool
  /-- SLOT_ID1 and SLOT_ID0 as grounded (0) or not (1) (R474). -/
  slotId : BitVec 2
  /-- The dynamic I3C address given by SETDASA (R474). -/
  i3cAddr : Option (BitVec 7)
  /-- The EID assigned by the I3C bus owner (R465). -/
  eidI3c : Byte
  /-- The EID assigned over the PCIe binding (R465). -/
  eidPcie : Byte
  /-- MCTP over PCIe is available and BAR0 answers: the PCIe link is up (R336, R465). -/
  pcieUp : Bool
  /-- The function is in D3hot (R364). -/
  d3hot : Bool
deriving DecidableEq, Repr

/-- One entry of the log ring (R362). -/
structure LogEntry where
  /-- Sequence number. -/
  seq : Nat
  /-- Module time of the event. -/
  time : Nat
  /-- Code (R464). -/
  code : Half
  /-- Severity 0 to 3. -/
  severity : BitVec 2
  /-- Origin field. -/
  origin : Word
  /-- Unit field. -/
  unit : Word
  /-- Context and partition field. -/
  context : Word
  /-- Detail words, as the code defines. -/
  detail : List Nat
deriving DecidableEq, Repr

/-- The log ring, its window registers and the lasting copy (R361, R463). -/
structure LogRing where
  /-- Entries held, oldest first; at most 131,072. -/
  entries : List LogEntry
  /-- LOG_FIRST.seq. -/
  first : Nat
  /-- LOG_NEXT.seq. -/
  next : Nat
  /-- LOG_WINDOW.base. -/
  window : BitVec 58
  /-- LOG_NOTIFY.count. -/
  notify : Half
  /-- Entries added since log_notify was last set (R341). -/
  sinceNotify : Nat
  /-- Copies waiting for the lasting log, oldest first; at most 128 (R463). -/
  buffer : List LogEntry
  /-- The lasting log, oldest first; at most 262,144 (R463). -/
  lasting : List LogEntry
deriving DecidableEq, Repr

/-- EVT registers (R340). -/
structure Evt where
  /-- EVT_FLAGS. -/
  flags : Word
  /-- EVT_ENABLE. -/
  enable : Word
  /-- EVT_SET_CNT_k, default 0. -/
  counts : Tbl Word
  /-- EVT_VECTOR_k, default 0. -/
  vectors : Tbl (BitVec 6)
deriving DecidableEq, Repr

/-- The MSI-X table and pending bits of BAR4, and the messages sent (R334, R343). -/
structure Msix where
  /-- MSI-X table words (address low, address high, data) by entry × 4 + word, default 0. -/
  table : Tbl Word
  /-- Vectors not masked. -/
  unmasked : Dword
  /-- Pending bits. -/
  pending : Dword
  /-- Vectors signalled to the host, oldest first. -/
  sent : List (BitVec 6)
deriving DecidableEq, Repr

/-- A completion queue entry as written to host memory (R350). -/
structure CqEntry where
  /-- sq_head when written. -/
  sqHead : BitVec 12
  /-- Phase bit. -/
  phase : Bool
  /-- The packet's slot field. -/
  slot : BitVec 6
  /-- The result slot holds the answer. -/
  slotUsed : Bool
  /-- 0x1 completion; 0x4 event. -/
  kind : BitVec 4
  /-- Opcode or event code. -/
  opcode : Half
  /-- Tag. -/
  tag : Half
  /-- Status. -/
  status : Half
  /-- Detail. -/
  detail : Dword
  /-- Count. -/
  count : Word
deriving DecidableEq, Repr

/-- A finished command of a control queue whose answer is not yet placed (R356). -/
structure CqDone where
  /-- The command's number in the command table. -/
  seq : Nat
  /-- Opcode, tag, slot fields of the packet. -/
  opcode : Half
  /-- Tag. -/
  tag : Half
  /-- slot_en. -/
  slotEn : Bool
  /-- slot. -/
  slot : BitVec 6
  /-- Status. -/
  status : Half
  /-- Detail. -/
  detail : Dword
  /-- Reply data. -/
  data : List Byte
  /-- The command had been admitted (refused packets hold no slot). -/
  wasLive : Bool
deriving DecidableEq, Repr

/-- One control queue pair (R344–R353). -/
structure CtlQ where
  /-- CTLQ_SQ_BASE.addr with its low 12 bits zero. -/
  sqBase : Dword
  /-- CTLQ_CQ_BASE.addr with its low 12 bits zero. -/
  cqBase : Dword
  /-- CTLQ_CFG as written. -/
  cfg : Word
  /-- CTLQ_SQ_TAIL. -/
  tail : Nat
  /-- CTLQ_CQ_HEAD. -/
  cqHead : Nat
  /-- CTLQ_STAT.sq_head. -/
  sqHead : Nat
  /-- CTLQ_STAT.error. -/
  error : Bool
  /-- CTLQ_STAT.error_cause. -/
  cause : BitVec 4
  /-- Admitted commands not yet completed. -/
  outstanding : Nat
  /-- Where the next completion entry goes. -/
  cqTail : Nat
  /-- Completion phase. -/
  phase : Bool
  /-- Entries written to host memory and not yet consumed, oldest first. -/
  written : List CqEntry
  /-- Commands finished whose completion entries are owed, oldest first. -/
  done : List CqDone
  /-- Event entries waiting to be written (R352). -/
  events : List (Half × Dword × Word)
  /-- Entries written since the last signal (R351). -/
  unsignalled : Nat
  /-- When the first unsignalled entry was written. -/
  firstAt : Nat
  /-- A completion write has failed, so later completions are discarded (R353). -/
  cqDead : Bool
deriving DecidableEq, Repr

/-- A result slot (R355). -/
structure Slot where
  /-- 0 FREE; 1 PENDING; 2 DONE. -/
  state : BitVec 2
  /-- header.status. -/
  status : Half
  /-- header.length. -/
  length : Nat
  /-- header.tag. -/
  tag : Half
  /-- header.opcode. -/
  opcode : Half
  /-- header.seq. -/
  seq : Word
  /-- Payload bytes. -/
  payload : List Byte
deriving DecidableEq, Repr

/-- A mailbox channel (R359). -/
structure Mbx where
  /-- The word held. -/
  word : Word
  /-- MBX_STAT.full. -/
  full : Bool
  /-- MBX_STAT.overruns. -/
  overruns : Half
  /-- MBX_BIND.kind, die and core, from the base configuration. -/
  bind : BitVec 7
deriving DecidableEq, Repr

/-- An answer owed to an MCTP or secure-channel origin (R465, R449). -/
structure MctpAnswer where
  /-- Origin of the command. -/
  origin : Origin
  /-- Opcode. -/
  op : Half
  /-- Tag. -/
  tag : Half
  /-- Status. -/
  status : Half
  /-- Detail. -/
  detail : Dword
  /-- Reply data. -/
  data : List Byte
deriving DecidableEq, Repr

/-- The host-facing control function (chapter 13). -/
structure HostIf where
  /-- EVT block. -/
  evt : Evt
  /-- MSI-X. -/
  msix : Msix
  /-- Control queues by number; unlisted queues stand at reset. -/
  queues : Tbl CtlQ
  /-- Result slots 64n + slot; unlisted slots stand at reset. -/
  slots : Tbl Slot
  /-- RSLT_ERR.bad_release. -/
  badRelease : Bool
  /-- RSLT_ERR.slot. -/
  badSlot : BitVec 12
  /-- Mailboxes by channel; unlisted channels stand at reset. -/
  mbx : Tbl Mbx
  /-- Answers owed to MCTP and secure origins, oldest first. -/
  mctpOut : List MctpAnswer
deriving DecidableEq, Repr

/-! ## Commands -/

/-- Where an admitted command stands. -/
inductive Phase where
  /-- Held until an earlier command on the object ends (R325) or its turn in its context (R170). -/
  | ordered
  /-- Waiting for an RX_GRANT that is held, or for more grants (R318). -/
  | granting
  /-- All granted; data is arriving (R319). -/
  | collecting
  /-- Waiting on pages of store space (R155). -/
  | pages
  /-- Running: a stream, task, query, scan or other engine works for it. -/
  | running
  /-- Waiting for lease holders (R267). -/
  | recalling
  /-- Ended; its status reply or completion entry has not yet left (R315, R356). -/
  | ended
deriving DecidableEq, Repr

/-- An admitted command: an entry of the command table (R315). -/
structure Live where
  /-- Opcode. -/
  op : Half
  /-- The capsule or packet. -/
  c : Capsule
  /-- Admission time (R317). -/
  admitted : Nat
  /-- Where it stands. -/
  phase : Phase
  /-- Bytes of request data granted, from position 0 (R318). -/
  granted : Nat
  /-- When the last grant left and how many bytes had landed then (R319). -/
  grantAt : Nat
  /-- Bytes landed when the last grant left. -/
  grantBase : Nat
  /-- Bytes of request data landed. -/
  landed : Nat
  /-- Segments landed: position and bytes, in landing order. -/
  segs : List (Nat × List Byte)
  /-- Epoch assigned at the grant, or pinned at admission (R213, R217). -/
  epoch : Word
  /-- When it first waited on a page (R155). -/
  waitSince : Option Nat
  /-- It runs on, but its answer is discarded (R308, R364). -/
  discard : Bool
  /-- Data already returned as bytes sent (R313). -/
  sent : Nat
  /-- Leases it recalls and waits for (R267). -/
  recalls : List Nat
  /-- Its effect has been applied and only its answer is owed (R325, R371). -/
  applied : Bool
  /-- Detail of the answer that is owed. -/
  detail : Nat
  /-- Streams of the launch that have ended: time and status of the first FAILED token, and whether a fault is
  recorded (R58, R68). -/
  streamEnds : List (Option (Nat × Half) × Bool)
deriving DecidableEq, Repr

/-- A task waiting for an engine (R172). -/
structure Task where
  /-- Task number. -/
  id : Nat
  /-- Kind of engine. -/
  kind : TaskKind
  /-- Partition. -/
  part : PartIx
  /-- Context, if one issued it. -/
  ctx : Byte
  /-- The task is the shard service's (R173). -/
  service : Bool
  /-- Number of its command in the command table. -/
  cmd : Nat
  /-- Admission time. -/
  admitted : Nat
  /-- Compute dies it must take, for a gang or a resumed stream; empty for any (R174). -/
  dies : List Nat
  /-- The task resumes a pre-empted stream (R179). -/
  resumed : Bool
  /-- Parcel or span, chunk number. -/
  item : Nat
  /-- Starvation request sent (R177). -/
  starved : Bool
deriving DecidableEq, Repr

/-! ## Compute dies -/

/-- A token's state (R48). -/
inductive Tok where
  /-- CLEAR. -/
  | clear
  /-- SET. -/
  | set
  /-- FAILED. -/
  | failed
deriving DecidableEq, Repr

/-- A level of the loop stack (R62). -/
structure LoopLevel where
  /-- Remaining count. -/
  remaining : Nat
  /-- Body start, in 16-bit units. -/
  start : Nat
  /-- Body end: the row that closes the level. -/
  stop : Nat
deriving DecidableEq, Repr

/-- What a marker record saves (R62). -/
structure Core where
  /-- Row offset of the next row, in 16-bit units. -/
  pc : Nat
  /-- Index registers ix0–ix15; ix0 reads zero (R55). -/
  ix : List Word
  /-- Condition flags f0–f31. -/
  flags : Word
  /-- Loop stack, innermost first. -/
  loops : List LoopLevel
  /-- Tokens that are not CLEAR. -/
  tokens : Tbl Tok
  /-- Number and status of the first FAILED token. -/
  firstFailed : Option (Nat × Half)
  /-- When the first token failed, for launches (R68). -/
  failedAt : Nat
  /-- The status recorded with each FAILED token (R47). -/
  failSt : Tbl Half
deriving DecidableEq, Repr

/-- A save image (R59, R60): the marker record and the save list's bytes. -/
structure Image where
  /-- The marker record. -/
  core : Core
  /-- Saved regions: space code, offset, bytes. -/
  data : List (Nat × Nat × List Byte)
  /-- Saved vector registers: engine × 64 + register, lanes. -/
  regs : List (Nat × List Word)
  /-- Row offset of the marker row. -/
  marker : Nat
  /-- plan_cycle of the marker row. -/
  plan : Word
deriving DecidableEq, Repr

/-- Why a stream's issue is held. -/
inductive Stall where
  /-- A row's wait is not satisfied (R50). -/
  | wait (y : SyncSlot) (clear : Bool) (since : Nat)
  /-- A cluster's waiting place or a mover's queue is full, or UPDATE issued too early (R43, R45, R116). -/
  | structural (cluster : Option Nat) (mover : Option Nat) (since : Nat)
  /-- A stitch marker drains and saves; full save or not (R59, R60). -/
  | marker (list : Nat) (row : Nat) (plan : Word)
deriving DecidableEq, Repr

/-- A swatch procedure under way (R384). -/
structure Swatch where
  /-- Primary cluster P. -/
  prim : Nat
  /-- Swatch cluster S. -/
  dup : Nat
  /-- P's version of the first differing result vector. -/
  primBytes : List Byte
  /-- S's version. -/
  dupBytes : List Byte
  /-- Logical cluster. -/
  logical : Nat
  /-- Ordinal of the pass since the last marker. -/
  ordinal : Nat
  /-- Index of the result vector. -/
  vec : Nat
  /-- Step reached: 1 after M1, 2 during the third execution, 4 after the decision. -/
  step : Nat
  /-- Cluster T of the third execution. -/
  third : Option Nat
deriving DecidableEq, Repr

/-- A stream on a die, running or parked (R37–R68). -/
structure Stream where
  /-- Its context. -/
  ctx : Byte
  /-- Its command (launch) in the command table. -/
  cmd : Nat
  /-- Program object id. -/
  prog : Word
  /-- Registers, flags, loops, tokens and the next row. -/
  core : Core
  /-- Arithmetic cycle at which the next row issues. -/
  cycle : Nat
  /-- Issued cycles since the last marker or the entry row (R63). -/
  since : Nat
  /-- Logical to physical cluster map (R37). -/
  map : List Nat
  /-- Offset of the last row issued. -/
  row : Nat
  /-- plan_cycle of the last row issued. -/
  plan : Word
  /-- Why issue is held. -/
  stall : Option Stall
  /-- END has issued. -/
  ended : Bool
  /-- ST_COMPUTE_FAULT is recorded against the command (R47). -/
  fault : Bool
  /-- Movers halted for this command (R47). -/
  halted : List Nat
  /-- Newest complete save image of the command. -/
  image : Option Image
  /-- The older image. -/
  older : Option Image
  /-- The registers as the command entered its entry row, for replays without an image. -/
  entry : Core
  /-- A pre-emption request is pending (R176). -/
  preempt : Bool
  /-- When it was last placed or resumed (R485). -/
  placedAt : Nat
  /-- Current schedule entry and the time of its first access (R151). -/
  layer : Option (Nat × Nat)
  /-- Passes issued to each logical cluster since the last marker. -/
  passes : Tbl Nat
  /-- The swatch procedure of R384, while the context is held for it. -/
  swatch : Option Swatch
  /-- A second mismatch ends the command (R385). -/
  mismatches : Nat
  /-- Row offset up to which a replay must pass, for a suspect (R395). -/
  replayTo : Option Nat
  /-- The swatch reservation is suspended for this command (R384). -/
  noSwatch : Bool
deriving DecidableEq, Repr

/-- Coefficients loaded by COEF (R127). -/
structure Coef where
  /-- η. -/
  eta : Word
  /-- b1. -/
  b1 : Word
  /-- b2. -/
  b2 : Word
  /-- Shard. -/
  shard : Word
  /-- Parameter group. -/
  group : Nat
  /-- Step. -/
  t : Word
deriving DecidableEq, Repr

/-- What a vector operation writes when it retires (R114). -/
inductive VecEffect where
  /-- A register. -/
  | reg (dst : Nat) (lanes : List Word)
  /-- Scratchpad bytes: key of the first byte. -/
  | mem (key : Nat) (bytes : List Byte)
  /-- Coefficients for the next UPDATE (R127). -/
  | coef (k : Coef)
  /-- One update group of a chunk: first element, new w, s1, s2 (R124). -/
  | group (shard : Word) (first : Nat) (w s1 s2 : List Word)
deriving DecidableEq, Repr

/-- A vector operation in flight (R114). -/
structure VecOp where
  /-- The cycle in which it retires. -/
  retireAt : Nat
  /-- What it writes. -/
  eff : VecEffect
  /-- Token set at retirement. -/
  token : Option Nat
  /-- Flag written. -/
  flag : Option (Nat × Bool)
  /-- Elements saturated and NaNs turned to integers (R103). -/
  sats : Nat
  /-- NaN-to-integer events. -/
  nans : Nat
  /-- Row of issue and its plan_cycle. -/
  row : Nat
  /-- plan_cycle. -/
  plan : Word
  /-- Operation code (R116). -/
  op : Nat
deriving DecidableEq, Repr

/-- A vector engine (R114). -/
structure VEng where
  /-- Operations in flight, in issue order. -/
  flight : List VecOp
  /-- Coefficients loaded by COEF (R127). -/
  coef : Option Coef
  /-- Times of residue mismatches (R383). -/
  mismatches : List Nat
  /-- Chunk whose UPDATE groups are in flight: shard and chunk (R172). -/
  chunk : Option (Word × Nat)
deriving DecidableEq, Repr

/-- A decoded descriptor with its effective addresses (R39, R40). -/
structure Desc where
  /-- Stationary operand: 0 weight, 1 output, 2 input. -/
  stat : Nat
  /-- Format of the stationary operand. -/
  fmtA : Nat
  /-- Format of the streamed operand. -/
  fmtB : Nat
  /-- Format of the result. -/
  fmtOut : Nat
  /-- Add results into the output area. -/
  acc : Bool
  /-- Apply the rescale table. -/
  rescale : Bool
  /-- Array rows used. -/
  rows : Nat
  /-- Array columns used. -/
  cols : Nat
  /-- Streamed vectors. -/
  len : Nat
  /-- Byte offset of the stationary operand. -/
  statAddr : Int
  /-- Byte offset of the first streamed vector. -/
  strmAddr : Int
  /-- Byte offset of the output area. -/
  outAddr : Int
  /-- Distance between streamed vectors, bytes. -/
  strmStride : Nat
  /-- Distance between output vectors, bytes. -/
  outStride : Nat
  /-- Stationary offset per index unit, bytes. -/
  ixStat : Nat
  /-- Streamed offset per index unit, bytes. -/
  ixStrm : Nat
  /-- Output offset per index unit, bytes. -/
  ixOut : Nat
  /-- Rescale table entry. -/
  rescaleIdx : Nat
deriving DecidableEq, Repr

/-- A pass on a cluster (R42, R79–R82). -/
structure Pass where
  /-- Its descriptor with effective addresses. -/
  d : Desc
  /-- Descriptor index. -/
  descIx : Nat
  /-- Logical cluster. -/
  logical : Nat
  /-- Arrival cycle. -/
  arrival : Nat
  /-- Cycle in which its first vector enters. -/
  first : Nat
  /-- Its first vector has entered. -/
  started : Bool
  /-- Held operand records as read in the shadow writes (R79), scales last. -/
  held : List (List Byte)
  /-- Streamed vectors read at entry and not yet written out; of an output-stationary pass, once all have entered, its top
  records and then its left records (R73, R85). -/
  entered : List (List Byte)
  /-- Result vectors written. -/
  next : Nat
  /-- Token set on completion. -/
  token : Option Nat
  /-- plan_cycle of its row. -/
  plan : Word
  /-- Ordinal among the passes of its logical cluster since the last marker (R384). -/
  ordinal : Nat
  /-- The swatch cluster that mirrors it (R88). -/
  mirror : Option Nat
  /-- Numeric mode of its context (R97). -/
  mode : Word
  /-- Cluster-cycles it adds to its context's array_cycles (R82, R185). -/
  span : Nat
deriving DecidableEq, Repr

/-- An array cluster (R42). -/
structure Cluster where
  /-- Passes started or casting on, oldest first. -/
  flight : List Pass
  /-- The waiting place (R42). -/
  waiting : Option Pass
  /-- Tokens of DRAIN slots outstanding: token and the number of passes still to complete (R83). -/
  drains : List (Nat × Nat)
  /-- On a swatch cluster: the last entry cycle of the sampled pass, and the logical cluster sampled last (R88). -/
  sampledUntil : Nat
  /-- Logical cluster sampled last. -/
  sampledLast : Nat
deriving DecidableEq, Repr

/-- A move in a mover's queue (R45, R46). -/
structure Move where
  /-- 1 COPY, 2 FILL, 3 PREFETCH. -/
  op : Nat
  /-- Source address, or scratchpad key. -/
  src : Int
  /-- Destination address, or scratchpad key. -/
  dst : Int
  /-- Source is a scratchpad. -/
  srcPad : Bool
  /-- Destination is a scratchpad. -/
  dstPad : Bool
  /-- Bytes. -/
  len : Nat
  /-- Own token. -/
  token : Option Nat
  /-- Remote notify: die and token. -/
  notify : Option (Nat × Nat)
  /-- When it was queued: its arrival at the tier engine (R149). -/
  queuedAt : Nat
  /-- When it first waited on a page (R155). -/
  waitSince : Option Nat
deriving DecidableEq, Repr

/-- The power state of a compute die (R423). -/
inductive PState where
  /-- RUN. -/
  | run
  /-- GATE. -/
  | gate
  /-- RETAIN. -/
  | retain
deriving DecidableEq, Repr

/-- A compute die. -/
structure Die where
  /-- The stream on the die. -/
  stream : Option Stream
  /-- Streams that left the die at a marker and wait for it (R172). -/
  parked : List Stream
  /-- Array clusters by physical index. -/
  clusters : Tbl Cluster
  /-- Vector engines. -/
  engines : Tbl VEng
  /-- Movers' queues, oldest move first. -/
  movers : Tbl (List Move)
  /-- Scratchpad bytes by physical cluster × 2^23 + offset. -/
  pad : Mem
  /-- Vector registers by engine × 64 + register. -/
  regs : Tbl (List Word)
  /-- What an unlisted scratchpad byte or register is: 0 zero; n > 0 undefined since command start n (R139). -/
  undef : Nat
  /-- Row memory: programs resident, with segments and the time last run (R35). -/
  rows : List (Word × Nat × Nat)
  /-- Row memory segments out of service (R371). -/
  deadSegs : Nat
  /-- The die's trace: immediate, plan_cycle, module time (R57). -/
  trace : List (Word × Word × Nat)
  /-- HBM frames retired (R372). -/
  retired : Nat
  /-- MODULE frames (R141). -/
  moduleFrames : Nat
  /-- PINNED frames of shards (R121). -/
  shardFrames : Nat
  /-- PINNED frames of context save areas (R167). -/
  saveFrames : Nat
  /-- PINNED frames of the landing pool (R129). -/
  landingFrames : Nat
  /-- PINNED frames of program images (R67). -/
  progFrames : Nat
  /-- PINNED frames of absorb buffers, codebooks, directories and staging (R253, R193, R241). -/
  otherFrames : Nat
  /-- The die evicts ahead of need until 512 frames are free (R152). -/
  evicting : Bool
  /-- Power state (R423). -/
  pstate : PState
  /-- When the die went idle (R423), while idle. -/
  idleAt : Option Nat
  /-- When the exit from a power state that is under way ends (R423, R424). -/
  wakingAt : Option Nat
  /-- When the entry into the present power state began (R423). -/
  enteredAt : Nat
  /-- Rate step k (R426). -/
  k : Nat
  /-- Step the cap loop allows (R427). -/
  capK : Nat
  /-- Step the thermal loop allows (R429). -/
  thermK : Nat
  /-- Window minimum and maximum (R433). -/
  kmin : Nat
  /-- Window maximum. -/
  kmax : Nat
  /-- Junction temperature last read, m°C. -/
  milliC : Int
  /-- A suspect is replayed alone on the die (R485). -/
  replaying : Bool
  /-- The die is out of service (R413). -/
  dead : Bool
  /-- Mirroring is stopped for want of clusters (R381, R385). -/
  noMirror : Bool
deriving DecidableEq, Repr

/-- A loaded program (R67). -/
structure Program where
  /-- Its partition. -/
  part : PartIx
  /-- The image bytes. -/
  image : List Byte
  /-- Frames its image pins. -/
  frames : Nat
  /-- Die whose stacks hold it. -/
  die : Nat
  /-- Vector slots it uses (R383). -/
  slots : BitVec 4
  /-- Marked damaged (R368). -/
  damaged : Bool
deriving DecidableEq, Repr

/-! ## Partitions, contexts, serving -/

/-- A partition (R161). -/
structure Part where
  /-- Compute dies owned. -/
  dies : BitVec 4
  /-- Swatch fraction: 0 off, 1 1/15, 2 2/14, 3 4/12. -/
  swatch : BitVec 2
  /-- Scan engines: bits 0–7 M0, 8–15 M1 (R28). -/
  scan : BitVec 16
  /-- Share of flash channel time (R161). -/
  shareFlash : Nat
  /-- Share of package links. -/
  shareLinks : Nat
  /-- Share of the pool. -/
  sharePool : Nat
  /-- Pre-emption on higher priority (R176). -/
  prioPreempt : Bool
  /-- Time slice in µs (R176). -/
  sliceUs : Nat
  /-- Starvation limit in µs (R177). -/
  starveUs : Nat
  /-- Floor in frames (R153). -/
  floor : Nat
  /-- Pin limit in frames (R153). -/
  pinLimit : Nat
  /-- Frames pinned against the pin limit outside page records. -/
  pinned : Nat
  /-- Tier deadline in ms (R156). -/
  tierMs : Nat
  /-- Prefetch distance D (R156). -/
  prefetch : Nat
  /-- Idle age limit in h (R156). -/
  idleH : Nat
  /-- Under bind-off since (R398). -/
  fencedAt : Option Nat
  /-- Compute cap in W, if set (R427). -/
  capW : Option Nat
deriving DecidableEq, Repr

/-- A context's counter record (R185); 64-bit counters do not wrap in service, 32-bit counters saturate. -/
structure Counters where
  /-- array_cycles. -/
  arrayCycles : Nat := 0
  /-- swatch_cycles. -/
  swatchCycles : Nat := 0
  /-- vector_cycles. -/
  vectorCycles : Nat := 0
  /-- scan_ns. -/
  scanNs : Nat := 0
  /-- issued_cycles. -/
  issued : Nat := 0
  /-- wait_stall_cycles. -/
  waitStall : Nat := 0
  /-- struct_stall_cycles. -/
  structStall : Nat := 0
  /-- marker_cycles. -/
  marker : Nat := 0
  /-- run_ns. -/
  runNs : Nat := 0
  /-- queue_wait_ns. -/
  queueWait : Nat := 0
  /-- energy in µJ, fractions of 1 mJ carried (R186). -/
  energyUj : Nat := 0
  /-- commands_done. -/
  done : Nat := 0
  /-- preempted (32 bits). -/
  preempted : Nat := 0
  /-- saturations. -/
  saturations : Nat := 0
  /-- nan_to_int. -/
  nanToInt : Nat := 0
  /-- flash_read_bytes. -/
  flashRead : Nat := 0
  /-- flash_write_bytes. -/
  flashWrite : Nat := 0
  /-- hbm_read_bytes (R160). -/
  hbmRead : Nat := 0
  /-- hbm_write_bytes. -/
  hbmWrite : Nat := 0
  /-- fetch_pages. -/
  fetchPages : Nat := 0
  /-- writeback_pages. -/
  writebackPages : Nat := 0
  /-- evicted_by_others. -/
  evictedByOthers : Nat := 0
  /-- tier_wait_ns. -/
  tierWait : Nat := 0
  /-- prefetch_late (32 bits). -/
  prefetchLate : Nat := 0
  /-- deadline_fail (32 bits). -/
  deadlineFail : Nat := 0
  /-- Bytes received and sent by link (R185). -/
  links : Tbl (Nat × Nat) := []
deriving DecidableEq, Repr

/-- A context (R166). -/
structure Ctx where
  /-- Its partition. -/
  part : PartIx
  /-- Priority 0 to 3. -/
  prio : BitVec 2
  /-- Die affinity. -/
  affinity : BitVec 4
  /-- Numeric mode word (R97). -/
  mode : Word
  /-- Marker save setting ON_PREEMPT (R60). -/
  onPreempt : Bool
  /-- Save capacity in MiB. -/
  saveMiB : Nat
  /-- Queue depth. -/
  depth : Nat
  /-- HELD by recovery after a reproduced fault (R395). -/
  held : Bool
  /-- Shard service of this die (R122). -/
  shardDie : Option Nat
  /-- Search service (R208). -/
  search : Bool
  /-- Counter record. -/
  ctr : Counters
deriving DecidableEq, Repr

/-- A sequence of a serving endpoint (R181). -/
structure SrvSeq where
  /-- Sequence id. -/
  id : Nat
  /-- Its SRV_SUBMIT in the command table, or none for a scan's sequence. -/
  cmd : Option Nat
  /-- The scan and record it came from (R241). -/
  scan : Option (Nat × Nat)
  /-- Prompt address. -/
  prompt : Nat
  /-- Prompt length in tokens. -/
  promptLen : Nat
  /-- Output address. -/
  out : Nat
  /-- Largest number of new tokens. -/
  maxNew : Nat
  /-- Prompt tokens processed. -/
  done : Nat
  /-- New tokens made. -/
  made : Nat
  /-- Cancelled, to end after the running step (R184). -/
  cancelled : Bool
deriving DecidableEq, Repr

/-- One item of a batch (R183). -/
structure BatchItem where
  /-- Sequence id. -/
  seq : Nat
  /-- Prefill chunk. -/
  prefill : Bool
  /-- The chunk ends the prompt. -/
  last : Bool
  /-- Position of the first token. -/
  pos : Nat
  /-- Token count. -/
  tokens : Nat
deriving DecidableEq, Repr

/-- A serving endpoint (R181). -/
structure Endpoint where
  /-- Its partition. -/
  part : PartIx
  /-- Program. -/
  prog : Word
  /-- Entry index. -/
  entry : Nat
  /-- Context. -/
  ctx : Byte
  /-- Batch region in store space. -/
  region : Nat
  /-- Chunk size. -/
  chunk : Nat
  /-- Step budget. -/
  budget : Nat
  /-- Sequence limit. -/
  limit : Nat
  /-- Sequences, oldest admission first. -/
  seqs : List SrvSeq
  /-- Next sequence id. -/
  nextSeq : Nat
  /-- Step number. -/
  step : Nat
  /-- Batch of the running step and its command number. -/
  running : Option (List BatchItem × Nat)
  /-- Status of the running step once its command has completed. -/
  finished : Option Half
deriving DecidableEq, Repr

/-! ## Store space -/

/-- A page's state (R142); an unmapped page has no record and lies in no range. -/
inductive PgState where
  /-- ZERO. -/
  | zero
  /-- RESIDENT_CLEAN. -/
  | clean
  /-- RESIDENT_DIRTY. -/
  | dirty
  /-- FLASH. -/
  | flash
  /-- FETCHING. -/
  | fetching
  /-- WRITING_BACK. -/
  | writing
  /-- POISONED. -/
  | poisoned
deriving DecidableEq, Repr

/-- A page record (R142, R146). -/
structure Page where
  /-- State. -/
  st : PgState
  /-- Frame kind PINNED. -/
  pinned : Bool
  /-- Compute die of the frame. -/
  die : Nat
  /-- ms of the last access. -/
  stamp : Nat
  /-- Left out of the eviction candidates after a failed write-back (R149). -/
  stuck : Bool
  /-- A pin waits for the fetch (R149). -/
  pinAfter : Bool
  /-- Released by its schedule entry: largest age (R150). -/
  released : Bool
  /-- Context that last touched it (R160). -/
  lastCtx : Byte
deriving DecidableEq, Repr

/-- A mapped range (R143–R145). -/
structure Range where
  /-- First page. -/
  base : Nat
  /-- Pages. -/
  pages : Nat
  /-- 0 LOCAL, 1 SPREAD, 2 DIE. -/
  hint : Nat
  /-- Die of the DIE hint. -/
  die : Nat
deriving DecidableEq, Repr

/-- One partition's store space (R140). -/
structure Store where
  /-- Mapped ranges. -/
  ranges : List Range
  /-- Page records; a mapped page without one is ZERO. -/
  pages : Tbl Page
  /-- Bytes; unlisted bytes read as zero. -/
  mem : Mem
deriving DecidableEq, Repr

/-! ## Shards -/

/-- Where a chunk's sum stands (R129). -/
inductive Place where
  /-- No sum held. -/
  | none
  /-- A window slot: logical cluster and slot. -/
  | slot (n : Nat)
  /-- HBM. -/
  | hbm
deriving DecidableEq, Repr

/-- One chunk (R130–R135). -/
structure Chunk where
  /-- n_c, the last step completed. -/
  n : Nat
  /-- Contributors whose bit is set for step n + 1. -/
  bits : List Nat
  /-- Contributors whose data has landed and been added. -/
  added : List Nat
  /-- The running sum; unlisted elements are absent before the first addition. -/
  sum : List Word
  /-- Where the sum stands. -/
  place : Place
  /-- When the first contribution of the step was accepted. -/
  firstAt : Option Nat
  /-- Late flag. -/
  late : Bool
  /-- Nonfinite flag. -/
  nonfinite : Bool
  /-- Lost flag. -/
  lost : Bool
  /-- Its memory is damaged: pushes are refused until SHD_IMPORT (R368). -/
  damaged : Bool
  /-- The step runs: count present r, or none (R131, R133). -/
  running : Option Nat
  /-- When the step first waited on its tier (R155). -/
  waitSince : Option Nat
  /-- Update groups of the running step already applied: new w, s1, s2 by group (R124, R133). -/
  updated : Tbl (List Word × List Word × List Word)
deriving DecidableEq, Repr

/-- A parameter group: first element and its coefficient entry (R123, R125). -/
structure Group where
  /-- First element. -/
  start : Nat
  /-- The 64-byte entry. -/
  entry : BitVec 512
deriving DecidableEq, Repr

/-- Settings of a shard that apply from a step on (R126, R127). -/
structure Settings where
  /-- First step they apply to. -/
  step : Nat
  /-- Groups. -/
  groups : List Group
  /-- Curves: points of step and FP32 value. -/
  curves : Tbl (List (Nat × Word))
deriving DecidableEq, Repr

/-- A shard (R120). -/
structure Shard where
  /-- Partition. -/
  part : PartIx
  /-- Die. -/
  die : DieIx
  /-- Elements n. -/
  n : Nat
  /-- State count 0 to 2. -/
  states : Nat
  /-- State format BF16; otherwise SINT8. -/
  bf16 : Bool
  /-- Publish format: 0 BF16, 1 E4M3, 2 E5M2. -/
  pub : Nat
  /-- Contributors C. -/
  contributors : Nat
  /-- Step deadline in ms; 0 none. -/
  deadline : Nat
  /-- Nonfinite policy APPLY. -/
  apply : Bool
  /-- Residency SPILL. -/
  spill : Bool
  /-- Frames it pins. -/
  frames : Nat
  /-- Settings, newest first. -/
  settings : List Settings
  /-- Highest step any chunk has begun to update (R126). -/
  begun : Nat
  /-- Master weights; unlisted elements are +0. -/
  w : Tbl Word
  /-- State s1 as read back into FP32; unlisted elements are +0. -/
  s1 : Tbl Word
  /-- State s2 as read back into FP32. -/
  s2 : Tbl Word
  /-- Chunks; unlisted chunks stand at step 0. -/
  chunks : Tbl Chunk
  /-- Who created it (R135). -/
  creator : Origin
  /-- Step event unanswered since, and a newer step held (R136). -/
  stepSent : Option Nat
  /-- A SHARD_STEP is held. -/
  stepHeld : Bool
  /-- Attention event unanswered since (R136). -/
  attnSent : Option Nat
  /-- S when last announced. -/
  announced : Nat
deriving DecidableEq, Repr

/-! ## Media, volumes, leases -/

/-- A block of a die slot of a group (R265). -/
structure Block where
  /-- Read count, saturating. -/
  reads : Nat
  /-- Valid units. -/
  valid : Nat
  /-- 0 free, 1 open, 2 closed, 3 erasing, 4 retired. -/
  st : Nat
  /-- Erase count; the generation is this modulo 65,536. -/
  erases : Nat
  /-- Parity rebuilds needed (R275). -/
  rebuilds : Nat
deriving DecidableEq, Repr

/-- A superblock (R248). -/
structure Super where
  /-- Blocks by slot. -/
  blocks : List Nat
  /-- Open for writes. -/
  isOpen : Bool
  /-- Units written so far; position of the next unit. -/
  fill : Nat
  /-- Wordlines closed (R259), by slot × 384 + wordline. -/
  closedWl : Nat
  /-- Time of the last program. -/
  lastProg : Nat
  /-- Time closed. -/
  closedAt : Nat
  /-- Time of the last patrol read. -/
  patrolAt : Nat
  /-- Queued for refresh. -/
  refresh : Bool
  /-- Units by position: object and unit number (the tag of R256). -/
  units : Tbl (Word × Nat)
  /-- Its erase is under way. -/
  erasing : Bool
  /-- Slots whose erase is suspended (R274). -/
  suspended : BitVec 16
  /-- Suspensions so far by slot (R274). -/
  suspends : Tbl Nat
  /-- When the erase last ran on, by slot (R274). -/
  resumedAt : Tbl Nat
deriving DecidableEq, Repr

/-- A parity group's state (R248, R269). -/
structure PGroup where
  /-- Blocks by slot × 4,096 + block; unlisted blocks are free and unworn. -/
  blocks : Tbl Block
  /-- Superblocks by serial. -/
  supers : Tbl Super
  /-- Next serial. -/
  nextSerial : Nat
  /-- Serial open for writes. -/
  openSerial : Option Nat
  /-- Collection victim and the serial its units move to (R270). -/
  victim : Option Nat
  /-- Collection is running (between the low and high marks). -/
  collecting : Bool
deriving DecidableEq, Repr

/-- Media policy (R277). -/
structure MedPolicy where
  /-- alpha as FP32. -/
  alpha : Word
  /-- beta as FP32. -/
  beta : Word
  /-- Low mark. -/
  low : Nat
  /-- High mark. -/
  high : Nat
  /-- Wear limit. -/
  wear : Nat
  /-- Read threshold. -/
  readThr : Nat
  /-- Patrol period in days. -/
  patrolDays : Nat
  /-- Recall timeout in µs. -/
  recallUs : Nat
deriving DecidableEq, Repr

/-- An absorbed write not yet destaged (R258). -/
structure Absorbed where
  /-- Absorb sequence. -/
  seq : Nat
  /-- Byte offset. -/
  off : Nat
  /-- Data. -/
  data : List Byte
deriving DecidableEq, Repr

/-- A volume (R252). -/
structure Vol where
  /-- Creating partition. -/
  part : PartIx
  /-- Size in bytes. -/
  size : Nat
  /-- Default completion mode: 1 DURABLE, 2 ABSORBED. -/
  mode : BitVec 2
  /-- Absorb buffer in MiB. -/
  absorbMiB : Nat
  /-- Partition whose pins hold the absorb buffer, while pinned. -/
  absorbPin : Option PartIx
  /-- Key source, and the key for source 1 (R450). -/
  keySource : Bool
  /-- Both halves of the key's number in the key store (R450). -/
  keyId : Nat
  /-- The key was lost (R455). -/
  keyLost : Bool
  /-- Bytes on the media; unlisted bytes read as zero. -/
  mem : Mem
  /-- Plat entries by unit; an unlisted unit is ZERO (R254). -/
  plat : Tbl Dword
  /-- Next absorb sequence. -/
  absorbNext : Nat
  /-- Durable watermark (R258). -/
  watermark : Nat
  /-- Absorbed writes waiting, oldest first. -/
  absorbed : List Absorbed
deriving DecidableEq, Repr

/-- A lease slot that is not FREE (R264). -/
structure Lease where
  /-- Full lease id's incarnation. -/
  inc : Nat
  /-- 1 ACTIVE, 2 RECALLING, 3 REVOKED. -/
  st : Nat
  /-- Volume. -/
  vol : Word
  /-- First sheet. -/
  first : Nat
  /-- Sheets. -/
  count : Nat
  /-- Holder node and its link. -/
  holder : BitVec 20
  /-- Link the holder came in on. -/
  link : Nat
  /-- Expiry in ns. -/
  expiry : Nat
  /-- When the recall was sent. -/
  recallAt : Nat
deriving DecidableEq, Repr

/-- Media state shared by volumes, collections and store space (chapter 10). -/
structure Media where
  /-- Parity groups; unlisted groups are new. -/
  groups : Tbl PGroup
  /-- Policy. -/
  pol : MedPolicy
  /-- Store reserve in bytes (R145). -/
  reserve : Nat
  /-- Backing reserved by STO_MAP, in bytes. -/
  mapped : Nat
  /-- Collection reservations, in bytes. -/
  colReserved : Nat
  /-- Plat cache budget in GiB (R255). -/
  platGiB : Nat
  /-- Landing bytes reserved (R257). -/
  landing : Nat
  /-- Landing capacity in bytes. -/
  landingCap : Nat
  /-- Plat writes committed so far; drives placement. -/
  placed : Nat
  /-- Bytes programmed since manufacture. -/
  programmed : Nat
  /-- Codewords read, by hour of module time × 8 + depth (R276). -/
  depths : Tbl Nat
  /-- Refreshes started, by hour of module time. -/
  refreshes : Tbl Nat
  /-- Refreshes of the first 30 days. -/
  firstRefreshes : Nat
  /-- Rebuilds, by hour of module time. -/
  rebuilds : Tbl Nat
  /-- Mean tPROG over the last 24 h and at the first cast-on, µs (R276). -/
  tprog : Nat
  /-- tPROG at the first cast-on. -/
  tprog0 : Nat
  /-- Wear flags (R276). -/
  wearFlags : BitVec 5
  /-- Hold-up energy measured, mJ, and when (R260). -/
  holdupMj : Nat
  /-- When the hold-up store was last measured. -/
  holdupAt : Nat
  /-- DURABLE writes wait for their wordlines (R260, R371). -/
  slowAck : Bool
  /-- Protected staging out of service per media die, MiB (R371). -/
  stagingLost : Tbl Nat
  /-- Channels retired. -/
  deadChannels : List Nat
  /-- Channels at reduced rate. -/
  slowChannels : List Nat
  /-- Page buffers out of service per channel. -/
  deadBuffers : Tbl Nat
  /-- NAND programs stopped by a trip: grants held (R429). -/
  nandStopped : Bool
deriving DecidableEq, Repr

/-! ## Collections and scans -/

/-- A stored item (R192, R193). -/
structure Item where
  /-- Item id. -/
  id : Nat
  /-- Norm as supplied, FP32 (cosine). -/
  norm : Word
  /-- Attribute words. -/
  attrs : List Dword
  /-- Vector bytes as stored. -/
  vec : List Byte
  /-- Parcel. -/
  parcel : Nat
  /-- Insert epoch. -/
  ins : Nat
  /-- Delete epoch; 0xFFFFFFFF while live. -/
  del : Nat
  /-- ρ, FP16 rounded up. -/
  rho : Half
  /-- ν, FP16 rounded up. -/
  nu : Half
  /-- Code bytes. -/
  code : List Nat
deriving DecidableEq, Repr

/-- A parcel directory entry without its centroid (R201). -/
structure Parcel where
  /-- Radius. -/
  radius : Word
  /-- Largest ν. -/
  nuMax : Word
  /-- Items held. -/
  held : Nat
deriving DecidableEq, Repr

/-- A collection (R190). -/
structure Col where
  /-- Partition. -/
  part : PartIx
  /-- Dimensions. -/
  dim : Nat
  /-- Element format code (R41). -/
  fmt : Nat
  /-- 0 inner product, 1 cosine, 2 squared Euclidean. -/
  dist : Nat
  /-- Subquantisers. -/
  m : Nat
  /-- Parcels. -/
  parcels : Nat
  /-- Attribute words. -/
  attrs : Nat
  /-- Filter words. -/
  filters : Nat
  /-- Graph degree. -/
  degree : Nat
  /-- Item limit. -/
  limit : Nat
  /-- Publish interval in ms. -/
  publishMs : Nat
  /-- Traverse budget. -/
  budget : Nat
  /-- Compaction threshold in percent. -/
  compact : Nat
  /-- Reservation in bytes. -/
  reserved : Nat
  /-- Pinned frames of codebook and directory. -/
  frames : Nat
  /-- Codebook, once written. -/
  codebook : Option (List Word)
  /-- Centroids, once written. -/
  centroids : Option (List Word)
  /-- Items by item number. -/
  items : Tbl Item
  /-- Next item number. -/
  nextItem : Nat
  /-- Current epoch E. -/
  epoch : Nat
  /-- Epoch that mutations granted now take (R217). -/
  pending : Nat
  /-- Retired floor (R221). -/
  floor : Nat
  /-- Directory; unlisted parcels are empty. -/
  dir : Tbl Parcel
  /-- Edges by item number. -/
  edges : Tbl (List Nat)
  /-- Entry nodes. -/
  entries : List Nat
  /-- Items inserted and not yet linked. -/
  unlinked : List Nat
  /-- The pending epoch holds a mutation that has completed (R217). -/
  mutated : Bool
  /-- Publish commands waiting: closed epoch and command, oldest first; none for an automatic publish. -/
  closing : List (Nat × Option Nat)
  /-- Time of the last automatic publish. -/
  publishAt : Nat
deriving DecidableEq, Repr

/-- A filter term (R212). -/
structure Term where
  /-- Word or field index. -/
  word : Nat
  /-- Op. -/
  op : Nat
  /-- Clause (scans only, R231). -/
  clause : Nat
  /-- Mask. -/
  mask : Nat
  /-- Value. -/
  value : Nat
deriving DecidableEq, Repr

/-- A running query (R205). -/
structure Query where
  /-- Its command. -/
  cmd : Nat
  /-- Collection. -/
  col : Word
  /-- k. -/
  k : Nat
  /-- Epoch. -/
  epoch : Nat
  /-- Filter. -/
  terms : List Term
  /-- Query vector, FP32. -/
  q : List Word
  /-- Flags of the descriptor. -/
  flags : Nat
  /-- Heap: distance, id, item number, nearest first. -/
  heap : List (Word × Nat × Nat)
  /-- Parcels not yet started in ascending bound order: bound, parcel. -/
  order : List (Word × Nat)
  /-- Parcels being scanned. -/
  started : List Nat
  /-- Survivors waiting to be evaluated. -/
  survivors : List Nat
  /-- Parcels scanned. -/
  scanned : Nat
  /-- Nodes evaluated by the traverse. -/
  nodes : Nat
  /-- Code records bounded. -/
  bounded : Nat
  /-- Items evaluated exactly. -/
  evaluated : Nat
deriving DecidableEq, Repr

/-- A field of a record format (R230). -/
structure Field where
  /-- Offset. -/
  off : Nat
  /-- Length. -/
  len : Nat
  /-- Type. -/
  ty : Nat
deriving DecidableEq, Repr

/-- A span of a scan (R235). -/
structure Span where
  /-- Byte position of the next page from the range start. -/
  pos : Nat
  /-- An engine holds it. -/
  placed : Bool
  /-- It has ended. -/
  done : Bool
  /-- Its output has been released. -/
  released : Bool
  /-- Output records held for order, oldest first. -/
  out : List (List Byte)
deriving DecidableEq, Repr

/-- The counters of a scan's summary (R245). -/
structure Summary where
  /-- pages read. -/
  pages : Nat := 0
  /-- empty pages. -/
  empty : Nat := 0
  /-- bad and unreadable pages. -/
  bad : Nat := 0
  /-- offset of the first bad page. -/
  firstBad : Option Nat := none
  /-- records seen. -/
  seen : Nat := 0
  /-- records matched. -/
  matched : Nat := 0
  /-- records output. -/
  output : Nat := 0
  /-- records failed. -/
  failed : Nat := 0
  /-- bytes read from flash. -/
  flash : Nat := 0
  /-- decoded bytes. -/
  decoded : Nat := 0
  /-- first failing status of R244. -/
  status : Half := 0
  /-- truncated. -/
  truncated : Bool := false
  /-- CLASSIFY counts. -/
  classes : Tbl Nat := []
deriving DecidableEq, Repr

/-- An outstanding scan sequence (R241). -/
structure ScanSeq where
  /-- Attribute words. -/
  attrs : List Dword
  /-- Key. -/
  key : Nat
  /-- Page offset. -/
  page : Nat
  /-- Record index. -/
  index : Nat
  /-- Projected bytes. -/
  proj : List Byte
  /-- Tokens of its prompt. -/
  tokens : Nat
  /-- It has been submitted to the endpoint. -/
  fed : Bool
  /-- The status its sequence ended with. -/
  ended : Option Half
deriving DecidableEq, Repr

/-- A record held for a top_n sink (R240). -/
structure TopRec where
  /-- Score. -/
  score : Word
  /-- Page offset. -/
  page : Nat
  /-- Record index. -/
  index : Nat
  /-- The output record. -/
  bytes : List Byte
deriving DecidableEq, Repr

/-- A running scan (R233). -/
structure Scan where
  /-- Its command. -/
  cmd : Nat
  /-- Volume. -/
  vol : Word
  /-- Range start. -/
  base : Nat
  /-- Range length. -/
  len : Nat
  /-- Sink. -/
  sink : Nat
  /-- Flags. -/
  flags : Nat
  /-- Key field, token field, score count. -/
  keyField : Nat
  /-- Token field. -/
  tokField : Nat
  /-- Score count. -/
  scores : Nat
  /-- Collection for EMBED. -/
  col : Word
  /-- Endpoint. -/
  endpoint : Nat
  /-- Output area. -/
  outBase : Nat
  /-- Output area length. -/
  outLen : Nat
  /-- Output record limit. -/
  limit : Nat
  /-- Threshold. -/
  threshold : Word
  /-- top_n. -/
  topN : Nat
  /-- Output window w. -/
  window : Nat
  /-- Record kind 0 to 2. -/
  kind : Nat
  /-- Fixed length. -/
  fixed : Nat
  /-- Fields. -/
  fields : List Field
  /-- Terms. -/
  terms : List Term
  /-- Projection. -/
  proj : List Nat
  /-- Spans. -/
  spans : Tbl Span
  /-- Summary so far. -/
  sum : Summary
  /-- Output bytes written or sent. -/
  written : Nat
  /-- Segments sent and not returned (R239). -/
  unreturned : Nat
  /-- Output waiting for a segment. -/
  segment : List Byte
  /-- Sequences outstanding by record number. -/
  seqs : Tbl ScanSeq
  /-- Next sequence record number. -/
  nextSeq : Nat
  /-- Top records, best first. -/
  top : List TopRec
  /-- Stopped early with this status and detail (R228, R246). -/
  stop : Option (Half × Nat)
  /-- Staging frames pinned (R241). -/
  frames : Nat
deriving DecidableEq, Repr

/-! ## Links and fabric -/

/-- State of a link (R283). -/
inductive LinkSt where
  /-- DISABLED. -/
  | disabled
  /-- DARK. -/
  | dark
  /-- TUNING. -/
  | tuning
  /-- TRAINING. -/
  | training
  /-- UP. -/
  | up
  /-- QUARANTINED. -/
  | quarantined
  /-- FAILED. -/
  | failed
deriving DecidableEq, Repr

/-- A unit waiting to leave, or relayed through (R291, R310). -/
structure OutUnit where
  /-- 0 capsule, 1 status reply, 2 RX_GRANT, 3 data segment, 4 relayed unit, 5 a unit to be aborted (R299). -/
  kind : Nat
  /-- Traffic class. -/
  cls : Nat
  /-- Level. -/
  level : Nat
  /-- Destination node. -/
  dst : BitVec 20
  /-- Source node. -/
  src : BitVec 20
  /-- Opcode. -/
  op : Half
  /-- Tag. -/
  tag : Half
  /-- Status. -/
  status : Half
  /-- Detail or position. -/
  detail : Nat
  /-- Count or bytes. -/
  count : Nat
  /-- Bytes of a data segment or of a relayed unit. -/
  data : List Byte
  /-- Slots of the unit. -/
  slots : Nat
  /-- Slots already sent. -/
  sent : Nat
  /-- Input link of a relayed unit. -/
  inLink : Option Nat
  /-- Command table entry whose status reply this is. -/
  cmd : Option Nat
  /-- Object and offset of a capsule the module issues. -/
  object : Word
  /-- Offset or event value of such a capsule. -/
  offset : Dword
  /-- When it began to wait (R299). -/
  since : Nat
deriving DecidableEq, Repr

/-- A unit being received or relayed slot by slot (R291). -/
structure RxUnit where
  /-- Slots still to come. -/
  left : Nat
  /-- Bytes so far, of a unit for this module. -/
  bytes : List Byte
  /-- Output link of a relayed unit. -/
  dest : Option Nat
  /-- Its slots are dropped. -/
  drop : Bool
deriving DecidableEq, Repr

/-- A wavelength out of the mask (R292). -/
structure Shed where
  /-- Times it was shed, newest first. -/
  times : List Nat
  /-- Shed now for a fault. -/
  out : Bool
  /-- Shed now for power. -/
  power : Bool
  /-- Held until (R292). -/
  until_ : Nat
  /-- When its cause cleared and its PRBS31 began (R292). -/
  clearAt : Nat
deriving DecidableEq, Repr

/-- A microring (R281, R282): rings 0–31 transmit, 32–63 receive. -/
structure Ring where
  /-- Heater power in µW. -/
  heater : Int
  /-- Resonance order relative to the first lock. -/
  order : Int
  /-- Hopping. -/
  hopping : Bool
  /-- Locked. -/
  locked : Bool
  /-- Failed locks in successive full trainings. -/
  misses : Nat
  /-- Marked failed. -/
  failed : Bool
deriving DecidableEq, Repr

/-- Link counters (R307). -/
structure LinkCtr where
  /-- flits_rx. -/
  flitsRx : Nat := 0
  /-- flits_tx. -/
  flitsTx : Nat := 0
  /-- bytes_local_rx. -/
  localRx : Nat := 0
  /-- bytes_local_tx. -/
  localTx : Nat := 0
  /-- bytes_relay_in. -/
  relayIn : Nat := 0
  /-- bytes_relay_out. -/
  relayOut : Nat := 0
  /-- corrected_bytes. -/
  corrected : Nat := 0
  /-- uncorrectable. -/
  uncorrectable : Nat := 0
  /-- crc_fail (32 bits, saturating, as those below). -/
  crcFail : Nat := 0
  /-- gcm_fail. -/
  gcmFail : Nat := 0
  /-- nacks_sent. -/
  nacks : Nat := 0
  /-- replays. -/
  replays : Nat := 0
  /-- link_down. -/
  downs : Nat := 0
  /-- trainings. -/
  trainings : Nat := 0
  /-- sheds. -/
  sheds : Nat := 0
  /-- restores. -/
  restores : Nat := 0
  /-- ring_hops. -/
  hops : Nat := 0
  /-- violations. -/
  violations : Nat := 0
  /-- drop_route. -/
  dropRoute : Nat := 0
  /-- drop_hop. -/
  dropHop : Nat := 0
  /-- credit_stall. -/
  creditStall : Nat := 0
  /-- corrected per wavelength. -/
  perLambda : Tbl Nat := []
deriving DecidableEq, Repr

/-- A link control message sent in a CONTROL flit (R288). -/
inductive CtlMsg where
  /-- A lane change that names a mask for the peer's transmitter (R293). -/
  | laneChange (mask : Word)
  /-- The answer: the seq of the first flit that uses the mask (R293). -/
  | laneAnswer (mask : Word) (seq : BitVec 12)
  /-- A batch credit return of 16 fields (R288). -/
  | creditReturn (slots : List Nat)
  /-- A link-down notice (R286). -/
  | linkDown
deriving DecidableEq, Repr

/-- An optical link (chapter 11). -/
structure Link where
  /-- State. -/
  st : LinkSt
  /-- When the state was entered. -/
  since : Nat
  /-- Active mask, sending. -/
  txMask : Word
  /-- Active mask, receiving. -/
  rxMask : Word
  /-- Mask asked of the peer's transmitter by a lane change (R293). -/
  laneAsk : Option Word
  /-- Mask answered and the seq of the first flit that uses it (R293). -/
  laneAt : Option (Word × BitVec 12)
  /-- Peer node id; 0 while not trained. -/
  peer : BitVec 20
  /-- R304 in force. -/
  encrypted : Bool
  /-- Keys and salts installed: tx key, rx key, tx salt, rx salt. -/
  keys : Option (List Byte × List Byte × Word × Word)
  /-- Keys and salts set by LNK_SET_KEY that the next training takes up (R304). -/
  newKeys : Option (List Byte × List Byte × Word × Word)
  /-- Flit counter of the transmit key. -/
  flitCtr : Nat
  /-- Flit counter of the receive key. -/
  rxCtr : Nat
  /-- A training attempt is under way (R284). -/
  trying : Bool
  /-- When the link was quarantined, while it is (R308). -/
  quarantinedAt : Option Nat
  /-- Link control messages sent, oldest first. -/
  controlOut : List CtlMsg
  /-- Next PAYLOAD sequence number to send. -/
  txSeq : BitVec 12
  /-- Last PAYLOAD flit received in order. -/
  rxSeq : BitVec 12
  /-- A nack is outstanding: flits are discarded until the resent one (R290). -/
  nacked : Bool
  /-- Replay buffer: sequence numbers and bytes of unacknowledged flits, oldest first. -/
  replay : List (BitVec 12 × List Byte)
  /-- The transmitter resends the replay buffer. -/
  resend : Bool
  /-- Successive failed replays of one flit. -/
  replayFails : Nat
  /-- When an acknowledgement last progressed. -/
  ackAt : Nat
  /-- PAYLOAD flits received since the last acknowledgement sent, and since when. -/
  unacked : Nat
  /-- When the last acknowledgement was sent. -/
  ackSentAt : Nat
  /-- Acknowledgements sent: the sequence numbers, oldest first. -/
  acksOut : List (BitVec 12 × Bool)
  /-- Credits held towards the peer by 4 × class + level. -/
  credits : Tbl Nat
  /-- Slots freed and to be returned to the peer. -/
  owed : Tbl Nat
  /-- When a credit counter fell to zero with units waiting. -/
  stalled : Tbl Nat
  /-- Units being received, by 4 × class + level. -/
  openRx : Tbl RxUnit
  /-- Units waiting to leave. -/
  waiting : List OutUnit
  /-- Input link served last in rotation, by 4 × class + level (R297). -/
  lastIn : Tbl Nat
  /-- Slots sent since the last class 0 slot (R297). -/
  sinceC0 : Nat
  /-- Slots of the flit being filled: descriptors and bytes. -/
  filling : List (Nat × List Byte)
  /-- Wavelengths out of the mask by index. -/
  sheds : Tbl Shed
  /-- Rings; unlisted rings are unlocked and unheated. -/
  rings : Tbl Ring
  /-- Laser input present by wavelength. -/
  laser : BitVec 8
  /-- min_width. -/
  minWidth : Nat
  /-- max_width. -/
  maxWidth : Nat
  /-- power_shed. -/
  powerShed : Bool
  /-- shed threshold N in "1 in N". -/
  shedOneIn : Nat
  /-- quarantine count. -/
  qCount : Nat
  /-- quarantine window, ms. -/
  qWindow : Nat
  /-- quarantine hold, s. -/
  qHold : Nat
  /-- credit stall limit, µs. -/
  stallUs : Nat
  /-- Protocol violations: times within the window, newest first. -/
  violations : List Nat
  /-- When a PROTOCOL_VIOLATION entry was last written, and violations since (R321). -/
  violLog : Option (Nat × Nat)
  /-- Successive training failures, and when the next attempt falls (R286). -/
  fails : Nat
  /-- Next training attempt. -/
  nextTry : Nat
  /-- The next attempt is a full training. -/
  nextFull : Bool
  /-- When a valid flit last arrived. -/
  flitAt : Nat
  /-- Times of tag failures within the last second. -/
  tagFails : List Nat
  /-- Counters. -/
  ctr : LinkCtr
deriving DecidableEq, Repr

/-- A capsule the module has issued and not seen answered (R136, R263). -/
structure Issued where
  /-- Tag of its own. -/
  tag : Half
  /-- Opcode. -/
  op : Half
  /-- Addressee. -/
  dst : BitVec 20
  /-- Object. -/
  object : Word
  /-- Lease slot or event code. -/
  info : Nat
  /-- When it left. -/
  left : Nat
deriving DecidableEq, Repr

/-- A directory entry (R329). -/
structure DirEntry where
  /-- Object id. -/
  object : Word
  /-- First, inclusive. -/
  first : Nat
  /-- End, exclusive. -/
  stop : Nat
  /-- Owner node. -/
  owner : BitVec 20
  /-- Generation at which it was written. -/
  gen : Nat
deriving DecidableEq, Repr

/-- Fabric state outside the links (chapter 12). -/
structure Fabric where
  /-- Route table by node id: bits [4:0] link, bit 5 valid; default 0. -/
  routes : Tbl Byte
  /-- Package links down (R20), by the 22 of R18. -/
  pkgDown : BitVec 22
  /-- Alternate routes installed for package links: link and the dies crossed. -/
  pkgAlt : List (Nat × List Nat)
  /-- Capsules the module issued. -/
  issued : List Issued
  /-- Next tag of its own. -/
  nextTag : Half
  /-- Group id, 0 none. -/
  groupId : Half
  /-- Role manager. -/
  manager : Bool
  /-- Manager node id. -/
  managerNode : BitVec 20
  /-- Directory in object id and first order. -/
  dir : List DirEntry
  /-- Directory generation. -/
  dirGen : Nat
deriving DecidableEq, Repr

/-! ## Errors, recovery -/

/-- An entry of an injection list (R375). -/
structure Injected where
  /-- Die. -/
  die : Nat
  /-- Target code (R374). -/
  target : Nat
  /-- Unit. -/
  unit : Nat
  /-- Address. -/
  addr : Nat
  /-- Data as stored. -/
  data : List Dword
  /-- Check bits as stored. -/
  chk : Dword
deriving DecidableEq, Repr

/-- Error handling state (chapter 14). -/
structure Errs where
  /-- Correctable errors by unit code (log unit field). -/
  corrected : Tbl Nat
  /-- When ECC_CORRECTED was last logged for a unit and the count since. -/
  corrLogged : Tbl (Nat × Nat)
  /-- Uncorrectable errors by unit code. -/
  uncorrected : Tbl Nat
  /-- Remap entries: die, macro, address (R370). -/
  remaps : List (Nat × Nat × Nat)
  /-- Retired units (R371, R383, R393). -/
  retired : List HwUnit
  /-- Units out of service and not retired (R381, R384). -/
  out : List HwUnit
  /-- Injection lists, oldest first (R375). -/
  injected : List Injected
  /-- Words of memories that the model keeps nowhere else, as the test port wrote them, by die, target, unit and
  address (R374). -/
  words : Tbl (List Dword)
  /-- Test port of each die: CTL without go (R374). -/
  portCtl : Tbl Word
  /-- Test port of each die: ADDR. -/
  portAddr : Tbl Dword
  /-- Test port result per die: STAT (R374). -/
  portStat : Tbl Word
  /-- CHK as read back per die. -/
  portChk : Tbl Dword
  /-- DATA words as read back per die. -/
  portData : Tbl (List Dword)
  /-- Repair record (R373). -/
  repair : List (Nat × Nat × Nat) × List HwUnit
  /-- Swatch scan period in s (R382). -/
  swatchPeriod : Nat
  /-- Idle scan period in s. -/
  idlePeriod : Nat
  /-- Residue limit. -/
  residueLimit : Nat
  /-- When each unit was last scanned. -/
  scannedAt : List (HwUnit × Nat)
  /-- Self-test records (R378) by die. -/
  selfTest : Tbl (List Byte)
  /-- Staging macro words lost. -/
  stagingLost : Nat
deriving DecidableEq, Repr

/-- A suspect (R394). -/
structure Suspect where
  /-- Context. -/
  ctx : Byte
  /-- Its affected command. -/
  cmd : Nat
  /-- Engine. -/
  unit : HwUnit
  /-- Row offset or record position at which the fault was recorded. -/
  pos : Nat
deriving DecidableEq, Repr

/-- A reset under way (R387). -/
structure Reset where
  /-- Domain. -/
  target : ResetTarget
  /-- When its deadline passes. -/
  deadline : Nat
  /-- When it started. -/
  started : Nat
  /-- A watchdog ordered it: a hang (R393). -/
  hang : Bool
  /-- Log code of its cause. -/
  cause : Half
deriving DecidableEq, Repr

/-- A crash dump (R404). -/
structure Dump where
  /-- Dump sequence. -/
  seq : Nat
  /-- Module time at its start. -/
  time : Nat
  /-- Trigger: 0 module reset, 1 partition reset, 2 RCV_DUMP. -/
  trigger : Nat
  /-- Partition, for trigger 1. -/
  part : Nat
  /-- Log code of the cause. -/
  cause : Half
  /-- Units dumped. -/
  units : List HwUnit
  /-- Units that timed out. -/
  unreadable : List HwUnit
  /-- Flags: bit 0 truncated, bit 1 written to HBM. -/
  flags : BitVec 2
deriving DecidableEq, Repr

/-- Recovery state (chapter 15). -/
structure Rcv where
  /-- Generations by unit code, default 0 (R390). -/
  gens : Tbl Byte
  /-- Stale counters by unit code. -/
  stale : Tbl Nat
  /-- Resets under way. -/
  resets : List Reset
  /-- Suspects in replay order (R394). -/
  suspects : List Suspect
  /-- Hangs whose replays are outstanding: the engine, and whether a suspect has reproduced the fault (R393). -/
  charge : List (HwUnit × Bool)
  /-- When each engine's last reset began, by unit code (R390). -/
  resetAt : Tbl Nat
  /-- A module reset under way or ordered: its MOD_CAUSE.last_reset code, and no_dump (R399, R406). -/
  whole : Option (BitVec 4 × Bool)
  /-- When STALE_REPLY was last logged, by unit code (R390). -/
  staleLogged : Tbl Nat
  /-- Hangs charged to units: unit and time (R393). -/
  hangs : List (HwUnit × Nat)
  /-- Engine resets of channels and media cores: unit and time (R393). -/
  engineResets : List (HwUnit × Nat)
  /-- Summary ring of 16 dumps, oldest first (R405). -/
  summaries : List Dump
  /-- The dump area: up to two whole dumps. -/
  area : List Dump
  /-- The dump region of the configuration flash. -/
  region : Option Dump
  /-- Next dump sequence. -/
  nextDump : Nat
deriving DecidableEq, Repr

/-! ## Power and cooling -/

/-- Power and cooling state outside the dies (chapter 16). -/
structure Power where
  /-- Module cap in W as set. -/
  capW : Nat
  /-- Lowering of the cap by the coolant inlet, W (R432). -/
  hotW : Nat
  /-- The 1,600 W cap for low flow stands (R432). -/
  lowFlow : Bool
  /-- Input power last sampled, mW. -/
  inputMw : Nat
  /-- Since when input has been below every cap by 50 W. -/
  belowSince : Option Nat
  /-- Thermal target, °C. -/
  targetC : Nat
  /-- Gate timer, µs. -/
  gateUs : Nat
  /-- Retain timer, ms; none for never. -/
  retainMs : Option Nat
  /-- Spread depth in 0.1 % and rate in kHz per media die (R417). -/
  spread : Tbl (Nat × Nat)
  /-- Coolant PG25; otherwise water. -/
  pg25 : Bool
  /-- Inlet temperature, m°C. -/
  inletMc : Int
  /-- Outlet temperature, m°C. -/
  outletMc : Int
  /-- Flow estimate, mL/min. -/
  flow : Nat
  /-- Temperatures of media dies, light dies, HBM stacks and NAND groups last read, m°C. -/
  temps : List (Sensor × Int)
  /-- Sensors at their hardware limit. -/
  limited : List Sensor
  /-- DIE_BLOCK_EN by die (R418). -/
  blockEn : Tbl Dword
  /-- DIE_CHAN_EN of M0 and M1 by die. -/
  chanEn : Tbl Dword
  /-- module_unattributed_mj in µJ (R186). -/
  unattributedUj : Nat
  /-- When energy was last charged. -/
  chargedAt : Nat
  /-- The counters of each context when energy was last charged (R186). -/
  chargedCtr : Tbl Counters
  /-- Pins overridden by a limit and when last logged (R433). -/
  clipped : List (Nat × Nat)
deriving DecidableEq, Repr

/-! ## Security, firmware, configuration -/

/-- An access table entry (R452). -/
structure Access where
  /-- Origin kind. -/
  kind : BitVec 4
  /-- Id. -/
  id : BitVec 20
  /-- Mask. -/
  mask : BitVec 20
  /-- Rights: bits 3p READ, 3p + 1 WRITE, 3p + 2 ADMIN. -/
  rights : BitVec 12
  /-- The module administration right. -/
  admin : Bool
deriving DecidableEq, Repr

/-- A configuration image in a slot (R460). -/
structure CfgImage where
  /-- Generation. -/
  gen : Nat
  /-- Items: id and value bytes. -/
  items : List (Nat × List Byte)
  /-- The image bytes. -/
  raw : List Byte
deriving DecidableEq, Repr

/-- A firmware bundle known by its version, security version and digest. -/
structure Bundle where
  /-- Bundle version. -/
  version : Word
  /-- Security version. -/
  sv : Nat
  /-- Digest. -/
  digest : List Byte
deriving DecidableEq, Repr

/-- The configuration flash controller (R456–R458). -/
structure Cfl where
  /-- Bytes of the window; unlisted bytes read as erased (0xFF). -/
  mem : Mem
  /-- Base of the sector being programmed. -/
  progAt : Option Nat
  /-- Base of the block being erased. -/
  eraseAt : Option Nat
  /-- Data being programmed. -/
  data : List Byte
  /-- An erase is suspended. -/
  suspended : Bool
  /-- Suspended by a fetch, and the time of the last fetch (R457). -/
  fetchAt : Option Nat
  /-- seq_error. -/
  seqError : Bool
  /-- op_error. -/
  opError : Bool
  /-- xo_locked. -/
  xoLocked : Bool
  /-- Execute-only map: ranges of blocks, first and count (R457). -/
  xo : List (Nat × Nat)
  /-- CFL_CAUSE.cause. -/
  cause : BitVec 3
  /-- CFL_CAUSE.valid. -/
  causeValid : Bool
  /-- CFL_CAUSE_ADDR. -/
  causeAddr : BitVec 28
  /-- Erase counts by block. -/
  ecnt : Tbl Nat
  /-- The identity row is shown (OTP_ENTER). -/
  otp : Bool
deriving DecidableEq, Repr

/-- An SPDM connection of one endpoint (R447, R449). -/
structure Spdm where
  /-- Step of the flow reached: 1 version, 2 capabilities, 3 algorithms, 4 algorithms with ML-KEM-768. -/
  step : Nat
  /-- A secure session is open with this origin index; `claim` when it may only claim ownership. -/
  session : Option (BitVec 4 × Bool)
deriving DecidableEq, Repr

/-- Trust, firmware, configuration and keys (chapter 17). -/
structure Sec where
  /-- The identity row, three copies (R436). -/
  otp : List Mem
  /-- Running bundle. -/
  running : Bundle
  /-- Committed bundle, if the commit block holds a digest. -/
  committed : Option Bundle
  /-- Staging area: owner, bytes staged, frames taken (R442). -/
  staging : Option (Origin × Mem × Nat)
  /-- Step C2 to C6 of a commit under way; 0 for none (R443). -/
  commitStep : Nat
  /-- Its command in the command table, or the EID of a PLDM update (R466). -/
  commitFor : Nat ⊕ Byte
  /-- Its options: bit 0 advance_sv, bit 1 reset_after, bit 2 revoke_older (R441). -/
  commitOpts : Nat
  /-- C3 to C5 have been repeated once. -/
  commitAgain : Bool
  /-- Configuration writes that wait for the commit, oldest first (R462). -/
  waitingCfg : List Nat
  /-- Next offset that recovery staging accepts (R445). -/
  recoveryNext : Nat
  /-- Base configuration slots, older and newer. -/
  base : List CfgImage
  /-- Overlay slots by overlay. -/
  overlays : Tbl (List CfgImage)
  /-- Active overlay mask. -/
  active : BitVec 16
  /-- Item values in force (R461). -/
  applied : List (Nat × List Byte)
  /-- Access table (R452). -/
  access : List Access
  /-- Session key digests, indices 1–15 (R449). -/
  sessionKeys : List (List Byte)
  /-- Keys in the key store: object and key, key number (R450). -/
  keys : Tbl (Word × List Byte)
  /-- Next key number. -/
  nextKey : Nat
  /-- Answers to SPDM and PLDM requests, oldest first: EID, message code, data. -/
  replies : List (Byte × Nat × List Byte)
  /-- SPDM connections by EID. -/
  spdm : Tbl Spdm
  /-- Novale N4 self-test selected (R378). -/
  n4 : Bool
  /-- Configuration flash controller. -/
  cfl : Cfl
deriving DecidableEq, Repr

/-! ## The whole -/

/-- The state of the module. -/
structure State where
  /-- Commands waiting, first in first out. -/
  pending : List Instr
  /-- Supplies, time, MOD registers, pins. -/
  sys : Sys
  /-- The log. -/
  log : LogRing
  /-- The PCIe control function. -/
  host : HostIf
  /-- The command table by admission number. -/
  cmds : Tbl Live
  /-- Next admission number. -/
  nextCmd : Nat
  /-- Tasks waiting for engines. -/
  tasks : List Task
  /-- Next task number. -/
  nextTask : Nat
  /-- Scan engine tasks held: media die × 8 + engine, task (R172). -/
  scanHeld : List (Nat × Task)
  /-- Compute dies; unlisted dies stand at reset. -/
  dies : Tbl Die
  /-- Programs by object id. -/
  programs : Tbl Program
  /-- Partitions in use. -/
  parts : Tbl Part
  /-- Contexts in use. -/
  ctxs : Tbl Ctx
  /-- Serving endpoints. -/
  endpoints : Tbl Endpoint
  /-- Next endpoint id. -/
  nextEndpoint : Nat
  /-- Store spaces; an unlisted partition's is empty. -/
  stores : Tbl Store
  /-- Shards by object id. -/
  shards : Tbl Shard
  /-- Media. -/
  media : Media
  /-- Volumes by object id. -/
  vols : Tbl Vol
  /-- Lease slots. -/
  leases : Tbl Lease
  /-- Collections by object id. -/
  cols : Tbl Col
  /-- Queries by number. -/
  queries : Tbl Query
  /-- Scans by number. -/
  scans : Tbl Scan
  /-- Links; unlisted links stand at reset. -/
  links : Tbl Link
  /-- Fabric, routes, group directory. -/
  fabric : Fabric
  /-- Error handling. -/
  errs : Errs
  /-- Recovery. -/
  rcv : Rcv
  /-- Power and cooling. -/
  power : Power
  /-- Security, firmware, configuration. -/
  sec : Sec
  /-- The model's own field: free values drawn so far; `Config.free…` are applied to it. -/
  free : Nat
deriving DecidableEq, Repr


/-! ## Units as they stand at reset -/

/-- A control queue at reset (R344). -/
def CtlQ.fresh : CtlQ :=
  { sqBase := 0, cqBase := 0, cfg := 0, tail := 0, cqHead := 0, sqHead := 0, error := false, cause := 0,
    outstanding := 0, cqTail := 0, phase := true, written := [], done := [], events := [], unsignalled := 0,
    firstAt := 0, cqDead := false }

/-- A result slot at reset (R355). -/
def Slot.fresh : Slot :=
  { state := 0, status := 0, length := 0, tag := 0, opcode := 0, seq := 0, payload := [] }

/-- A mailbox channel at reset, bound to none (R359). -/
def Mbx.fresh : Mbx := { word := 0, full := false, overruns := 0, bind := 0 }

/-- Registers, flags and tokens as a command starts (R48, R68). -/
def Core.fresh : Core :=
  { pc := 0, ix := List.replicate 16 0, flags := 0, loops := [], tokens := [], firstFailed := none, failedAt := 0,
    failSt := [] }

/-- A vector engine at reset. -/
def VEng.fresh : VEng :=
  { flight := [], coef := none, mismatches := [], chunk := none }

/-- An array cluster at reset. -/
def Cluster.fresh : Cluster :=
  { flight := [], waiting := none, drains := [], sampledUntil := 0, sampledLast := 0 }

/-- A compute die at reset: in RUN at k = 16, idle, scratchpads zero, its quarter of the default plat cache in MODULE
frames (R139, R141, R411, R423, R426). -/
def Die.fresh : Die :=
  { stream := none, parked := [], clusters := [], engines := [], movers := [], pad := [], regs := [], undef := 0,
    rows := [], deadSegs := 0, trace := [], retired := 0, moduleFrames := 2048, shardFrames := 0, saveFrames := 0,
    landingFrames := 0, progFrames := 0, otherFrames := 0, evicting := false, pstate := .run,
    idleAt := none, wakingAt := none, enteredAt := 0, k := 16, capK := 16, thermK := 16, kmin := 8, kmax := 16, milliC := 25000,
    replaying := false, dead := false, noMirror := false }

/-- A partition as PAR_CREATE leaves it: no dies yet, policies at their defaults (R153, R156, R161, R176, R177). -/
def Part.fresh : Part :=
  { dies := 0, swatch := 0, scan := 0, shareFlash := 16, shareLinks := 16, sharePool := 16, prioPreempt := true,
    sliceUs := 2000, starveUs := 100000, floor := 0, pinLimit := 32768, pinned := 0, tierMs := 50, prefetch := 2,
    idleH := 24, fencedAt := none, capW := none }

/-- An empty store space. -/
def Store.fresh : Store := { ranges := [], pages := [], mem := [] }

/-- A chunk at step 0 with no contribution. -/
def Chunk.fresh : Chunk :=
  { n := 0, bits := [], added := [], sum := [], place := .none, firstAt := none, late := false, nonfinite := false,
    lost := false, damaged := false, running := none, waitSince := none,
    updated := [] }

/-- A free, unworn block. -/
def Block.fresh : Block := { reads := 0, valid := 0, st := 0, erases := 0, rebuilds := 0 }

/-- A parity group with every block free. -/
def PGroup.fresh : PGroup :=
  { blocks := [], supers := [], nextSerial := 0, openSerial := none, victim := none, collecting := false }

/-- An empty parcel. -/
def Parcel.fresh : Parcel := { radius := 0, nuMax := 0, held := 0 }

/-- A ring neither heated nor locked. -/
def Ring.fresh : Ring :=
  { heater := 0, order := 0, hopping := false, locked := false, misses := 0, failed := false }

/-- A wavelength never shed. -/
def Shed.fresh : Shed := { times := [], out := false, power := false, until_ := 0, clearAt := 0 }

/-- An optical link at reset: DARK, policies at their defaults (R283, R292, R294, R299, R308). -/
def Link.fresh : Link :=
  { st := .dark, since := 0, txMask := 0, rxMask := 0, laneAsk := none, laneAt := none, peer := 0,
    encrypted := false, keys := none, newKeys := none, flitCtr := 0, rxCtr := 0, trying := false,
    quarantinedAt := none, controlOut := [], txSeq := 0, rxSeq := 0, nacked := false, replay := [], resend := false,
    replayFails := 0, ackAt := 0, unacked := 0, ackSentAt := 0, acksOut := [], credits := [], owed := [],
    stalled := [], openRx := [], waiting := [], lastIn := [], sinceC0 := 0, filling := [], sheds := [], rings := [],
    laser := 0, minWidth := 8, maxWidth := 32, powerShed := false, shedOneIn := 5000, qCount := 16, qWindow := 1000,
    qHold := 0, stallUs := 1000, violations := [], violLog := none, fails := 0, nextTry := 0, nextFull := true,
    flitAt := 0, tagFails := [], ctr := {} }

/-! ## Reset -/

/-- The state right after the module reset that ends cast-on (R6, R411, R412). -/
def State.reset : State :=
  { pending := []
    sys :=
      { aux := true, main := true, refclk := true, time := 0, timeLatch := none, status := 1, degraded := [],
        castStep := 0xF, stepFailed := false, lastReset := 0, epochOffset := 0, node := 1, stepping := 0,
        castOns := 1, castAt := 0, faultPin := false, tripLatched := false, pwrCycleReq := none, dataOn := true,
        dataFenced := false, off := false, offAsked := false, shutdownAt := none, cleanMark := false, flushed := false,
        thermalOff := false, cycled := false, lowLogged := none, highLogged := none, heldReset := false, slotId := 3,
        i3cAddr := none, eidI3c := 0, eidPcie := 0, pcieUp := true, d3hot := false }
    log :=
      { entries := [], first := 1, next := 1, window := 0, notify := 1, sinceNotify := 0, buffer := [],
        lasting := [] }
    host :=
      { evt := { flags := 0, enable := 0, counts := [], vectors := [] },
        msix := { table := [], unmasked := 0, pending := 0, sent := [] },
        queues := [], slots := [], badRelease := false, badSlot := 0, mbx := [], mctpOut := [] }
    cmds := []
    nextCmd := 0
    tasks := []
    nextTask := 0
    scanHeld := []
    dies := [(0, { Die.fresh with moduleFrames := 2304 })]
    programs := []
    parts := [(0, { Part.fresh with dies := 0xF, scan := 0xFFFF })]
    ctxs := []
    endpoints := []
    nextEndpoint := 0
    stores := []
    shards := []
    media :=
      { groups := [],
        pol := { alpha := 0x3F000000, beta := 0x3E800000, low := 8, high := 16, wear := 300, readThr := 60000,
                 patrolDays := 7, recallUs := 10000 },
        reserve := 24000000000000, mapped := 0, colReserved := 0, platGiB := 16, landing := 0,
        landingCap := 268435456, placed := 0, programmed := 0, depths := [], refreshes := [], firstRefreshes := 0,
        rebuilds := [], tprog := 0, tprog0 := 0, wearFlags := 0, holdupMj := 40000, holdupAt := 0, slowAck := false,
        stagingLost := [], deadChannels := [], slowChannels := [], deadBuffers := [], nandStopped := false }
    vols := []
    leases := []
    cols := []
    queries := []
    scans := []
    links := []
    fabric :=
      { routes := [], pkgDown := 0, pkgAlt := [], issued := [], nextTag := 0, groupId := 0, manager := false,
        managerNode := 0, dir := [], dirGen := 0 }
    errs :=
      { corrected := [], corrLogged := [], uncorrected := [], remaps := [], retired := [], out := [],
        injected := [], words := [], portCtl := [], portAddr := [], portStat := [], portChk := [], portData := [], repair := ([], []), swatchPeriod := 600,
        idlePeriod := 86400, residueLimit := 2, scannedAt := [], selfTest := [], stagingLost := 0 }
    rcv :=
      { gens := [], stale := [], resets := [], suspects := [], charge := [], resetAt := [],
        whole := none, staleLogged := [], hangs := [], engineResets := [], summaries := [],
        area := [], region := none, nextDump := 1 }
    power :=
      { capW := 2400, hotW := 0, lowFlow := false, inputMw := 0, belowSince := none, targetC := 95, gateUs := 20,
        retainMs := some 10, spread := [], pg25 := false, inletMc := 30000, outletMc := 30000, flow := 5000,
        temps := [], limited := [], blockEn := [], chanEn := [], unattributedUj := 0, chargedAt := 0, chargedCtr := [],
        clipped := [] }
    sec :=
      { otp := [[], [], []], running := { version := 0, sv := 0, digest := [] },
        committed := some { version := 0, sv := 0, digest := [] }, staging := none,
        commitStep := 0, commitFor := .inl 0, commitOpts := 0, commitAgain := false, waitingCfg := [], recoveryNext := 0, base := [], overlays := [], active := 0,
        applied := [], access :=
          [{ kind := 2, id := 0, mask := 0, rights := 0xFFF, admin := true },
           { kind := 1, id := 0, mask := 0, rights := 0xFFF, admin := false },
           { kind := 6, id := 0, mask := 0xFFFFF, rights := 0xFFF, admin := true }],
        sessionKeys := [], keys := [], nextKey := 0, replies := [], spdm := [], n4 := false,
        cfl :=
          { mem := [], progAt := none, eraseAt := none, data := [], suspended := false, fetchAt := none, seqError := false,
            opError := false, xoLocked := true, xo := [], cause := 0, causeValid := false, causeAddr := 0,
            ecnt := [], otp := false } }
    free := 0 }

end Sys2Proof.Machine
end

