-- ==== Sys2Proof/Machine/Ops.lean ====
section
/-! DEFINITION. The shared operations: reading and changing the numbered units, module time, MOD_STATUS, events
and MSI-X, and the log. -/

namespace Sys2Proof.Machine

/-! ## Numbered units -/

/-- A compute die. -/
def State.die (s : State) (d : Nat) : Die := Tbl.getD s.dies d Die.fresh
/-- The state with one compute die replaced. -/
def State.setDie (d : Nat) (x : Die) (s : State) : State := { s with dies := Tbl.set d x s.dies }
/-- The state with one compute die changed. -/
def State.modDie (d : Nat) (f : Die → Die) (s : State) : State := s.setDie d (f (s.die d))

/-- An optical link. -/
def State.link (s : State) (l : Nat) : Link := Tbl.getD s.links l Link.fresh
/-- The state with one link replaced. -/
def State.setLink (l : Nat) (x : Link) (s : State) : State := { s with links := Tbl.set l x s.links }
/-- The state with one link changed. -/
def State.modLink (l : Nat) (f : Link → Link) (s : State) : State := s.setLink l (f (s.link l))

/-- A partition in use. -/
def State.part? (s : State) (p : Nat) : Option Part := Tbl.get? s.parts p
/-- A partition, or one that owns nothing. -/
def State.part (s : State) (p : Nat) : Part := Tbl.getD s.parts p Part.fresh
/-- The state with a partition in use changed. -/
def State.modPart (p : Nat) (f : Part → Part) (s : State) : State := { s with parts := Tbl.modify p f s.parts }

/-- A context in use. -/
def State.ctx? (s : State) (c : Nat) : Option Ctx := Tbl.get? s.ctxs c
/-- The state with a context in use changed. -/
def State.modCtx (c : Nat) (f : Ctx → Ctx) (s : State) : State := { s with ctxs := Tbl.modify c f s.ctxs }
/-- The state with a context's counters changed (R185). -/
def State.count (c : Nat) (f : Counters → Counters) (s : State) : State :=
  s.modCtx c fun x => { x with ctr := f x.ctr }

/-- A control queue. -/
def State.queue (s : State) (n : Nat) : CtlQ := Tbl.getD s.host.queues n CtlQ.fresh
/-- The state with a control queue changed. -/
def State.modQueue (n : Nat) (f : CtlQ → CtlQ) (s : State) : State :=
  { s with host := { s.host with queues := Tbl.set n (f (s.queue n)) s.host.queues } }

/-- A result slot (R355). -/
def State.slot (s : State) (i : Nat) : Slot := Tbl.getD s.host.slots i Slot.fresh
/-- The state with a result slot changed. -/
def State.modSlot (i : Nat) (f : Slot → Slot) (s : State) : State :=
  { s with host := { s.host with slots := Tbl.set i (f (s.slot i)) s.host.slots } }

/-- A mailbox channel (R359). -/
def State.mailbox (s : State) (n : Nat) : Mbx := Tbl.getD s.host.mbx n Mbx.fresh
/-- The state with a mailbox changed. -/
def State.modMailbox (n : Nat) (f : Mbx → Mbx) (s : State) : State :=
  { s with host := { s.host with mbx := Tbl.set n (f (s.mailbox n)) s.host.mbx } }

/-- A partition's store space. -/
def State.store (s : State) (p : Nat) : Store := Tbl.getD s.stores p Store.fresh
/-- The state with a store space changed. -/
def State.modStore (p : Nat) (f : Store → Store) (s : State) : State :=
  { s with stores := Tbl.set p (f (s.store p)) s.stores }

/-- An entry of the command table. -/
def State.live? (s : State) (n : Nat) : Option Live := Tbl.get? s.cmds n
/-- The state with an entry of the command table changed. -/
def State.modLive (n : Nat) (f : Live → Live) (s : State) : State := { s with cmds := Tbl.modify n f s.cmds }

/-- A parity group. -/
def State.pgroup (s : State) (g : Nat) : PGroup := Tbl.getD s.media.groups g PGroup.fresh
/-- The state with a parity group changed. -/
def State.modGroup (g : Nat) (f : PGroup → PGroup) (s : State) : State :=
  { s with media := { s.media with groups := Tbl.set g (f (s.pgroup g)) s.media.groups } }

/-- A cluster of a die. -/
def Die.cluster (x : Die) (c : Nat) : Cluster := Tbl.getD x.clusters c Cluster.fresh
/-- The die with a cluster changed. -/
def Die.modCluster (c : Nat) (f : Cluster → Cluster) (x : Die) : Die :=
  { x with clusters := Tbl.set c (f (x.cluster c)) x.clusters }
/-- A vector engine of a die. -/
def Die.engine (x : Die) (j : Nat) : VEng := Tbl.getD x.engines j VEng.fresh
/-- The die with a vector engine changed. -/
def Die.modEngine (j : Nat) (f : VEng → VEng) (x : Die) : Die :=
  { x with engines := Tbl.set j (f (x.engine j)) x.engines }
/-- A mover's queue. -/
def Die.mover (x : Die) (k : Nat) : List Move := Tbl.getD x.movers k []
/-- The die with a mover's queue replaced. -/
def Die.setMover (k : Nat) (q : List Move) (x : Die) : Die := { x with movers := Tbl.set k q x.movers }
/-- The die with its running stream changed. -/
def Die.modStream (f : Stream → Stream) (x : Die) : Die := { x with stream := x.stream.map f }

/-! ## Module time (R337) -/

/-- The event falls at module time `t`: time never runs back, and stands while auxiliary power is absent. -/
def State.tick (t : Nat) (s : State) : State :=
  if s.sys.aux then { s with sys := { s.sys with time := max s.sys.time t } } else s

/-! ## MSI-X and events (R340 to R343) -/

/-- Signal a vector: a message if it is not masked and the function is in D0, else its pending bit (R343, R364). -/
def signalVector (v : BitVec 6) (s : State) : State :=
  let m := s.host.msix
  if m.unmasked.getLsbD v.toNat && !s.sys.d3hot then
    { s with host := { s.host with msix := { m with sent := m.sent ++ [v] } } }
  else { s with host := { s.host with msix := { m with pending := m.pending ||| (1#64 <<< v.toNat) } } }

/-- Set event flag k: the flag, its counter, and its vector while enabled (R341 to R343). -/
def setFlag (k : Nat) (s : State) : State :=
  let e := s.host.evt
  let s1 : State :=
    { s with host := { s.host with evt :=
      { e with flags := e.flags ||| (1#32 <<< k), counts := Tbl.put 0 k (Tbl.getD e.counts k 0 + 1) e.counts } } }
  if e.enable.getLsbD k then signalVector (Tbl.getD e.vectors k 0) s1 else s1

/-! ## The log (R361 to R363, R463) -/

/-- The origin field of a log entry (R362). -/
def originWord : Origin → Word
  | .ctlq n => 0x10000000#32 + BitVec.ofNat 32 n.val
  | .mctp e _ => 0x20000000#32 + e.zeroExtend 32
  | .fabric n _ => 0x30000000#32 + n.zeroExtend 32
  | .firmware => 0x40000000#32
  | .hardware => 0x50000000#32
  | .secure i => 0x60000000#32 + i.zeroExtend 32

/-- A unit field: die, kind, index (R362). -/
def unitWord (die kind ix : Nat) : Word := BitVec.ofNat 32 (die + 16 * kind + 256 * ix)

/-- The unit field of no die. -/
def noUnit : Word := 0xF

/-- The unit field of an engine (R362); movers, DMA channels, sequencers and managers show as their die. -/
def unitOf : HwUnit → Word
  | .cluster d c => unitWord d 1 c
  | .vector d j => unitWord d 2 j
  | .mover d _ => unitWord d 0 0
  | .scan m e => unitWord (4 + m.val) 3 e
  | .channel ch => unitWord (4 + ch.val / 64) 4 ch
  | .link l => unitWord (6 + l.val / 12) 5 l
  | .futisCompute d c _ => unitWord d 6 c
  | .futisMedia m c => unitWord (4 + m.val) 6 c
  | .tierDma d => unitWord d 0 0
  | .fabricDma d => unitWord d 0 0
  | .sequencer d => unitWord d 0 0
  | .dieManager d => unitWord d 0 0
  | .mgmtCore => unitWord 4 0 0

/-- A key of its own for every engine, for the tables of counts and generations. -/
def unitKey (u : HwUnit) : Nat :=
  (unitOf u).toNat + 65536 * (match u with
    | .mover _ k => 1 + k.val
    | .tierDma _ => 5
    | .fabricDma _ => 6
    | .sequencer _ => 7
    | .dieManager _ => 8
    | .mgmtCore => 9
    | _ => 0)

/-- The context and partition field of a log entry (R362). -/
def ctxWord (ctx part : Option Nat) : Word :=
  BitVec.ofNat 32 ((ctx.getD 0) % 256 + 256 * ((part.getD 0) % 4) +
    (if ctx.isSome then 1024 else 0) + (if part.isSome then 2048 else 0))

/-- Entries the log ring holds (R361). -/
def logCapacity : Nat := 131072

/-- The log with an entry added: the oldest entry leaves a full ring; entries of severity 1 and above and of class
0x07 are copied for the lasting log while its buffer has room (R361, R463). -/
def LogRing.add (e : LogEntry) (g : LogRing) : LogRing :=
  let full := decide (logCapacity ≤ g.entries.length)
  let copy := (decide (1 ≤ e.severity.toNat) || decide (e.code.toNat / 256 = 7)) && decide (g.buffer.length < 128)
  { g with
    entries := (if full then g.entries.drop 1 else g.entries) ++ [e]
    first := if full then g.first + 1 else g.first
    next := g.next + 1
    buffer := if copy then g.buffer ++ [e] else g.buffer }

/-- A PLDM platform event message (R466). -/
def platformEvent (data : List Byte) (s : State) : State :=
  { s with sec := { s.sec with replies := s.sec.replies ++ [(s.sys.eidI3c, 0x0A, data)] } }

/-- Add a log entry with its module time, and move the notify and lost flags (R341, R361). -/
def addLog (code : Half) (origin unit ctx : Word) (detail : List Nat) (s : State) : State :=
  let g := s.log
  let e : LogEntry :=
    { seq := g.next, time := s.sys.time, code := code, severity := logSeverity code, origin := origin, unit := unit,
      context := ctx, detail := detail }
  let lost := decide (logCapacity ≤ g.entries.length) && decide (64 * g.window.toNat ≤ g.first)
  let since := g.sinceNotify + 1
  let hit := decide (g.notify ≠ 0 ∧ g.notify.toNat ≤ since)
  let s1 : State := { s with log := { LogRing.add e g with sinceNotify := if hit then 0 else since } }
  let s2 := if lost then setFlag Ev.logLost s1 else s1
  let s3 := if hit then setFlag Ev.logNotify s2 else s2
  if 2 ≤ (logSeverity code).toNat then platformEvent (leBytes 2 code.toNat) s3 else s3

/-- Add a log entry of hardware's, about an engine. -/
def logUnit (code : Half) (u : HwUnit) (detail : List Nat) (s : State) : State :=
  addLog code 0x50000000 (unitOf u) 0 detail s

/-- Add a log entry of hardware's, about no unit. -/
def logHw (code : Half) (detail : List Nat) (s : State) : State := addLog code 0x50000000 noUnit 0 detail s

/-! ## MOD_STATUS (R337, R341) -/

/-- Bit k of MOD_STATUS takes a value; a change in either direction raises flag k and a platform event. -/
def setStatus (k : Nat) (v : Bool) (s : State) : State :=
  if s.sys.status.getLsbD k = v then s
  else
    let w := if v then s.sys.status ||| (1#32 <<< k) else s.sys.status &&& ~~~(1#32 <<< k)
    platformEvent (leBytes 4 w.toNat) (setFlag k { s with sys := { s.sys with status := w } })

/-- A bit of MOD_STATUS. -/
def State.statusBit (s : State) (k : Nat) : Bool := s.sys.status.getLsbD k

/-- A condition holds MOD_STATUS.degraded set. -/
def degrade (x : Degrade) (s : State) : State :=
  let xs := if x ∈ s.sys.degraded then s.sys.degraded else s.sys.degraded ++ [x]
  setStatus Sb.degraded true { s with sys := { s.sys with degraded := xs } }

/-- A condition no longer holds MOD_STATUS.degraded set. -/
def undegrade (x : Degrade) (s : State) : State :=
  let xs := s.sys.degraded.filter fun y => decide (y ≠ x)
  setStatus Sb.degraded (!xs.isEmpty) { s with sys := { s.sys with degraded := xs } }

/-- MOD_STATUS.fenced shows whether a partition is under bind-off or the data domains are fenced (R337). -/
def refreshFenced (s : State) : State :=
  setStatus Sb.fenced (s.sys.dataFenced || s.parts.any fun e => e.2.fencedAt.isSome) s

/-- A state with a function applied for each listed value, in order. -/
def foldOver {α : Type} (xs : List α) (f : α → State → State) (s : State) : State :=
  xs.foldl (fun acc x => f x acc) s

/-! ## Indices of units -/

/-- The compute die of index `d`. -/
def dieIx (d : Nat) : DieIx := ⟨d % 4, Nat.mod_lt _ (by decide)⟩
/-- The cluster of index `c`. -/
def clusterIx (c : Nat) : ClusterIx := ⟨c % 16, Nat.mod_lt _ (by decide)⟩
/-- The engine of index `j`. -/
def engIx (j : Nat) : EngIx := ⟨j % 4, Nat.mod_lt _ (by decide)⟩
/-- The partition of index `p`. -/
def partIx (p : Nat) : PartIx := ⟨p % 4, Nat.mod_lt _ (by decide)⟩

/-! ## Generations and resets under way (R387, R390, R391, R401) -/

/-- The generation of an engine advances by one, modulo 256 (R390). -/
def advanceGen (u : HwUnit) (s : State) : State :=
  let k := unitKey u
  { s with rcv := { s.rcv with gens := Tbl.put 0 k (Tbl.getD s.rcv.gens k 0 + 1) s.rcv.gens } }

/-- The deadline of a reset in ns from its start (R387). -/
def resetLimit : ResetTarget → Nat
  | .context _ => 10000000
  | .engine _ => 10000000
  | .partition _ => 200000000
  | .whole => 2000000000

/-- Fetches of a die's tier engine in flight (R147). -/
def fetchesOn (s : State) (d : Nat) : Nat :=
  (s.stores.map fun e => Tbl.count (fun _ g => decide (g.st = .fetching ∧ g.die = d)) e.2.pages).sum

/-- Write-backs of a die's tier engine that have not ended (R147, R149). -/
def writingOn (s : State) (d : Nat) : Nat :=
  (s.stores.map fun e => Tbl.count (fun _ g => decide (g.st = .writing ∧ g.die = d)) e.2.pages).sum

/-- Page migrations of a die's tier engine that have not ended (R147). -/
def migrationsOn (s : State) (d : Nat) : Nat := fetchesOn s d + writingOn s d

/-- A reset starts and its timer is armed (R401). -/
def armReset (r : ResetTarget) (hang : Bool) (cause : Half) (s : State) : State :=
  let e : Reset := { target := r, deadline := s.sys.time + resetLimit r, started := s.sys.time, hang := hang, cause := cause }
  { s with rcv := { s.rcv with resets := (s.rcv.resets.filter fun x => decide (x.target ≠ r)) ++ [e] } }

/-- An engine reset of a unit is under way (R391). -/
def State.resetting (s : State) (u : HwUnit) : Bool := s.rcv.resets.any fun r => decide (r.target = .engine u)

/-- A mover that its own DMA error halted is reset as an engine when the stream that used it leaves the die (R47, R369). -/
def resetMover (d k : Nat) (s : State) : State :=
  let u := HwUnit.mover (dieIx d) (engIx k)
  if s.resetting u then s
  else
    let s1 := advanceGen u (armReset (.engine u) false Lc.eccUncorrectable s)
    { s1 with rcv := { s1.rcv with resetAt := Tbl.set (unitKey u) s.sys.time s1.rcv.resetAt } }

end Sys2Proof.Machine
end

