-- ==== Sys2Proof/Machine/Cmd.lean ====
section
/-! DEFINITION. The command protocol (chapters 12, 13 and 17): the opcode table, access rights, the admission checks of
R317 and R348, the ordering of R325, answers, refusals, and what ending a command releases. -/

namespace Sys2Proof.Machine

/-! ## The opcode table (R10) -/

/-- The right an opcode needs (R317, R322, R330, R377, R406, R430, R453). -/
inductive Need where
  /-- READ in the partition. -/
  | read
  /-- WRITE in the partition. -/
  | write
  /-- ADMIN in the partition. -/
  | admin
  /-- The module administration right. -/
  | moduleAdmin
  /-- A secure origin with the module administration right. -/
  | secure
  /-- READ in any partition (R430). -/
  | readAny
  /-- By the level of RCV_RESET (R406). -/
  | resetLevel
deriving DecidableEq, Repr

/-- The object an opcode acts on (R9, R312). -/
inductive Obj where
  /-- System object 0xF000_0000. -/
  | system
  /-- The store space object of the partition (R144). -/
  | store
  /-- The group directory, system object 0xF000_0200, or the module (R312, R329). -/
  | group
  /-- The object that a directory lookup asks for (R330). -/
  | lookup
  /-- A stored object of a class that must exist. -/
  | class (k : Nat)
  /-- A new object of a class. -/
  | create (k : Nat)
deriving DecidableEq, Repr

/-- The opcodes with the right and the object of each. -/
def opRows : List (Nat × Need × Obj) :=
  [(0x0120, .moduleAdmin, .system), (0x0121, .moduleAdmin, .system), (0x0122, .moduleAdmin, .system),
   (0x0123, .moduleAdmin, .system), (0x0124, .moduleAdmin, .system), (0x0130, .write, .system),
   (0x0131, .write, .system), (0x0132, .write, .system), (0x0133, .read, .system), (0x0134, .read, .system),
   (0x0140, .write, .store), (0x0141, .write, .store), (0x0142, .write, .store), (0x0143, .write, .store),
   (0x0144, .read, .store), (0x0145, .write, .store), (0x0146, .write, .store), (0x0147, .read, .store),
   (0x0148, .write, .store)]
  ++ [(0x0201, .write, .create 1), (0x0202, .write, .class 1), (0x0203, .read, .class 1),
   (0x0210, .write, .class 1), (0x0211, .write, .class 1), (0x0220, .read, .class 1), (0x0221, .write, .class 1),
   (0x0301, .write, .create 2), (0x0302, .write, .class 2), (0x0303, .write, .class 2), (0x0304, .write, .class 2),
   (0x0310, .write, .class 2), (0x0311, .write, .class 2), (0x0312, .write, .class 2), (0x0320, .read, .class 2),
   (0x0321, .read, .class 2), (0x0330, .write, .class 2), (0x0331, .read, .class 2)]
  ++ [(0x0401, .write, .create 3), (0x0402, .write, .class 3), (0x0403, .write, .class 3), (0x0404, .write, .class 3),
   (0x0405, .write, .class 3), (0x0406, .write, .class 3), (0x0410, .write, .class 3), (0x0411, .write, .class 3),
   (0x0412, .read, .class 3), (0x0420, .read, .class 3),
   (0x0501, .write, .create 4), (0x0502, .write, .class 4), (0x0503, .write, .class 4), (0x0510, .write, .class 4),
   (0x0511, .write, .system), (0x0512, .write, .system), (0x0513, .write, .system), (0x0520, .write, .class 1),
   (0x0521, .write, .system), (0x0522, .read, .system), (0x0523, .write, .system)]
  ++ [(0x0601, .read, .system), (0x0602, .read, .system), (0x0610, .moduleAdmin, .system),
   (0x0611, .moduleAdmin, .system), (0x0612, .moduleAdmin, .system), (0x0613, .read, .system),
   (0x0620, .read, .system), (0x0621, .moduleAdmin, .system), (0x0622, .moduleAdmin, .system),
   (0x0623, .moduleAdmin, .system), (0x0630, .secure, .system), (0x0640, .read, .system),
   (0x0641, .moduleAdmin, .system), (0x0642, .moduleAdmin, .system), (0x0650, .read, .system),
   (0x0651, .moduleAdmin, .system), (0x0652, .moduleAdmin, .system), (0x0653, .moduleAdmin, .system),
   (0x0654, .moduleAdmin, .system)]
  ++ [(0x0660, .resetLevel, .system), (0x0661, .read, .system), (0x0662, .admin, .system),
   (0x0663, .moduleAdmin, .system), (0x0664, .read, .system), (0x0670, .readAny, .system),
   (0x0671, .moduleAdmin, .system), (0x0672, .moduleAdmin, .system), (0x0710, .read, .system),
   (0x0711, .read, .system), (0x0712, .moduleAdmin, .system), (0x0713, .moduleAdmin, .system),
   (0x0714, .secure, .system), (0x0715, .moduleAdmin, .system), (0x0720, .read, .lookup),
   (0x0721, .moduleAdmin, .group), (0x0722, .read, .group), (0x0723, .read, .group), (0x0740, .read, .class 1),
   (0x0741, .read, .class 1), (0x0742, .read, .class 1)]

/-- The row of an opcode. -/
def opRow (op : Nat) : Option (Need × Obj) := (opRows.find? fun r => decide (r.1 = op)).map Prod.snd

/-- Commands that use engines, whose context id is checked (R169). -/
def usesEngine (op : Nat) : Bool :=
  decide (op / 256 = 2 ∨ op / 256 = 3 ∨ op / 256 = 5) || [0x0144, 0x0145, 0x0740, 0x0741, 0x0742].contains op

/-- Commands whose length must equal data_len (R311): a payload without a separate range. -/
def payloadOnly (op : Nat) : Bool :=
  [0x0221, 0x0145, 0x0303, 0x0304, 0x0310, 0x0311, 0x0320, 0x0321, 0x0410].contains op

/-! ## Access rights (R452, R453) -/

/-- Kind and id of an origin (R362, R452). -/
def originId : Origin → Nat × BitVec 20
  | .ctlq n => (1, BitVec.ofNat 20 n.val)
  | .mctp e _ => (2, e.zeroExtend 20)
  | .fabric n _ => (3, n)
  | .firmware => (4, 0)
  | .hardware => (5, 0)
  | .secure i => (6, i.zeroExtend 20)

/-- The node and link of a fabric origin. -/
def fabricOf : Origin → Option (BitVec 20 × Nat)
  | .fabric n l => some (n, l.val)
  | _ => none

/-- The rights an origin holds: the mask of R452 and the module administration right (R453). -/
def rightsOf (s : State) (o : Origin) : BitVec 12 × Bool :=
  match o with
  | .firmware => (0xFFF, true)
  | .hardware => (0xFFF, true)
  | .mctp _ true => (0xFFF, true)
  | _ =>
    let k := originId o
    match s.sec.access.find? fun e => decide (e.kind.toNat = k.1 ∧ e.id &&& e.mask = k.2 &&& e.mask) with
    | some e => (e.rights, e.admin)
    | none => (0, false)

/-- An unauthenticated session may claim ownership (R449). -/
def claimOpen (s : State) : Bool := s.sec.spdm.any fun e => decide (e.2.session = some (0#4, true))

/-- A session is open whose origin index is `i` and whose requester has authenticated (R449). -/
def sessionOpen (s : State) (i : BitVec 4) : Bool := s.sec.spdm.any fun e => decide (e.2.session = some (i, false))

/-- Whether an origin may issue a command (R317 check 5, R449, R453). -/
def allowed (s : State) (o : Origin) (op : Nat) (part : Nat) (c : Capsule) : Bool :=
  let r := rightsOf s o
  let has (p k : Nat) : Bool := r.1.getLsbD (3 * p + k)
  let ok := match (opRow op).map Prod.fst with
    | some .read => has part 0
    | some .write => has part 1
    | some .admin => has part 2
    | some .moduleAdmin => r.2
    | some .secure => (match o with
        | .secure _ => r.2
        | _ => false)
    | some .readAny => has 0 0 || has 1 0 || has 2 0 || has 3 0
    | some .resetLevel =>
      if c.p0.toNat = 0 then
        (match s.ctx? (c.p1.toNat % 256) with
          | some x => has x.part.val 1
          | none => has part 1)
      else if c.p0.toNat = 2 then has (if c.p1.toNat < 4 then c.p1.toNat else part) 2
      else r.2
    | none => false
  match o with
  | .secure i => if sessionOpen s i then ok else decide (i = 0#4) && claimOpen s && op == 0x0630
  | .mctp _ true => decide (op / 256 = 6)
  | .mctp _ false => ok && decide (op / 256 = 6)
  | _ => ok

/-! ## Reading a command -/

/-- The partition a command acts in: from p0 for the PAR_* commands (R312). -/
def commandPart (op : Nat) (c : Capsule) : Nat :=
  if 0x0120 ≤ op ∧ op ≤ 0x0124 then c.p0.toNat % 4 else c.partition.toNat

/-- The parameter words. -/
def capWord (c : Capsule) : Nat → Word
  | 0 => c.p0
  | 1 => c.p1
  | 2 => c.p2
  | 3 => c.p3
  | 4 => c.p4
  | _ => c.p5

/-- A 64-bit parameter: two words, low word first (R312). -/
def capDword (c : Capsule) (i : Nat) : Nat := (capWord c i).toNat + 4294967296 * (capWord c (i + 1)).toNat

/-- The class of an object id (R9). -/
def objClass (o : Word) : Nat := o.toNat / 268435456

/-- Whether the object named is of a class the opcode accepts and exists in the partition (R317 check 6). -/
def objectOk (s : State) (obj : Obj) (part : Nat) (o : Word) : Bool :=
  match obj with
  | .system => o == 0xF0000000
  | .store => o == 0xF0000100 + BitVec.ofNat 32 part
  | .group => o == 0xF0000200 || o == 0xF0000000
  | .lookup => decide (1 ≤ objClass o ∧ objClass o ≤ 3)
  | .create k => decide (objClass o = k)
  | .class 1 => (Tbl.get? s.vols o.toNat).any fun v => decide (v.part.val = part)
  | .class 2 => (Tbl.get? s.cols o.toNat).any fun v => decide (v.part.val = part)
  | .class 3 => (Tbl.get? s.shards o.toNat).any fun v => decide (v.part.val = part)
  | .class 4 => (Tbl.get? s.programs o.toNat).any fun v => decide (v.part.val = part)
  | .class _ => false

/-- Whether an entry of the command table still runs. -/
def Live.open (l : Live) : Bool := decide (l.phase ≠ .ended)

/-- Whether two origins are one source: the same queue, endpoint, node or index. -/
def sameSource (a b : Origin) : Bool := decide ((originId a).1 = (originId b).1 ∧ (originId a).2 = (originId b).2)

/-- Whether (source, tag) names a command in the table (R315, R348). -/
def tagLive (s : State) (o : Origin) (tag : Half) : Bool :=
  s.cmds.any fun e => sameSource e.2.c.origin o && decide (e.2.c.tag = tag)

/-- The number of the command that (source, tag) names. -/
def findTag (s : State) (o : Origin) (tag : Half) : Option Nat :=
  (Tbl.find? (fun _ l => sameSource l.c.origin o && decide (l.c.tag = tag)) s.cmds).map Prod.fst

/-- Commands in a context's queue (R169). -/
def queueCount (s : State) (ctx : Byte) : Nat :=
  Tbl.count (fun _ l => decide (l.c.context = ctx) && usesEngine l.op.toNat && l.open) s.cmds

/-! ## Admission (R317, R348) -/

/-- The largest reply a command's parameters allow, in bytes; 0 for a command that returns no data (R348 P3). -/
def replySize (op : Nat) (c : Capsule) (s : State) : Nat :=
  if op = 0x0420 then
    (match Tbl.get? s.shards c.object.toNat with
      | some h => if h.pub = 0 then 2 * c.length.toNat else c.length.toNat + c.length.toNat / 32
      | none => 1)
  else if op = 0x0144 ∨ op = 0x0220 ∨ op = 0x0742 ∨ op = 0x0602 ∨ op = 0x0620 ∨ op = 0x0664 ∨ op = 0x0601
    then c.length.toNat
  else if op = 0x0321 then
    (match Tbl.get? s.cols c.object.toNat with
      | some k => c.dataLen.toNat / 8 * alignUp (16 + 8 * k.attrs + elemBytes k.fmt k.dim) 64
      | none => 4096)
  else if op = 0x0147 then 8 * ((c.offset.toNat + c.length.toNat + 2097151) / 2097152 - c.offset.toNat / 2097152)
  else if op = 0x0722 then 32 * c.length.toNat
  else if op = 0x0412 then 8 + 8 * c.length.toNat
  else if op = 0x0320 then
    (match Tbl.get? s.cols c.object.toNat with
      | some k => min 4096 (16 + 1024 * (16 + 8 * k.attrs))
      | none => 4096)
  else if op = 0x0740 then 4096
  else if op = 0x0710 then 128 * ((List.range 24).filter fun i => c.p0.getLsbD i).length
  else if op = 0x0711 then 512 * ((List.range 24).filter fun i => c.p0.getLsbD i).length
  else if [0x0124, 0x0133, 0x0134, 0x0203, 0x0331, 0x0522, 0x0520, 0x0613, 0x0640, 0x0650, 0x0651, 0x0661, 0x0670,
      0x0720, 0x0723].contains op then 1024
  else 0

/-- A check's outcome: none when it passes, else the status and detail. -/
abbrev Verdict := Option (Half × Nat)

/-- The first failing verdict. -/
def firstBad : List Verdict → Verdict
  | [] => none
  | some x :: _ => some x
  | none :: r => firstBad r

/-- A verdict from a condition that must hold. -/
def must (ok : Bool) (st : Half) (detail : Nat := 0) : Verdict := if ok then none else some (st, detail)

/-- Whether a packet came through a control queue. -/
def isCtlq : Origin → Bool
  | .ctlq _ => true
  | _ => false

/-- The result slot a packet names (R347). -/
def slotIndex (c : Capsule) : Nat :=
  match c.origin with
  | .ctlq n => 64 * n.val + c.slot.toNat
  | _ => 0

/-- The zero bits that R312 gives in parameter words are zero (R8, R312). -/
def paramZero (op : Nat) (c : Capsule) : Bool :=
  if op = 0x0401 then decide (c.p0.toNat < 512 ∧ c.p3 = 0)
  else if op = 0x0410 then decide (c.p1.toNat < 1024 ∧ c.p2.toNat < 16 ∧ c.p3 = 0)
  else if op = 0x0411 then decide (c.p1.toNat < 2 ∧ c.p2 = 0 ∧ c.p3 = 0)
  else if op = 0x0130 then decide (c.p0.toNat < 128)
  else if op = 0x0120 then decide (bits c.p0.toNat 2 2 = 0 ∧ c.p0.toNat < 2048 ∧ c.p1.toNat < 65536 ∧ c.p2 = 0 ∧ c.p3 = 0)
  else if op = 0x0140 then decide (c.p1.toNat < 4 ∧ c.p2 = 0 ∧ c.p3 = 0)
  else if op = 0x0201 then decide (c.p0.toNat < 8 ∧ c.p2 = 0 ∧ c.p3 = 0)
  else true

/-- Check 3, with the added cases of packets (R317, R348). -/
def check3 (op : Nat) (c : Capsule) : Verdict :=
  firstBad
    [must (c.reservedZero && paramZero op c && decide (c.completion ≠ 3) && (decide (c.completion = 0) || op == 0x0221) &&
        (!payloadOnly op || decide (c.length.toNat = c.dataLen.toNat))) St.violation,
     must (!isCtlq c.origin || (decide (c.dataAddr.toNat % 64 = 0) && decide (c.dataLen.toNat ≤ 1048576)))
        St.badParam]

/-- Check 7: context, queue and command table (R169). -/
def check7 (op : Nat) (c : Capsule) (s : State) : Verdict :=
  let ctx := if usesEngine op then
      (match s.ctx? c.context.toNat with
        | none => some (St.badParam, 0)
        | some x =>
          if x.part.val ≠ c.partition.toNat then some (St.notPermitted, 0)
          else if x.depth ≤ queueCount s c.context then some (St.noResource, 0) else none)
    else none
  firstBad [ctx, must (decide (s.cmds.length < 65536)) St.noResource]

/-- Checks P3 and P4 of packets (R348). -/
def checkSlot (op : Nat) (c : Capsule) (s : State) : Verdict :=
  if isCtlq c.origin then
    let n := replySize op c s
    firstBad
      [must (decide (c.slotEn = decide (0 < n)) && decide (n ≤ 4096)) St.badParam 2,
       must (!c.slotEn || decide ((s.slot (slotIndex c)).state = 0)) St.noResource 3]
  else none

/-- In firmware recovery mode only queue 0 works, for the firmware commands (R445). -/
def recoveryOk (op : Nat) (c : Capsule) (s : State) : Bool :=
  !s.statusBit Sb.recovery ||
    (decide (op = 0x0610 ∨ op = 0x0611 ∨ op = 0x0613) &&
      (match c.origin with
        | .ctlq n => decide (n.val = 0)
        | .mctp _ _ => true
        | .firmware => true
        | _ => false))

/-- Checks 3 to 8, with P2 to P4 for packets, and the command's own checks (R317, R348): none when it is admitted. -/
def refusal (op : Nat) (c : Capsule) (check : State → Verdict) (s : State) : Verdict :=
  let p := commandPart op c
  firstBad
    [must (!(isCtlq c.origin && tagLive s c.origin c.tag)) St.violation 1,
     check3 op c,
     must (opRow op).isSome St.badOpcode,
     must (((decide (0x0120 ≤ op ∧ op ≤ 0x0124)) || (s.part? p).isSome) && allowed s c.origin op p c &&
        recoveryOk op c s) St.notPermitted,
     must (!(decide (objClass c.object = 2 ∧ 0x0302 ≤ op ∧ op ≤ 0x0331) &&
        (Tbl.get? s.cols c.object.toNat).any fun k => decide (k.part.val ≠ p))) St.notPermitted,
     must ((opRow op).any fun r => objectOk s r.2 p c.object) St.badObject,
     check7 op c s,
     must (!(s.part p).fencedAt.isSome) St.fenced,
     checkSlot op c s,
     check s]

/-! ## Answers (R313 to R316, R356, R449, R465) -/

/-- The link a unit for a node leaves on: the route table's valid entry, else an UP link to that peer (R301). -/
def routeTo (s : State) (dst : BitVec 20) : Option Nat :=
  let e := Tbl.getD s.fabric.routes dst.toNat 0
  let l := e.toNat % 32
  if e.getLsbD 5 && decide (l < 24) && decide ((s.link l).st = .up) then some l
  else (List.find? (fun x : Nat × Link => decide (x.2.st = .up ∧ x.2.peer = dst)) s.links).map Prod.fst

/-- A unit added to the units waiting on a link. -/
def queueUnit (l : Nat) (u : OutUnit) (s : State) : State :=
  s.modLink l fun x => { x with waiting := x.waiting ++ [{ u with since := s.sys.time }] }

/-- A unit of the module's own towards a node; dropped when no route remains. -/
def sendUnit (u : OutUnit) (s : State) : State :=
  match routeTo s u.dst with
  | some l => queueUnit l u s
  | none => s

/-- A unit with the fields every unit has; the others zero. -/
def OutUnit.base (kind cls : Nat) (src dst : BitVec 20) (slots : Nat) : OutUnit :=
  { kind := kind, cls := cls, level := 0, dst := dst, src := src, op := 0, tag := 0, status := 0, detail := 0,
    count := 0, data := [], slots := slots, sent := 0, inLink := none, cmd := none, object := 0, offset := 0,
    since := 0 }

/-- The data segments of a reply, of at most 1 MiB each (R314, R324). -/
def segmentUnits (src dst : BitVec 20) (tag : Half) (segs : List (Nat × List Byte)) : List OutUnit :=
  segs.flatMap fun sg =>
    (chunksOf 1048576 (sg.2.length / 1048576 + 1) sg.2).mapIdx fun i bs =>
      { OutUnit.base 3 2 src dst (1 + (bs.length + 31) / 32) with
        tag := tag, detail := sg.1 + 1048576 * i, count := bs.length, data := bs }

/-- The answer of a slot: the data at its positions, zeros between (R356). -/
def flatData : List (Nat × List Byte) → List Byte
  | [] => []
  | segs =>
    let n := segs.foldl (fun m sg => max m (sg.1 + sg.2.length)) 0
    Mem.readBytes (segs.foldl (fun m sg => Mem.writeBytes sg.1 sg.2 m) []) 0 n

/-- Queue an answer: status and reply data of a command, admitted (with its number) or refused. -/
def answer (op : Half) (c : Capsule) (num : Option Nat) (st : Half) (detail : Nat) (segs : List (Nat × List Byte))
    (s : State) : State :=
  match c.origin with
  | .fabric node _ =>
    match routeTo s node with
    | none =>
      (match num with
        | some n => { s with cmds := Tbl.erase n s.cmds }
        | none => s)
    | some l =>
      let us := segmentUnits s.sys.node node c.tag segs
      let status : OutUnit :=
        { OutUnit.base 1 3 s.sys.node node 1 with
          op := op, tag := c.tag, status := st, detail := detail, count := (us.map OutUnit.count).sum, cmd := num }
      foldOver (us ++ [status]) (queueUnit l) s
  | .ctlq q =>
    s.modQueue q.val fun x =>
      { x with
        done := x.done ++
          [{ seq := num.getD 0, opcode := op, tag := c.tag, slotEn := c.slotEn, slot := c.slot, status := st,
             detail := BitVec.ofNat 64 detail, data := flatData segs, wasLive := num.isSome }] }
  | .hardware =>
    (match num with
      | some n => { s with cmds := Tbl.erase n s.cmds }
      | none => s)
  | o =>
    let a : MctpAnswer :=
      { origin := o, op := op, tag := c.tag, status := st, detail := BitVec.ofNat 64 detail, data := flatData segs }
    let s1 : State := { s with host := { s.host with mctpOut := s.host.mctpOut ++ [a] } }
    match num with
    | some n => { s1 with cmds := Tbl.erase n s1.cmds }
    | none => s1

/-- Answer a refused command: it was never admitted and holds nothing (R317). -/
def refuse (op : Nat) (c : Capsule) (v : Half × Nat) (s : State) : State :=
  answer (BitVec.ofNat 16 op) c none v.1 v.2 [] s

/-- The epoch that a query or a fetch is pinned to at its admission (R213, R215). -/
def pinnedEpoch (op : Nat) (c : Capsule) (s : State) : Word :=
  if op = 0x0321 ∧ c.p0 ≠ 0xFFFFFFFF then c.p0
  else if op = 0x0320 ∨ op = 0x0321 then BitVec.ofNat 32 (((Tbl.get? s.cols c.object.toNat).map Col.epoch).getD 0)
  else 0

/-- Enter a command in the table: its entry, its slot PENDING, its place in the queue's count (R317, R348, R355). -/
def enterTable (op : Nat) (c : Capsule) (ph : Phase) (s : State) : State :=
  let l : Live :=
    { op := BitVec.ofNat 16 op, c := c, admitted := s.sys.time, phase := ph, granted := 0, grantAt := s.sys.time,
      grantBase := 0, landed := 0, segs := [], epoch := pinnedEpoch op c s, waitSince := none, discard := false, sent := 0,
      recalls := [], applied := false, detail := 0, streamEnds := [] }
  let s1 : State := { s with cmds := Tbl.set s.nextCmd l s.cmds, nextCmd := s.nextCmd + 1 }
  match c.origin with
  | .ctlq q =>
    let s2 := s1.modQueue q.val fun x => { x with outstanding := x.outstanding + 1 }
    if c.slotEn then
      s2.modSlot (slotIndex c) fun x =>
        { x with state := 1, status := St.pending, tag := c.tag, opcode := BitVec.ofNat 16 op }
    else s2
  | _ => s1

/-! ## Ending a command -/

/-- A volume write that is acknowledged from the absorb buffer (R258). -/
def absorbedWrite (s : State) (l : Live) : Bool :=
  decide (l.op = 0x0221) &&
    decide ((if l.c.completion = 0 then ((Tbl.get? s.vols l.c.object.toNat).map Vol.mode).getD 1 else l.c.completion) = 2#2)

/-- What a command holds besides its entry is given back when it ends (R257, R320, R130). -/
def releaseHolds (l : Live) (s : State) : State :=
  let s1 : State :=
    if l.op = 0x0221 ∧ 0 < l.granted ∧ l.applied = false ∧ absorbedWrite s l = false then
      { s with media := { s.media with landing := s.media.landing - l.c.dataLen.toNat } }
    else s
  if l.op = 0x0410 ∧ 0 < l.granted ∧ l.applied = false then
    { s1 with shards := Tbl.modify l.c.object.toNat (fun h =>
        let k := l.c.offset.toNat / 262144
        let ch := Tbl.getD h.chunks k Chunk.fresh
        let stands := decide (ch.n + 1 = l.c.p0.toNat) && !ch.added.contains (l.c.p1.toNat % 1024)
        let ch' : Chunk :=
          if stands then { ch with bits := ch.bits.filter fun b => decide (b ≠ l.c.p1.toNat % 1024) } else ch
        { h with chunks := Tbl.set k ch' h.chunks }) s1.shards }
  else s1

/-- A command ends with a status, a detail and reply data; a command that has ended stays as it is (R316, R326). -/
def finish (n : Nat) (st : Half) (detail : Nat) (segs : List (Nat × List Byte)) (s : State) : State :=
  match s.live? n with
  | none => s
  | some l =>
    if l.open then
      let s1 := releaseHolds l (s.modLive n fun x => { x with phase := .ended, segs := [] })
      let s1' : State :=
        { s1 with endpoints := Tbl.mapVals (fun _ e =>
            if e.running.any fun r => decide (r.2 = n) then { e with finished := some st } else e) s1.endpoints }
      let s2 := if usesEngine l.op.toNat then s1'.count l.c.context.toNat fun k => { k with done := k.done + 1 } else s1'
      if l.discard then
        match l.c.origin with
        | .ctlq q =>
          let s3 : State := { s2 with cmds := Tbl.erase n s2.cmds }
          let s4 := s3.modQueue q.val fun x => { x with outstanding := x.outstanding - 1 }
          if l.c.slotEn then s4.modSlot (slotIndex l.c) fun x => { x with state := 0, status := 0 } else s4
        | _ => { s2 with cmds := Tbl.erase n s2.cmds }
      else answer l.op l.c (some n) st detail segs s2
    else s

/-- A command ends with a status alone. -/
def fail (n : Nat) (st : Half) (detail : Nat) (s : State) : State := finish n st detail [] s

/-- A command completes with ST_OK. -/
def succeed (n : Nat) (detail : Nat) (segs : List (Nat × List Byte)) (s : State) : State :=
  finish n St.ok detail segs s

/-- A die's work is abandoned: its stream, passes, vector operations of the stream and queued moves (R64). -/
def Die.abandon (x : Die) : Die :=
  { x with
    stream := none
    clusters := Tbl.mapVals (fun _ c => { Cluster.fresh with sampledLast := c.sampledLast }) x.clusters
    engines := Tbl.mapVals (fun _ e => if e.chunk.isSome then e else { VEng.fresh with mismatches := e.mismatches })
      x.engines
    movers := []
    replaying := false }

/-- A die's stream leaves it, abandoned; the die is idle from now, and movers that the stream left halted are reset (R47,
R423). -/
def vacate (d : Nat) (s : State) : State :=
  match (s.die d).stream with
  | none => s
  | some y =>
    foldOver y.halted (resetMover d)
      ((s.modDie d fun x => { x.abandon with idleAt := some s.sys.time }).count y.ctx.toNat fun k =>
        { k with runNs := k.runNs + (s.sys.time - y.placedAt) })

/-- Die affinity of a context; 0 means all dies of its partition (R312). -/
def affinityDies (s : State) (ctx : Byte) : List Nat :=
  match s.ctx? ctx.toNat with
  | none => []
  | some c => (List.range 4).filter fun d => (s.part c.part.val).dies.getLsbD d && (c.affinity = 0 || c.affinity.getLsbD d)

/-- The endpoint's sequences in its running step. -/
def Endpoint.inStep (e : Endpoint) (id : Nat) : Bool :=
  match e.running with
  | some (items, _) => items.any fun b => decide (b.seq = id)
  | none => false

/-- The compute die of an endpoint: the lowest its context may use. -/
def endpointDie (s : State) (e : Nat) : Nat :=
  ((Tbl.get? s.endpoints e).map fun x => (affinityDies s x.ctx).headD 0).getD 0

/-- A scan gives back its staging frames and its sequences outside a running step (R241, R246). -/
def dropScan (n : Nat) (s : State) : State :=
  match Tbl.get? s.scans n with
  | none => s
  | some q =>
    let d := endpointDie s q.endpoint
    let p := ((s.live? n).map fun l => l.c.partition.toNat).getD 4
    let s1 := (s.modDie d fun x => { x with otherFrames := x.otherFrames - q.frames }).modPart p fun x =>
      { x with pinned := x.pinned - q.frames }
    { s1 with
      scans := Tbl.erase n s1.scans
      endpoints := Tbl.mapVals (fun _ e =>
        { e with seqs := e.seqs.filter fun y => decide ((y.scan.map Prod.fst) ≠ some n) || e.inStep y.id }) s1.endpoints }

/-- The tasks, streams, queries and scans that work for a command stop (R64, R397). -/
def stopWork (n : Nat) (s0 : State) : State :=
  let s := dropScan n s0
  let s1 : State :=
    { s with
      tasks := s.tasks.filter fun t => decide (t.cmd ≠ n ∨ t.kind = .update)
      scanHeld := s.scanHeld.filter fun h => decide (h.2.cmd ≠ n)
      queries := Tbl.keep (fun _ q => decide (q.cmd ≠ n)) s.queries
      endpoints := Tbl.mapVals (fun _ e => { e with seqs := e.seqs.filter fun q => decide (q.cmd ≠ some n) })
        s.endpoints }
  foldOver [0, 1, 2, 3] (fun d acc =>
    let acc1 := acc.modDie d fun x => { x with parked := x.parked.filter fun y => decide (y.cmd ≠ n) }
    if ((acc1.die d).stream.map Stream.cmd) = some n then vacate d acc1 else acc1) s1

/-- A command is stopped and ends with a status (R326). -/
def abort (n : Nat) (st : Half) (s : State) : State := fail n st 0 (stopWork n s)

/-- Every command a test names is stopped with a status. -/
def abortAll (f : Live → Bool) (st : Half) (s : State) : State :=
  foldOver ((s.cmds.filter fun e => f e.2 && e.2.open).map Prod.fst) (fun n acc => abort n st acc) s

/-! ## Leases that end (R264, R268) -/

/-- The leases a test names are revoked; a revoked slot is FREE once no LSE_READ of it is admitted. -/
def revokeLeases (f : Nat → Lease → Bool) (s : State) : State :=
  let used (k : Nat) : Bool :=
    s.cmds.any fun e => decide (e.2.op = 0x0742) && e.2.open && decide (e.2.c.p0.toNat % 65536 = k)
  let marked := Tbl.mapVals (fun k x => if f k x then { x with st := 3 } else x) s.leases
  { s with leases := Tbl.keep (fun k x => decide (x.st ≠ 3) || used k) marked }

/-! ## Violations and links that are cut (R308, R309, R321) -/

/-- Whether a command came in on a link. -/
def onLink (l : Nat) (c : Capsule) : Bool :=
  match c.origin with
  | .fabric _ k => decide (k.val = l)
  | _ => false

/-- A link is cut: commands whose request data was to come over it end with ST_LINK_DOWN, and its holder's leases are
revoked (R268, R309). -/
def linkCut (l : Nat) (s : State) : State :=
  let s1 := abortAll (fun x => (decide (x.phase = .granting ∨ x.phase = .collecting)) &&
    onLink l x.c) St.linkDown s
  revokeLeases (fun _ x => decide (x.link = l)) s1

/-- A link's log entry. -/
def logLink (code : Half) (l : Nat) (d : List Nat) (s : State) : State :=
  addLog code 0x50000000 (unitWord (6 + l / 12) 5 l) 0 d s

/-- A link takes a state; a change raises link_change (R283, R341). -/
def setLinkSt (l : Nat) (st : LinkSt) (s : State) : State :=
  if (s.link l).st = st then s
  else setFlag Ev.linkChange (s.modLink l fun x => { x with st := st, since := s.sys.time })

/-- Slots of a class and level freed on a link, to be returned to its peer (R296). -/
def freeSlots (l key n : Nat) (s : State) : State :=
  if n = 0 then s else s.modLink l fun x => { x with owed := Tbl.put 0 key (Tbl.getD x.owed key 0 + n) x.owed }

/-- The unit open at (class, level) `key` of input link `l` cannot complete: on the link that carries it onward it is
withdrawn if no slot has left, and aborted otherwise (R299). -/
def abortOnward (l key : Nat) (r : RxUnit) (s : State) : State :=
  match r.dest with
  | none => s
  | some o =>
    s.modLink o fun x =>
      { x with waiting := x.waiting.filterMap fun u =>
          if u.kind = 4 ∧ u.inLink = some l ∧ 4 * u.cls + u.level = key + 1 ∧ u.data.length < 32 * u.slots then
            (if u.sent = 0 then none else some { u with kind := 5, slots := u.sent + 1, data := [] })
          else some u }

/-- A unit that was to leave on a link is dropped: its input frees the slots held, and drops those still to come. -/
def dropRelay (u : OutUnit) (s : State) : State :=
  match u.inLink with
  | none => s
  | some i =>
    let key := 4 * u.cls + u.level - 1
    (freeSlots i key (u.data.length / 32 - u.sent) s).modLink i fun x =>
      { x with openRx := Tbl.modify key (fun r =>
          if r.dest.isSome ∧ u.data.length < 32 * u.slots then { r with dest := none, drop := true } else r) x.openRx }

/-- Every unit open on a link from its peer is aborted where it was carried onward (R299). -/
def abortInputs (l : Nat) (s : State) : State :=
  (foldOver (s.link l).openRx (fun e acc => abortOnward l e.1 e.2 acc) s).modLink l fun x => { x with openRx := [] }

/-- The module's own answer to a unit of class 1 that it drops (R299, R301). -/
def answerDropped (src : BitVec 20) (op tag : Half) (detail : Nat) (s : State) : State :=
  sendUnit { OutUnit.base 1 3 s.sys.node src 1 with op := op, tag := tag, status := St.linkDown, detail := detail } s

/-- A link is quarantined (R308). -/
def quarantineLink (l : Nat) (s : State) : State :=
  let k := s.link l
  let s1 := abortInputs l (linkCut l (logLink Lc.linkQuarantined l [k.peer.toNat] s))
  let s2 : State :=
    { s1 with cmds := Tbl.mapVals (fun _ x => if onLink l x.c then { x with discard := true } else x) s1.cmds }
  let gone := (s2.link l).waiting.filter fun u => decide (u.cls ≠ 0)
  let s3 := foldOver gone (fun u acc =>
    match u.cmd with
    | some n => { acc with cmds := Tbl.erase n acc.cmds }
    | none => dropRelay u acc) s2
  setLinkSt l .quarantined (s3.modLink l fun x =>
    { x with quarantinedAt := some s.sys.time, waiting := x.waiting.filter fun u => decide (u.cls = 0) })

/-- A partner protocol violation on a link: counted, logged with a node id at most once per ms, and quarantining the link
when its window fills (R308, R321). -/
def violationBy (node : BitVec 20) (l : Nat) (rule : Nat) (s : State) : State :=
  let k := s.link l
  let now := s.sys.time
  let recent := now :: k.violations.filter fun v => decide (now < v + k.qWindow * 1000000)
  let logNow := match k.violLog with
    | some (v, _) => decide (v + 1000000 ≤ now)
    | none => true
  let n := match k.violLog with
    | some (_, n) => n
    | none => 0
  let s1 := s.modLink l fun x =>
    { x with violations := recent
             ctr := { x.ctr with violations := min (x.ctr.violations + 1) 4294967295 }
             violLog := (if logNow then some (now, 0) else some ((k.violLog.getD (now, 0)).1, n + 1)) }
  let s2 := if logNow then
      logLink Lc.protocolViolation l [node.toNat, rule, n] s1
    else s1
  if k.qCount ≤ recent.length ∧ k.st = .up then quarantineLink l s2 else s2

/-- A violation logged with the peer's node id (R321). -/
def violation (l : Nat) (rule : Nat) (s : State) : State := violationBy (s.link l).peer l rule s

/-! ## Ordering (R170, R311, R325, R328) -/

/-- How a command touches the range of its object: 1 read, 2 write, 3 discard (R325). -/
def touches (op : Nat) : Nat :=
  if op = 0x0220 ∨ op = 0x0144 then 1 else if op = 0x0221 ∨ op = 0x0145 then 2
  else if op = 0x0210 ∨ op = 0x0146 then 3 else 0

/-- A range widened to whole units of ordering: sectors of a volume, 64 bytes of store space (R325). -/
def orderRange (c : Capsule) : Nat × Nat :=
  let g := if objClass c.object = 0xF then 64 else 4096
  let lo := c.offset.toNat / g * g
  (lo, alignUp (c.offset.toNat + c.length.toNat) g - lo)

/-- Whether two commands touch one range of one object. -/
def meets (a b : Capsule) : Bool :=
  decide (a.object = b.object) &&
    overlaps (orderRange a).1 (orderRange a).2 (orderRange b).1 (orderRange b).2

/-- The command starts a stream task, so that its context runs one at a time (R170). -/
def isStream (op : Nat) : Bool := op == 0x0502

/-- The compute die a command needs awake (R328). -/
def needsDie (l : Live) (s : State) : Option Nat :=
  if l.op.toNat / 256 = 4 then (Tbl.get? s.shards l.c.object.toNat).map fun h => h.die.val else none

/-- Whether a command must wait before it starts: power states, cast-on, barrier, its context's stream and the reads of
R325. -/
def mustWait (n : Nat) (l : Live) (s : State) : Bool :=
  let op := l.op.toNat
  let early (f : Live → Bool) : Bool := s.cmds.any fun e => decide (e.1 < n) && e.2.open && f e.2
  (!s.statusBit Sb.ready && !decide (op / 256 = 6)) ||
  (needsDie l s).any (fun d => decide ((s.die d).pstate ≠ .run) || (s.die d).wakingAt.isSome) ||
  (l.c.barrier && early fun x => sameSource x.c.origin l.c.origin && decide (x.c.object = l.c.object)) ||
  (isStream op && early fun x => isStream x.op.toNat && decide (x.c.context = l.c.context)) ||
  (touches op == 1 && early fun x => decide (2 ≤ touches x.op.toNat) && meets x.c l.c)

/-- Whether the effect of a landed write or a discard must wait for an earlier one on the range, or for an earlier read of
it (R325). -/
def mustYield (n : Nat) (l : Live) (s : State) : Bool :=
  s.cmds.any fun e => decide (e.1 < n) && e.2.open && decide (1 ≤ touches e.2.op.toNat) && !e.2.applied && meets e.2.c l.c

/-- Whether the acknowledgement of an applied write or discard waits for another on the range to land (R325). -/
def mustHold (n : Nat) (l : Live) (s : State) : Bool :=
  s.cmds.any fun e => decide (e.1 ≠ n) && e.2.open && decide (2 ≤ touches e.2.op.toNat) && !e.2.applied && meets e.2.c l.c

/-- The command is one whose request data has all landed. -/
def Live.full (l : Live) : Bool := decide (l.landed = l.c.dataLen.toNat)

/-- The request data of a command (R318, R349). -/
def Live.data (l : Live) : List Byte := flatData l.segs

/-- An applied write or discard is acknowledged, once nothing on the range is still to land (R325). -/
def acknowledge (n : Nat) (detail : Nat) (s : State) : State :=
  match s.live? n with
  | none => s
  | some l =>
    let s1 := s.modLive n fun x => { x with applied := true, detail := detail, phase := .ordered }
    if mustHold n l s1 then s1 else succeed n detail [] s1

/-! ## One command -/

/-- A capsule that the module drops: its tag names a live command of its source, or its link carries no commands (R308,
R315). -/
def dropped (op : Nat) (c : Capsule) (s : State) : Bool :=
  match c.origin with
  | .fabric _ l => tagLive s c.origin c.tag || !(decide ((s.link l.val).st = LinkSt.up) ||
      (decide ((s.link l.val).st = LinkSt.quarantined) && decide (op / 16 = 0x72)))
  | _ => false

/-- The module takes a command: a live tag on the fabric drops it, a failing check refuses it, and otherwise it is
admitted and starts, or is held in order (R315 to R317). -/
def command (op : Nat) (c : Capsule) (check : State → Verdict) (start : Nat → State → State) (s : State) : State :=
  if dropped op c s then
    (match c.origin with
      | .fabric _ l => if decide ((s.link l.val).st = LinkSt.up) then violation l.val 315 s else s
      | _ => s)
  else
    match refusal op c check s with
    | some v =>
      (match c.origin with
        | .fabric _ l => if v.1 = St.violation then violation l.val 317 (refuse op c v s) else refuse op c v s
        | _ => refuse op c v s)
    | none =>
      let n := s.nextCmd
      let s1 := enterTable op c .ordered s
      match s1.live? n with
      | none => s1
      | some l =>
        if mustWait n l s1 then s1
        else start n (s1.modLive n fun x => { x with phase := if c.dataLen = 0 then .running else .granting })

end Sys2Proof.Machine
end

