-- ==== Sys2Proof/Machine/Ecc.lean ====
section
/-! DEFINITION. Correctable and uncorrectable errors as any reader meets them (R367, R368), and units leaving and
returning to service. -/

namespace Sys2Proof.Machine

/-- A correctable error: counted against the unit, and logged at most once per second with the count since the last
entry (R367). -/
def eccCorrected (u : HwUnit) (addr : Nat) (s : State) : State :=
  let k := unitKey u
  let e := Tbl.getD s.errs.corrLogged k (0, 0)
  let first := !Tbl.has s.errs.corrLogged k
  let due := first || decide (e.1 + 1000000000 ≤ s.sys.time)
  let s1 : State :=
    { s with errs :=
      { s.errs with
        corrected := Tbl.set k (Tbl.getD s.errs.corrected k 0 + 1) s.errs.corrected
        corrLogged := Tbl.set k (if due then (s.sys.time, 0) else (e.1, e.2 + 1)) s.errs.corrLogged } }
  if due then logUnit Lc.eccCorrected u [e.2 + 1, addr] s1 else s1

/-- An uncorrectable error: counted and logged with the unit, the address and the context (R368). -/
def eccUncorrectable (u : HwUnit) (addr : Nat) (ctx : Option Byte) (s : State) : State :=
  let k := unitKey u
  let s1 : State :=
    { s with errs := { s.errs with uncorrected := Tbl.set k (Tbl.getD s.errs.uncorrected k 0 + 1) s.errs.uncorrected } }
  addLog Lc.eccUncorrectable 0x50000000 (unitOf u) (ctxWord (ctx.map BitVec.toNat) none) [addr] s1

/-- What a read of protected memory does: nothing when clean, a count when corrected, and `bad` when it cannot be
corrected (R367, R368). -/
def readEcc (e : Ecc) (u : HwUnit) (addr : Nat) (ctx : Option Byte) (ok bad : State → State) (s : State) : State :=
  match e with
  | .clean => ok s
  | .corrected => ok (eccCorrected u addr s)
  | .uncorrectable => bad (eccUncorrectable u addr ctx s)

/-- A unit is retired: it leaves service for good and degrades the module (R371, R393). -/
def retireUnit (u : HwUnit) (s : State) : State :=
  let s1 : State :=
    { s with errs :=
      { s.errs with
        retired := if u ∈ s.errs.retired then s.errs.retired else s.errs.retired ++ [u]
        out := s.errs.out.filter fun x => decide (x ≠ u)
        repair := (s.errs.repair.1, if u ∈ s.errs.repair.2 then s.errs.repair.2 else s.errs.repair.2 ++ [u]) } }
  let code := match u with
    | .cluster _ _ => Lc.clusterRetired
    | _ => Lc.engineRetired
  degrade (.unit u) (logUnit code u [] s1)

/-- A unit is taken out of service for a while (R381, R384). -/
def takeOut (u : HwUnit) (s : State) : State :=
  { s with errs := { s.errs with out := if u ∈ s.errs.out then s.errs.out else s.errs.out ++ [u] } }

/-- A unit taken out returns to service. -/
def putBack (u : HwUnit) (s : State) : State :=
  { s with errs := { s.errs with out := s.errs.out.filter fun x => decide (x ≠ u) } }

/-- The enable bit of a block: its die, whether it lies in DIE_CHAN_EN, and the bit (R418). -/
def blockBit : HwUnit → Option (Nat × Bool × Nat)
  | .cluster d c => some (d.val, false, c.val)
  | .vector d j => some (d.val, false, 16 + j.val)
  | .mover d k => some (d.val, false, 20 + k.val)
  | .futisCompute d c _ => some (d.val, false, 24 + c.val)
  | .sequencer d => some (d.val, false, 32)
  | .tierDma d => some (d.val, false, 33)
  | .scan m e => some (4 + m.val, false, e.val)
  | .futisMedia m c => some (4 + m.val, false, 8 + c.val)
  | .channel ch => some (4 + ch.val / 64, true, ch.val % 64)
  | .link l => some (6 + l.val / 12, false, l.val % 12)
  | _ => none

/-- Whether a unit's block is enabled; a register not written since cast-on has every block in service enabled
(R411, R418). -/
def State.enabled (s : State) (u : HwUnit) : Bool :=
  match blockBit u with
  | none => true
  | some (d, chan, b) => (Tbl.getD (if chan then s.power.chanEn else s.power.blockEn) d 0xFFFFFFFFFFFFFFFF).getLsbD b

/-- Whether a unit is in service: neither retired, taken out nor disabled, and not in an engine reset (R391, R419). -/
def State.inService (s : State) (u : HwUnit) : Bool :=
  decide (u ∉ s.errs.retired ∧ u ∉ s.errs.out) && s.enabled u && !s.resetting u

/-- The in-service physical clusters of a die, in index order. -/
def inServiceClusters (s : State) (d : Nat) : List Nat :=
  (List.range 16).filter fun c => s.inService (.cluster (dieIx d) (clusterIx c))

/-- The partition that owns a compute die. -/
def ownerOf (s : State) (d : Nat) : Option Nat :=
  (Tbl.find? (fun _ p => p.dies.getLsbD d) s.parts).map Prod.fst

/-- Swatch clusters per die by fraction code (R87, R379). -/
def swatchCount (f : BitVec 2) : Nat :=
  match f.toNat with
  | 0 => 0
  | 1 => 1
  | 2 => 2
  | _ => 4

/-- The swatch clusters of a die: its highest in-service clusters (R87). -/
def swatchClusters (s : State) (d : Nat) : List Nat :=
  let n := match ownerOf s d with
    | some p => swatchCount (s.part p).swatch
    | none => 0
  let cs := inServiceClusters s d
  cs.drop (cs.length - n)

/-- The logical to physical map of a program of c clusters, if the die has enough (R37). -/
def clusterMap (s : State) (d c : Nat) (noSwatch : Bool) : Option (List Nat) :=
  let cs := inServiceClusters s d
  let free := if noSwatch then cs else cs.filter fun x => decide (x ∉ swatchClusters s d)
  if c ≤ free.length then some (free.take c) else none

end Sys2Proof.Machine
end

