-- ==== Sys2Proof/Machine/Operands.lean ====
section
/-! DEFINITION. The operand forms of the row stream (chapter 2): rows, array, vector, move, sync and control slots,
descriptors, move descriptors, save lists, the image header and the scratchpad ranges that a pass touches. -/

namespace Sys2Proof.Machine

/-- Bytes of one cluster's scratchpad (R40). -/
def padBytes : Nat := 8388608

/-! ## Rows (R31 to R33) -/

/-- A compressed row as fetched: its slots by position, and what its header says. -/
structure Row where
  /-- Array slots present: index and the 48 bits. -/
  array : List (Nat × Nat)
  /-- Vector slots present: index and the 160 bits. -/
  vec : List (Nat × Nat)
  /-- Move slots present: index and the 96 bits. -/
  mov : List (Nat × Nat)
  /-- The sync slot. -/
  sync : Option Nat
  /-- The control slot. -/
  ctl : Option Nat
  /-- Empty rows after this row. -/
  rest : Nat
  /-- Row format. -/
  fmt : Nat
  /-- Planned cycle. -/
  plan : Word
  /-- The header's reserved fields are zero. -/
  reservedZero : Bool
  /-- Size in 16-bit units. -/
  size : Nat
deriving DecidableEq, Repr

/-- The slots of one kind that a presence mask names, `w` bytes each from byte `pos`: index and bits, and the end. -/
def takeSlots (bs : List Byte) (mask n w pos : Nat) : List (Nat × Nat) × Nat :=
  (List.range n).foldl (fun acc i =>
    if mask.testBit i then (acc.1 ++ [(i, fieldAt bs acc.2 w)], acc.2 + w) else acc) ([], pos)

/-- The row that starts at the head of some bytes (R32, R33). -/
def decodeRow (bs : List Byte) : Row :=
  let h := fieldAt bs 0 12
  let a := takeSlots bs (bits h 0 16) 16 6 12
  let v := takeSlots bs (bits h 16 4) 4 20 a.2
  let m := takeSlots bs (bits h 20 4) 4 12 v.2
  let y := takeSlots bs (bits h 24 1) 1 8 m.2
  let k := takeSlots bs (bits h 25 1) 1 12 y.2
  { array := a.1, vec := v.1, mov := m.1, sync := (y.1.head?).map Prod.snd, ctl := (k.1.head?).map Prod.snd,
    rest := bits h 26 16, fmt := bits h 44 4, plan := BitVec.ofNat 32 (bits h 48 32),
    reservedZero := decide (bits h 42 2 = 0 ∧ bits h 80 16 = 0), size := k.2 / 2 }

/-- Array slot bits: op and fields (R38). -/
def arraySlotOf (w : Nat) : Nat × ArraySlot :=
  (bits w 0 4, { desc := BitVec.ofNat 8 (bits w 4 8), ix := BitVec.ofNat 4 (bits w 12 4),
                 token := BitVec.ofNat 10 (bits w 16 10), tokenEn := bit w 26 })

/-- Vector slot bits: op and fields (R44). -/
def vecSlotOf (w : Nat) : Nat × VecSlot :=
  (bits w 0 8,
    { fmt := BitVec.ofNat 4 (bits w 8 4), dst := BitVec.ofNat 6 (bits w 12 6), srcA := BitVec.ofNat 6 (bits w 18 6),
      srcB := BitVec.ofNat 6 (bits w 24 6), srcC := BitVec.ofNat 6 (bits w 30 6), ix := BitVec.ofNat 4 (bits w 36 4),
      memEn := bit w 40, memCluster := BitVec.ofNat 4 (bits w 41 4), memAddr := BitVec.ofNat 23 (bits w 45 23),
      ixStride := BitVec.ofNat 16 (bits w 68 16), imm := BitVec.ofNat 16 (bits w 84 16),
      token := BitVec.ofNat 10 (bits w 100 10), tokenEn := bit w 110, flag := BitVec.ofNat 5 (bits w 111 5),
      flagEn := bit w 116 })

/-- Move slot bits: op and fields (R45). -/
def moveSlotOf (w : Nat) : Nat × MoveSlot :=
  (bits w 0 4, { mdesc := BitVec.ofNat 8 (bits w 4 8), ix := BitVec.ofNat 4 (bits w 12 4),
                 len := BitVec.ofNat 16 (bits w 16 16), token := BitVec.ofNat 10 (bits w 32 10), tokenEn := bit w 42 })

/-- Sync slot bits: op and fields (R49). -/
def syncSlotOf (w : Nat) : Nat × SyncSlot :=
  (bits w 0 4, { tokA := BitVec.ofNat 10 (bits w 4 10), tokB := BitVec.ofNat 10 (bits w 14 10), bEn := bit w 24,
                 any := bit w 25, timeout := BitVec.ofNat 16 (bits w 26 16) })

/-- Control slot bits: op and fields (R56). -/
def ctlSlotOf (w : Nat) : Nat × CtlSlot :=
  (bits w 0 8, { fa := BitVec.ofNat 4 (bits w 8 4), fb := BitVec.ofNat 4 (bits w 12 4),
                 flag := BitVec.ofNat 5 (bits w 16 5), imm := BitVec.ofNat 32 (bits w 32 32),
                 target := BitVec.ofNat 21 (bits w 64 21) })

/-! ## The image (R66) -/

/-- Field `i` of the header's section list: offset and length of rows 0, descriptors 1, move descriptors 2, save lists
3, layer schedule 4. -/
def sectionAt (img : List Byte) (i : Nat) : Nat × Nat := (fieldAt img (8 + 8 * i) 4, fieldAt img (12 + 8 * i) 4)

/-- Cluster count c. -/
def imgClusters (img : List Byte) : Nat := fieldAt img 6 1
/-- Entry count. -/
def imgEntries (img : List Byte) : Nat := fieldAt img 7 1
/-- Row offset of an entry. -/
def imgEntry (img : List Byte) (i : Nat) : Nat := fieldAt img (64 + 4 * i) 4
/-- The largest save. -/
def imgSave (img : List Byte) : Nat := fieldAt img 48 4
/-- The bytes of the row section. -/
def rowSection (img : List Byte) : List Byte := sliceBytes img (sectionAt img 0).1 (sectionAt img 0).2

/-- The row at an offset of the row section, in 16-bit units; none beyond its last row (R57). -/
def rowAt (img : List Byte) (off : Nat) : Option Row :=
  if 2 * off < (sectionAt img 0).2 then some (decodeRow (sliceBytes img ((sectionAt img 0).1 + 2 * off) 256)) else none

/-- The row offset of the first row and every following row, to the sectionAts end (R67 check 6); `n` is fuel. -/
def rowStarts (sec : List Byte) : Nat → Nat → List (Nat × Row)
  | 0, _ => []
  | n + 1, off =>
    if sec.isEmpty then []
    else
      let r := decodeRow (sec.take 256)
      (off, r) :: rowStarts (sec.drop (2 * r.size)) n (off + r.size)

/-! ## Descriptors (R39, R40, R46) -/

/-- The 256 bits of entry `i` of logical cluster c's table. -/
def descBits (img : List Byte) (c i : Nat) : Nat := fieldAt img ((sectionAt img 1).1 + 8192 * c + 32 * i) 32
/-- The 256 bits of entry `i` of the move descriptor table. -/
def moveDescBits (img : List Byte) (i : Nat) : Nat := fieldAt img ((sectionAt img 2).1 + 32 * i) 32

/-- Signed value of an index register; ix0 reads zero (R40, R55). -/
def ixValue (ix : List Word) (i : Nat) : Int := if i = 0 then 0 else (ix.getD i 0).toInt

/-- A descriptor with its index offset applied (R39, R40). -/
def descOf (w : Nat) (k : Int) : Desc :=
  let st := bits w 152 16
  let sm := bits w 168 16
  let so := bits w 184 16
  { stat := bits w 0 2, fmtA := bits w 2 4, fmtB := bits w 6 4, fmtOut := bits w 10 4, acc := bit w 14,
    rescale := bit w 15, rows := bits w 16 7 + 1, cols := bits w 23 7 + 1, len := bits w 32 16 + 1,
    statAddr := bits w 48 23 + k * (st * 64 : Nat), strmAddr := bits w 72 23 + k * (sm * 64 : Nat),
    outAddr := bits w 96 23 + k * (so * 64 : Nat), strmStride := 64 * bits w 120 16, outStride := 64 * bits w 136 16,
    ixStat := 64 * st, ixStrm := 64 * sm, ixOut := 64 * so, rescaleIdx := bits w 200 12 }

/-- The 16-bit paths (R75). -/
def Desc.half (d : Desc) : Bool := d.fmtA == 1 || d.fmtA == 2
/-- The 4-bit paths, two reduction elements per PE per cycle (R75). -/
def Desc.double (d : Desc) : Bool := (d.fmtA == 7 && d.fmtB == 7) || (d.fmtA == 10 && d.fmtB == 10)
/-- The integer paths with INT32 sums (R75). -/
def Desc.integer (d : Desc) : Bool := d.fmtA == 9 || d.fmtA == 10
/-- Output-stationary mode (R71). -/
def Desc.output (d : Desc) : Bool := d.stat == 1
/-- Reduction elements K of weight- and input-stationary modes (R71). -/
def Desc.k (d : Desc) : Nat := if d.double then 2 * d.rows else if d.half then d.rows / 2 else d.rows
/-- Result vectors' count: L, or M in output-stationary mode (R71). -/
def Desc.results (d : Desc) : Nat := if d.output then (if d.half then d.rows / 2 else d.rows) else d.len
/-- Elements of a left record, or of a top record for `cols` (R73). -/
def Desc.lanes (d : Desc) (n : Nat) : Nat := if d.double then 2 * n else n
/-- P: bytes from one held record to the next (R73). -/
def Desc.pitch (d : Desc) : Nat := alignUp (elemBytes d.fmtA d.k) 64

/-- The scratchpad regions a pass reads or writes: start and bytes (R73). -/
def Desc.regions (d : Desc) : List (Int × Nat) :=
  let strmLen (fmt n : Nat) : Nat := (d.len - 1) * d.strmStride + elemBytes fmt n
  let out := (d.outAddr, (d.results - 1) * d.outStride + elemBytes d.fmtOut d.cols)
  if d.output then
    [(d.strmAddr, strmLen d.fmtB (d.lanes d.results)), (d.statAddr, strmLen d.fmtA (d.lanes d.cols)), out]
  else
    [(d.statAddr, (d.cols - 1) * d.pitch + elemBytes d.fmtA d.k), (d.strmAddr, strmLen d.fmtB d.k), out]
    ++ (if isMx d.fmtA then [(d.statAddr + (d.cols * d.pitch : Nat), d.cols * (d.k / 32))] else [])
    ++ (if isMx d.fmtB then [(d.strmAddr + (d.len * d.strmStride : Nat), d.len * (d.k / 32))] else [])

/-- A range lies within the scratchpad. -/
def inPad (r : Int × Nat) : Bool := decide (0 ≤ r.1 ∧ r.1 + (r.2 : Int) ≤ padBytes)

/-- A combination and shape that an array accepts, with the rules for acc and rescale (R75, R78; check 9 of R67). -/
def Desc.accepted (d : Desc) : Bool :=
  let mxF (f : Nat) : Bool := decide (3 ≤ f ∧ f ≤ 6)
  let out (l : List Nat) : Bool := l.contains d.fmtOut
  let combo :=
    if d.fmtA = 1 ∧ d.fmtB = 1 then out [0, 1] && decide (d.rows % 2 = 0)
    else if d.fmtA = 2 ∧ d.fmtB = 2 then out [0, 2] && decide (d.rows % 2 = 0)
    else if d.fmtA = 7 ∧ d.fmtB = 7 then out [0, 1, 2] && !d.output && decide (d.rows % 16 = 0)
    else if (mxF d.fmtA && (mxF d.fmtB || d.fmtB == 7)) || (d.fmtA == 7 && mxF d.fmtB) then
      out [0, 1, 2] && !d.output && decide (d.rows % 32 = 0)
    else if d.fmtA = 8 ∧ d.fmtB = 8 then out [0, 1, 2] && !d.output && decide (d.rows % 32 = 0)
    else if (d.fmtA = 9 ∨ d.fmtA = 10) ∧ (d.fmtB = 9 ∨ d.fmtB = 10) then
      (if d.rescale then out [9, 10, 0] else out [12])
    else false
  let accOk := !d.acc || decide (d.fmtOut = (if d.integer then 12 else 0))
  let rescaleOk := !d.rescale ||
    (d.integer && !d.acc && decide (d.rescaleIdx + (if d.stat = 2 then d.len else d.cols) ≤ 4096))
  combo && accOk && rescaleOk && decide (d.stat ≠ 3)

/-- The scratchpad key of a physical cluster's byte. -/
def padKey (cluster : Nat) (off : Int) : Nat := cluster * padBytes + off.toNat

/-- A scratchpad address of a move descriptor: cluster and byte offset with the index offset (R46, R483). -/
def moveAddr (a : Nat) (k : Int) (stride : Nat) : Nat × Int :=
  (bits a 23 4, (bits a 0 23 : Int) + k * (stride * 64 : Nat))

/-- A move slot with its descriptor, before the logical map: the move, and the logical clusters of its scratchpad
ends (R45, R46). -/
def moveOf (op : Nat) (w : Nat) (m : MoveSlot) (k : Int) : Move × Nat × Nat :=
  let sp := bit w 96
  let dp := bit w 97
  let s := if sp then (moveAddr (bits w 0 48) k (bits w 160 16)).2 else bits w 0 48 + k * (bits w 160 16 * 64 : Nat)
  let d := if dp then (moveAddr (bits w 48 48) k (bits w 176 16)).2 else bits w 48 48 + k * (bits w 176 16 * 64 : Nat)
  ({ op := op, src := s, dst := d, srcPad := sp, dstPad := dp,
     len := if m.len = 0 then bits w 128 32 else 64 * m.len.toNat,
     token := if m.tokenEn then some m.token.toNat else none,
     notify := if bits w 192 2 = 1 then some (bits w 194 2, bits w 196 10) else none,
     queuedAt := 0, waitSince := none },
   bits w 23 4, bits w (48 + 23) 4)

/-- A vector slot's scratchpad offset with its index offset (R40, R44). -/
def vecAddr (v : VecSlot) (ix : List Word) : Int :=
  (v.memAddr.toNat : Int) + ixValue ix v.ix.toNat * (v.ixStride.toNat * 64 : Nat)

/-! ## Save lists (R61) -/

/-- Entry `i` of a save list from its bytes: space, offset, length, reserved bit. -/
def saveEntry (bs : List Byte) (i : Nat) : Nat × Nat × Nat × Bool :=
  let w := fieldAt bs (4 + 8 * i) 8
  (bits w 0 8, bits w 8 23, bits w 32 32, bit w 31)

/-- The save lists of a section: bytes of each list, one after another; `n` is fuel. -/
def saveLists (bs : List Byte) : Nat → List (List Byte)
  | 0 => []
  | n + 1 =>
    if bs.isEmpty then []
    else
      let sz := 4 + 8 * fieldAt bs 0 4
      bs.take sz :: saveLists (bs.drop sz) n

/-- The entries of save list `i` of an image. -/
def saveListOf (img : List Byte) (i : Nat) : List (Nat × Nat × Nat × Bool) :=
  let l := (saveLists (sliceBytes img (sectionAt img 3).1 (sectionAt img 3).2) 256).getD i []
  (List.range (fieldAt l 0 4)).map (saveEntry l)

end Sys2Proof.Machine
end

