-- ==== Sys2Proof/Machine/Streams.lean ====
section
/-! DEFINITION. What streams share: tokens, scratchpads and registers, stalls, traps, launches and save images
(R48 to R68, R139). -/

namespace Sys2Proof.Machine

/-! ## Tokens (R48, R52, R53) -/

/-- A token's state. -/
def Core.tok (c : Core) (k : Nat) : Tok := Tbl.getD c.tokens k .clear

/-- A token takes a state; a FAILED token stays FAILED until the command ends (R52). -/
def Core.setTok (k : Nat) (v : Tok) (c : Core) : Core :=
  if c.tok k = .failed then c else { c with tokens := Tbl.put .clear k v c.tokens }

/-- A token becomes FAILED with a status; the first of the stream is recorded (R47, R58). -/
def Core.failTok (k : Nat) (st : Half) (now : Nat) (c : Core) : Core :=
  if c.tok k = .failed then c
  else
    let c1 : Core := { c with tokens := Tbl.put .clear k .failed c.tokens, failSt := Tbl.set k st c.failSt }
    if c.firstFailed.isNone then { c1 with firstFailed := some (k, st), failedAt := now } else c1

/-- A producer sets a token of the stream that runs on a die. -/
def produceToken (d : Nat) (tok : Option Nat) (s : State) : State :=
  match tok with
  | some k => s.modDie d (Die.modStream fun x => { x with core := x.core.setTok k .set })
  | none => s

/-- A remote notify reaches the stream of the launch on a die, running or pre-empted, and no other (R46, R53). -/
def notifyToken (cmd : Nat) (n : Option (Nat × Nat)) (s : State) : State :=
  match n with
  | none => s
  | some (d, k) =>
    let set (x : Stream) : Stream :=
      if x.cmd = cmd then
        { x with core := x.core.setTok k .set, image := x.image.map fun g => { g with core := g.core.setTok k .set } }
      else x
    s.modDie d fun x => { x.modStream set with parked := x.parked.map set }

/-! ## Scratchpads and vector registers (R85, R139) -/

/-- A scratchpad byte: undefined bytes are free values (R139). -/
def Die.padByte (x : Die) (key : Nat) : Byte :=
  match Tbl.get? x.pad key with
  | some b => b
  | none => if x.undef = 0 then 0 else Config.freeByte x.undef key

/-- Bytes of a scratchpad. -/
def Die.padRead (x : Die) (key n : Nat) : List Byte := (List.range n).map fun i => x.padByte (key + i)

/-- Write one scratchpad byte. -/
def Die.padPut (key : Nat) (b : Byte) (x : Die) : Die :=
  { x with pad := if x.undef = 0 then Tbl.put 0 key b x.pad else Tbl.set key b x.pad }

/-- Write bytes to a scratchpad. -/
def Die.padWrite (key : Nat) : List Byte → Die → Die
  | [], x => x
  | b :: bs, x => Die.padWrite (key + 1) bs (Die.padPut key b x)

/-- A vector register's 256 lanes: undefined lanes are free values (R139). -/
def Die.reg (x : Die) (j r : Nat) : List Word :=
  match Tbl.get? x.regs (64 * j + r) with
  | some l => l
  | none => (List.range 256).map fun i => if x.undef = 0 then 0 else Config.freeLane x.undef (64 * j + r) i

/-- Write a vector register. -/
def Die.setReg (j r : Nat) (l : List Word) (x : Die) : Die := { x with regs := Tbl.set (64 * j + r) l x.regs }

/-- A command starts on a die: its scratchpads and registers hold undefined data (R139). -/
def undefine (d : Nat) (s : State) : State :=
  { s.modDie d (fun x => { x with pad := [], regs := [], undef := s.free + 1 }) with free := s.free + 1 }

/-! ## The program of a stream -/

/-- The image of a program. -/
def progImage (s : State) (prog : Word) : List Byte :=
  match Tbl.get? s.programs prog.toNat with
  | some p => p.image
  | none => []

/-- The physical cluster of a logical one. -/
def Stream.phys (x : Stream) (i : Nat) : Nat := x.map.getD i 16

/-- The numeric mode word of a stream's context. -/
def modeOf (s : State) (x : Stream) : Word := ((s.ctx? x.ctx.toNat).map Ctx.mode).getD 0

/-! ## Ending streams (R58, R64, R68) -/

/-- A stream of a launch fails: every stream of the launch stops at once and the command ends with its status
(R64, R68). -/
def stopLaunch (cmd : Nat) (st : Half) (s : State) : State := abort cmd st s

/-- A trap on the die's stream (R64): logged with cause, row offset, plan_cycle and context, then `more`. -/
def trapWith (d : Nat) (cause : Nat) (more : List Nat) (st : Half) (s : State) : State :=
  match (s.die d).stream with
  | none => s
  | some x =>
    let s1 := addLog Lc.trap 0x50000000 (unitWord d 0 0)
      (ctxWord (some x.ctx.toNat) ((s.ctx? x.ctx.toNat).map fun c => c.part.val)) ([cause, x.row, x.plan.toNat] ++ more) s
    stopLaunch x.cmd st s1

/-- A trap that carries no code of its own. -/
def trapStream (d : Nat) (cause : Nat) (st : Half) (s : State) : State := trapWith d cause [] st s

/-- The stream stops outside the trap table and its command ends (R112, R368). -/
def faultStream (d : Nat) (st : Half) (s : State) : State :=
  match (s.die d).stream with
  | none => s
  | some x => stopLaunch x.cmd st s

/-- Whether every pass, vector operation of the stream and move of a die has finished (R57, R59). -/
def Die.drained (x : Die) : Bool :=
  (x.clusters.all fun c => c.2.flight.isEmpty && c.2.waiting.isNone) &&
    (x.engines.all fun e => e.2.flight.isEmpty || e.2.chunk.isSome) && (x.movers.all fun m => m.2.isEmpty)

/-! ## Save images (R59 to R62) -/

/-- What a save list names, read from a die: scratchpad regions by logical cluster, and whole registers. -/
def takeImage (s : State) (d : Nat) (x : Stream) (list row : Nat) (plan : Word) : Image :=
  let dd := s.die d
  let es := saveListOf (progImage s x.prog) list
  let pads := (es.filter fun e => decide (e.1 < 16)).map fun e =>
    (e.1, e.2.1, dd.padRead (padKey (x.phys e.1) e.2.1) e.2.2.1)
  let regs := (es.filter fun e => decide (16 ≤ e.1)).flatMap fun e =>
    (List.range 64).filterMap fun r =>
      if e.2.1 < 1024 * (r + 1) ∧ 1024 * r < e.2.1 + e.2.2.1 then some (64 * (e.1 - 16) + r, dd.reg (e.1 - 16) r) else none
  { core := x.core, data := pads, regs := regs, marker := row, plan := plan }

/-- Bytes that a save list and its record write (R59). -/
def saveBytes (s : State) (x : Stream) (list : Nat) : Nat :=
  512 + ((saveListOf (progImage s x.prog) list).map fun e => e.2.2.1).sum

/-- A save image, or the entry row, is restored on a die: undefined data, then what the list saved (R139, R179). -/
def restoreOn (d : Nat) (x : Stream) (s : State) : State :=
  let s1 := undefine d s
  match x.image with
  | some g =>
    s1.modDie d fun dd =>
      let dd1 := g.data.foldl (fun acc e => acc.padWrite (padKey (x.phys e.1) e.2.1) e.2.2) dd
      let dd2 := g.regs.foldl (fun acc e => { acc with regs := Tbl.set e.1 e.2 acc.regs }) dd1
      { dd2 with stream := some { x with core := g.core, since := 0, stall := none, ended := false, passes := [] } }
  | none =>
    s1.modDie d fun dd =>
      { dd with stream := some { x with core := x.entry, since := 0, stall := none, ended := false, passes := [] } }

/-- A replay restores the newest image, or the entry row of a context set to ON_PREEMPT (R60, R394). -/
def replayOn (d : Nat) (x : Stream) (s : State) : State :=
  restoreOn d (if (s.ctx? x.ctx.toNat).any Ctx.onPreempt then { x with image := none, older := none } else x) s

/-- The context is HELD by recovery after a reproduced fault (R395). -/
def holdContext (c : Byte) (v : Bool) (s : State) : State := s.modCtx c.toNat fun x => { x with held := v }

end Sys2Proof.Machine
end

