-- ==== Sys2Proof/Machine/Array.lean ====
section
/-! DEFINITION. Array passes (R42, R69 to R89) and the swatch procedure (R384, R385). -/

namespace Sys2Proof.Machine

/-! ## Starting a pass -/

/-- The cycle in which a pass's last vector enters (R42). -/
def Pass.lastEntry (p : Pass) : Nat := p.first + p.d.len - 1

/-- The newest pass of a cluster. -/
def Cluster.newest (c : Cluster) : Option Pass :=
  match c.waiting with
  | some p => some p
  | none => c.flight.getLast?

/-- The bytes of held record j and, on MX paths, its scales (R73, R79). -/
def heldRecords (x : Die) (phys : Nat) (d : Desc) : List (List Byte) :=
  if d.output then []
  else
    let recs := (List.range d.cols).map fun j => x.padRead (padKey phys (d.statAddr + (j * d.pitch : Nat))) (elemBytes d.fmtA d.k)
    let sc := (List.range d.cols).map fun j =>
      x.padRead (padKey phys (d.statAddr + (d.cols * d.pitch + j * (d.k / 32) : Nat))) (d.k / 32)
    if isMx d.fmtA then recs ++ sc else recs

/-- Streamed vector i with its scales (R73). -/
def streamedVector (x : Die) (phys : Nat) (d : Desc) (i : Nat) : List Byte :=
  let v := x.padRead (padKey phys (d.strmAddr + (i * d.strmStride : Nat))) (elemBytes d.fmtB d.k)
  if isMx d.fmtB then
    v ++ x.padRead (padKey phys (d.strmAddr + (d.len * d.strmStride + i * (d.k / 32) : Nat))) (d.k / 32)
  else v

/-- Logical clusters that each of `count` swatch clusters serves: 15, 7 or 3 with 1, 2 or 4 of them (R87). -/
def runWidth (count : Nat) : Nat := (16 - count) / count

/-- The logical clusters that swatch cluster number `n` of `count` serves: first and end (R87). -/
def swatchRun (count n : Nat) : Nat × Nat := (n * runWidth count, (n + 1) * runWidth count)

/-- The swatch cluster that takes a pass arriving on logical cluster i at cycle t, when the passes of one cycle arrive
on the logical clusters of `arrivals` (R88). -/
def chooseMirror (s : State) (d : Nat) (x : Stream) (arrivals : List Nat) (i t : Nat) : Option Nat :=
  let sws := swatchClusters s d
  let scanned := s.errs.out.any fun u => match u with
    | .cluster e _ => decide (e.val = d)
    | _ => false
  if sws.isEmpty || scanned || (s.die d).noMirror || x.noSwatch || x.swatch.isSome then none
  else
    let n := i / runWidth sws.length
    match sws[n]? with
    | none => none
    | some sw =>
      let k := (s.die d).cluster sw
      let r := swatchRun sws.length n
      let w := r.2 - r.1
      let rank (j : Nat) : Nat := (j + 2 * w - k.sampledLast - 1) % w
      let rivals := arrivals.filter fun j => decide (r.1 ≤ j ∧ j < r.2)
      if k.sampledUntil ≤ t ∧ rivals.all (fun j => decide (rank i ≤ rank j)) then some sw else none

/-- The pass an array slot starts on logical cluster i, chained or not (R42, R80). -/
def buildPass (s : State) (d : Nat) (x : Stream) (i : Nat) (a : ArraySlot) (chain : Bool) (mirror : Option Nat) : Pass :=
  let c := (s.die d).cluster (x.phys i)
  let ds := descOf (descBits (progImage s x.prog) i a.desc.toNat) (ixValue x.core.ix a.ix.toNat)
  let t := x.cycle
  let behind := match c.newest with
    | some p => if t ≤ p.lastEntry then some p.lastEntry else none
    | none => none
  let first := match behind with
    | some e => if chain then e + 1 else e + 129
    | none => t + 128
  { d := ds, descIx := a.desc.toNat, logical := i, arrival := t, first := first, started := false,
    held := heldRecords (s.die d) (x.phys i) ds, entered := [], next := 0,
    token := if a.tokenEn then some a.token.toNat else none, plan := x.plan,
    ordinal := Tbl.getD x.passes i 0, mirror := mirror, mode := modeOf s x,
    span := ds.len + (match behind with
      | some _ => if chain then 0 else 128
      | none => 384) }

/-- An array slot of a running stream starts a pass; it does not issue while a pass waits (R43). -/
def startPass (d i : Nat) (a : ArraySlot) (chain : Bool) (arrivals : List Nat) (s : State) : State :=
  match (s.die d).stream with
  | none => s
  | some x =>
    let phys := x.phys i
    let c := (s.die d).cluster phys
    if x.ended || decide (16 ≤ phys) || c.waiting.isSome then s
    else
      let mirror := chooseMirror s d x arrivals i x.cycle
      let p := buildPass s d x i a chain mirror
      let wait := (c.newest.any fun q => decide (x.cycle ≤ q.lastEntry))
      let s1 := s.modDie d fun dd =>
        (dd.modCluster phys fun c =>
          if wait then { c with waiting := some p } else { c with flight := c.flight ++ [p] }).modStream fun x =>
            { x with passes := Tbl.set i (Tbl.getD x.passes i 0 + 1) x.passes }
      match mirror with
      | none => s1
      | some sw => s1.modDie d fun dd => dd.modCluster sw fun k =>
          { k with sampledUntil := p.lastEntry + 1, sampledLast := i }

/-- An array slot's stationary operand read meets an error (R367, R368). -/
def passSlot (d i : Nat) (a : ArraySlot) (chain : Bool) (ecc : Ecc) (arrivals : List Nat) (s : State) : State :=
  match (s.die d).stream with
  | none => s
  | some x =>
    let u := HwUnit.cluster (dieIx d) (clusterIx (x.phys i))
    readEcc ecc u a.desc.toNat (some x.ctx) (startPass d i a chain arrivals) (faultStream d St.computeFault) s

/-- DRAIN: its token is set when every earlier pass of the cluster has written its last result (R83). -/
def drainSlot (d i : Nat) (a : ArraySlot) (s : State) : State :=
  match (s.die d).stream with
  | none => s
  | some x =>
    let phys := x.phys i
    let c := (s.die d).cluster phys
    let n := c.flight.length + (if c.waiting.isSome then 1 else 0)
    if x.ended || !a.tokenEn then s
    else if n = 0 then produceToken d (some a.token.toNat) s
    else s.modDie d fun dd => dd.modCluster phys fun c => { c with drains := c.drains ++ [(a.token.toNat, n)] }

/-- The top records and then the left records of an output-stationary pass (R73). -/
def outputRecords (x : Die) (c : Nat) (d : Desc) : List (List Byte) :=
  ((List.range d.len).map fun i =>
      x.padRead (padKey c (d.statAddr + (i * d.strmStride : Nat))) (elemBytes d.fmtA (d.lanes d.cols))) ++
    (List.range d.len).map fun i =>
      x.padRead (padKey c (d.strmAddr + (i * d.strmStride : Nat))) (elemBytes d.fmtB (d.lanes d.results))

/-- The records of an output-stationary pass, all entered before its first result (R82, R85). -/
def Pass.records (x : Die) (c : Nat) (p : Pass) : List (List Byte) :=
  if p.entered.isEmpty then outputRecords x c p.d else p.entered

/-- A pass whose first streamed vector enters, with the vectors that enter before its first result (R82, R85). -/
def Pass.enters (x : Die) (c : Nat) (p : Pass) : Pass :=
  { p with started := true
           entered := if p.d.output then [] else (List.range (min 256 p.d.len)).map fun i => streamedVector x c p.d i }

/-- A started pass all of whose vectors or records have entered (R80, R85). -/
def Pass.allEntered (x : Die) (c : Nat) (p : Pass) : Pass :=
  if !p.started then p
  else if p.d.output then { p with entered := p.records x c }
  else
    { p with entered := p.entered ++
        (List.range (p.d.len - (p.next + p.entered.length))).map fun i =>
          streamedVector x c p.d (p.next + p.entered.length + i) }

/-- A pass that has written its next result vector: the vector before it is no longer held, and one more has entered
(R82, R85). -/
def Pass.advanced (x : Die) (c : Nat) (p : Pass) : Pass :=
  { p with next := p.next + 1
           entered := if p.d.output then p.records x c else p.entered.drop 1 ++
             (let more := p.next + p.entered.length
              if more < p.d.len then [streamedVector x c p.d more] else []) }

/-- A pass that holds the waiting place chains behind its predecessor, so it casts on from its arrival (R79, R80). -/
def Pass.chained (p : Pass) : Bool := decide (p.span = p.d.len)

/-- A pass with the stationary operand as the scratchpad now holds it. -/
def Pass.recast (x : Die) (c : Nat) (p : Pass) : Pass := { p with held := heldRecords x c p.d }

/-- The first streamed vector of the oldest pass not yet started enters: the waiting place is freed, and vectors still
to enter of the pass before it have entered (R42, R80, R85). A chained pass that waits while its predecessor casts on has its
own shadow write after that; one that does not chain, after the predecessor's last vector (R79). -/
def firstVectorEnters (d c : Nat) (s : State) : State :=
  let x := s.die d
  let k := x.cluster c
  if k.flight.any fun p => !p.started then
    s.setDie d (x.modCluster c fun k =>
      { k with flight := k.flight.map fun p => if p.started then p else p.enters x c
               waiting := k.waiting.map fun p => if p.chained then p.recast x c else p })
  else
    match k.waiting with
    | none => s
    | some p =>
      let q := if p.chained then p else p.recast x c
      s.setDie d (x.modCluster c fun k =>
        { k with flight := k.flight.map (Pass.allEntered x c) ++ [q.enters x c], waiting := none })

/-! ## Results (R71, R77, R78, R109) -/

/-- The exact sum of products of one group of reduction elements, before the scales. -/
def groupSum (fa fb : Nat) (a b : List Byte) (lo n : Nat) : Num :=
  (List.range n).foldl (fun acc i =>
    Num.add acc (Num.mul (elemValue fa (elemCode fa a (lo + i))) (elemValue fb (elemCode fb b (lo + i)))))
    (.fin false 0 0)

/-- The scale byte of a block as a factor: NaN for a NaN block. -/
def withScale (fmt : Nat) (b : Byte) (x : Num) : Num :=
  if isMx fmt then (match scaleExp fmt b with
    | none => .nan
    | some k => x.scale k)
  else x

/-- The FP32 sum of one result element over groups of 32 in order, one rounding each (R77): word and saturations. -/
def dotFloat (fa fb k : Nat) (a sa b sb : List Byte) : Word × Nat :=
  (List.range ((k + 31) / 32)).foldl (fun acc g =>
    let raw := groupSum fa fb a b (32 * g) (min 32 (k - 32 * g))
    let sum := withScale fa (sa.getD g 0) (withScale fb (sb.getD g 0) raw)
    let r := toF32 (Num.add (f32 acc.1) sum)
    (r.1, acc.2 + (if r.2 then 1 else 0))) (0, 0)

/-- The exact integer sum of products (R77). -/
def dotInt (fa fb k : Nat) (a b : List Byte) : Int :=
  (List.range k).foldl (fun acc i =>
    acc + signedOf (elemBits fa) (elemCode fa a i) * signedOf (elemBits fb) (elemCode fb b i)) 0

/-- Element (r, j) of an output-stationary pass: steps in order, each step's exact product sum added with one rounding
(R77). -/
def outFloat (d : Desc) (tops lefts : List (List Byte)) (r j : Nat) : Word × Nat :=
  let n := if d.double then 2 else 1
  (List.range d.len).foldl (fun acc i =>
    let t := tops.getD i []
    let l := lefts.getD i []
    let sum := (List.range n).foldl (fun a q =>
      Num.add a (Num.mul (elemValue d.fmtB (elemCode d.fmtB l (n * r + q)))
        (elemValue d.fmtA (elemCode d.fmtA t (n * j + q))))) (.fin false 0 0)
    let w := toF32 (Num.add (f32 acc.1) sum)
    (w.1, acc.2 + (if w.2 then 1 else 0))) (0, 0)

/-- Element (r, j) of an output-stationary pass on integer paths (R77). -/
def outInt (d : Desc) (tops lefts : List (List Byte)) (r j : Nat) : Int :=
  let n := if d.double then 2 else 1
  (List.range d.len).foldl (fun acc i =>
    let t := tops.getD i []
    let l := lefts.getD i []
    satInt32 (acc + ((List.range n).map fun q =>
      signedOf (elemBits d.fmtB) (elemCode d.fmtB l (n * r + q)) *
        signedOf (elemBits d.fmtA) (elemCode d.fmtA t (n * j + q))).sum)) 0

/-- One result vector: its bytes, its counts, and whether a rescale entry it used is malformed (R77, R78, R108). -/
structure ResultVec where
  /-- Bytes as written. -/
  bytes : List Byte
  /-- Saturations and NaNs turned to integers. -/
  conv : Conv
  /-- A rescale entry has a nonzero reserved field. -/
  bad : Bool
deriving DecidableEq, Repr

/-- Result vector i of a pass on a physical cluster. -/
def resultVector (x : Die) (c : Nat) (p : Pass) (i : Nat) : ResultVec :=
  let d := p.d
  let v := p.entered.getD 0 []
  let nb := elemBytes d.fmtB d.k
  let recs := if d.output then p.records x c else []
  let place (j : Nat) : Nat :=
    elemCode d.fmtOut (x.padRead (padKey c (d.outAddr + (i * d.outStride : Nat))) (elemBytes d.fmtOut d.cols)) j
  let entry (j : Nat) : Nat :=
    leNat (x.padRead (padKey c (0x7FC000 + 4 * (d.rescaleIdx + (if d.stat = 2 then i else j)) : Nat)) 4)
  let elem (j : Nat) : Nat × Conv × Bool :=
    if d.integer then
      let raw := if d.output then outInt d (recs.take d.len) (recs.drop d.len) i j else dotInt d.fmtA d.fmtB d.k (p.held.getD j []) v
      if d.rescale then
        let e := rescaled (entry j) d.fmtOut (satInt32 raw)
        (e.1, e.2, rescaleBad (entry j))
      else
        let sum := if d.acc then signedOf 32 (place j) + satInt32 raw else raw
        (codeOf 32 (satInt32 sum),
          { sats := (if satInt32 raw ≠ raw then 1 else 0) + (if satInt32 sum ≠ sum ∧ d.acc then 1 else 0), nans := 0 }, false)
    else
      let w := if d.output then outFloat d (recs.take d.len) (recs.drop d.len) i j
        else dotFloat d.fmtA d.fmtB d.k (p.held.getD j []) (p.held.getD (d.cols + j) []) (v.take nb) (v.drop nb)
      let r := if d.acc then f32Add (BitVec.ofNat 32 (place j)) w.1 else (w.1, false)
      let o := if d.fmtOut = 0 then (r.1.toNat, { sats := 0, nans := 0 }) else toElem d.fmtOut (f32 r.1)
      (o.1, { o.2 with sats := o.2.sats + w.2 + (if r.2 then 1 else 0) }, false)
  let es := (List.range d.cols).map elem
  { bytes := packCodes d.fmtOut (es.map Prod.fst)
    conv := { sats := (es.map fun e => e.2.1.sats).sum, nans := (es.map fun e => e.2.1.nans).sum }
    bad := es.any fun e => e.2.2 }

/-- Bytes with a fault's bits turned. -/
def flipped (bs f : List Byte) : List Byte := bs.mapIdx fun i b => b ^^^ f.getD i 0

/-- A swatch comparison fails: P and S leave service, the stream is held for the procedure, or a second mismatch ends
the command (R89, R384 M1, R385). -/
def swatchMismatch (d c sw : Nat) (p : Pass) (prim dup : List Byte) (s : State) : State :=
  match (s.die d).stream with
  | none => s
  | some x =>
    let s1 := addLog Lc.swatchMismatch 0x50000000 (unitWord d 1 c) (ctxWord (some x.ctx.toNat) none)
      [c, sw, p.plan.toNat, p.next] s
    let s2 := takeOut (.cluster (dieIx d) (clusterIx sw)) (takeOut (.cluster (dieIx d) (clusterIx c)) s1)
    if 1 ≤ x.mismatches then stopLaunch x.cmd St.swatchMismatch s2
    else
      let w : Swatch :=
        { prim := c, dup := sw, primBytes := prim, dupBytes := dup, logical := p.logical, ordinal := p.ordinal,
          vec := p.next, step := 1, third := none }
      s2.modDie d fun dd => { dd.abandon with stream := some { x with swatch := some w, mismatches := x.mismatches + 1 } }

/-- The oldest pass of a cluster writes its next result vector, compared with the swatch cluster's (R82, R86, R89). -/
def writeResult (d c : Nat) (primFault dupFault : List Byte) (s : State) : State :=
  let x := s.die d
  let k := x.cluster c
  match k.flight with
  | [] => s
  | p :: rest =>
    if !p.started || decide (p.d.results ≤ p.next) || (!p.d.output && p.entered.isEmpty) then s
    else
      let r := resultVector x c p p.next
      if r.bad then trapStream d 0x09 St.computeFault s
      else
        let prim := flipped r.bytes primFault
        let dup := flipped r.bytes dupFault
        let p1 := p.advanced x c
        let s1 := s.setDie d
          ((x.padWrite (padKey c (p.d.outAddr + (p.next * p.d.outStride : Nat))) prim).modCluster c fun k =>
            { k with flight := p1 :: rest })
        let ctx := (x.stream.map Stream.ctx).getD 0
        let s2 := s1.count ctx.toNat fun n =>
          { n with saturations := n.saturations + r.conv.sats, nanToInt := n.nanToInt + r.conv.nans }
        match p.mirror with
        | some sw => if prim = dup then s2 else swatchMismatch d c sw p prim dup s2
        | none => s2

/-- ARRAY_RESULT_WRITE with what the operand reads found (R368). -/
def resultWrite (d c : Nat) (primFault dupFault : List Byte) (ecc : Ecc) (s : State) : State :=
  match ((s.die d).cluster c).flight with
  | [] => s
  | p :: _ =>
    readEcc ecc (.cluster (dieIx d) (clusterIx c)) (padKey c p.d.strmAddr) ((s.die d).stream.map Stream.ctx)
      (writeResult d c primFault dupFault) (faultStream d St.computeFault) s

/-- The oldest pass of a cluster has written its last result: its token and the drains it ends are set, and its
cluster-cycles are charged (R38, R82, R83, R185). -/
def passComplete (d c : Nat) (s : State) : State :=
  let x := s.die d
  let k := x.cluster c
  match k.flight with
  | [] => s
  | p :: rest =>
    if p.started && decide (p.d.results ≤ p.next) then
      let drains := k.drains.map fun q => (q.1, q.2 - 1)
      let s1 := s.setDie d (x.modCluster c fun k =>
        { k with flight := rest, drains := drains.filter fun q => decide (0 < q.2) })
      let s2 := produceToken d p.token s1
      let s3 := foldOver (drains.filter fun q => decide (q.2 = 0)) (fun q => produceToken d (some q.1)) s2
      let ctx := ((x.stream.map Stream.ctx).getD 0).toNat
      s3.count ctx fun n =>
        { n with arrayCycles := n.arrayCycles + p.span
                 swatchCycles := n.swatchCycles + (if p.mirror.isSome then p.span else 0) }
    else s

/-! ## The swatch procedure (R384, R385) -/

/-- M2: the newest image is restored and the stream runs again from its marker, with the primary's logical cluster on
T (R384). -/
def thirdExecution (d : Nat) (s : State) : State :=
  match (s.die d).stream with
  | none => s
  | some x =>
    match x.swatch with
    | none => s
    | some w =>
      if w.step ≠ 1 then s
      else
        let live := inServiceClusters s d
        let above := live.filter fun c => decide (w.prim < c)
        match (above ++ live).head? with
        | none => stopLaunch x.cmd St.swatchMismatch s
        | some t =>
          let others := ((List.range 16).filter fun c => (live.contains c || c == w.dup) && c != t)
          let m := (List.range x.map.length).map fun i =>
            if i = w.logical then t else others.getD (if i < w.logical then i else i - 1) 16
          if others.length + 1 < x.map.length then stopLaunch x.cmd St.swatchMismatch s
          else
            replayOn d { x with map := m, swatch := some { w with step := 2, third := some t } } s

/-- The recorded pass's result vector as T writes it, when T has reached it (R384 M3). -/
def thirdVector (s : State) (d : Nat) (w : Swatch) (t : Nat) : Option (List Byte) :=
  match ((s.die d).cluster t).flight with
  | [] => none
  | p :: _ =>
    if p.started ∧ p.ordinal = w.ordinal ∧ p.logical = w.logical ∧ p.next = w.vec then
      some (resultVector (s.die d) t p p.next).bytes
    else none

/-- M4: one cluster of the pair is retired and the other returns (R385). -/
def retirePair (d : Nat) (bad good : Nat) (x : Stream) (w : Swatch) (s : State) : State :=
  let s1 := putBack (.cluster (dieIx d) (clusterIx good)) (retireUnit (.cluster (dieIx d) (clusterIx bad)) s)
  s1.modDie d fun dd =>
    { dd.abandon with stream := some { x with swatch := some { w with step := 4 } }
                      noMirror := dd.noMirror || decide (bad = w.dup) }

/-- SWATCH_DECIDE: T's version against both captured versions (R385). -/
def swatchDecide (d : Nat) (tFault : List Byte) (reached primFails dupFails : Bool) (s : State) : State :=
  match (s.die d).stream with
  | none => s
  | some x =>
    match x.swatch with
    | none => s
    | some w =>
      let byScan := if dupFails && !primFails then retirePair d w.dup w.prim x w s else retirePair d w.prim w.dup x w s
      if w.step ≠ 2 then s
      else if reached then
        match thirdVector s d w (w.third.getD 16) with
        | none => s
        | some bs =>
          let v := flipped bs tFault
          if v = w.dupBytes then retirePair d w.prim w.dup x w s
          else if v = w.primBytes then retirePair d w.dup w.prim x w s
          else byScan
      else if x.ended || (match x.stall with
          | some (.marker _ _ _) => true
          | _ => false) then byScan
      else s

/-- M5: the context is replayed from the same marker on the die's clusters as they now stand (R384). -/
def swatchReplay (d : Nat) (s : State) : State :=
  match (s.die d).stream with
  | none => s
  | some x =>
    match x.swatch with
    | none => s
    | some w =>
      if w.step ≠ 4 then s
      else
        let c := x.map.length
        let plain := clusterMap s d c false
        match (match plain with
          | some m => some (m, x.noSwatch)
          | none => (clusterMap s d c true).map fun m => (m, true)) with
        | none => stopLaunch x.cmd St.swatchMismatch s
        | some (m, ns) => replayOn d { x with map := m, swatch := none, noSwatch := ns } s

/-! ## Rows that only act on a cluster -/

/-- PASS_FIRST_VECTOR_ENTERS (R80). -/
def execPassFirstVectorEnters (d : DieIx) (c : ClusterIx) (s : State) : Host.Outcome State Fault Refusal :=
  .next (firstVectorEnters d.val c.val s)

/-- PASS_COMPLETE (R82). -/
def execPassComplete (d : DieIx) (c : ClusterIx) (s : State) : Host.Outcome State Fault Refusal :=
  .next (passComplete d.val c.val s)

/-- DRAIN (R83). -/
def execDrain (d : DieIx) (i : ClusterIx) (a : ArraySlot) (s : State) : Host.Outcome State Fault Refusal :=
  .next (drainSlot d.val i.val a s)

end Sys2Proof.Machine
end

