-- ==== Sys2Proof/Machine/Tiers.lean ====
section
/-! DEFINITION. Scratchpads, HBM and flash as one store space (chapter 6): pages, frames, fetches, write-backs, the layer
schedule and the store space commands. -/

namespace Sys2Proof.Machine

/-- Bytes of a page and of a frame (R140). -/
def pageBytes : Nat := 2097152
/-- Frames on one compute die's stacks (R141). -/
def dieFrames : Nat := 49152

/-! ## Pages (R142) -/

/-- Whether a page is mapped. -/
def Store.mapped (t : Store) (pg : Nat) : Bool := t.ranges.any fun r => decide (r.base ≤ pg ∧ pg < r.base + r.pages)

/-- The range that holds a page. -/
def Store.rangeOf (t : Store) (pg : Nat) : Option Range :=
  t.ranges.find? fun r => decide (r.base ≤ pg ∧ pg < r.base + r.pages)

/-- A page with no record of its own: ZERO. -/
def Page.zero : Page :=
  { st := .zero, pinned := false, die := 0, stamp := 0, stuck := false, pinAfter := false, released := false, lastCtx := 0 }

/-- A page's record. -/
def Store.page (t : Store) (pg : Nat) : Page := Tbl.getD t.pages pg Page.zero

/-- Whether a page holds a frame. -/
def Page.framed (g : Page) : Bool :=
  match g.st with
  | .clean => true
  | .dirty => true
  | .fetching => true
  | .writing => true
  | _ => false

/-- Whether a page can be served from its frame. -/
def Page.resident (g : Page) : Bool :=
  match g.st with
  | .clean => true
  | .dirty => true
  | .writing => true
  | _ => false

/-- The state code of R142. -/
def Store.stateCode (t : Store) (pg : Nat) : Nat :=
  if t.mapped pg then
    match (t.page pg).st with
    | .zero => 1
    | .clean => 2
    | .dirty => 3
    | .flash => 4
    | .fetching => 5
    | .writing => 6
    | .poisoned => 7
  else 0

/-- The state with a page record replaced; a ZERO page keeps none. -/
def setPage (p pg : Nat) (g : Page) (s : State) : State :=
  s.modStore p fun t => { t with pages := if g.st = .zero then Tbl.erase pg t.pages else Tbl.set pg g t.pages }

/-- The current time in ms, for access stamps (R149). -/
def stampNow (s : State) : Nat := s.sys.time / 1000000

/-! ## Frames (R141, R152, R153) -/

/-- Page records of all partitions that hold a frame on a die. -/
def pageFrames (s : State) (d : Nat) : Nat :=
  (s.stores.map fun e => Tbl.count (fun _ g => g.framed && decide (g.die = d)) e.2.pages).sum

/-- Frames of a die that are not FREE. -/
def usedFrames (s : State) (d : Nat) : Nat :=
  let x := s.die d
  x.retired + x.moduleFrames + x.shardFrames + x.saveFrames + x.landingFrames + x.progFrames + x.otherFrames + pageFrames s d

/-- FREE frames of a die. -/
def freeFrames (s : State) (d : Nat) : Nat := dieFrames - usedFrames s d

/-- Frames the module pins on a die, and MODULE frames. -/
def fixedFrames (s : State) (d : Nat) : Nat :=
  let x := s.die d
  x.moduleFrames + x.shardFrames + x.saveFrames + x.landingFrames + x.progFrames + x.otherFrames

/-- Pages of a partition that are PINNED. -/
def pinnedPages (s : State) (p : Nat) : Nat := Tbl.count (fun _ g => g.pinned) (s.store p).pages

/-- POOL frames of a partition. -/
def poolFrames (s : State) (p : Nat) : Nat := Tbl.count (fun _ g => g.framed && !g.pinned) (s.store p).pages

/-! ## The layer schedule (R150, R151) -/

/-- Entry count of a schedule section. -/
def schedCount (img : List Byte) : Nat := if (sectionAt img 4).2 = 0 then 0 else fieldAt img (sectionAt img 4).1 4
/-- The schedule is cyclic. -/
def schedCyclic (img : List Byte) : Bool := (fieldAt img ((sectionAt img 4).1 + 4) 4).testBit 0
/-- Bits of schedule entry i. -/
def schedEntry (img : List Byte) (i : Nat) : Nat := fieldAt img ((sectionAt img 4).1 + 16 + 32 * i) 32
/-- First page of an entry. -/
def schedBase (img : List Byte) (i : Nat) : Nat := bits (schedEntry img i) 0 48 / pageBytes
/-- Pages of an entry. -/
def schedPages (img : List Byte) (i : Nat) : Nat := bits (schedEntry img i) 64 32
/-- lead_us of an entry. -/
def schedLead (img : List Byte) (i : Nat) : Nat := bits (schedEntry img i) 96 32
/-- Whether an entry holds a page. -/
def schedHolds (img : List Byte) (i pg : Nat) : Bool :=
  decide (schedBase img i ≤ pg ∧ pg < schedBase img i + schedPages img i)

/-- The check of the section at first placement (R150). -/
def schedBad (img : List Byte) : Bool :=
  let n := schedCount img
  let h := (sectionAt img 4)
  if h.2 = 0 then false
  else
    decide (4096 < n) || decide (fieldAt img (h.1 + 4) 4 ≥ 2) || decide (fieldAt img (h.1 + 8) 8 ≠ 0) ||
    (List.range (min n 4096)).any fun i =>
      let w := schedEntry img i
      decide (bits w 0 48 % pageBytes ≠ 0 ∨ bits w 48 16 ≠ 0 ∨ bits w 64 32 = 0 ∨ bits w 131 125 ≠ 0)

/-- The window after entry i: the D entries that follow (R151). -/
def schedWindow (img : List Byte) (i dist : Nat) : List Nat :=
  let n := schedCount img
  (List.range dist).filterMap fun k =>
    let j := i + 1 + k
    if j < n then some j else if schedCyclic img ∧ 0 < n then some (j % n) else none

/-- The entries a stream holds in its current layer and window. -/
def streamEntries (s : State) (x : Stream) : List Nat :=
  let img := progImage s x.prog
  let dist := match s.ctx? x.ctx.toNat with
    | some c => (s.part c.part.val).prefetch
    | none => 0
  match x.layer with
  | some (i, _) => i :: schedWindow img i dist
  | none => if schedCount img = 0 then [] else (List.range (min (dist + 1) (schedCount img)))

/-- The partition of a stream. -/
def streamPart (s : State) (x : Stream) : Nat := ((s.ctx? x.ctx.toNat).map fun c => c.part.val).getD 0

/-- Whether a page lies in the current layer or window of a running stream (R146, R151). -/
def inWindow (s : State) (p pg : Nat) : Bool :=
  (List.range 4).any fun d =>
    match (s.die d).stream with
    | none => false
    | some x => decide (streamPart s x = p) && (streamEntries s x).any fun i => schedHolds (progImage s x.prog) i pg

/-- The context of a running stream of a partition whose current layer or window holds a page, and whether the entry is
written whole before it is read (R150, R151). -/
def windowOwner (s : State) (p pg : Nat) : Option (Byte × Bool) :=
  (List.range 4).findSome? fun d =>
    match (s.die d).stream with
    | none => none
    | some x =>
      if streamPart s x = p then
        ((streamEntries s x).find? fun i => schedHolds (progImage s x.prog) i pg).map fun i =>
          (x.ctx, bit (schedEntry (progImage s x.prog) i) 129)
      else none

/-- A page of an entry that is written whole before it is read takes a frame with no fetch (R150). -/
def wholeEntry (s : State) (p pg : Nat) : Bool := (windowOwner s p pg).any fun x => x.2

/-- Pages of an entry that take the largest age (R150). -/
def releasePages (p base n : Nat) (s : State) : State :=
  s.modStore p fun t =>
    { t with pages := Tbl.mapVals (fun k g => if base ≤ k ∧ k < base + n then { g with released := true } else g) t.pages }

/-- A move of the stream touches a page: the entry it makes current (R151). -/
def touchLayer (d pg : Nat) (s : State) : State :=
  match (s.die d).stream with
  | none => s
  | some x =>
    let img := progImage s x.prog
    let n := schedCount img
    let cur := x.layer.map Prod.fst
    if n = 0 ∨ (cur.any fun i => schedHolds img i pg) then s
    else
      let start := match cur with
        | some i => i + 1
        | none => 0
      match ((List.range n).map fun k => (start + k) % n).find? fun i => schedHolds img i pg with
      | none => s
      | some i =>
        let before := streamEntries s x
        let s1 := s.modDie d (Die.modStream fun y => { y with layer := some (i, s.sys.time) })
        let after := match (s1.die d).stream with
          | some y => streamEntries s1 y
          | none => []
        foldOver (before.filter fun j => !after.contains j && bit (schedEntry img j) 130)
          (fun j => releasePages (streamPart s x) (schedBase img j) (schedPages img j)) s1

/-! ## Eviction (R149, R152, R157) -/

/-- Whether a page may be evicted to serve partition `need` (R152). -/
def evictable (s : State) (need p : Nat) (g : Page) : Bool :=
  (decide (g.st = .clean) || decide (g.st = .dirty)) && !g.pinned && !g.stuck &&
    (decide (p = need) || decide ((s.part p).floor < poolFrames s p))

/-- The older of two candidates: partition, page, record. -/
def olderPage (a b : Nat × Nat × Page) : Nat × Nat × Page :=
  let key (x : Nat × Nat × Page) : Nat := if x.2.2.released then 0 else x.2.2.stamp + 1
  if key b < key a then b else a

/-- The page a die evicts: the largest age, lower partition and page first; pages in a window only when no other
remains (R152). -/
def victim (s : State) (d need : Nat) : Option (Nat × Nat × Page) :=
  let all := s.stores.flatMap fun e =>
    (e.2.pages.filter fun g => decide (g.2.die = d) && evictable s need e.1 g.2).map fun g => (e.1, g.1, g.2)
  let free := all.filter fun x => !inWindow s x.1 x.2.1
  match (if free.isEmpty then all else free) with
  | [] => none
  | x :: r => some (r.foldl olderPage x)

/-- Evict one page of a die to serve partition `need`, or none: a clean page becomes FLASH at once, a dirty one starts its
write-back, or leaves the candidates while the media is read-only (R149, R157, R160). -/
def evictPage (x : Nat × Nat × Page) (need : Nat) (s : State) : State :=
  let p := x.1
  let pg := x.2.1
  let g := x.2.2
  let s1 := if need < 4 ∧ p ≠ need then
      s.count g.lastCtx.toNat fun n => { n with evictedByOthers := n.evictedByOthers + 1 }
    else s
  if g.st = .clean then setPage p pg { g with st := .flash, die := 0, released := false } s1
  else if s.statusBit Sb.readOnly then
    addLog Lc.writebackFailed 0x50000000 noUnit (ctxWord none (some p)) [p, pg] (setPage p pg { g with stuck := true } s1)
  else setPage p pg { g with st := .writing } s1

/-- The die on which a page of a range takes its frame (R143): the preferred die, and whether others may serve. -/
def preferredDie (s : State) (p pg : Nat) : Nat × Bool :=
  match (s.store p).rangeOf pg with
  | none => (0, true)
  | some r =>
    if r.hint = 1 then (pg % 4, false)
    else if r.hint = 2 then (r.die, false)
    else
      let ds := (List.range 4).filter fun d => (s.part p).dies.getLsbD d
      (ds.getD (pg % ds.length) 0, true)

/-- A free frame for a page under R143 that leaves `keep` frames free, or an eviction on the preferred die, where none is
under way: the state, and the die if a frame is at hand. -/
def findFrame (p pg keep : Nat) (s : State) : State × Option Nat :=
  let pref := preferredDie s p pg
  let owned := (List.range 4).filter fun d => (s.part p).dies.getLsbD d
  let order := if pref.2 then pref.1 :: (owned ++ List.range 4) else [pref.1]
  match order.find? fun d => decide (keep < freeFrames s d) && !(s.die d).dead with
  | some d => (s, some d)
  | none =>
    match (if writingOn s pref.1 = 0 then victim s pref.1 p else none) with
    | none => (s, none)
    | some x =>
      let s1 := evictPage x p s
      (s1, if keep < freeFrames s1 pref.1 then some pref.1 else none)

/-! ## Access (R142, R148) -/

/-- What an access to a page finds. -/
inductive PageAccess where
  /-- It is served. -/
  | ok
  /-- It waits for a fetch or a frame. -/
  | wait
  /-- The page is not mapped. -/
  | unmapped
  /-- The page is poisoned. -/
  | poisoned
deriving DecidableEq, Repr

/-- An access moves the stamp and the last context of a page. -/
def touchPage (p pg : Nat) (ctx : Byte) (s : State) : State :=
  match Tbl.get? (s.store p).pages pg with
  | none => s
  | some g => setPage p pg { g with stamp := stampNow s, released := false, lastCtx := ctx } s

/-- An access waits for a FLASH page: its context is charged with the fetch (R160). -/
def claimPage (p pg : Nat) (ctx : Byte) (s : State) : State :=
  match Tbl.get? (s.store p).pages pg with
  | none => s
  | some g => setPage p pg { g with lastCtx := ctx } s

/-- A request needs a page that is POISONED: logged with the partition, context and page (R155). -/
def poisonMet (p pg : Nat) (ctx : Byte) (s : State) : State :=
  addLog Lc.lowerTierFailed 0x50000000 noUnit (ctxWord (some ctx.toNat) (some p)) [p, pg] s

/-- A read of a page (R142). -/
def readPage (p pg : Nat) (ctx : Byte) (s : State) : State × PageAccess :=
  let t := s.store p
  if !t.mapped pg then (s, .unmapped)
  else
    match (t.page pg).st with
    | .zero => (s, .ok)
    | .flash => (claimPage p pg ctx s, .wait)
    | .fetching => (s, .wait)
    | .poisoned => (poisonMet p pg ctx s, .poisoned)
    | _ => (touchPage p pg ctx s, .ok)

/-- Bytes of store space. -/
def storeWrite (p off : Nat) (bs : List Byte) (s : State) : State :=
  s.modStore p fun t => { t with mem := Mem.writeBytes off bs t.mem }

/-- A frame taken with no fetch holds no bytes that the manual states (R150): free values. -/
def openPage (p pg : Nat) (s : State) : State :=
  storeWrite p (pg * pageBytes) ((List.range pageBytes).map fun i => BitVec.ofNat 8 (Config.freeNat (s.free + i)))
    { s with free := s.free + pageBytes }

/-- A write of a page, whole or in part: the page becomes RESIDENT_DIRTY (R142). -/
def writePage (p pg : Nat) (whole : Bool) (ctx : Byte) (s : State) : State × PageAccess :=
  let t := s.store p
  let g := t.page pg
  let fresh (keep : Nat) (s : State) : State × PageAccess :=
    let f := findFrame p pg keep s
    match f.2 with
    | some d => (setPage p pg { Page.zero with st := .dirty, die := d, stamp := stampNow s, lastCtx := ctx } f.1, .ok)
    | none => (f.1, .wait)
  if !t.mapped pg then (s, .unmapped)
  else
    match g.st with
    | .zero => fresh 0 s
    | .flash =>
      if whole then fresh 256 s
      else if wholeEntry s p pg then
        let f := fresh 256 s
        (if f.2 = .ok then openPage p pg f.1 else f.1, f.2)
      else (claimPage p pg ctx s, .wait)
    | .fetching => (s, .wait)
    | .poisoned => if whole then fresh 256 s else (poisonMet p pg ctx s, .poisoned)
    | _ => (setPage p pg { g with st := .dirty, stamp := stampNow s, released := false, lastCtx := ctx } s, .ok)

/-- The pages of a byte range. -/
def pagesOf (off len : Nat) : List Nat :=
  if len = 0 then [] else (List.range ((off + len - 1) / pageBytes - off / pageBytes + 1)).map fun i => off / pageBytes + i

/-- A read of a byte range: every page is touched until one stops it. -/
def readRange (p : Nat) (pages : List Nat) (ctx : Byte) (s : State) : State × PageAccess :=
  pages.foldl (fun acc pg => if acc.2 = .ok then readPage p pg ctx acc.1 else acc) (s, .ok)

/-- Bytes of store space; unwritten bytes of a mapped page read zero (R142). -/
def storeRead (s : State) (p off n : Nat) : List Byte := Mem.readBytes (s.store p).mem off n

/-- Bytes of a range that HBM frames hold (R160). -/
def framedBytes (s : State) (p off len : Nat) : Nat :=
  ((pagesOf off len).map fun g =>
    if ((s.store p).page g).framed then min (off + len) ((g + 1) * pageBytes) - max off (g * pageBytes) else 0).sum

/-- A byte range covers a whole page. -/
def coversPage (off len g : Nat) : Bool := decide (off ≤ g * pageBytes ∧ (g + 1) * pageBytes ≤ off + len)

/-- Write a byte range page by page in address order, from byte `done`: the state, bytes done, and what stopped it
(R144). -/
def writeRange (p off : Nat) (bs : List Byte) (ctx : Byte) : List Nat → Nat → State → State × Nat × PageAccess
  | [], n, s => (s, n, .ok)
  | pg :: r, n, s =>
    let lo := max off (pg * pageBytes)
    let hi := min (off + bs.length) ((pg + 1) * pageBytes)
    if hi - off ≤ n then writeRange p off bs ctx r n s
    else
      let a := writePage p pg (decide (hi - lo = pageBytes)) ctx s
      if a.2 = .ok then
        writeRange p off bs ctx r (hi - off) (storeWrite p lo ((bs.drop (lo - off)).take (hi - lo)) a.1)
      else (a.1, n, a.2)

/-- A command first waits on a page (R155). -/
def waitOnPage (n : Nat) (s : State) : State :=
  s.modLive n fun l => { l with phase := .pages, waitSince := some (l.waitSince.getD s.sys.time) }

/-- A command that waited on pages goes on: its wait is charged (R160). -/
def chargeWait (n : Nat) (s : State) : State :=
  match s.live? n with
  | some l =>
    (match l.waitSince with
      | some t => (s.count l.c.context.toNat fun k => { k with tierWait := k.tierWait + (s.sys.time - t) }).modLive n
          fun x => { x with waitSince := none, phase := .running }
      | none => s)
  | none => s

/-- What an access that stopped does to its command (R144, R148, R155). -/
def stoppedBy (n : Nat) (a : PageAccess) (s : State) : State :=
  match a with
  | .ok => s
  | .wait => waitOnPage n s
  | .unmapped => fail n St.badParam 0 s
  | .poisoned => fail n St.lowerTierFailed 0 s

/-! ## Store space commands (R144 to R146, R153, R154, R156) -/

/-- The partition of a store space command. -/
def stoPart (c : Capsule) : Nat := c.partition.toNat

/-- Pages of a command's range. -/
def stoPages (c : Capsule) : List Nat := pagesOf c.offset.toNat c.length.toNat

/-- A range of whole pages within the store space (R144). -/
def wholePages (c : Capsule) : Bool :=
  decide (c.offset.toNat % pageBytes = 0 ∧ c.length.toNat % pageBytes = 0 ∧ 0 < c.length.toNat ∧
    c.offset.toNat + c.length.toNat ≤ 2 ^ 48)

/-- Whether some pages meet a capsule's range. -/
def meetsPages (c : Capsule) (pages : List Nat) : Bool :=
  pages.any fun g => decide (c.offset.toNat < (g + 1) * pageBytes ∧ g * pageBytes < c.offset.toNat + c.length.toNat)

/-- A STO_UNMAP of a page waits for the accesses before it; later ones are refused (R149). -/
def unmapping (s : State) (p pg : Nat) : Bool :=
  s.cmds.any fun e => decide (e.2.op = 0x0141) && e.2.open && decide (stoPart e.2.c = p) && meetsPages e.2.c [pg]

/-- Every page of a range is mapped, and no STO_UNMAP of it waits. -/
def allMapped (s : State) (p : Nat) (pages : List Nat) : Bool :=
  pages.all fun g => (s.store p).mapped g && !unmapping s p g

/-- The pages a move reads and writes in store space: source pages, destination pages. -/
def movePages (m : Move) : List Nat × List Nat :=
  (if m.op ≠ 2 && !m.srcPad then pagesOf m.src.toNat m.len else [],
   if m.op ≠ 3 && !m.dstPad then pagesOf m.dst.toNat m.len else [])

/-- A move was queued after a waiting STO_UNMAP or STO_DISCARD of a page it touches (R149). -/
def laterThan (s : State) (p : Nat) (m : Move) (op : Nat) : Bool :=
  s.cmds.any fun e => decide (e.2.op.toNat = op) && e.2.open && !e.2.applied && decide (stoPart e.2.c = p) &&
    decide (e.2.admitted < m.queuedAt) && meetsPages e.2.c ((movePages m).1 ++ (movePages m).2)

/-- A STO_UNMAP or STO_DISCARD waits: a fetch of its range is under way, or an access of a command or a move that arrived
before it has not ended (R149). -/
def rangeBusy (s : State) (n : Nat) (l : Live) : Bool :=
  let p := stoPart l.c
  ((stoPages l.c).any fun g => decide (((s.store p).page g).st = .fetching)) ||
  (s.cmds.any fun e => decide (e.1 < n) && e.2.open && decide (stoPart e.2.c = p) &&
    (if [0x0142, 0x0144, 0x0145, 0x0146].contains e.2.op.toNat then meets e.2.c l.c else decide (e.2.phase = .pages))) ||
  (List.range 4).any fun d => decide (((s.die d).stream.map fun x => streamPart s x) = some p) &&
    (List.range 4).any fun k => ((s.die d).mover k).any fun m =>
      decide (m.queuedAt ≤ l.admitted) && meetsPages l.c ((movePages m).1 ++ (movePages m).2)

/-- Bytes of the reserve that backs store space (R145). -/
def reserveLeft (s : State) : Nat := s.media.reserve - s.media.mapped

/-- Checks of STO_MAP (R144, R145). -/
def stoMapCheck (c : Capsule) (s : State) : Verdict :=
  firstBad
    [must (wholePages c && decide (c.p0.toNat ≤ 2) && !((stoPages c).any fun g => (s.store (stoPart c)).mapped g)) St.badParam,
     must (!s.statusBit Sb.readOnly) St.readOnly,
     must (decide (c.length.toNat ≤ reserveLeft s)) St.noResource]

/-- STO_MAP takes effect. -/
def stoMapStart (n : Nat) (s : State) : State :=
  match s.live? n with
  | none => s
  | some l =>
    let r : Range :=
      { base := l.c.offset.toNat / pageBytes, pages := l.c.length.toNat / pageBytes, hint := l.c.p0.toNat,
        die := l.c.p1.toNat % 4 }
    let s1 := s.modStore (stoPart l.c) fun t => { t with ranges := t.ranges ++ [r] }
    succeed n 0 [] { s1 with media := { s1.media with mapped := s1.media.mapped + l.c.length.toNat } }

/-- Ranges without the pages [a, b). -/
def cutRanges (a b : Nat) (rs : List Range) : List Range :=
  rs.flatMap fun r =>
    if r.base + r.pages ≤ a ∨ b ≤ r.base then [r]
    else
      (if r.base < a then [{ r with pages := a - r.base }] else []) ++
        (if b < r.base + r.pages then [{ r with base := b, pages := r.base + r.pages - b }] else [])

/-- Checks of STO_UNMAP and STO_DISCARD (R144). -/
def stoFreeCheck (c : Capsule) (s : State) : Verdict :=
  firstBad
    [must (wholePages c && allMapped s (stoPart c) (stoPages c)) St.badParam,
     must (!((stoPages c).any fun g => ((s.store (stoPart c)).page g).pinned)) St.notPermitted]

/-- Pages of a store space return to ZERO, unmapped as well if asked. -/
def dropPages (p base n : Nat) (unmap : Bool) (s : State) : State :=
  s.modStore p fun t =>
    { ranges := if unmap then cutRanges base (base + n) t.ranges else t.ranges
      pages := Tbl.keep (fun k _ => decide (k < base ∨ base + n ≤ k)) t.pages
      mem := Mem.zeroRange (base * pageBytes) (n * pageBytes) t.mem }

/-- A page of a command's range is pinned. -/
def rangePinned (s : State) (c : Capsule) : Bool := (stoPages c).any fun g => ((s.store (stoPart c)).page g).pinned

/-- STO_UNMAP takes effect once the accesses before it have ended: frames, extents and backing are freed (R149). -/
def stoUnmapStart (n : Nat) (s : State) : State :=
  match s.live? n with
  | none => s
  | some l =>
    if rangeBusy s n l then s.modLive n fun x => { x with phase := .ordered }
    else if rangePinned s l.c then fail n St.notPermitted 0 s
    else
      let s1 := dropPages (stoPart l.c) (l.c.offset.toNat / pageBytes) (l.c.length.toNat / pageBytes) true s
      succeed n 0 [] { s1 with media := { s1.media with mapped := s1.media.mapped - l.c.length.toNat } }

/-- STO_DISCARD takes effect once the accesses before it have ended, and with them a fetch that was under way (R149,
R325). -/
def stoDiscardStart (n : Nat) (s : State) : State :=
  match s.live? n with
  | none => s
  | some l =>
    if rangeBusy s n l then s.modLive n fun x => { x with phase := .ordered }
    else if rangePinned s l.c then fail n St.notPermitted 0 s
    else acknowledge n 0 (dropPages (stoPart l.c) (l.c.offset.toNat / pageBytes) (l.c.length.toNat / pageBytes) false s)

/-- A range of bytes that STO_READ or STO_WRITE may name (R144). -/
def stoBytesCheck (c : Capsule) (s : State) : Verdict :=
  must (decide (0 < c.length.toNat ∧ c.length.toNat ≤ 16777216 ∧ c.offset.toNat + c.length.toNat ≤ 2 ^ 48) &&
    allMapped s (stoPart c) (stoPages c)) St.badParam

/-- STO_READ is served once every page of its range is resident or ZERO. -/
def stoReadStart (n : Nat) (s : State) : State :=
  match s.live? n with
  | none => s
  | some l =>
    let a := readRange (stoPart l.c) (stoPages l.c) l.c.context s
    if a.2 = .ok then
      let s1 := chargeWait n a.1
      let n' := framedBytes s (stoPart l.c) l.c.offset.toNat l.c.length.toNat
      let s2 := s1.count l.c.context.toNat fun k => { k with hbmRead := k.hbmRead + n' }
      succeed n 0 [(0, storeRead s (stoPart l.c) l.c.offset.toNat l.c.length.toNat)] s2
    else stoppedBy n a.2 a.1

/-- STO_WRITE applies its landed data page by page (R144). -/
def stoWriteLanded (n : Nat) (s : State) : State :=
  match s.live? n with
  | none => s
  | some l =>
    if mustYield n l s then s.modLive n fun x => { x with phase := .ordered }
    else
      let a := writeRange (stoPart l.c) l.c.offset.toNat l.data l.c.context (stoPages l.c) l.sent s
      let s1 := a.1.modLive n fun x => { x with sent := a.2.1 }
      if a.2.2 = .ok then
        let s2 := (chargeWait n s1).count l.c.context.toNat fun k => { k with hbmWrite := k.hbmWrite + l.c.length.toNat }
        acknowledge n 0 (s2.modLive n fun x => { x with sent := 0 })
      else stoppedBy n a.2.2 s1

/-- Checks of STO_PIN and STO_UNPIN. -/
def stoPinCheck (c : Capsule) (s : State) : Verdict :=
  must (wholePages c && allMapped s (stoPart c) (stoPages c)) St.badParam

/-- A page is pinned for a command: the state, and what it finds. -/
def pinPage (n p pg : Nat) (ctx : Byte) (s : State) : State × PageAccess :=
  let g := (s.store p).page pg
  let mark (g : Page) (s : State) : State × PageAccess :=
    (((setPage p pg { g with pinned := true, lastCtx := ctx } s).modLive n fun l => { l with recalls := l.recalls ++ [pg] }), .ok)
  if g.pinned then (s, .ok)
  else
    match g.st with
    | .clean => mark g s
    | .dirty => mark g s
    | .writing => mark { g with st := .dirty } s
    | .poisoned => (poisonMet p pg ctx s, .poisoned)
    | .zero =>
      let f := findFrame p pg 256 s
      (match f.2 with
        | some d => mark { Page.zero with st := .dirty, die := d, stamp := stampNow s } f.1
        | none => (f.1, .wait))
    | .flash => (claimPage p pg ctx s, .wait)
    | .fetching =>
      if g.pinAfter then (s, .wait)
      else ((setPage p pg { g with pinAfter := true } s).modLive n fun l => { l with recalls := l.recalls ++ [pg] }, .wait)

/-- A pin is refused: the pages it pinned return to POOL (R154). -/
def unpinList (p : Nat) (pages : List Nat) (s : State) : State :=
  foldOver pages (fun pg acc =>
    match Tbl.get? (acc.store p).pages pg with
    | some g => setPage p pg { g with pinned := false, pinAfter := false } acc
    | none => acc) s

/-- STO_PIN goes on: pages pinned in order until one waits, the limit is passed, or all are resident (R154). -/
def stoPinStart (n : Nat) (s : State) : State :=
  match s.live? n with
  | none => s
  | some l =>
    let p := stoPart l.c
    let want := ((stoPages l.c).filter fun g => !((s.store p).page g).pinned).length
    let refuse (s : State) : State :=
      let mine := ((s.live? n).map Live.recalls).getD []
      fail n St.noResource 0 (unpinList p mine s)
    if (s.part p).pinLimit < pinnedPages s p + (s.part p).pinned + want then refuse s
    else
      let a := (stoPages l.c).foldl (fun acc pg => if acc.2 = .ok then pinPage n p pg l.c.context acc.1 else acc) (s, PageAccess.ok)
      match a.2 with
      | .ok => succeed n 0 [] (chargeWait n a.1)
      | .poisoned => fail n St.lowerTierFailed 0 (unpinList p (((a.1.live? n).map Live.recalls).getD []) a.1)
      | .unmapped => fail n St.badParam 0 a.1
      | .wait =>
        let stuck := (stoPages l.c).any fun pg =>
          decide (((a.1.store p).page pg).st = .zero) && decide ((victim a.1 (preferredDie a.1 p pg).1 p).isNone) &&
            !(a.1.stores.any fun e => e.2.pages.any fun g => decide (g.2.st = .writing))
        if stuck then refuse a.1 else waitOnPage n a.1

/-- STO_UNPIN returns the pinned pages of its range to POOL. -/
def stoUnpinStart (n : Nat) (s : State) : State :=
  match s.live? n with
  | none => s
  | some l => succeed n 0 [] (unpinList (stoPart l.c) (stoPages l.c) s)

/-- Checks of STO_QUERY: up to 512 pages (R144). -/
def stoQueryCheck (c : Capsule) (_s : State) : Verdict :=
  must (decide (0 < c.length.toNat ∧ c.offset.toNat + c.length.toNat ≤ 2 ^ 48 ∧ (stoPages c).length ≤ 512)) St.badParam

/-- One page record (R146). -/
def pageRecord (s : State) (p pg : Nat) : Nat :=
  let t := s.store p
  let g := t.page pg
  let code := t.stateCode pg
  code + (if g.pinned then 8 else 0) + (if inWindow s p pg then 16 else 0) + (if g.framed then 256 * g.die else 0) +
    65536 * (if code ≤ 1 then 0 else min (stampNow s - g.stamp) 4294967295)

/-- STO_QUERY reports page records in page order (R146). -/
def stoQueryStart (n : Nat) (s : State) : State :=
  match s.live? n with
  | none => s
  | some l =>
    succeed n 0 [(0, (stoPages l.c).flatMap fun pg => leBytes 8 (pageRecord s (stoPart l.c) pg))] s

/-- A policy word: unchanged when all ones. -/
def kept (w : Word) (old : Nat) : Nat := if w = 0xFFFFFFFF then old else w.toNat

/-- Checks of STO_SET_POLICY (R153, R156): floor and pin limit need the administration right. -/
def stoPolicyCheck (c : Capsule) (s : State) : Verdict :=
  let p := stoPart c
  let x := s.part p
  let floors := (s.parts.map fun e => if e.1 = p then kept c.p0 x.floor else e.2.floor).sum
  let pins := (s.parts.map fun e => pinnedPages s e.1).sum
  let fixed := ((List.range 4).map fun d => fixedFrames s d).sum
  firstBad
    [must ((decide (c.p0 = 0xFFFFFFFF) && decide (c.p1 = 0xFFFFFFFF)) || (rightsOf s c.origin).1.getLsbD (3 * p + 2))
        St.notPermitted,
     must ((decide (c.p2 = 0xFFFFFFFF) || decide (1 ≤ c.p2.toNat ∧ c.p2.toNat ≤ 10000)) &&
        (decide (c.p3 = 0xFFFFFFFF) || decide (c.p3.toNat ≤ 15)) &&
        (decide (c.p4 = 0xFFFFFFFF) || decide (1 ≤ c.p4.toNat ∧ c.p4.toNat ≤ 168))) St.badParam,
     must (decide (c.p0 = 0xFFFFFFFF) || decide (floors + pins + fixed ≤ 196608 - 1024)) St.noResource]

/-- STO_SET_POLICY takes effect; every change is logged. -/
def stoPolicyStart (n : Nat) (s : State) : State :=
  match s.live? n with
  | none => s
  | some l =>
    let c := l.c
    let s1 := s.modPart (stoPart c) fun x =>
      { x with floor := kept c.p0 x.floor, pinLimit := kept c.p1 x.pinLimit, tierMs := kept c.p2 x.tierMs,
               prefetch := kept c.p3 x.prefetch, idleH := kept c.p4 x.idleH }
    succeed n 0 [] (addLog Lc.policyChanged (originWord c.origin) noUnit (ctxWord none (some (stoPart c)))
      [c.p0.toNat, c.p1.toNat, c.p2.toNat, c.p3.toNat] s1)

/-! ## Page migrations (R147 to R149, R152, R158) -/

/-- PAGE_FETCH_START: a FLASH page takes a frame and its one fetch starts, charged to the stream whose window holds the page,
or to the context that waits for it, while fewer than 256 are in flight on the die (R147, R148, R160). A page of an entry that is written whole takes a frame with no fetch
(R150). -/
def fetchStart (p pg : Nat) (s : State) : State :=
  let g := (s.store p).page pg
  if (s.store p).mapped pg ∧ g.st = .flash then
    if wholeEntry s p pg then
      let f := findFrame p pg 256 s
      match f.2 with
      | some d => openPage p pg (setPage p pg { g with st := .dirty, die := d, stamp := stampNow s } f.1)
      | none => f.1
    else
      let f := findFrame p pg 0 s
      match f.2 with
      | some d =>
        if fetchesOn f.1 d < 256 then
          setPage p pg { g with st := .fetching, die := d, lastCtx := ((windowOwner s p pg).map Prod.fst).getD g.lastCtx }
            f.1
        else s
      | none => f.1
  else s

/-- A fetch ends: RESIDENT_CLEAN or POISONED (R148). -/
def fetchEnd (p pg : Nat) (readable : Bool) (s : State) : State :=
  let g := (s.store p).page pg
  if g.st = .fetching then
    let s2 := s.count g.lastCtx.toNat fun k =>
      { k with fetchPages := k.fetchPages + 1, flashRead := k.flashRead + pageBytes }
    if readable then
      setPage p pg { g with st := .clean, pinned := g.pinned || g.pinAfter, pinAfter := false, stamp := stampNow s } s2
    else
      addLog Lc.pagePoisoned 0x50000000 noUnit (ctxWord none (some p)) [p, pg]
        (setPage p pg { Page.zero with st := .poisoned } s2)
  else s

/-- A write-back ends (R149). -/
def writebackEnd (p pg : Nat) (r : WritebackResult) (s : State) : State :=
  let g := (s.store p).page pg
  if g.st = .writing then
    match r with
    | .held =>
      setPage p pg { g with st := .flash, die := 0 } (s.count g.lastCtx.toNat fun k =>
        { k with writebackPages := k.writebackPages + 1, flashWrite := k.flashWrite + pageBytes })
    | .channelFailed =>
      addLog Lc.writebackFailed 0x50000000 noUnit (ctxWord none (some p)) [p, pg]
        (setPage p pg { g with st := .dirty, stuck := true } s)
    | .hbmError =>
      eccUncorrectable (.tierDma (dieIx g.die)) pg none (setPage p pg { Page.zero with st := .poisoned } s)
  else s

/-- Evict ahead of need until 512 frames are free or on their way, at most `n` pages (R152). -/
def evictAhead (d : Nat) : Nat → State → State
  | 0, s => s
  | n + 1, s =>
    if 512 ≤ freeFrames s d + writingOn s d then s
    else
      match victim s d 4 with
      | none => s
      | some x => evictAhead d n (evictPage x 4 s)

/-- FREE_RESERVE_EVICT: below 256 free frames a die starts evicting and stops at 512 (R152). -/
def reserveEvict (d : Nat) (s : State) : State :=
  let on := decide (freeFrames s d < 256) || ((s.die d).evicting && decide (freeFrames s d < 512))
  let s1 := s.modDie d fun x => { x with evicting := on }
  if on then evictAhead d 512 s1 else s1

/-- IDLE_AGE_EXPIRY: a pool page past the idle age limit is written back if dirty, and evicted (R158). -/
def idleAge (p pg : Nat) (s : State) : State :=
  let g := (s.store p).page pg
  if evictable s p p g ∧ (s.part p).idleH * 3600000 < stampNow s - g.stamp then evictPage (p, pg, g) p s else s

/-- Need time of a window entry: the current entry's first access and the leads up to it (R151). -/
def needTime (s : State) (x : Stream) (entry : Nat) : Option Nat :=
  let img := progImage s x.prog
  match x.layer with
  | none => none
  | some (i, t) =>
    let w := (streamEntries s x).drop 1
    if w.contains entry then
      some (t + 1000 * ((w.take (w.idxOf entry + 1)).map fun j => schedLead img j).sum)
    else if i = entry then none else none

/-- PREFETCH_LATE: a window entry not resident past its need time is counted (R151). -/
def prefetchLate (d entry : Nat) (s : State) : State :=
  match (s.die d).stream with
  | none => s
  | some x =>
    match needTime s x entry with
    | none => s
    | some t =>
      let img := progImage s x.prog
      let p := streamPart s x
      let late := (List.range (schedPages img entry)).any fun k =>
        let pg := schedBase img entry + k
        (s.store p).mapped pg && (decide (((s.store p).page pg).st = .flash) || decide (((s.store p).page pg).st = .fetching))
      if t < s.sys.time ∧ late then s.count x.ctx.toNat fun k => { k with prefetchLate := min (k.prefetchLate + 1) 4294967295 }
      else s

/-! ## Rows -/

/-- PAGE_FETCH_START (R148). -/
def execPageFetchStart (p : PartIx) (page : Nat) (s : State) : Host.Outcome State Fault Refusal :=
  .next (fetchStart p.val page s)

/-- FREE_RESERVE_EVICT (R152). -/
def execFreeReserveEvict (d : DieIx) (s : State) : Host.Outcome State Fault Refusal := .next (reserveEvict d.val s)

/-- IDLE_AGE_EXPIRY (R158). -/
def execIdleAgeExpiry (p : PartIx) (page : Nat) (t : Nat) (s : State) : Host.Outcome State Fault Refusal :=
  .next (idleAge p.val page (s.tick t))

/-- PREFETCH_LATE (R151). -/
def execPrefetchLate (d : DieIx) (entry : Nat) (t : Nat) (s : State) : Host.Outcome State Fault Refusal :=
  .next (prefetchLate d.val entry (s.tick t))

end Sys2Proof.Machine
end

