-- ==== Sys2Proof/Machine/Moves.lean ====
section
/-! DEFINITION. Movers: move slots queue moves, and moves complete or fail (R45 to R47, R144, R369, R483). -/

namespace Sys2Proof.Machine

/-- A store space end of a move lies within the 2^48 bytes (R483). -/
def moveInSpace (m : Move) : Bool :=
  (m.op == 2 || m.srcPad || decide (0 ≤ m.src ∧ m.src + (m.len : Int) ≤ 281474976710656)) &&
    (m.op == 3 || m.dstPad || decide (0 ≤ m.dst ∧ m.dst + (m.len : Int) ≤ 281474976710656))

/-- The move at the head of a mover begins: its pages make their schedule entries current, and its wait on pages
starts (R151, R155). -/
def headMove (d k : Nat) (s : State) : State :=
  match (s.die d).mover k with
  | [] => s
  | m :: r =>
    let pg := movePages m
    let s1 := foldOver (pg.1 ++ pg.2) (fun g acc => touchLayer d g acc) s
    let p := (((s.die d).stream.map fun x => streamPart s x).getD 0)
    let waits := (pg.1.any fun g => decide (((s.store p).page g).st = .flash ∨ ((s.store p).page g).st = .fetching)) ||
      pg.2.any fun g => decide (((s.store p).page g).st = .fetching) ||
        (decide (((s.store p).page g).st = .flash) && !coversPage m.dst.toNat m.len g)
    if waits ∧ m.waitSince = none then
      s1.modDie d fun x => x.setMover k ({ m with waitSince := some s.sys.time } :: r)
    else s1

/-- A move ends SET: its own token and its remote notify (R46, R47). -/
def moveDone (d : Nat) (x : Stream) (m : Move) (s : State) : State :=
  notifyToken x.cmd m.notify (produceToken d m.token s)

/-- A move ends FAILED with a status (R47). -/
def moveFailed (d : Nat) (m : Move) (st : Half) (s : State) : State :=
  match m.token with
  | some k => s.modDie d (Die.modStream fun x => { x with core := x.core.failTok k st s.sys.time })
  | none => s

/-- A move slot queues its move on mover k; a full queue does not take it (R45). -/
def moveSlot (d k op : Nat) (a : MoveSlot) (s : State) : State :=
  match (s.die d).stream with
  | none => s
  | some x =>
    if x.ended then s
    else
      let w := moveDescBits (progImage s x.prog) a.mdesc.toNat
      let r := moveOf op w a (ixValue x.core.ix a.ix.toNat)
      let pad (isPad : Bool) (c : Nat) (v : Int) : Int := if isPad then (padKey (x.phys c) v : Nat) else v
      let m : Move :=
        { r.1 with src := pad r.1.srcPad r.2.1 r.1.src, dst := pad r.1.dstPad r.2.2 r.1.dst, queuedAt := s.sys.time }
      if x.halted.contains k then
        (moveFailed d m St.computeFault s).modDie d (Die.modStream fun y => { y with fault := true })
      else
        let q := (s.die d).mover k
        if 4 ≤ q.length then s
        else
          let s1 := s.modDie d fun dd => dd.setMover k (q ++ [m])
          if q.isEmpty then headMove d k s1 else s1

/-- The data a move carries, once its pages are readable. -/
def moveData (s : State) (d p : Nat) (m : Move) : List Byte :=
  if m.op = 2 then List.replicate m.len 0
  else if m.srcPad then (s.die d).padRead m.src.toNat m.len
  else storeRead s p m.src.toNat m.len

/-- What the pages of a move allow now: reads first, then writes page by page; the state with the bytes written. -/
def movePerform (d p : Nat) (ctx : Byte) (m : Move) (s : State) : State × PageAccess :=
  let pg := movePages m
  let r := if laterThan s p m 0x0141 then (s, .unmapped) else if laterThan s p m 0x0146 then (s, .wait)
    else readRange p pg.1 ctx s
  if r.2 ≠ .ok then r
  else if m.op = 3 then r
  else
    let bs := moveData r.1 d p m
    if m.dstPad then (r.1.modDie d fun x => x.padWrite m.dst.toNat bs, .ok)
    else
      let w := writeRange p m.dst.toNat bs ctx pg.2 0 r.1
      (w.1, w.2.2)

/-- The head of a mover leaves it and the next move begins. -/
def popMove (d k : Nat) (s : State) : State :=
  headMove d k (s.modDie d fun x => x.setMover k ((x.mover k).drop 1))

/-- MOVE_COMPLETE: the head move of a mover completes, fails, or goes on waiting for its pages (R45 to R47); at an
uncorrectable error the bytes written before the failing burst stand, a free number of them (R369). -/
def moveComplete (d k : Nat) (ecc : Ecc) (s : State) : State :=
  match (s.die d).mover k, (s.die d).stream with
  | m :: _, some x =>
    let p := streamPart s x
    let halt (s : State) : State :=
      let part : Move := { m with len := Config.freeNat s.free % (m.len + 1) }
      let s0 : State := { s with free := s.free + 1 }
      let kept := if moveInSpace m && decide (0 < part.len) then (movePerform d p x.ctx part s0).1 else s0
      let s1 := foldOver ((s.die d).mover k) (fun m acc => moveFailed d m St.computeFault acc) kept
      s1.modDie d fun dd =>
        (dd.setMover k []).modStream fun y => { y with fault := true, halted := y.halted ++ [k] }
    let go (s : State) : State :=
      if !moveInSpace m then popMove d k (moveFailed d m St.badParam s)
      else
        let a := movePerform d p x.ctx m s
        match a.2 with
        | .wait =>
          a.1.modDie d fun dd =>
            match dd.mover k with
            | h :: r => dd.setMover k ({ h with waitSince := some (h.waitSince.getD s.sys.time) } :: r)
            | [] => dd
        | .unmapped => popMove d k (moveFailed d m St.badParam a.1)
        | .poisoned => popMove d k (moveFailed d m St.lowerTierFailed a.1)
        | .ok =>
          let s1 := a.1.count x.ctx.toNat fun n =>
            { n with hbmRead := n.hbmRead + (if m.op = 1 && !m.srcPad then framedBytes s p m.src.toNat m.len else 0)
                     hbmWrite := n.hbmWrite + (if m.op ≠ 3 && !m.dstPad then m.len else 0)
                     tierWait := n.tierWait + (match m.waitSince with
                       | some t => s.sys.time - t
                       | none => 0) }
          popMove d k (moveDone d x m s1)
    readEcc ecc (.mover (dieIx d) (engIx k)) m.src.toNat (some x.ctx) go halt s
  | _, _ => s

/-! ## Rows -/

/-- MOVE_COMPLETE (R47). -/
def execMoveComplete (d : DieIx) (k : EngIx) (ecc : Ecc) (t : Nat) (s : State) : Host.Outcome State Fault Refusal :=
  .next (moveComplete d.val k.val ecc (s.tick t))

end Sys2Proof.Machine
end

