-- ==== Sys2Proof/Machine/Flags.lean ====
section
/-! DEFINITION. The condition flags that vector operations compute (R116, R482): CMP_LT and CMP_EQ set theirs when any
lane holds, RSUM and RMAX when lane 0 of their result is not ±0. -/

namespace Sys2Proof.Machine

/-- The flag of a comparison: any lane of its result is 1.0. -/
def anyOne (lanes : List Word) : Bool := lanes.any fun w => decide (w = f32One)

/-- The flag of a reduction: lane 0 is not ±0, NaN included. -/
def laneZeroSet (lanes : List Word) : Bool := !(f32 (lanes.headD 0)).isZero

/-- A condition flag takes a value. -/
def putFlag (flags : Word) (k : Nat) (v : Bool) : Word :=
  if v then flags ||| (1#32 <<< k) else flags &&& ~~~(1#32 <<< k)

end Sys2Proof.Machine
end

