-- ==== Sys2Proof/Machine/Vector.lean ====
section
/-! DEFINITION. Vector operations (R114 to R118): operands are read at issue, results are written at retirement. -/

namespace Sys2Proof.Machine

/-- What a vector operation computed at issue: its effect, its flag's value and its counts. -/
structure VecResult where
  /-- What it writes. -/
  eff : VecEffect
  /-- The value of its flag. -/
  flag : Bool
  /-- Saturations. -/
  sats : Nat
  /-- NaNs turned to integers. -/
  nans : Nat
deriving DecidableEq, Repr

/-- A register result from lanes that may have saturated. -/
def lanesResult (dst : Nat) (l : List Sat) : VecResult :=
  { eff := .reg dst (l.map Prod.fst), flag := false, sats := (l.filter fun x => x.2).length, nans := 0 }

/-- Lane by lane over two registers. -/
def lanes2 (f : Word → Word → Sat) (a b : List Word) : List Sat := List.zipWith f a b

/-- Lane by lane over three registers. -/
def lanes3 (f : Word → Word → Word → Sat) (a b c : List Word) : List Sat :=
  List.zipWith (fun g z => g z) (List.zipWith f a b) c

/-- 1.0 or +0. -/
def boolLane (b : Bool) : Word := if b then f32One else 0

/-- One level of RSUM's tree: neighbours added (R117). -/
def sumPairs : List Word → List Word × Nat
  | a :: b :: r => let x := f32Add a b; let t := sumPairs r; (x.1 :: t.1, t.2 + (if x.2 then 1 else 0))
  | l => (l, 0)

/-- RSUM's tree of `n` levels (R117). -/
def sumTree : Nat → List Word × Nat → Word × Nat
  | 0, x => (x.1.headD 0, x.2)
  | n + 1, x => let y := sumPairs x.1; sumTree n (y.1, x.2 + y.2)

/-- A word followed by zero lanes. -/
def laneZero (w : Word) : List Word := w :: List.replicate 255 0

/-- The largest lane, NaN if any lane is NaN (R116). -/
def maxLane (a : List Word) : Word := (toF32 ((a.drop 1).foldl (fun m w => Num.max m (f32 w)) (f32 (a.headD 0)))).1

/-- Packed BF16 lane by lane, each half rounded once (R94, R96). -/
def packed2 (f : Num → Num → Num) (a b : List Word) : List (Word × Nat) :=
  List.zipWith (fun x y => packBf16 (f (bf16Half x 0) (bf16Half y 0)) (f (bf16Half x 1) (bf16Half y 1))) a b

/-- Packed BF16 over three registers. -/
def packed3 (f : Num → Num → Num → Num) (a b c : List Word) : List (Word × Nat) :=
  List.zipWith (fun g z => g z)
    (List.zipWith (fun x y z => packBf16 (f (bf16Half x 0) (bf16Half y 0) (bf16Half z 0))
      (f (bf16Half x 1) (bf16Half y 1) (bf16Half z 1))) a b) c

/-- A register result from packed lanes. -/
def packedResult (dst : Nat) (l : List (Word × Nat)) : VecResult :=
  { eff := .reg dst (l.map Prod.fst), flag := false, sats := (l.map Prod.snd).sum, nans := 0 }

/-- Lanes of a packed load: element 2i low, 2i + 1 high (R94). -/
def packedLanes (bs : List Byte) : List Word := (List.range 256).map fun i => BitVec.ofNat 32 (fieldAt bs (4 * i) 4)

/-! ## Issue -/

/-- What an operation reads: its source registers, its memory operand's bytes and key, and its context's numeric
mode. -/
structure VecIn where
  /-- Register a. -/
  a : List Word
  /-- Register b. -/
  b : List Word
  /-- Register c. -/
  c : List Word
  /-- Key of the memory operand. -/
  key : Nat
  /-- Bytes of the memory operand. -/
  bytes : List Byte
  /-- e5m2_inf (R97). -/
  inf5 : Bool
deriving DecidableEq, Repr

/-- The operands of a slot, read in its issue cycle (R114, R115). -/
def vecIn (s : State) (d j : Nat) (x : Stream) (v : VecSlot) (bytes : Nat) : VecIn :=
  let dd := s.die d
  let key := padKey (x.phys v.memCluster.toNat) (vecAddr v x.core.ix)
  { a := dd.reg j v.srcA.toNat, b := dd.reg j v.srcB.toNat, c := dd.reg j v.srcC.toNat, key := key,
    bytes := dd.padRead key bytes, inf5 := (modeOf s x).getLsbD 0 }

/-- A vector slot of a running stream issues: it retires after its latency and `extra` cycles (R114, R115). -/
def issueVec (d j op lat extra : Nat) (v : VecSlot) (f : VecIn → VecResult) (bytes : Nat) (s : State) : State :=
  match (s.die d).stream with
  | none => s
  | some x =>
    if x.ended then s
    else
      let r := f (vecIn s d j x v bytes)
      let at' := x.cycle + lat + extra
      let o : VecOp :=
        { retireAt := at', eff := r.eff, token := if v.tokenEn then some v.token.toNat else none,
          flag := if v.flagEn then some (v.flag.toNat, r.flag) else none, sats := r.sats, nans := r.nans, row := x.row,
          plan := x.plan, op := op }
      let busy := ((s.die d).engine j).flight.foldl (fun m o => max m o.retireAt) x.cycle
      let s1 := s.modDie d fun dd => dd.modEngine j fun e => { e with flight := e.flight ++ [o] }
      s1.count x.ctx.toNat fun n => { n with vectorCycles := n.vectorCycles + (at' - busy) }

/-- A memory operand or register read that cannot be corrected stops the stream (R368). -/
def issueEcc (d j : Nat) (v : VecSlot) (ecc : Ecc) (f : State → State) (s : State) : State :=
  readEcc ecc (.vector (dieIx d) (engIx j)) v.memAddr.toNat ((s.die d).stream.map Stream.ctx) f
    (faultStream d St.computeFault) s

/-- LOAD (R116). -/
def vLoad (d j extra : Nat) (v : VecSlot) : State → State :=
  issueVec d j 0x01 12 extra v (fun i => lanesResult v.dst.toNat (readOperand v.fmt.toNat i.bytes))
    (operandBytes v.fmt.toNat)
/-- STORE (R116). -/
def vStore (d j extra : Nat) (v : VecSlot) : State → State :=
  issueVec d j 0x02 12 extra v (fun i =>
    let r := storeOperand v.fmt.toNat i.a
    { eff := .mem i.key r.1, flag := false, sats := r.2.sats, nans := r.2.nans }) 0
/-- LOADP (R116). -/
def vLoadp (d j extra : Nat) (v : VecSlot) : State → State :=
  issueVec d j 0x03 12 extra v (fun i =>
    { eff := .reg v.dst.toNat (packedLanes i.bytes), flag := false, sats := 0, nans := 0 }) 1024
/-- STOREP (R116). -/
def vStorep (d j extra : Nat) (v : VecSlot) : State → State :=
  issueVec d j 0x04 12 extra v (fun i =>
    { eff := .mem i.key (i.a.flatMap fun w => leBytes 4 w.toNat), flag := false, sats := 0, nans := 0 }) 0
/-- An operation of two registers. -/
def vTwo (d j op lat extra : Nat) (v : VecSlot) (f : Word → Word → Sat) : State → State :=
  issueVec d j op lat extra v (fun i => lanesResult v.dst.toNat (lanes2 f i.a i.b)) 0
/-- An operation of three registers. -/
def vThree (d j op lat extra : Nat) (v : VecSlot) (f : Word → Word → Word → Sat) : State → State :=
  issueVec d j op lat extra v (fun i => lanesResult v.dst.toNat (lanes3 f i.a i.b i.c)) 0
/-- An operation of one register. -/
def vOne (d j op lat extra : Nat) (v : VecSlot) (f : Word → Sat) : State → State :=
  issueVec d j op lat extra v (fun i => lanesResult v.dst.toNat (i.a.map f)) 0
/-- BCAST (R116). -/
def vBcast (d j extra : Nat) (v : VecSlot) : State → State :=
  issueVec d j 0x1C 2 extra v (fun i =>
    { eff := .reg v.dst.toNat (List.replicate 256 (i.a.getD (v.imm.toNat % 256) 0)), flag := false, sats := 0, nans := 0 }) 0
/-- MOVI (R116). -/
def vMovi (d j extra : Nat) (v : VecSlot) : State → State :=
  issueVec d j 0x1D 1 extra v (fun _ =>
    { eff := .reg v.dst.toNat (List.replicate 256 (readElem 1 v.imm.toNat).1), flag := false, sats := 0, nans := 0 }) 0
/-- CMP_LT and CMP_EQ (R116). -/
def vCmp (d j op extra : Nat) (v : VecSlot) (f : Num → Num → Bool) : State → State :=
  issueVec d j op 2 extra v (fun i =>
    let l := List.zipWith (fun a b => boolLane (f (f32 a) (f32 b))) i.a i.b
    { eff := .reg v.dst.toNat l, flag := anyOne l, sats := 0, nans := 0 }) 0
/-- SEL (R116). -/
def vSel (d j extra : Nat) (v : VecSlot) : State → State :=
  issueVec d j 0x22 2 extra v (fun i =>
    lanesResult v.dst.toNat (lanes3 (fun a b c => (if (f32 c).isZero then b else a, false)) i.a i.b i.c)) 0
/-- RSUM (R116, R117). -/
def vRsum (d j extra : Nat) (v : VecSlot) : State → State :=
  issueVec d j 0x30 18 extra v (fun i =>
    let r := sumTree 8 (i.a, 0)
    { eff := .reg v.dst.toNat (laneZero r.1), flag := laneZeroSet [r.1], sats := r.2, nans := 0 }) 0
/-- RMAX (R116). -/
def vRmax (d j extra : Nat) (v : VecSlot) : State → State :=
  issueVec d j 0x31 10 extra v (fun i =>
    let w := maxLane i.a
    { eff := .reg v.dst.toNat (laneZero w), flag := laneZeroSet [w], sats := 0, nans := 0 }) 0
/-- SURVEY (R104, R118). -/
def vSurvey (d j extra : Nat) (v : VecSlot) : State → State :=
  issueVec d j 0x38 4 extra v (fun i =>
    { eff := .reg v.dst.toNat (((chunksOf 32 8 i.a).map fun b => BitVec.ofInt 32 (survey b)) ++ List.replicate 248 0)
      flag := false, sats := 0, nans := 0 }) 0
/-- CONVERT (R105, R118). -/
def vConvert (d j extra : Nat) (v : VecSlot) : State → State :=
  issueVec d j 0x39 10 extra v (fun i =>
    let r := convertRecord v.fmt.toNat i.inf5 i.a i.b
    { eff := .mem i.key r.1, flag := false, sats := r.2, nans := 0 }) 0
/-- PADD and PMUL (R116). -/
def vPacked2 (d j op extra : Nat) (v : VecSlot) (f : Num → Num → Num) : State → State :=
  issueVec d j op 4 extra v (fun i => packedResult v.dst.toNat (packed2 f i.a i.b)) 0
/-- PFMA (R116). -/
def vPfma (d j extra : Nat) (v : VecSlot) : State → State :=
  issueVec d j 0x42 6 extra v (fun i => packedResult v.dst.toNat (packed3 (fun a b c => Num.add (Num.mul a b) c) i.a i.b i.c)) 0

/-- The vector slot of an operation code of R116 issues; COEF and UPDATE are the built-in program's. -/
def vecSlot (d j op extra : Nat) (v : VecSlot) : State → State :=
  if op = 0x01 then vLoad d j extra v
  else if op = 0x02 then vStore d j extra v
  else if op = 0x03 then vLoadp d j extra v
  else if op = 0x04 then vStorep d j extra v
  else if op = 0x10 then vTwo d j 0x10 4 extra v f32Add
  else if op = 0x11 then vTwo d j 0x11 4 extra v f32Sub
  else if op = 0x12 then vTwo d j 0x12 4 extra v f32Mul
  else if op = 0x13 then vThree d j 0x13 6 extra v f32Fma
  else if op = 0x14 then vThree d j 0x14 6 extra v f32Fnma
  else if op = 0x15 then vTwo d j 0x15 2 extra v f32Max
  else if op = 0x16 then vTwo d j 0x16 2 extra v f32Min
  else if op = 0x17 then vOne d j 0x17 2 extra v f32Abs
  else if op = 0x18 then vOne d j 0x18 2 extra v f32Sign
  else if op = 0x19 then vOne d j 0x19 2 extra v fun w => f32Scale w v.imm.toInt
  else if op = 0x1A then vTwo d j 0x1A 24 extra v f32Div
  else if op = 0x1B then vOne d j 0x1B 24 extra v f32Sqrt
  else if op = 0x1C then vBcast d j extra v
  else if op = 0x1D then vMovi d j extra v
  else if op = 0x20 then vCmp d j 0x20 extra v Num.lt
  else if op = 0x21 then vCmp d j 0x21 extra v Num.eqv
  else if op = 0x22 then vSel d j extra v
  else if op = 0x30 then vRsum d j extra v
  else if op = 0x31 then vRmax d j extra v
  else if op = 0x38 then vSurvey d j extra v
  else if op = 0x39 then vConvert d j extra v
  else if op = 0x40 then vPacked2 d j 0x40 extra v Num.add
  else if op = 0x41 then vPacked2 d j 0x41 extra v Num.mul
  else if op = 0x42 then vPfma d j extra v
  else fun s => s

/-- Operations with a memory operand (R482). -/
def vecMem (op : Nat) : Bool := decide ((1 ≤ op ∧ op ≤ 4) ∨ op = 0x39)

/-- Bytes of a slot's memory operand. -/
def vecMemBytes (op : Nat) (v : VecSlot) : Nat := if op = 3 ∨ op = 4 then 1024 else operandBytes v.fmt.toNat

/-- A vector slot agrees with its operation (R482; checks 10 and 11 of R67): 0 it does, else the check it breaks. -/
def vecSlotCheck (op : Nat) (v : VecSlot) : Nat :=
  let known := [0x01, 0x02, 0x03, 0x04, 0x10, 0x11, 0x12, 0x13, 0x14, 0x15, 0x16, 0x17, 0x18, 0x19, 0x1A, 0x1B, 0x1C,
    0x1D, 0x20, 0x21, 0x22, 0x30, 0x31, 0x38, 0x39, 0x40, 0x41, 0x42].contains op
  let f := v.fmt.toNat
  let fmtOk := if op = 1 then decide (f ≤ 12) else if op = 2 then decide (f ≤ 12) && !isBlock f
    else if op = 3 ∨ op = 4 then f == 1 else if op = 0x39 then isBlock f else true
  let flagOk := !v.flagEn || [0x20, 0x21, 0x30, 0x31].contains op
  if op = 0x50 ∨ op = 0x51 then 11
  else if known && decide (v.memEn = vecMem op) && fmtOk && flagOk then 0 else 10

/-! ## Retirement -/

/-- The operation of an engine that retires next: the smallest retire cycle, the oldest of equals (R114). -/
def nextRetire : List VecOp → Option VecOp
  | [] => none
  | o :: r => match nextRetire r with
    | none => some o
    | some q => some (if q.retireAt < o.retireAt then q else o)

/-- A vector operation's own writes: register, scratchpad, flag, token and counts (R103, R114). -/
def writeBack (d j : Nat) (o : VecOp) (s : State) : State :=
  let s1 := s.modDie d fun x =>
    let y := match o.eff with
      | .reg r l => x.setReg j r l
      | .mem key bs => x.padWrite key bs
      | _ => x
    match o.flag with
    | some (k, b) => y.modStream fun st => { st with core := { st.core with flags := putFlag st.core.flags k b } }
    | none => y
  let s2 := produceToken d o.token s1
  s2.count (((s.die d).stream.map Stream.ctx).getD 0).toNat fun n =>
    { n with saturations := n.saturations + o.sats, nanToInt := n.nanToInt + o.nans }

/-- An operation leaves its engine's pipeline. -/
def dropOp (d j : Nat) (o : VecOp) (s : State) : State :=
  s.modDie d fun x => x.modEngine j fun e => { e with flight := e.flight.erase o }

/-! ## Rows -/

/-- ADD (R116). -/
def execAdd (d : DieIx) (j : EngIx) (v : VecSlot) (s : State) : Host.Outcome State Fault Refusal :=
  .next (vTwo d.val j.val 0x10 4 0 v f32Add s)

/-- SUB (R116). -/
def execSub (d : DieIx) (j : EngIx) (v : VecSlot) (s : State) : Host.Outcome State Fault Refusal :=
  .next (vTwo d.val j.val 0x11 4 0 v f32Sub s)

/-- MUL (R116). -/
def execMul (d : DieIx) (j : EngIx) (v : VecSlot) (s : State) : Host.Outcome State Fault Refusal :=
  .next (vTwo d.val j.val 0x12 4 0 v f32Mul s)

/-- FMA (R116). -/
def execFma (d : DieIx) (j : EngIx) (v : VecSlot) (s : State) : Host.Outcome State Fault Refusal :=
  .next (vThree d.val j.val 0x13 6 0 v f32Fma s)

/-- FNMA (R116). -/
def execFnma (d : DieIx) (j : EngIx) (v : VecSlot) (s : State) : Host.Outcome State Fault Refusal :=
  .next (vThree d.val j.val 0x14 6 0 v f32Fnma s)

/-- MAX (R116). -/
def execMax (d : DieIx) (j : EngIx) (v : VecSlot) (s : State) : Host.Outcome State Fault Refusal :=
  .next (vTwo d.val j.val 0x15 2 0 v f32Max s)

/-- MIN (R116). -/
def execMin (d : DieIx) (j : EngIx) (v : VecSlot) (s : State) : Host.Outcome State Fault Refusal :=
  .next (vTwo d.val j.val 0x16 2 0 v f32Min s)

/-- ABS (R116). -/
def execAbs (d : DieIx) (j : EngIx) (v : VecSlot) (s : State) : Host.Outcome State Fault Refusal :=
  .next (vOne d.val j.val 0x17 2 0 v f32Abs s)

/-- SIGN (R116). -/
def execSign (d : DieIx) (j : EngIx) (v : VecSlot) (s : State) : Host.Outcome State Fault Refusal :=
  .next (vOne d.val j.val 0x18 2 0 v f32Sign s)

/-- SCALE (R116). -/
def execScale (d : DieIx) (j : EngIx) (v : VecSlot) (s : State) : Host.Outcome State Fault Refusal :=
  .next (vOne d.val j.val 0x19 2 0 v (fun w => f32Scale w v.imm.toInt) s)

/-- DIV (R116). -/
def execDiv (d : DieIx) (j : EngIx) (v : VecSlot) (s : State) : Host.Outcome State Fault Refusal :=
  .next (vTwo d.val j.val 0x1A 24 0 v f32Div s)

/-- SQRT (R116). -/
def execSqrt (d : DieIx) (j : EngIx) (v : VecSlot) (s : State) : Host.Outcome State Fault Refusal :=
  .next (vOne d.val j.val 0x1B 24 0 v f32Sqrt s)

/-- BCAST (R116). -/
def execBcast (d : DieIx) (j : EngIx) (v : VecSlot) (s : State) : Host.Outcome State Fault Refusal :=
  .next (vBcast d.val j.val 0 v s)

/-- MOVI (R116). -/
def execMovi (d : DieIx) (j : EngIx) (v : VecSlot) (s : State) : Host.Outcome State Fault Refusal :=
  .next (vMovi d.val j.val 0 v s)

/-- CMPLT (R116). -/
def execCmpLt (d : DieIx) (j : EngIx) (v : VecSlot) (s : State) : Host.Outcome State Fault Refusal :=
  .next (vCmp d.val j.val 0x20 0 v Num.lt s)

/-- CMPEQ (R116). -/
def execCmpEq (d : DieIx) (j : EngIx) (v : VecSlot) (s : State) : Host.Outcome State Fault Refusal :=
  .next (vCmp d.val j.val 0x21 0 v Num.eqv s)

/-- SEL (R116). -/
def execSel (d : DieIx) (j : EngIx) (v : VecSlot) (s : State) : Host.Outcome State Fault Refusal :=
  .next (vSel d.val j.val 0 v s)

/-- RSUM (R117). -/
def execRsum (d : DieIx) (j : EngIx) (v : VecSlot) (s : State) : Host.Outcome State Fault Refusal :=
  .next (vRsum d.val j.val 0 v s)

/-- RMAX (R116). -/
def execRmax (d : DieIx) (j : EngIx) (v : VecSlot) (s : State) : Host.Outcome State Fault Refusal :=
  .next (vRmax d.val j.val 0 v s)

/-- SURVEY (R104). -/
def execSurvey (d : DieIx) (j : EngIx) (v : VecSlot) (s : State) : Host.Outcome State Fault Refusal :=
  .next (vSurvey d.val j.val 0 v s)

/-- PADD (R116). -/
def execPadd (d : DieIx) (j : EngIx) (v : VecSlot) (s : State) : Host.Outcome State Fault Refusal :=
  .next (vPacked2 d.val j.val 0x40 0 v Num.add s)

/-- PMUL (R116). -/
def execPmul (d : DieIx) (j : EngIx) (v : VecSlot) (s : State) : Host.Outcome State Fault Refusal :=
  .next (vPacked2 d.val j.val 0x41 0 v Num.mul s)

/-- PFMA (R116). -/
def execPfma (d : DieIx) (j : EngIx) (v : VecSlot) (s : State) : Host.Outcome State Fault Refusal :=
  .next (vPfma d.val j.val 0 v s)

end Sys2Proof.Machine
end

