-- ==== Sys2Proof/Machine/Sequencer.lean ====
section
/-! DEFINITION. The row sequencer (chapter 2): issue of rows, waits, stalls, control operations, loops, stitch markers and
the end of a stream. -/

namespace Sys2Proof.Machine

/-! ## Waits (R49 to R52) -/

/-- The tokens a sync slot names. -/
def syncToks (y : SyncSlot) : List Nat := y.tokA.toNat :: (if y.bEn then [y.tokB.toNat] else [])

/-- What a wait finds: satisfied, or the first FAILED token, or neither. -/
inductive Waited where
  /-- The wait is satisfied. -/
  | ok
  /-- A named token is FAILED. -/
  | failed (tok : Nat)
  /-- It is not satisfied. -/
  | held
deriving DecidableEq, Repr

/-- A wait on the tokens of a stream (R49, R51). -/
def waitFor (c : Core) (y : SyncSlot) : Waited :=
  match (syncToks y).find? fun k => decide (c.tok k = .failed) with
  | some k => .failed k
  | none =>
    let set (k : Nat) : Bool := decide (c.tok k = .set)
    if (if y.any then (syncToks y).any set else (syncToks y).all set) then .ok else .held

/-- The named tokens that satisfied a wait are cleared (R49). -/
def clearSet (y : SyncSlot) (c : Core) : Core :=
  (syncToks y).foldl (fun c k => if c.tok k = .set then c.setTok k .clear else c) c

/-- CLEAR and SET act on every named token (R49). -/
def actAll (v : Tok) (y : SyncSlot) (c : Core) : Core := (syncToks y).foldl (fun c k => c.setTok k v) c

/-- The die's stream changed by its core. -/
def modCore (d : Nat) (f : Core → Core) (s : State) : State :=
  s.modDie d (Die.modStream fun x => { x with core := f x.core })

/-- The die's stream held. -/
def stallOn (d : Nat) (h : Stall) (s : State) : State := s.modDie d (Die.modStream fun x => { x with stall := some h })

/-- The trap of a FAILED token: the status recorded with it (R51, R64). -/
def trapToken (d k : Nat) (x : Stream) (s : State) : State :=
  trapStream d 0x07 (Tbl.getD x.core.failSt k St.computeFault) s

/-- WAIT and WAIT_CLEAR (R49 to R51). -/
def waitSlot (d : Nat) (y : SyncSlot) (clear : Bool) (s : State) : State :=
  match (s.die d).stream with
  | none => s
  | some x =>
    if x.ended then s
    else
      match waitFor x.core y with
      | .ok => if clear then modCore d (clearSet y) s else s
      | .failed k => trapToken d k x s
      | .held => stallOn d (.wait y clear s.sys.time) s

/-! ## Control operations (R55 to R57) -/

/-- A branch condition (R57). -/
def branchTaken (c : Core) (k : CtlSlot) : Bool :=
  let v := ixValue c.ix k.fb.toNat
  match k.fa.toNat with
  | 0 => true
  | 1 => decide (v = 0)
  | 2 => decide (v ≠ 0)
  | 3 => decide (v < 0)
  | 4 => c.flags.getLsbD k.flag.toNat
  | _ => !c.flags.getLsbD k.flag.toNat

/-- Write an index register; ix0 always reads zero (R55). -/
def setIx (k : Nat) (w : Word) (c : Core) : Core := if k = 0 then c else { c with ix := c.ix.set k w }

/-- The loop levels that end at a row: the next row's offset, or none to go on (R57); `n` is fuel. -/
def closeLoops (row : Nat) : Nat → List LoopLevel → List LoopLevel × Option Nat
  | 0, ls => (ls, none)
  | n + 1, l :: r =>
    if l.stop = row then
      if 1 < l.remaining then ({ l with remaining := l.remaining - 1 } :: r, some l.start) else closeLoops row n r
    else (l :: r, none)
  | _, [] => ([], none)

/-- Cycles in which a die's passes and vector operations have all finished. -/
def drainCycle (x : Die) (now : Nat) : Nat :=
  let a := x.clusters.foldl (fun m c =>
    (c.2.flight ++ c.2.waiting.toList).foldl (fun m p => max m (p.lastEntry + 257)) m) now
  x.engines.foldl (fun m e => e.2.flight.foldl (fun m o => max m (o.retireAt + 1)) m) a

/-- The count of a LOOP (R57). -/
def loopCount (c : Core) (k : CtlSlot) : Nat := if k.fb = 0 then k.imm.toNat else (c.ix.getD k.fb.toNat 0).toNat

/-- A stream's index, flag and loop change by a control operation that neither ends, traps nor marks; the target taken,
if any (R57). -/
def ctlCore (img : List Byte) (next : Nat) (op : Nat) (k : CtlSlot) (c : Core) : Core × Option Nat :=
  if op = 0x02 then (c, if branchTaken c k then some k.target.toNat else none)
  else if op = 0x03 then
    let n := loopCount c k
    if n = 0 then
      (c, some (k.target.toNat + ((rowAt img k.target.toNat).map Row.size).getD 0))
    else ({ c with loops := { remaining := n, start := next, stop := k.target.toNat } :: c.loops }, none)
  else if op = 0x04 then (setIx k.fa.toNat k.imm c, none)
  else if op = 0x05 then
    (setIx k.fa.toNat ((if k.fb = 0 then 0 else c.ix.getD k.fb.toNat 0) + k.imm) c, none)
  else if op = 0x09 then ({ c with flags := putFlag c.flags k.flag.toNat false }, none)
  else (c, none)

/-- STITCH at a row: an ON_PREEMPT context with no request pending only records it; otherwise issue stops, drains and
saves (R59, R60). -/
def stitchMark (d : Nat) (list row : Nat) (s : State) : State :=
  match (s.die d).stream with
  | none => s
  | some x =>
    let onPre := ((s.ctx? x.ctx.toNat).map Ctx.onPreempt).getD false
    if onPre && !x.preempt then s.modDie d (Die.modStream fun y => { y with since := 0, passes := [] })
    else
      let e := drainCycle (s.die d) x.cycle
      (s.modDie d (Die.modStream fun y => { y with cycle := e, stall := some (.marker list row x.plan) })).count
        x.ctx.toNat fun n => { n with marker := n.marker + (e - x.cycle) }

/-- A control slot acts on a running stream whose next row would lie at `next`: its effect, and the target taken. -/
def ctlSlot (d op next : Nat) (k : CtlSlot) (s : State) : State × Option Nat :=
  match (s.die d).stream with
  | none => (s, none)
  | some x =>
    if x.ended then (s, none)
    else if op = 0x01 then (s.modDie d (Die.modStream fun y => { y with ended := true }), none)
    else if op = 0x06 then (stitchMark d (k.imm.toNat % 256) x.row s, none)
    else if op = 0x07 then (trapWith d 0x08 [k.imm.toNat % 65536] St.computeFault s, none)
    else if op = 0x08 then (s.modDie d fun dd => { dd with trace := dd.trace ++ [(k.imm, x.plan, s.sys.time)] }, none)
    else if op = 0x03 ∧ 8 ≤ x.core.loops.length ∧ loopCount x.core k ≠ 0 then (trapStream d 0x04 St.computeFault s, none)
    else
      let r := ctlCore (progImage s x.prog) next op k x.core
      (modCore d (fun _ => r.1) s, r.2)

/-- A control slot's row by itself: control continues at a target it takes (R57). -/
def ctlRow (d op : Nat) (k : CtlSlot) (s : State) : State :=
  match (s.die d).stream with
  | none => s
  | some x =>
    let r := ctlSlot d op x.core.pc k s
    match r.2 with
    | none => r.1
    | some t => r.1.modDie d (Die.modStream fun y =>
        { y with core := { y.core with pc := t }, cycle := y.cycle + 3, since := y.since + 3 })

/-! ## Issue of a row (R34 to R54) -/

/-- Whether every scratchpad byte that a row's slots touch lies in the scratchpad (R40, R44, R46). -/
def rowInRange (img : List Byte) (ix : List Word) (r : Row) : Bool :=
  (r.array.all fun q =>
    let a := arraySlotOf q.2
    a.1 == 3 || (descOf (descBits img q.1 a.2.desc.toNat) (ixValue ix a.2.ix.toNat)).regions.all inPad) &&
  (r.vec.all fun q =>
    let v := vecSlotOf q.2
    !v.2.memEn || inPad (vecAddr v.2 ix, vecMemBytes v.1 v.2)) &&
  (r.mov.all fun q =>
    let m := moveSlotOf q.2
    let v := (moveOf m.1 (moveDescBits img m.2.mdesc.toNat) m.2 (ixValue ix m.2.ix.toNat)).1
    (!v.srcPad || m.1 == 2 || inPad (v.src, v.len)) && (!v.dstPad || m.1 == 3 || inPad (v.dst, v.len)))

/-- What holds a row structurally: a cluster with a waiting pass, or a full mover (R43, R45). -/
def rowBlocked (x : Die) (st : Stream) (r : Row) : Option (Option Nat × Option Nat) :=
  match r.array.find? fun q => decide ((arraySlotOf q.2).1 ≠ 3) && (x.cluster (st.phys q.1)).waiting.isSome with
  | some q => some (some (st.phys q.1), none)
  | none =>
    match r.mov.find? fun q => decide (4 ≤ (x.mover q.1).length) && !st.halted.contains q.1 with
    | some q => some (none, some q.1)
    | none => none

/-- Extra cycles of the j-th engine that addresses one logical cluster in a row (R115). -/
def vecExtra (r : Row) (j : Nat) (v : VecSlot) : Nat :=
  (r.vec.filter fun q =>
    let w := vecSlotOf q.2
    decide (q.1 < j) && w.2.memEn && v.memEn && decide (w.2.memCluster = v.memCluster)).length

/-- The slots of a row issue, then control moves on; the row's own cycle, its rest rows and a taken branch pass. -/
def issueSlots (d : Nat) (x : Stream) (r : Row) (s : State) : State :=
  let img := progImage s x.prog
  let row := x.core.pc
  let next := row + r.size
  let starts := (r.array.filter fun q => decide ((arraySlotOf q.2).1 ≠ 3)).map Prod.fst
  let s0 := s.modDie d (Die.modStream fun y => { y with row := row, plan := r.plan, stall := none })
  let s1 := foldOver r.array (fun q acc =>
    let a := arraySlotOf q.2
    if a.1 = 3 then drainSlot d q.1 a.2 acc else startPass d q.1 a.2 (a.1 == 2) starts acc) s0
  let s2 := foldOver r.vec (fun q acc =>
    let v := vecSlotOf q.2
    vecSlot d q.1 v.1 (vecExtra r q.1 v.2) v.2 acc) s1
  let s3 := foldOver r.mov (fun q acc =>
    let m := moveSlotOf q.2
    moveSlot d q.1 m.1 m.2 acc) s2
  let s4 := match r.sync with
    | none => s3
    | some w =>
      let y := syncSlotOf w
      if y.1 = 2 then modCore d (clearSet y.2) s3
      else if y.1 = 3 then modCore d (actAll .clear y.2) s3
      else if y.1 = 4 then modCore d (actAll .set y.2) s3
      else s3
  let cyc := 1 + r.rest
  let move (taken : Option Nat) (pushed : Bool) (s : State) : State :=
    s.modDie d (Die.modStream fun y =>
      let c := match taken with
        | some t => { y.core with pc := t }
        | none =>
          if pushed then { y.core with pc := next }
          else
            let l := closeLoops row 8 y.core.loops
            { y.core with loops := l.1, pc := l.2.getD next }
      let n := cyc + (if taken.isSome then 3 else 0)
      { y with core := c, cycle := y.cycle + n, since := y.since + n })
  let live (s : State) : Bool := decide (((s.die d).stream.map Stream.cmd) = some x.cmd)
  let s5 := match r.ctl with
    | none => move none false s4
    | some w =>
      let k := ctlSlotOf w
      if k.1 = 0x06 then
        stitchMark d (k.2.imm.toNat % 256) row (move none false s4)
      else
        let c := ctlSlot d k.1 next k.2 s4
        if live c.1 then move c.2 (k.1 == 3) c.1 else c.1
  if img.isEmpty then s else s5.count x.ctx.toNat fun n => { n with issued := n.issued + cyc }

/-- The wait of a row: its sync slot with WAIT or WAIT_CLEAR (R49, R50). -/
def rowWait (r : Row) : Option (Nat × SyncSlot) :=
  (r.sync.map syncSlotOf).filter fun y => y.1 == 1 || y.1 == 2

/-- ROW_ISSUE: fetch, the row's wait and its structural stalls, then its descriptors, the check of its addresses and its
slots (R36, R40, R43, R50, R57, R63).  A row that a wait or a stall holds has not issued, so that its addresses are not
checked yet. -/
def rowIssue (d : Nat) (fetch desc : Ecc) (s : State) : State :=
  match (s.die d).stream with
  | none => s
  | some x =>
    if x.ended || x.stall.isSome || (match x.swatch with
        | some w => decide (w.step ≠ 2)
        | none => false) then s
    else if 65536 ≤ x.since then trapStream d 0x05 St.computeFault s
    else
      let img := progImage s x.prog
      match rowAt img x.core.pc with
      | none => trapStream d 0x0A St.computeFault s
      | some r =>
        let at_ (s : State) : State := s.modDie d (Die.modStream fun y => { y with row := x.core.pc, plan := r.plan })
        let usesDesc := !r.array.isEmpty || !r.mov.isEmpty
        let go (s : State) : State :=
          if rowInRange img x.core.ix r then issueSlots d x r s else trapStream d 0x03 St.computeFault (at_ s)
        let fetched (s : State) : State :=
          match (rowWait r).map fun y => (y, waitFor x.core y.2) with
          | some (_, .failed k) => trapToken d k x (at_ s)
          | some (y, .held) => stallOn d (.wait y.2 (y.1 == 2) s.sys.time) (at_ s)
          | _ =>
            match rowBlocked (s.die d) x r with
            | some b => stallOn d (.structural b.1 b.2 s.sys.time) (at_ s)
            | none =>
              readEcc (if usesDesc then desc else .clean) (.sequencer (dieIx d)) x.core.pc (some x.ctx) go
                (fun s => trapStream d 0x02 St.computeFault (at_ s)) s
        readEcc fetch (.sequencer (dieIx d)) x.core.pc (some x.ctx) fetched
          (fun s => trapStream d 0x01 St.computeFault (at_ s)) s

/-- Cycles of a die's clock in a time in ns: 1.5 GHz times k/16 (R426). -/
def cyclesIn (x : Die) (ns : Nat) : Nat := ns * 3 * x.k / 32

/-- WAIT_SATISFIED: the held row issues in full, the stall's cycles counted (R50, R54). -/
def waitSatisfied (d : Nat) (s : State) : State :=
  match (s.die d).stream with
  | none => s
  | some x =>
    match x.stall with
    | some (.wait y clear since) =>
      (match waitFor x.core y with
      | .ok =>
        let n := cyclesIn (s.die d) (s.sys.time - since)
        let s1 := (s.modDie d (Die.modStream fun z => { z with stall := none, cycle := z.cycle + n })).count x.ctx.toNat
          fun k => { k with waitStall := k.waitStall + n }
        let plain := if clear then modCore d (clearSet y) s1 else s1
        (match rowAt (progImage s x.prog) x.core.pc with
        | some r => if (r.sync.map fun w => (syncSlotOf w).2) = some y then rowIssue d .clean .clean s1 else plain
        | none => plain)
      | _ => s)
    | _ => s

/-- A wait named a token that has become FAILED: the wait ends and the stream traps (R51). -/
def waitFailed (d : Nat) (s : State) : State :=
  match (s.die d).stream with
  | none => s
  | some x =>
    match x.stall with
    | some (.wait y _ _) => (match waitFor x.core y with
      | .failed k => trapToken d k x s
      | _ => s)
    | _ => s

/-- WAIT_TIMEOUT: a wait with a limit has passed it (R51). -/
def waitTimeout (d : Nat) (s : State) : State :=
  match (s.die d).stream with
  | none => s
  | some x =>
    match x.stall with
    | some (.wait y _ since) =>
      if y.timeout ≠ 0 ∧ since + 1000 * y.timeout.toNat ≤ s.sys.time then trapStream d 0x06 St.computeFault s else s
    | _ => s

/-- STALL_RELEASE: the waiting place is free, or the mover has room, and the row issues (R43, R45). -/
def stallRelease (d : Nat) (s : State) : State :=
  match (s.die d).stream with
  | none => s
  | some x =>
    match x.stall with
    | some (.structural c m since) =>
      let dd := s.die d
      let free := (match c with
        | some k => (dd.cluster k).waiting.isNone
        | none => true) && (match m with
        | some k => decide ((dd.mover k).length < 4)
        | none => true)
      if free then
        let at' := match c with
          | some k => (((dd.cluster k).flight.getLast?).map Pass.first).getD x.cycle
          | none => x.cycle + cyclesIn dd (s.sys.time - since)
        let n := at' - x.cycle
        let s1 := (s.modDie d (Die.modStream fun z => { z with stall := none, cycle := z.cycle + n })).count x.ctx.toNat
          fun k => { k with structStall := k.structStall + n }
        rowIssue d .clean .clean s1
      else s
    | _ => s

/-- STITCH_OVERRUN (R63). -/
def stitchOverrun (d : Nat) (s : State) : State :=
  match (s.die d).stream with
  | none => s
  | some x => if 65536 ≤ x.since then trapStream d 0x05 St.computeFault s else s

/-- A stream of a launch has ended: the launch's status so far, and whether other streams of it remain (R58, R68). -/
def launchStatus (ends : List (Option (Nat × Half) × Bool)) : Half :=
  match (ends.filterMap Prod.fst) with
  | [] => if ends.any Prod.snd then St.computeFault else St.ok
  | e :: r => (r.foldl (fun a b => if b.1 < a.1 then b else a) e).2

/-- Whether a command still has a stream, parked or running, or a task. -/
def launchLives (s : State) (n : Nat) : Bool :=
  ((List.range 4).any fun d =>
    decide (((s.die d).stream.map Stream.cmd) = some n) || (s.die d).parked.any fun y => decide (y.cmd = n)) ||
  s.tasks.any fun t => decide (t.cmd = n ∧ t.kind ≠ .update)

/-- STREAM_COMPLETE: after END, all issued work has finished; the die is free, and the command completes with the last
stream of its launch (R57, R58, R68). -/
def streamComplete (d : Nat) (s : State) : State :=
  match (s.die d).stream with
  | none => s
  | some x =>
    if x.ended && (s.die d).drained && x.swatch.isNone then
      let e := (x.core.firstFailed.map fun f => (x.core.failedAt, f.2), x.fault)
      let s1 := vacate d (s.modLive x.cmd fun l => { l with streamEnds := l.streamEnds ++ [e] })
      if launchLives s1 x.cmd then s1
      else
        let st := launchStatus (((s1.live? x.cmd).map Live.streamEnds).getD [])
        fail x.cmd st 0 s1
    else s

/-! ## Rows that act on a stream and never end it -/

/-- END (R57). -/
def execEndStream (d : DieIx) (k : CtlSlot) (s : State) : Host.Outcome State Fault Refusal :=
  .next (ctlRow d.val 0x01 k s)
/-- BRANCH (R57). -/
def execBranch (d : DieIx) (k : CtlSlot) (s : State) : Host.Outcome State Fault Refusal :=
  .next (ctlRow d.val 0x02 k s)
/-- IX_SET (R57). -/
def execIxSet (d : DieIx) (k : CtlSlot) (s : State) : Host.Outcome State Fault Refusal :=
  .next (ctlRow d.val 0x04 k s)
/-- IX_ADD (R57). -/
def execIxAdd (d : DieIx) (k : CtlSlot) (s : State) : Host.Outcome State Fault Refusal :=
  .next (ctlRow d.val 0x05 k s)
/-- STITCH (R59). -/
def execStitch (d : DieIx) (k : CtlSlot) (s : State) : Host.Outcome State Fault Refusal :=
  .next (ctlRow d.val 0x06 k s)
/-- MARK (R57). -/
def execMark (d : DieIx) (k : CtlSlot) (s : State) : Host.Outcome State Fault Refusal :=
  .next (ctlRow d.val 0x08 k s)
/-- FLAG_CLEAR (R57). -/
def execFlagClear (d : DieIx) (k : CtlSlot) (s : State) : Host.Outcome State Fault Refusal :=
  .next (ctlRow d.val 0x09 k s)

/-- A stream of the die is there to take a sync slot. -/
def syncAct (d : Nat) (v : Tok) (y : SyncSlot) (s : State) : State :=
  match (s.die d).stream with
  | none => s
  | some x => if x.ended then s else modCore d (actAll v y) s

/-- CLEAR (R49). -/
def execClearOp (d : DieIx) (y : SyncSlot) (s : State) : Host.Outcome State Fault Refusal :=
  .next (syncAct d.val .clear y s)
/-- SET (R49). -/
def execSetOp (d : DieIx) (y : SyncSlot) (s : State) : Host.Outcome State Fault Refusal :=
  .next (syncAct d.val .set y s)

end Sys2Proof.Machine
end

