-- ==== Sys2Proof/Machine/Sched.lean ====
section
/-! DEFINITION. Placement, pre-emption and resumption (R35, R67, R68, R172 to R179, R485). -/

namespace Sys2Proof.Machine

/-! ## Whether a die can host a program (R37, R383) -/

/-- Segments of row memory a program's row section takes (R35). -/
def rowSegments (img : List Byte) : Nat := ((sectionAt img 0).2 + 65535) / 65536

/-- Whether a die in service has the clusters, vector engines and row memory that a program needs (R172). -/
def hostable (s : State) (d : Nat) (prog : Word) : Bool :=
  match Tbl.get? s.programs prog.toNat with
  | none => false
  | some g =>
    !(s.die d).dead && (clusterMap s d (imgClusters g.image) false).isSome &&
      decide (rowSegments g.image ≤ 64 - (s.die d).deadSegs) &&
      (List.range 4).all fun j => !g.slots.getLsbD j || s.inService (.vector (dieIx d) (engIx j))

/-- The program of a stream command. -/
def cmdProg (s : State) (n : Nat) : Word := ((s.live? n).map fun l => l.c.object).getD 0

/-- The dies a stream task may use: its gang, or those its affinity allows. -/
def taskDies (s : State) (t : Task) : List Nat := if t.dies.isEmpty then affinityDies s t.ctx else t.dies

/-- Whether a stream task can ever be placed as the module stands (R172). -/
def placeable (s : State) (t : Task) : Bool :=
  if t.resumed then true
  else if t.dies.isEmpty then (affinityDies s t.ctx).any fun d => hostable s d (cmdProg s t.cmd)
  else t.dies.all fun d => hostable s d (cmdProg s t.cmd)

/-- The stream tasks that can no longer be placed end with ST_NO_RESOURCE (R172). -/
def dropUnplaceable (s : State) : State :=
  foldOver ((s.tasks.filter fun t => decide (t.kind = .stream) && !placeable s t).map Task.cmd)
    (fun n acc => abort n St.noResource acc) s

/-! ## The order of tasks (R173) -/

/-- The rank of a waiting task: service, starved, priority, wait, context. -/
def taskRank (s : State) (t : Task) : List Nat :=
  [if t.service then 0 else 1, if t.starved then 0 else 1, ((s.ctx? t.ctx.toNat).map fun c => c.prio.toNat).getD 3,
   t.admitted, t.ctx.toNat]

/-- One rank comes before another. -/
def rankLt : List Nat → List Nat → Bool
  | a :: r, b :: q => decide (a < b) || (decide (a = b) && rankLt r q)
  | _, _ => false

/-- A task put into an ordered list. -/
def insertTask (s : State) (t : Task) : List Task → List Task
  | [] => [t]
  | u :: r => if rankLt (taskRank s t) (taskRank s u) then t :: u :: r else u :: insertTask s t r

/-- The waiting tasks of a kind and partition in the order of R173. -/
def orderedTasks (s : State) (kind : TaskKind) (p : Nat) : List Task :=
  (s.tasks.filter fun t => decide (t.kind = kind ∧ t.part.val = p) && !(s.part p).fencedAt.isSome &&
    !((s.ctx? t.ctx.toNat).any fun c => c.held)).foldl (fun acc t => insertTask s t acc) []

/-- A mover of the die is in an engine reset, so that placement treats it as busy (R47, R391). -/
def moverBusy (s : State) (d : Nat) : Bool :=
  (List.range 4).any fun k => s.resetting (.mover (dieIx d) (engIx k))

/-- A stream task waits for a die (R172). -/
def dieFree (s : State) (d : Nat) (ctx : Byte) : Bool :=
  let x := s.die d
  x.stream.isNone && !x.replaying && !x.dead && !moverBusy s d && !x.parked.any fun y => decide (y.ctx = ctx)

/-! ## Row memory (R35) -/

/-- The segments resident on a die. -/
def usedSegments (x : Die) : Nat := (x.rows.map fun r => r.2.1).sum

/-- Programs that no stream on the die runs or waits with leave row memory, least recently run first, until `need`
segments are free; `n` is fuel. -/
def freeRows (x : Die) (need : Nat) : Nat → List (Word × Nat × Nat) → List (Word × Nat × Nat)
  | 0, rows => rows
  | n + 1, rows =>
    if (rows.map fun r => r.2.1).sum + need + x.deadSegs ≤ 64 then rows
    else
      let held (w : Word) : Bool := (x.stream.any fun y => decide (y.prog = w)) || x.parked.any fun y => decide (y.prog = w)
      match (rows.filter fun r => !held r.1) with
      | [] => rows
      | a :: r =>
        let old := r.foldl (fun m q => if q.2.2 < m.2.2 then q else m) a
        freeRows x need n (rows.filter fun q => decide (q.1 ≠ old.1))

/-- A program's row section made resident on a die; none when it cannot be held. -/
def makeResident (x : Die) (prog : Word) (segs now : Nat) : Option Die :=
  let rest := x.rows.filter fun r => decide (r.1 ≠ prog)
  let rows := freeRows x segs 64 rest
  if (rows.map fun r => r.2.1).sum + segs + x.deadSegs ≤ 64 then some { x with rows := rows ++ [(prog, segs, now)] }
  else none

/-! ## Power states and placement (R423, R424) -/

/-- The exit time of a power state in ns, from the state left (R423). -/
def exitNs : PState → Nat
  | .run => 0
  | .gate => 200
  | .retain => 150000

/-- The entry time of a power state in ns (R423). -/
def entryNs : PState → Nat
  | .run => 0
  | .gate => 100
  | .retain => 20000

/-- A die begins to leave GATE or RETAIN; an entry under way finishes first (R424). -/
def wakeDie (d : Nat) (s : State) : State :=
  let x := s.die d
  if x.pstate = .run ∨ x.wakingAt.isSome then s
  else s.modDie d fun x =>
    { x with wakingAt := some (max s.sys.time (x.enteredAt + entryNs x.pstate) + exitNs x.pstate) }

/-! ## Placing a stream (R68) -/

/-- The registers a command enters its entry row with (R68). -/
def entryCore (img : List Byte) (c : Capsule) : Core :=
  { Core.fresh with
    pc := imgEntry img c.p4.toNat
    ix := [0, c.p0, c.p1, c.p2, c.p3] ++ List.replicate 11 0 }

/-- A stream of a command as it begins on a die. -/
def newStream (n : Nat) (c : Capsule) (img : List Byte) (map : List Nat) (now : Nat) : Stream :=
  { ctx := c.context, cmd := n, prog := c.object, core := entryCore img c, cycle := 0, since := 0, map := map,
    row := imgEntry img c.p4.toNat, plan := 0, stall := none, ended := false, fault := false, halted := [], image := none,
    older := none, entry := entryCore img c, preempt := false, placedAt := now, layer := none, passes := [],
    swatch := none, mismatches := 0, replayTo := none, noSwatch := false }

/-- A command's stream is placed on a die: clusters mapped, rows made resident, schedule checked, issue at the entry row
(R37, R68, R139, R150). -/
def placeStream (n d : Nat) (s : State) : State :=
  match s.live? n with
  | none => s
  | some l =>
    let img := progImage s l.c.object
    let damaged := ((Tbl.get? s.programs l.c.object.toNat).map Program.damaged).getD false
    if damaged then abort n St.computeFault s
    else
      match clusterMap s d (imgClusters img) false, makeResident (s.die d) l.c.object (rowSegments img) s.sys.time with
      | some m, some x =>
        if schedBad img then abort n St.badParam s
        else
          (undefine d (s.setDie d x)).modDie d fun y =>
            { y with stream := some (newStream n l.c img m s.sys.time), idleAt := none,
                     noMirror := y.noMirror && !y.parked.isEmpty }
      | _, _ => abort n St.noResource s

/-- The first task that can be placed now, passing over dies that a waiting gang reserves (R173, R174). -/
def choosePlace (s : State) : List Task → List Nat → Option (Task × List Nat)
  | [], _ => none
  | t :: r, reserved =>
    let ok (d : Nat) : Bool := dieFree s d t.ctx && hostable s d (cmdProg s t.cmd) && !reserved.contains d
    if t.resumed then choosePlace s r reserved
    else if 1 < t.dies.length then
      if t.dies.all ok then some (t, t.dies) else choosePlace s r (if reserved.isEmpty then t.dies else reserved)
    else
      match (taskDies s t).find? ok with
      | some d => some (t, [d])
      | none => choosePlace s r reserved

/-- A stream task is placed; dies in a power state are woken first and the task waits (R172, R424). -/
def placeStreamTask (p : Nat) (s : State) : State :=
  match choosePlace s (orderedTasks s .stream p) [] with
  | none => s
  | some (t, ds) =>
    let asleep := ds.filter fun d => decide ((s.die d).pstate ≠ .run)
    if !asleep.isEmpty then foldOver asleep wakeDie s
    else
      let s1 : State := { s with tasks := s.tasks.filter fun u => decide (u.id ≠ t.id) }
      let s2 := s1.count t.ctx.toNat fun k => { k with queueWait := k.queueWait + (s.sys.time - t.admitted) }
      foldOver ds (placeStream t.cmd) s2

/-- An update task is placed on the first vector engine with no other chunk in flight (R172). -/
def placeUpdateTask (p : Nat) (s : State) : State :=
  match (orderedTasks s .update p) with
  | [] => s
  | t :: _ =>
    let d := t.dies.headD 0
    let shard : Word := BitVec.ofNat 32 t.cmd
    match (List.range 4).find? fun j =>
        s.inService (.vector (dieIx d) (engIx j)) && ((s.die d).engine j).chunk.isNone with
    | none => s
    | some j =>
      { s.modDie d (fun x => x.modEngine j fun e => { e with chunk := some (shard, t.item) }) with
        tasks := s.tasks.filter fun u => decide (u.id ≠ t.id) }

/-- The commands whose tasks a scan engine holds. -/
def scanCmds (s : State) (e : Nat) : List Nat := ((s.scanHeld.filter fun h => decide (h.1 = e)).map fun h => h.2.cmd).eraseDups

/-- KiB of table SRAM that a command's code table takes; none for a scan (R204). -/
def tableKiB (s : State) (n : Nat) : Nat :=
  match Tbl.get? s.queries n with
  | some q => ((Tbl.get? s.cols q.col.toNat).map Col.m).getD 0
  | none => 0

/-- Whether a scan engine is free for a command: fewer than 64 queries, and room for its code table (R172, R204). -/
def scanFree (s : State) (e n : Nat) : Bool :=
  let cs := scanCmds s e
  decide (n ∈ cs) || decide (cs.length < 64 ∧ (cs.map (tableKiB s)).sum + tableKiB s n ≤ 1024)

/-- No task of the command has been placed before (R185). -/
def firstPlacement (s : State) (n : Nat) : Bool :=
  !(s.scanHeld.any fun h => decide (h.2.cmd = n)) &&
    !((Tbl.get? s.queries n).any fun q => decide (0 < q.scanned)) &&
    !((Tbl.get? s.scans n).any fun q => q.spans.any fun z => z.2.placed)

/-- A task that is a span of a scan, not a parcel scan. -/
def spanTask (s : State) (n : Nat) : Bool := Tbl.has s.scans n

/-- An ordered scan holds back 16 finished spans, so that no further span of it is placed (R236). -/
def spansHeldBack (s : State) (n : Nat) : Bool :=
  (Tbl.get? s.scans n).any fun q =>
    bit q.flags 1 && decide (16 ≤ (q.spans.filter fun z => z.2.done && !z.2.released).length)

/-- Whether a scan engine takes a task: in service, assigned, free, and with at most one span (R172, R235). -/
def engineTakes (s : State) (p e : Nat) (t : Task) : Bool :=
  (s.part p).scan.getLsbD e && scanFree s e t.cmd &&
    s.inService (.scan ⟨e / 8 % 2, Nat.mod_lt _ (by decide)⟩ ⟨e % 8, Nat.mod_lt _ (by decide)⟩) &&
    !(spanTask s t.cmd && (scanCmds s e).any (spanTask s)) && !spansHeldBack s t.cmd

/-- The first scan task, with the first scan engine of its partition that takes it (R172, R173). -/
def placeScanTask (p : Nat) (s : State) : State :=
  match (orderedTasks s .scan p).findSome? fun t => ((List.range 16).find? fun e => engineTakes s p e t).map fun e => (t, e) with
  | none => s
  | some (t, e) =>
    let wait := if firstPlacement s t.cmd then s.sys.time - t.admitted else 0
    { s.count t.ctx.toNat (fun k => { k with queueWait := k.queueWait + wait }) with
      scanHeld := s.scanHeld ++ [(e, { t with admitted := s.sys.time })]
      tasks := s.tasks.filter fun u => decide (u.id ≠ t.id)
      scans := Tbl.modify t.cmd (fun q =>
        { q with spans := Tbl.modify t.item (fun z => { z with placed := true }) q.spans }) s.scans }

/-- PLACE_TASK: the placement engine fills the first free engine of a kind (R172). -/
def placeTask (kind : TaskKind) (p : Nat) (s : State) : State :=
  match kind with
  | .stream => placeStreamTask p s
  | .update => placeUpdateTask p s
  | .scan => placeScanTask p s

/-- A task is added to those waiting. -/
def addTask (t : Task) (s : State) : State :=
  { s with tasks := s.tasks ++ [{ t with id := s.nextTask }], nextTask := s.nextTask + 1 }

/-- A task with the fields of its kind; its number is given when it is added. -/
def mkTask (kind : TaskKind) (p : Nat) (ctx : Byte) (service : Bool) (cmd now : Nat) (dies : List Nat) (item : Nat) : Task :=
  { id := 0, kind := kind, part := partIx p, ctx := ctx, service := service, cmd := cmd, admitted := now, dies := dies,
    resumed := false, item := item, starved := false }

/-! ## Pre-emption (R59, R60, R176 to R179, R485) -/

/-- A pre-emption request reaches the stream on a die; one request stands (R178). -/
def preemptRequest (d : Nat) (s : State) : State :=
  if (s.die d).replaying then s else s.modDie d (Die.modStream fun x => { x with preempt := true })

/-- A stream task that may use a die waits with at least a given priority. -/
def waitsFor (s : State) (d prio : Nat) : Bool :=
  s.tasks.any fun t =>
    decide (t.kind = .stream) && (taskDies s t).contains d &&
      decide ((((s.ctx? t.ctx.toNat).map fun c => c.prio.toNat).getD 3) ≤ prio)

/-- TIME_SLICE_EXPIRY (R176, R485). -/
def timeSlice (d : Nat) (s : State) : State :=
  match (s.die d).stream with
  | none => s
  | some x =>
    let p := s.part (streamPart s x)
    let prio := ((s.ctx? x.ctx.toNat).map fun c => c.prio.toNat).getD 3
    if x.placedAt + 1000 * p.sliceUs ≤ s.sys.time ∧ waitsFor s d prio then preemptRequest d s else s

/-- STARVATION_LIMIT (R177). -/
def starvation (id : Nat) (s : State) : State :=
  match s.tasks.find? fun t => decide (t.id = id) with
  | none => s
  | some t =>
    if t.kind = .stream ∧ t.admitted + 1000 * (s.part t.part.val).starveUs ≤ s.sys.time then
      let s1 : State :=
        { s with tasks := s.tasks.map fun u => if u.id = id then { u with starved := true } else u }
      match (taskDies s t).find? fun d => t.resumed || hostable s d (cmdProg s t.cmd) with
      | some d => preemptRequest d s1
      | none => s1
    else s

/-- The stream leaves its die at a marker and waits for it (R59, R172, R178). -/
def leaveDie (d : Nat) (x : Stream) (s : State) : State :=
  let p := streamPart s x
  let y : Stream := { x with preempt := false, stall := none }
  let s1 := (vacate d s).modDie d fun dd => { dd with parked := dd.parked ++ [y] }
  let s2 := s1.count x.ctx.toNat fun k => { k with preempted := min (k.preempted + 1) 4294967295 }
  addTask { mkTask .stream p x.ctx false x.cmd s.sys.time [d] 0 with resumed := true } s2

/-- MARKER_SAVE_COMPLETE: the drain has ended and the save is written; issue continues, or the context leaves (R59,
R60). -/
def markerSaved (d : Nat) (s : State) : State :=
  match (s.die d).stream with
  | none => s
  | some x =>
    match x.stall with
    | some (.marker list row plan) =>
      if (s.die d).drained then
        let n := (saveBytes s x list * 3 + 1999) / 2000
        let g := takeImage s d x list row plan
        let y : Stream :=
          { x with stall := none, since := 0, passes := [], image := some g, older := x.image, cycle := x.cycle + n }
        let s1 := (s.modDie d fun dd => { dd with stream := some y }).count x.ctx.toNat fun k =>
          { k with marker := k.marker + n }
        if x.preempt then leaveDie d y s1 else s1
      else s
    | _ => s

/-- RESUME_STREAM: the first pre-empted stream waiting for a free die returns to it (R172, R173, R179). -/
def resumeStream (d : Nat) (ecc : Ecc) (s : State) : State :=
  let p := (ownerOf s d).getD 4
  let mine := (orderedTasks s .stream p).filter fun t => t.resumed && decide (t.dies = [d])
  match mine with
  | [] => s
  | t :: _ =>
    match (s.die d).parked.find? fun y => decide (y.cmd = t.cmd) with
    | none => s
    | some x =>
      if (s.die d).stream.isSome || (s.die d).replaying || moverBusy s d then s
      else if (s.die d).pstate ≠ .run then wakeDie d s
      else
        let s1 : State :=
          { s.modDie d (fun dd => { dd with parked := dd.parked.filter fun y => decide (y.cmd ≠ t.cmd) }) with
            tasks := s.tasks.filter fun u => decide (u.id ≠ t.id) }
        let slots := ((Tbl.get? s.programs x.prog.toNat).map Program.slots).getD 0
        let bad := (x.map.any fun c => decide (HwUnit.cluster (dieIx d) (clusterIx c) ∈ s.errs.retired)) ||
          (List.range 4).any fun j => slots.getLsbD j && decide (HwUnit.vector (dieIx d) (engIx j) ∈ s.errs.retired)
        let go (s : State) : State :=
          match x.image, makeResident (s.die d) x.prog (rowSegments (progImage s x.prog)) s.sys.time with
          | some _, some y =>
            let s2 := restoreOn d { x with placedAt := s.sys.time } (s.setDie d y)
            s2.modDie d fun dd => { dd with idleAt := none }
          | _, _ => abort x.cmd St.computeFault s
        if bad then abort x.cmd St.computeFault s1
        else readEcc ecc (.sequencer (dieIx d)) 0 (some x.ctx) go (abort x.cmd St.computeFault) s1

/-! ## Rows that never end a command -/

/-- PREEMPT_REQUEST (R176). -/
def execPreemptRequest (d : DieIx) (s : State) : Host.Outcome State Fault Refusal := .next (preemptRequest d.val s)
/-- TIME_SLICE_EXPIRY (R176). -/
def execTimeSliceExpiry (d : DieIx) (t : Nat) (s : State) : Host.Outcome State Fault Refusal :=
  .next (timeSlice d.val (s.tick t))
/-- STARVATION_LIMIT (R177). -/
def execStarvationLimit (task : Nat) (t : Nat) (s : State) : Host.Outcome State Fault Refusal :=
  .next (starvation task (s.tick t))
/-- MARKER_SAVE_COMPLETE (R59). -/
def execMarkerSaveComplete (d : DieIx) (s : State) : Host.Outcome State Fault Refusal := .next (markerSaved d.val s)

end Sys2Proof.Machine
end

