-- ==== Sys2Proof/Machine/Program.lean ====
section
/-! DEFINITION. Programs: PRG_LOAD with its checks, PRG_RUN and PRG_UNLOAD (R66 to R68, R167, R171). -/

namespace Sys2Proof.Machine

/-! ## Frames that the module pins (R154) -/

/-- Evict pages of a die until `need` frames are free beyond the reserve or on their way, at most `n` pages. -/
def evictFor (d need p : Nat) : Nat → State → State
  | 0, s => s
  | n + 1, s =>
    if 256 + need ≤ freeFrames s d + writingOn s d then s
    else
      match victim s d p with
      | none => s
      | some x => evictFor d need p n (evictPage x p s)

/-- Frames for a pin on a die: at hand, waiting for write-backs, or not to be had (R154). -/
def pinFrames (d need p : Nat) (s : State) : State × Option Bool :=
  let s1 := evictFor d need p need s
  if 256 + need ≤ freeFrames s1 d then (s1, some true)
  else if 0 < writingOn s1 d then (s1, some false)
  else (s1, none)

/-- A command that pins frames goes on once they were sought: none to be had, to wait for, or at hand (R154). -/
def withFrames (n : Nat) (go : State → State) (f : State × Option Bool) : State :=
  match f.2 with
  | none => fail n St.noResource 0 f.1
  | some false => waitOnPage n f.1
  | some true => go f.1

/-! ## The load checks (R67) -/

/-- A section lies within an image. -/
def sectionIn (img : List Byte) (i : Nat) : Bool := decide ((sectionAt img i).1 + (sectionAt img i).2 ≤ img.length)

/-- Whether bits [lo + w − 1 : lo] of a value are zero. -/
def zeroBits (v lo w : Nat) : Bool := decide (bits v lo w = 0)

/-- Check 1: magic, version, row format and the header's fields. -/
def badHeader (img : List Byte) (rows : List (Nat × Row)) : Bool :=
  decide (fieldAt img 0 4 ≠ 0xCA2E0208 ∨ fieldAt img 4 2 ≠ 1 ∨ imgEntries img = 0 ∨ 16 < imgEntries img ∨
    (sectionAt img 1).2 ≠ imgClusters img * 8192 ∨ (sectionAt img 2).2 ≠ 8192) ||
  ((List.range 5).any fun i => !sectionIn img i) || rows.any fun r => decide (r.2.fmt ≠ 1)

/-- Check 3: reserved fields of the header, rows, slots, descriptors, move descriptors and save lists. -/
def badReserved (img : List Byte) (rows : List (Nat × Row)) : Bool :=
  decide (fieldAt img 52 12 ≠ 0) ||
  (rows.any fun r => !r.2.reservedZero ||
    (r.2.array.any fun q => !zeroBits q.2 27 21) || (r.2.vec.any fun q => !zeroBits q.2 117 43) ||
    (r.2.mov.any fun q => !zeroBits q.2 43 53) || (r.2.sync.any fun w => !zeroBits w 42 22) ||
    (r.2.ctl.any fun w => !zeroBits w 21 11 || !zeroBits w 85 11)) ||
  ((List.range (imgClusters img)).any fun c => (List.range 256).any fun i =>
    let w := descBits img c i
    !(zeroBits w 30 2 && zeroBits w 71 1 && zeroBits w 95 1 && zeroBits w 119 1 && zeroBits w 212 44)) ||
  ((List.range 256).any fun i =>
    let w := moveDescBits img i
    !(zeroBits w 98 30 && zeroBits w 206 50)) ||
  ((saveLists (sliceBytes img (sectionAt img 3).1 (sectionAt img 3).2) 256).any fun l =>
    (List.range (fieldAt l 0 4)).any fun i => (saveEntry l i).2.2.2)

/-- The descriptors that some array slot names: logical cluster and index. -/
def namedDescs (rows : List (Nat × Row)) : List (Nat × Nat) :=
  rows.flatMap fun r => r.2.array.filterMap fun q =>
    let a := arraySlotOf q.2
    if a.1 = 1 ∨ a.1 = 2 then some (q.1, a.2.desc.toNat) else none

/-- Check 4: clusters at or above the count. -/
def badCluster (img : List Byte) (rows : List (Nat × Row)) : Bool :=
  rows.any fun r => (r.2.array.any fun q => decide (imgClusters img ≤ q.1)) ||
    r.2.vec.any fun q => let v := vecSlotOf q.2; v.2.memEn && decide (imgClusters img ≤ v.2.memCluster.toNat)

/-- Check 5: named descriptors' addresses and extents, and vector addresses. -/
def badAddress (img : List Byte) (rows : List (Nat × Row)) : Bool :=
  ((namedDescs rows).any fun q =>
    let d := descOf (descBits img q.1 q.2) 0
    decide (d.statAddr % 64 ≠ 0 ∨ d.strmAddr % 64 ≠ 0 ∨ d.outAddr % 64 ≠ 0) || !d.regions.all inPad) ||
  rows.any fun r => r.2.vec.any fun q => let v := vecSlotOf q.2; v.2.memEn && decide (v.2.memAddr.toNat % 64 ≠ 0)

/-- Check 6: a branch or loop target, or an entry, is not the start of a row. -/
def badTarget (img : List Byte) (rows : List (Nat × Row)) : Bool :=
  let start (o : Nat) : Bool := rows.any fun r => r.1 == o
  ((List.range (imgEntries img)).any fun i => !start (imgEntry img i)) ||
  rows.any fun r => r.2.ctl.any fun w =>
    let k := ctlSlotOf w
    (k.1 == 2 || k.1 == 3) && !start k.2.target.toNat

/-- Check 7: the row sectionAts size and end. -/
def badSection (img : List Byte) (rows : List (Nat × Row)) : Bool :=
  decide (4194304 < (sectionAt img 0).2) ||
    decide (((rows.getLast?).map fun r => 2 * (r.1 + r.2.size)) ≠ some (sectionAt img 0).2)

/-- Check 8: save lists. -/
def badSaves (img : List Byte) (rows : List (Nat × Row)) : Bool :=
  let sec := sliceBytes img (sectionAt img 3).1 (sectionAt img 3).2
  let ls := saveLists sec 257
  let entryBad (e : Nat × Nat × Nat × Bool) : Bool :=
    decide (19 < e.1 ∨ (imgClusters img ≤ e.1 ∧ e.1 < 16) ∨ e.2.1 % 64 ≠ 0 ∨ e.2.2.1 % 64 ≠ 0 ∨ e.2.2.1 = 0 ∨
      (if e.1 < 16 then padBytes else 65536) < e.2.1 + e.2.2.1)
  decide (256 < ls.length) ||
  (ls.any fun l => decide (1024 < fieldAt l 0 4 ∨ l.length ≠ 4 + 8 * fieldAt l 0 4) ||
    (List.range (min 1024 (fieldAt l 0 4))).any fun i => entryBad (saveEntry l i)) ||
  (rows.any fun r => r.2.ctl.any fun w =>
    let k := ctlSlotOf w
    k.1 == 6 && decide (ls.length ≤ k.2.imm.toNat % 256)) ||
  ls.any fun l =>
    decide (imgSave img < 512 + ((List.range (min 1024 (fieldAt l 0 4))).map fun i => (saveEntry l i).2.2.1).sum)

/-- Check 9: format combination, shape and rescale use of named descriptors. -/
def badShape (img : List Byte) (rows : List (Nat × Row)) : Bool :=
  (namedDescs rows).any fun q => !(descOf (descBits img q.1 q.2) 0).accepted

/-- A move descriptor that a slot names breaks R483. -/
def badMoveDesc (img : List Byte) (op i : Nat) : Bool :=
  let w := moveDescBits img i
  let pad (a : Nat) : Bool := decide (bits a 27 21 ≠ 0 ∨ imgClusters img ≤ bits a 23 4)
  decide (bits w 128 32 = 0 ∨ bits w 128 32 % 64 ≠ 0 ∨ 2 ≤ bits w 192 2) || (bit w 96 && pad (bits w 0 48)) ||
    (bit w 97 && pad (bits w 48 48)) || decide (op = 0)

/-- Check 10: reserved values in slots, R482 and R483. -/
def badValue (img : List Byte) (rows : List (Nat × Row)) : Bool :=
  rows.any fun r =>
    (r.2.array.any fun q =>
      let a := arraySlotOf q.2
      decide (a.1 = 0 ∨ 3 < a.1 ∨ (a.1 = 3 ∧ a.2.desc ≠ 0))) ||
    (r.2.vec.any fun q => let v := vecSlotOf q.2; vecSlotCheck v.1 v.2 == 10) ||
    (r.2.mov.any fun q =>
      let m := moveSlotOf q.2
      decide (m.1 = 0 ∨ 3 < m.1) || badMoveDesc img m.1 m.2.mdesc.toNat) ||
    (r.2.sync.any fun w => let y := syncSlotOf w; decide (y.1 = 0 ∨ 4 < y.1)) ||
    r.2.ctl.any fun w =>
      let k := ctlSlotOf w
      decide (k.1 = 0 ∨ 9 < k.1 ∨ (k.1 = 2 ∧ 5 < k.2.fa.toNat))

/-- Check 11: COEF and UPDATE. -/
def usesUpdate (rows : List (Nat × Row)) : Bool :=
  rows.any fun r => r.2.vec.any fun q => let v := vecSlotOf q.2; vecSlotCheck v.1 v.2 == 11

/-- The lowest-numbered check that an image fails; 0 when it passes (R67). -/
def loadCheck (img : List Byte) : Nat :=
  let rows := rowStarts (rowSection img) ((sectionAt img 0).2 / 12 + 1) 0
  let c := imgClusters img
  let checks : List (Nat × Bool) :=
    [(1, badHeader img rows), (2, decide (c ≠ 16 ∧ c ≠ 15 ∧ c ≠ 14 ∧ c ≠ 12)), (3, badReserved img rows),
     (4, badCluster img rows), (5, badAddress img rows), (6, badTarget img rows), (7, badSection img rows),
     (8, badSaves img rows), (9, badShape img rows), (10, badValue img rows), (11, usesUpdate rows)]
  ((checks.find? fun x => x.2).map Prod.fst).getD 0

/-- The vector slots that a program uses (R383). -/
def vecSlotsUsed (img : List Byte) : BitVec 4 :=
  let rows := rowStarts (rowSection img) ((sectionAt img 0).2 / 12 + 1) 0
  rows.foldl (fun m r => r.2.vec.foldl (fun m q => m ||| (1#4 <<< q.1)) m) 0

/-! ## Commands -/

/-- Checks of PRG_LOAD (R67): a new id and a mapped range. -/
def prgLoadCheck (c : Capsule) (s : State) : Verdict :=
  must (!Tbl.has s.programs c.object.toNat &&
    !(s.cmds.any fun e => decide (e.2.op = 0x0501 ∧ e.2.c.object = c.object) && e.2.open) &&
    decide (0 < c.length.toNat ∧ c.offset.toNat + c.length.toNat ≤ 2 ^ 48) &&
    allMapped s c.partition.toNat (pagesOf c.offset.toNat c.length.toNat)) St.badParam

/-- The lowest-numbered compute die of a partition. -/
def lowestDie (s : State) (p : Nat) : Nat := (((List.range 4).find? fun d => (s.part p).dies.getLsbD d)).getD 0

/-- PRG_LOAD: the image is read, checked and copied into pinned frames (R67). -/
def prgLoadStart (n : Nat) (s : State) : State :=
  match s.live? n with
  | none => s
  | some l =>
    let p := l.c.partition.toNat
    let a := readRange p (pagesOf l.c.offset.toNat l.c.length.toNat) l.c.context s
    if a.2 ≠ .ok then stoppedBy n a.2 a.1
    else
      let img := storeRead s p l.c.offset.toNat l.c.length.toNat
      let k := loadCheck img
      if k ≠ 0 then fail n St.badParam k a.1
      else
        let need := (img.length + pageBytes - 1) / pageBytes
        let d := lowestDie s p
        let f := pinFrames d need p a.1
        let g : Program :=
          { part := l.c.partition.toFin, image := img, frames := need, die := d, slots := vecSlotsUsed img,
            damaged := false }
        let go (s : State) : State :=
          let s1 := chargeWait n (s.modDie d fun x => { x with progFrames := x.progFrames + need })
          succeed n 0 [] { s1 with programs := Tbl.set l.c.object.toNat g s1.programs }
        withFrames n go f

/-- The dies that a PRG_RUN names; none for any one die. -/
def runDies (c : Capsule) : List Nat := (List.range 32).filter fun d => c.p5.getLsbD d

/-- The stream task of a PRG_RUN. -/
def runTask (n : Nat) (c : Capsule) (now : Nat) : Task := mkTask .stream c.partition.toNat c.context false n now (runDies c) 0

/-- Checks of PRG_RUN (R68, R167, R172, R174). -/
def prgRunCheck (c : Capsule) (s : State) : Verdict :=
  let img := progImage s c.object
  let cap := ((s.ctx? c.context.toNat).map Ctx.saveMiB).getD 0
  firstBad
    [must (decide (c.p4.toNat < imgEntries img)) St.badParam,
     must ((runDies c).all fun d => (s.part c.partition.toNat).dies.getLsbD d && decide (d < 4)) St.badParam,
     must ((runDies c).length ≤ 1 || (runDies c).all fun d => (affinityDies s c.context).contains d) St.badParam,
     must (decide (imgSave img ≤ cap * 1048576)) St.noResource,
     must ((if (runDies c).isEmpty then (affinityDies s c.context).any fun d => hostable s d c.object
        else (runDies c).all fun d => hostable s d c.object)) St.noResource]

/-- PRG_RUN starts: its task waits for its dies (R172, R174). -/
def prgRunStart (n : Nat) (s : State) : State :=
  match s.live? n with
  | none => s
  | some l =>
    let s1 := s.modLive n fun x => { x with phase := .running }
    dropUnplaceable (addTask (runTask n l.c l.admitted) s1)

/-- Checks of PRG_UNLOAD (R67). -/
def prgUnloadCheck (c : Capsule) (s : State) : Verdict :=
  let onDie := (List.range 4).any fun d =>
    ((s.die d).stream.any fun y => decide (y.prog = c.object)) || (s.die d).parked.any fun y => decide (y.prog = c.object)
  must (!onDie && !(s.cmds.any fun e => decide (e.2.op = 0x0502 ∧ e.2.c.object = c.object) && e.2.open) &&
    !s.endpoints.any fun e => decide (e.2.prog = c.object)) St.notPermitted

/-- PRG_UNLOAD removes the program and frees its frames (R67). -/
def prgUnloadStart (n : Nat) (s : State) : State :=
  match s.live? n with
  | none => s
  | some l =>
    match Tbl.get? s.programs l.c.object.toNat with
    | none => fail n St.badObject 0 s
    | some g =>
      let s1 := s.modDie g.die fun x => { x with progFrames := x.progFrames - g.frames }
      let s2 := foldOver [0, 1, 2, 3] (fun d acc =>
        acc.modDie d fun x => { x with rows := x.rows.filter fun r => decide (r.1 ≠ l.c.object) }) s1
      succeed n 0 [] { s2 with programs := Tbl.erase l.c.object.toNat s2.programs }

end Sys2Proof.Machine
end

