-- ==== Sys2Proof/Machine/Shards.lean ====
section
/-! DEFINITION. Shards and the in-module parameter update (R119 to R137): contributions, steps, COEF and UPDATE, published
weights, and the shard's events. -/

namespace Sys2Proof.Machine

/-- Elements of a chunk (R128). -/
def chunkElems : Nat := 262144

/-! ## Reading a shard -/

/-- A shard. -/
def State.shard? (s : State) (h : Nat) : Option Shard := Tbl.get? s.shards h
/-- The state with a shard changed. -/
def State.modShard (h : Nat) (f : Shard → Shard) (s : State) : State := { s with shards := Tbl.modify h f s.shards }
/-- Chunks of a shard. -/
def Shard.count (h : Shard) : Nat := (h.n + chunkElems - 1) / chunkElems
/-- A chunk. -/
def Shard.chunk (h : Shard) (k : Nat) : Chunk := Tbl.getD h.chunks k Chunk.fresh
/-- The shard with a chunk changed. -/
def Shard.modChunk (k : Nat) (f : Chunk → Chunk) (h : Shard) : Shard := { h with chunks := Tbl.set k (f (h.chunk k)) h.chunks }
/-- Elements of chunk k; the last may be shorter. -/
def Shard.elems (h : Shard) (k : Nat) : Nat := min chunkElems (h.n - k * chunkElems)
/-- S: the smallest n_c over the chunks (R135). -/
def Shard.step (h : Shard) : Nat :=
  if h.chunks.length < h.count then 0 else (h.chunks.map fun e => e.2.n).foldl min ((h.chunk 0).n)

/-- Elements of a table from a position. -/
def elemsAt (t : Tbl Word) (lo n : Nat) : List Word := (List.range n).map fun i => Tbl.getD t (lo + i) 0
/-- Elements written to a table from a position; +0 is not listed. -/
def putElems (lo : Nat) (ws : List Word) (t : Tbl Word) : Tbl Word :=
  (ws.foldl (fun acc w => (Tbl.put 0 acc.2 w acc.1, acc.2 + 1)) (t, lo)).1

/-- FP32 words written in a state or publish format and read back into FP32 (R102, R105, R124). -/
def throughFormat (fmt : Nat) (ws : List Word) : List Word :=
  if isBlock fmt then
    (convertAll fmt false ws).flatMap fun b => (readBlock fmt b.codes b.scale).map Prod.fst
  else ws.map fun w => (readElem fmt (toElem fmt (f32 w)).1).1

/-- FP32 words as bytes of a format: elements, then one scale or shift byte per block (R128). -/
def formatBytes (fmt : Nat) (ws : List Word) : List Byte :=
  if isBlock fmt then
    let bs := convertAll fmt false ws
    packCodes fmt (bs.flatMap BlockOut.codes) ++ bs.map BlockOut.scale
  else packCodes fmt (ws.map fun w => (toElem fmt (f32 w)).1)

/-- Format code of the state tensors. -/
def Shard.stateFmt (h : Shard) : Nat := if h.bf16 then 1 else 11
/-- Format code of the published copy. -/
def Shard.pubFmt (h : Shard) : Nat := if h.pub = 0 then 1 else if h.pub = 1 then 3 else 4

/-- Bytes per 32 elements that a resident shard pins (R121). -/
def Shard.unitBytes (h : Shard) : Nat :=
  256 + h.states * (if h.bf16 then 64 else 33) + (if h.pub = 0 then 64 else 33)

/-! ## Events (R135, R136, R352) -/

/-- A SHD_EVENT capsule leaves for a creating node, or an event entry is queued for a creating control queue. -/
def sendEvent (h : Nat) (code value : Nat) (s : State) : State :=
  match s.shard? h with
  | none => s
  | some x =>
    match x.creator with
    | .ctlq q => s.modQueue q.val fun y =>
        { y with events := y.events ++ [(BitVec.ofNat 16 code, BitVec.ofNat 64 value, BitVec.ofNat 32 h)] }
    | .fabric node _ =>
      let tag := s.fabric.nextTag
      let u : OutUnit :=
        { OutUnit.base 0 1 s.sys.node node 2 with
          op := 0x0413, tag := tag, object := BitVec.ofNat 32 h, offset := BitVec.ofNat 64 value, detail := code,
          count := x.part.val }
      if (routeTo s node).isNone then
        addLog Lc.cqEventLost 0x50000000 noUnit (ctxWord none (some x.part.val)) [node.toNat] s
      else
        let i : Issued :=
          { tag := tag, op := 0x0413, dst := node, object := BitVec.ofNat 32 h, info := code, left := s.sys.time }
        let s1 := sendUnit u { s with fabric := { s.fabric with issued := s.fabric.issued ++ [i], nextTag := tag + 1 } }
        s1.modShard h fun y =>
          if code = 1 then { y with stepSent := some s.sys.time, announced := value }
          else { y with attnSent := some s.sys.time }
    | _ => s

/-- Whether a shard was created over the fabric. -/
def Shard.onFabric (x : Shard) : Bool :=
  match x.creator with
  | .fabric _ _ => true
  | _ => false

/-- The step event is raised when S has advanced; one unanswered event is kept (R135, R136). -/
def raiseStep (h : Nat) (before : Nat) (s : State) : State :=
  match s.shard? h with
  | none => s
  | some x =>
    if x.step ≤ before then s
    else if x.onFabric && x.stepSent.isSome then s.modShard h fun y => { y with stepHeld := true }
    else sendEvent h 1 x.step s

/-- The attention event of a chunk; none while one is unanswered (R136). -/
def raiseAttention (h k : Nat) (s : State) : State :=
  match s.shard? h with
  | none => s
  | some x => if x.onFabric && x.attnSent.isSome then s else sendEvent h 2 k s

/-- An unanswered event of a shard ends; a held SHARD_STEP is sent with the newest S (R136). -/
def eventOver (h code : Nat) (s : State) : State :=
  match s.shard? h with
  | none => s
  | some x =>
    let left := s.fabric.issued.filter fun i => decide (¬ (i.op = 0x0413 ∧ i.object.toNat = h ∧ i.info = code))
    let s1 : State := { s with fabric := { s.fabric with issued := left } }
    if code = 1 then
      let s2 := s1.modShard h fun y => { y with stepSent := none, stepHeld := false }
      if x.stepHeld then sendEvent h 1 x.step s2 else s2
    else s1.modShard h fun y => { y with attnSent := none }

/-- SHD_EVENT_REPLY: any status is delivery (R136). -/
def eventReply (h code : Nat) (s : State) : State :=
  match s.shard? h with
  | none => s
  | some x => if (if code = 1 then x.stepSent else x.attnSent).isSome then eventOver h code s else s

/-- SHD_EVENT_TIMEOUT: no reply within 10 ms, so the event is dropped and logged (R136). -/
def eventTimeout (h code : Nat) (s : State) : State :=
  match s.shard? h with
  | none => s
  | some x =>
    match (if code = 1 then x.stepSent else x.attnSent), x.creator with
    | some t, .fabric node _ =>
      if t + 10000000 ≤ s.sys.time then
        eventOver h code (addLog Lc.cqEventLost 0x50000000 noUnit (ctxWord none (some x.part.val)) [node.toNat] s)
      else s
    | _, _ => s

/-! ## Creating and deleting (R120 to R122) -/

/-- The shard that a SHD_CREATE names. -/
def newShard (c : Capsule) : Shard :=
  { part := c.partition.toFin, die := dieIx (bits c.p0.toNat 0 2), n := c.length.toNat, states := bits c.p0.toNat 2 2,
    bf16 := c.p0.getLsbD 4, pub := bits c.p0.toNat 5 2, contributors := c.p1.toNat, deadline := c.p2.toNat,
    apply := c.p0.getLsbD 7, spill := c.p0.getLsbD 8, frames := 0, settings := [], begun := 0, w := [], s1 := [],
    s2 := [], chunks := [], creator := c.origin, stepSent := none, stepHeld := false, attnSent := none, announced := 0 }

/-- Frames that a shard pins: all of it, or for a SPILL shard a window of at most 48 chunks (R121). -/
def shardPins (h : Shard) : Nat :=
  let elems := if h.spill then min h.n (48 * chunkElems) else h.n
  (elems / 32 * h.unitBytes + pageBytes - 1) / pageBytes

/-- The shard ceiling of a die in frames (R121). -/
def shardCeiling (s : State) : Nat := 39936 - 512 * (s.media.platGiB / 4 - min 4 (s.media.platGiB / 4))

/-- The shard service of a die in a partition, if it runs (R122). -/
def serviceOf (s : State) (d : Nat) : Option Nat := (Tbl.find? (fun _ c => decide (c.shardDie = some d)) s.ctxs).map Prod.fst

/-- The lowest free context id. -/
def freeCtx (s : State) : Option Nat := (List.range 256).find? fun i => !Tbl.has s.ctxs i

/-- Contexts of a partition. -/
def ctxCount (s : State) (p : Nat) : Nat := Tbl.count (fun _ c => decide (c.part.val = p)) s.ctxs

/-- Room for one more context (R166). -/
def ctxRoom (s : State) (p : Nat) : Bool := (freeCtx s).isSome && decide (ctxCount s p < 64)

/-- A context of firmware's own (R122, R208). -/
def serviceCtx (p : PartIx) (die : Option Nat) (search : Bool) : Ctx :=
  { part := p, prio := 0, affinity := 0, mode := 0, onPreempt := false, saveMiB := 8, depth := 256, held := false,
    shardDie := die, search := search, ctr := {} }

/-- Checks of SHD_CREATE (R120 to R122). -/
def shdCreateCheck (c : Capsule) (s : State) : Verdict :=
  let h := newShard c
  let p := c.partition.toNat
  firstBad
    [must (!Tbl.has s.shards c.object.toNat && (s.part p).dies.getLsbD h.die.val &&
        decide (h.n % 256 = 0 ∧ 256 ≤ h.n ∧ h.n ≤ 2 ^ 36 ∧ h.states ≤ 2 ∧ h.pub ≤ 2 ∧ 1 ≤ h.contributors ∧
          h.contributors ≤ 1024 ∧ h.deadline ≤ 3600000)) St.badParam,
     must ((serviceOf s h.die.val).isSome || ctxRoom s p) St.noResource,
     must (decide ((s.die h.die.val).shardFrames + shardPins h ≤ shardCeiling s)) St.noResource]

/-- SHD_CREATE takes effect: frames are pinned, and the shard service is started if needed. -/
def shdCreateStart (n : Nat) (s : State) : State :=
  match s.live? n with
  | none => s
  | some l =>
    let h := newShard l.c
    let d := h.die.val
    let pins := shardPins h
    let land := if (s.die d).landingFrames = 0 then 512 else 0
    let f := pinFrames d (pins + land) l.c.partition.toNat s
    let go (s : State) : State :=
      let s1 := s.modDie d fun x => { x with shardFrames := x.shardFrames + pins, landingFrames := x.landingFrames + land }
      let s2 : State := { s1 with shards := Tbl.set l.c.object.toNat { h with frames := pins } s1.shards }
      let s3 : State := match serviceOf s2 d, freeCtx s2 with
        | none, some i => { s2 with ctxs := Tbl.set i (serviceCtx h.part (some d) false) s2.ctxs }
        | _, _ => s2
      succeed n 0 [] s3
    withFrames n go f

/-- A chunk holds accepted contributions or runs its step. -/
def Chunk.holds (k : Chunk) : Bool := !k.bits.isEmpty || k.running.isSome

/-- Checks of SHD_DELETE (R119). -/
def shdDeleteCheck (c : Capsule) (s : State) : Verdict :=
  must (!((s.shard? c.object.toNat).any fun h => h.chunks.any fun k => k.2.holds)) St.notPermitted

/-- SHD_DELETE frees the shard's frames; the service of a die with no shard left ends. -/
def shdDeleteStart (n : Nat) (s : State) : State :=
  match s.live? n with
  | none => s
  | some l =>
    match s.shard? l.c.object.toNat with
    | none => fail n St.badObject 0 s
    | some h =>
      let d := h.die.val
      let s1 := s.modDie d fun x => { x with shardFrames := x.shardFrames - h.frames }
      let s2 : State := { s1 with shards := Tbl.erase l.c.object.toNat s1.shards }
      let s3 : State :=
        if s2.shards.any fun e => decide (e.2.die.val = d) then s2
        else { s2 with ctxs := Tbl.keep (fun _ c => decide (c.shardDie ≠ some d)) s2.ctxs }
      succeed n 0 [] s3

/-! ## Groups and curves (R123 to R127) -/

/-- The FP32 word k of a coefficient entry (R125). -/
def coefWord (e : BitVec 512) (k : Nat) : Word := BitVec.ofNat 32 (bits e.toNat (32 * k) 32)

/-- The settings that apply to a step. -/
def settingsAt (h : Shard) (t : Nat) : Option Settings := h.settings.find? fun x => decide (x.step ≤ t)

/-- The newest curves. -/
def newestCurves (h : Shard) : Tbl (List (Nat × Word)) := ((h.settings.head?).map Settings.curves).getD []

/-- An entry that SHD_SET_GROUPS refuses (R126). -/
def badEntry (h : Shard) (e : BitVec 512) : Bool :=
  let v := e.toNat
  let has (k : Nat) : Bool := Tbl.has (newestCurves h) k
  let bias := bit v 324
  decide (2 ≤ bits v 320 2 ∨ bits v 322 2 = 3 ∨ bits v 326 10 ≠ 0 ∨ bits v 372 140 ≠ 0) || !has (bits v 336 12) ||
    (bias && !has (bits v 348 12)) || (bias && decide (bits v 322 2 = 0) && !has (bits v 360 12)) ||
    decide (bits v 322 2 = 0 ∧ h.states < 2) ||
    (decide (h.states = 0) && !((f32 (coefWord e 2)).isZero && (f32 (coefWord e 3)).isZero))

/-- The group map of a SHD_SET_GROUPS payload: g starts of 8 bytes, then g entries of 64 bytes. -/
def groupsOf (data : List Byte) (g : Nat) : List Group :=
  (List.range g).map fun i =>
    { start := fieldAt data (8 * i) 8, entry := BitVec.ofNat 512 (fieldAt data (8 * g + 64 * i) 64) }

/-- Starts strictly rise from 0, in multiples of 256, below n (R123). -/
def startsOk (h : Shard) (gs : List Group) : Bool :=
  decide ((gs.head?).map Group.start = some 0) &&
    (gs.all fun g => decide (g.start % 256 = 0 ∧ g.start < h.n)) &&
    ((gs.zip (gs.drop 1)).all fun p => decide (p.1.start < p.2.start))

/-- New settings apply from step m + 1 (R126). -/
def newSettings (h : Shard) (f : Settings → Settings) : Shard :=
  match h.settings with
  | [] => { h with settings := [f { step := h.begun + 1, groups := [], curves := [] }] }
  | x :: r =>
    if x.step = h.begun + 1 then { h with settings := f x :: r }
    else { h with settings := f { x with step := h.begun + 1 } :: x :: r }

/-- Checks of SHD_SET_GROUPS before its data. -/
def shdGroupsCheck (c : Capsule) (_s : State) : Verdict :=
  must (decide (1 ≤ c.p0.toNat ∧ c.p0.toNat ≤ 1024 ∧ c.dataLen.toNat = 72 * c.p0.toNat)) St.badParam

/-- SHD_SET_GROUPS with its data landed (R123, R126). -/
def shdGroupsLanded (n : Nat) (s : State) : State :=
  match s.live? n with
  | none => s
  | some l =>
    match s.shard? l.c.object.toNat with
    | none => fail n St.badObject 0 s
    | some h =>
      let gs := groupsOf l.data l.c.p0.toNat
      if !startsOk h gs || gs.any fun g => badEntry h g.entry then fail n St.badParam 0 s
      else
        succeed n (h.begun + 1) [] (s.modShard l.c.object.toNat fun h => newSettings h fun x => { x with groups := gs })

/-- Checks of SHD_SET_CURVE before its data. -/
def shdCurveCheck (c : Capsule) (_s : State) : Verdict :=
  must (decide (c.p0.toNat < 3072 ∧ c.dataLen.toNat = 576)) St.badParam

/-- The points of a curve record (R127). -/
def curveOf (data : List Byte) : List (Nat × Word) :=
  (List.range (fieldAt data 0 4)).map fun i => (fieldAt data (64 + 8 * i) 4, BitVec.ofNat 32 (fieldAt data (68 + 8 * i) 4))

/-- SHD_SET_CURVE with its data landed (R127). -/
def shdCurveLanded (n : Nat) (s : State) : State :=
  match s.live? n with
  | none => s
  | some l =>
    let p := fieldAt l.data 0 4
    let pts := curveOf l.data
    let ok := decide (1 ≤ p ∧ p ≤ 64 ∧ fieldAt l.data 4 60 = 0) && (pts.zip (pts.drop 1)).all fun q => decide (q.1.1 < q.2.1)
    if ok then
      succeed n 0 [] (s.modShard l.c.object.toNat fun h =>
        newSettings h fun x => { x with curves := Tbl.set l.c.p0.toNat pts x.curves })
    else fail n St.badParam 0 s

/-- A curve's value at a step, each line rounded once (R127). -/
def curveAt (pts : List (Nat × Word)) (t : Nat) : Word :=
  match pts with
  | [] => 0
  | a :: r =>
    let last := (a :: r).getLastD a
    if t ≤ a.1 then a.2
    else if last.1 ≤ t then last.2
    else
      match ((a :: r).zip r).find? fun q => decide (q.1.1 ≤ t ∧ t < q.2.1) with
      | none => last.2
      | some (x, y) =>
        let f := (f32Div (toF32 (.fin false (t - x.1) 0)).1 (toF32 (.fin false (y.1 - x.1) 0)).1).1
        (f32Fma (f32Sub y.2 x.2).1 f x.2).1

/-! ## Contributions (R128 to R130) -/

/-- Payload bytes of a contribution of n elements in a format (R128). -/
def payloadBytes (fmt n : Nat) : Nat := elemBytes fmt n + (if isBlock fmt then (n + 31) / 32 else 0)

/-- Checks of SHD_PUSH_GRAD (R110, R128, R368). -/
def shdPushCheck (c : Capsule) (s : State) : Verdict :=
  match s.shard? c.object.toNat with
  | none => none
  | some h =>
    let k := c.offset.toNat / chunkElems
    let fmt := c.p2.toNat % 16
    firstBad
      [must (decide (c.offset.toNat % chunkElems = 0 ∧ c.offset.toNat < h.n ∧ c.p1.toNat < h.contributors) &&
          [0, 1, 3, 4, 5, 11].contains c.p2.toNat && decide (c.dataLen.toNat = payloadBytes fmt (h.elems k))) St.badParam,
       must (!(h.chunk k).damaged) St.mediaUncorrectable]

/-- Contributions of a chunk granted and not yet added: their bytes. -/
def landingBytes (s : State) (h k : Nat) : Nat :=
  (s.cmds.map fun e =>
    if e.2.op = 0x0410 ∧ e.2.c.object.toNat = h ∧ e.2.c.offset.toNat / chunkElems = k ∧ 0 < e.2.granted ∧ e.2.open then
      e.2.c.dataLen.toNat else 0).sum

/-- Bytes of the HBM landing pool of a die in use. -/
def poolBytes (s : State) (d : Nat) : Nat :=
  (s.shards.flatMap fun e => if e.2.die.val = d then
    (e.2.chunks.filter fun k => decide (k.2.place = .hbm)).map fun k => landingBytes s e.1 k.1 else []).sum

/-- Window slots of a die in use. -/
def slotsUsed (s : State) (d : Nat) : List Nat :=
  s.shards.flatMap fun e => if e.2.die.val = d then
    e.2.chunks.filterMap fun k => match k.2.place with
      | .slot i => some i
      | _ => none
  else []

/-- The place of a chunk's sum on its first accepted contribution: a free slot while the service runs, else HBM
(R129, R130). -/
def takePlace (s : State) (d : Nat) : Place :=
  let logical := (inServiceClusters s d).length - (swatchClusters s d).length
  if (s.die d).stream.isSome then .hbm
  else match (List.range (3 * logical)).find? fun i => !(slotsUsed s d).contains i with
    | some i => .slot i
    | none => .hbm

/-- A contribution is accepted: its bit is set, the chunk has its place, and the step deadline counts from the first
(R129 to R131). -/
def Chunk.accept (who : Nat) (place : Place) (now : Nat) (c : Chunk) : Chunk :=
  { c with bits := if c.bits.contains who then c.bits else c.bits ++ [who], place := place,
           firstAt := some (c.firstAt.getD now) }

/-- What RX_GRANT finds of a command: it is held, refused, or granted (R318). -/
inductive Grant where
  /-- The grant is held. -/
  | held
  /-- The command ends with a status. -/
  | refused (st : Half)
  /-- The grant is issued, and the state changed by it. -/
  | ok (s : State)

/-- The decision on a contribution when it is asked for RX_GRANT (R130). -/
def pushGrant (n : Nat) (l : Live) (s : State) : Grant :=
  match s.shard? l.c.object.toNat with
  | none => .refused St.badObject
  | some h =>
    let k := l.c.offset.toNat / chunkElems
    let ch := h.chunk k
    let t := l.c.p0.toNat
    let who := l.c.p1.toNat
    if t ≤ ch.n then .refused St.epochRetired
    else if ch.n + 2 < t then .refused St.badParam
    else if t = ch.n + 1 ∧ ch.bits.contains who then .refused St.violation
    else if t = ch.n + 2 ∨ ch.running.isSome then .held
    else
      let d := h.die.val
      let place := if ch.place = .none then takePlace s d else ch.place
      let room := match place with
        | .slot _ => decide (landingBytes s l.c.object.toNat k + l.c.dataLen.toNat ≤ 1048576)
        | _ => decide (poolBytes s d + l.c.dataLen.toNat ≤ 1073741824)
      if !room then .held
      else
        .ok ((s.modShard l.c.object.toNat fun x => x.modChunk k (Chunk.accept who place s.sys.time)).modLive n fun x =>
          { x with epoch := BitVec.ofNat 32 t })

/-- The elements of a contribution as FP32 words (R102, R128). -/
def contribution (fmt n : Nat) (data : List Byte) : List Word :=
  (List.range n).map fun i =>
    if isBlock fmt then
      (toF32 (scaledValue fmt (elemCode fmt data i) (scaleExp fmt (data.getD (elemBytes fmt n + i / 32) 0)))).1
    else (readElem fmt (elemCode fmt data i)).1

/-! ## Steps (R131 to R133) -/

/-- A sum holds a NaN or an infinity. -/
def nonfinite (ws : List Word) : Bool := ws.any fun w => (f32 w).isNan || (f32 w).isInf

/-- A chunk has completed step t: its contributions and place are given up (R131, R133). -/
def Chunk.advance (t : Nat) (c : Chunk) : Chunk :=
  { c with n := t, bits := [], added := [], sum := [], place := .none, firstAt := none, late := false, running := none,
           waitSince := none, updated := [] }

/-- The step event when S has moved past what it was. -/
def afterAdvance (h before : Nat) (s : State) : State := raiseStep h before s

/-- A chunk's step starts with r contributions present: update tasks wait for the die's vector engines, or a sum that is
not finite is skipped (R131 to R133). -/
def startStep (h k r : Nat) (s : State) : State :=
  match s.shard? h with
  | none => s
  | some x =>
    let ch := x.chunk k
    let t := ch.n + 1
    let before := x.step
    if nonfinite ch.sum && !x.apply then
      let s1 := addLog Lc.nonfiniteGrad 0x50000000 noUnit (ctxWord none (some x.part.val)) [k, t] s
      afterAdvance h before (raiseAttention h k
        (s1.modShard h fun y => y.modChunk k fun c => { Chunk.advance t c with nonfinite := true }))
    else
      let since := if x.spill then some s.sys.time else none
      let s1 := (s.modShard h fun y => y.modChunk k fun c =>
        { c with running := some r, updated := [], waitSince := since }).modShard h fun y =>
        { y with begun := max y.begun t }
      let ctx : Byte := BitVec.ofNat 8 ((serviceOf s x.die.val).getD 0)
      let groups := (x.elems k + 255) / 256
      foldOver (List.range (min 4 groups)) (fun _ acc =>
        addTask (mkTask .update x.part.val ctx true h acc.sys.time [x.die.val] k) acc) s1

/-- A contribution's data has landed: it is added, and a full count starts the step (R130, R131). One whose step was closed
while its data travelled is refused, and so is a second one from a contributor whose bit a loss had cleared (R137). -/
def shdPushLanded (n : Nat) (s : State) : State :=
  match s.live? n with
  | none => s
  | some l =>
    match s.shard? l.c.object.toNat with
    | none => fail n St.badObject 0 s
    | some h =>
      let k := l.c.offset.toNat / chunkElems
      let ch := h.chunk k
      if l.c.p0.toNat ≠ ch.n + 1 ∨ ch.running.isSome then fail n St.epochRetired 0 s
      else if ch.added.contains l.c.p1.toNat then fail n St.violation 0 s
      else
        let v := contribution (l.c.p2.toNat % 16) (h.elems k) l.data
        let place := if ch.place = .none then takePlace s h.die.val else ch.place
        let s1 := (s.modShard l.c.object.toNat fun x => x.modChunk k fun c =>
          { Chunk.accept l.c.p1.toNat place s.sys.time c with
            sum := if c.sum.isEmpty then v else List.zipWith (fun a b => (f32Add a b).1) c.sum v
            added := c.added ++ [l.c.p1.toNat] }).modLive n fun x => { x with applied := true }
        let s2 := succeed n 0 [] s1
        match (s2.shard? l.c.object.toNat).map fun x => (x.chunk k, x.contributors) with
        | some (c, m) =>
          if c.added.length = m ∧ c.running.isNone then startStep l.c.object.toNat k m s2 else s2
        | none => s2

/-- STEP_LATE: a chunk's step deadline has passed without all contributors: logged once with the missing indices, and
reads held for its next step are answered ST_PENDING (R131, R134). -/
def stepLate (h k : Nat) (s : State) : State :=
  match s.shard? h with
  | none => s
  | some x =>
    let c := x.chunk k
    match c.firstAt with
    | none => s
    | some t0 =>
      if x.deadline ≠ 0 ∧ t0 + 1000000 * x.deadline ≤ s.sys.time ∧ c.running.isNone then
        let missing := (List.range x.contributors).filter fun i => !c.bits.contains i
        let s1 := if c.late then s else
          raiseAttention h k (addLog Lc.stepLate 0x50000000 noUnit (ctxWord none (some x.part.val))
            ([k, c.n + 1] ++ missing.take 6) (s.modShard h fun y => y.modChunk k fun c => { c with late := true }))
        foldOver ((s.cmds.filter fun e => decide (e.2.op = 0x0420 ∧ e.2.c.object.toNat = h ∧ c.n < e.2.c.p0.toNat ∧
            e.2.c.offset.toNat / chunkElems ≤ k ∧ k ≤ (e.2.c.offset.toNat + e.2.c.length.toNat - 1) / chunkElems)).map
          Prod.fst) (fun m acc => fail m St.pending 0 acc) s1
      else s

/-- Checks of SHD_CLOSE_STEP (R131). -/
def shdCloseCheck (_c : Capsule) (_s : State) : Verdict := none

/-- SHD_CLOSE_STEP acts on every chunk with n_c = t − 1 that does not run (R131). -/
def shdClose (n : Nat) (withPartial : Bool) (s : State) : State :=
  match s.live? n with
  | none => s
  | some l =>
    let h := l.c.object.toNat
    let t := l.c.p0.toNat
    match s.shard? h with
    | none => fail n St.badObject 0 s
    | some x =>
      let ks := (List.range x.count).filter fun k => decide ((x.chunk k).n + 1 = t) && (x.chunk k).running.isNone
      let abandon (k : Nat) (s : State) : State := s.modShard h fun y => y.modChunk k (Chunk.advance t)
      let s1 := foldOver ks (fun k acc =>
        let r := (x.chunk k).added.length
        if withPartial && decide (0 < r) then startStep h k r acc else abandon k acc) s
      succeed n 0 [] (afterAdvance h x.step s1)

/-- SHD_CLOSE_STEP starts in the mode its row names. -/
def shdCloseStart (withPartial : Bool) (n : Nat) (s : State) : State := shdClose n withPartial s

/-! ## COEF and UPDATE (R116, R124, R127, R133) -/

/-- The parameter group of an element. -/
def groupIndex (gs : List Group) (e : Nat) : Option Nat :=
  ((gs.zipIdx.filter fun g => decide (g.1.start ≤ e)).getLast?).map Prod.snd

/-- COEF: the coefficient entry and its curves are read and evaluated for the next UPDATE run (R127). -/
def coefSlot (d j : Nat) (shard : Word) (group : Nat) (t : Word) (s : State) : State :=
  match s.shard? shard.toNat with
  | none => s
  | some h =>
    match settingsAt h t.toNat with
    | none => s
    | some x =>
      match x.groups[group]? with
      | none => s
      | some g =>
        let e := g.entry.toNat
        let curve (k : Nat) : Word := curveAt (Tbl.getD x.curves k []) t.toNat
        let k : Coef :=
          { eta := (f32Mul (coefWord g.entry 9) (curve (bits e 336 12))).1,
            b1 := if bit e 324 then curve (bits e 348 12) else f32One,
            b2 := if bit e 324 ∧ bits e 322 2 = 0 then curve (bits e 360 12) else f32One,
            shard := shard, group := group, t := t }
        if h.die.val ≠ d then s
        else
          s.modDie d fun y => y.modEngine j fun v =>
            let base := v.flight.foldl (fun m o => max m o.retireAt) 0
            { v with flight := v.flight ++
                [{ retireAt := base + 40, eff := .coef k, token := none, flag := none, sats := 0, nans := 0, row := 0,
                   plan := 0, op := 0x50 }] }

/-- A chain of rounded operations: the value and the saturations so far. -/
def addSat (x : Sat) (n : Nat) : Word × Nat := (x.1, n + (if x.2 then 1 else 0))

/-- One element's step (R124): new w, s1, s2, and saturations. -/
def updateElem (e : BitVec 512) (k : Coef) (states : Nat) (w s1 s2 g : Word) : Word × Word × Word × Nat :=
  let c (i : Nat) : Word := coefWord e i
  let v := e.toNat
  let bias := bit v 324
  let cw := addSat (f32Mul (c 1) w) 0
  let gt := addSat (f32Fma (c 0) g cw.1) cw.2
  let kg := addSat (f32Mul (c 3) gt.1) gt.2
  let s1n := if states = 0 then (gt.1, kg.2) else addSat (f32Fma (c 2) s1 kg.1) kg.2
  let p := if bits v 320 2 = 0 then addSat (f32Mul gt.1 gt.1) s1n.2 else addSat (f32Abs gt.1) s1n.2
  let kp := addSat (f32Mul (c 5) p.1) p.2
  let s2n := if states = 2 then addSat (f32Fma (c 4) s2 kp.1) kp.2 else (s2, kp.2)
  let a := if bias then addSat (f32Mul s1n.1 k.b1) s2n.2 else (s1n.1, s2n.2)
  let u := match bits v 322 2 with
    | 0 =>
      let r := addSat (f32Mul s2n.1 k.b2) a.2
      let q := addSat (f32Sqrt r.1) r.2
      let d := addSat (f32Fma (c 6) q.1 (c 7)) q.2
      addSat (f32Div a.1 d.1) d.2
    | 1 => addSat (f32Sign a.1) a.2
    | _ => a
  let d := addSat (f32Fma (c 8) w u.1) u.2
  let w' := addSat (f32Fnma k.eta d.1 w) d.2
  (w'.1, s1n.1, s2n.1, w'.2)

/-- The gradient after the count correction of a partial step: g × C/r (R131). -/
def corrected (contributors r : Nat) (g : Word) : Word :=
  if r = contributors then g
  else (f32Mul g (f32Div (toF32 (.fin false contributors 0)).1 (toF32 (.fin false r 0)).1).1).1

/-- What one UPDATE computes for update group q of a chunk: new w, s1, s2 and saturations (R124). -/
def updateGroup (h : Shard) (x : Settings) (k : Coef) (chunk q r : Nat) : List Word × List Word × List Word × Nat :=
  let lo := chunk * chunkElems + 256 * q
  let w := elemsAt h.w lo 256
  let s1 := elemsAt h.s1 lo 256
  let s2 := elemsAt h.s2 lo 256
  let e := ((x.groups[k.group]?).map Group.entry).getD 0
  if bit e.toNat 325 then (w, s1, s2, 0)
  else
    let sum := (h.chunk chunk).sum
    let rs := (List.range 256).map fun i =>
      updateElem e k h.states (w.getD i 0) (s1.getD i 0) (s2.getD i 0) (corrected h.contributors r (sum.getD (256 * q + i) 0))
    (rs.map fun z => z.1,
     if 1 ≤ h.states then throughFormat h.stateFmt (rs.map fun z => z.2.1) else s1,
     if h.states = 2 then throughFormat h.stateFmt (rs.map fun z => z.2.2.1) else s2,
     (rs.map fun z => z.2.2.2).sum)

/-- UPDATE: one update group of a running chunk, with the coefficients loaded for it (R116, R124). -/
def updateSlot (d j : Nat) (shard : Word) (chunk q : Nat) (s : State) : State :=
  match s.shard? shard.toNat, ((s.die d).engine j).coef with
  | some h, some k =>
    let t := (h.chunk chunk).n + 1
    match settingsAt h t, (h.chunk chunk).running with
    | some x, some r =>
      if h.die.val = d ∧ k.shard = shard ∧ k.t.toNat = t ∧ 256 * q < h.elems chunk ∧
          groupIndex x.groups (chunk * chunkElems + 256 * q) = some k.group ∧
          ((s.die d).engine j).chunk = some (shard, chunk) then
        let u := updateGroup h x k chunk q r
        let s1 := s.modDie d fun y => y.modEngine j fun v =>
          let base := v.flight.foldl (fun m o => max m o.retireAt) 0
          { v with flight := v.flight ++
              [{ retireAt := base + 48, eff := .group shard (chunk * chunkElems + 256 * q) u.1 u.2.1 u.2.2.1, token := none,
                 flag := none, sats := u.2.2.2, nans := 0, row := 0, plan := 0, op := 0x51 }] }
        s1.modShard shard.toNat fun y => y.modChunk chunk fun c => { c with waitSince := none }
      else s
    | _, _ => s
  | _, _ => s

/-- A chunk's step is given up: its engines are free and its tasks gone. -/
def dropChunk (shard chunk : Nat) (s : State) : State :=
  let s1 : State :=
    { s with tasks := s.tasks.filter fun t => !(decide (t.kind = .update) && decide (t.cmd = shard ∧ t.item = chunk)) }
  let freed (e : VEng) : VEng :=
    if e.chunk = some (BitVec.ofNat 32 shard, chunk) then { e with chunk := none, flight := [], coef := none } else e
  foldOver [0, 1, 2, 3] (fun d acc => acc.modDie d fun x =>
    { x with engines := Tbl.mapVals (fun _ e => freed e) x.engines }) s1

/-- The update sweep meets an uncorrectable error: the chunk keeps n_c, is lost and refuses pushes until SHD_IMPORT
(R368). -/
def updateEcc (d j : Nat) (shard : Word) (chunk q : Nat) (ecc : Ecc) (s : State) : State :=
  readEcc ecc (.vector (dieIx d) (engIx j)) (256 * q) none (updateSlot d j shard chunk q)
    (fun s => raiseAttention shard.toNat chunk (dropChunk shard.toNat chunk
      (s.modShard shard.toNat fun y => y.modChunk chunk fun c =>
        { c with lost := true, damaged := true, running := none, updated := [] }))) s

/-- A service operation retires: coefficients are loaded, or an update group's new values are held for the chunk
(R127, R133). -/
def serviceBack (d j : Nat) (o : VecOp) (s : State) : State :=
  match o.eff with
  | .coef k => s.modDie d fun x => x.modEngine j fun e => { e with coef := some k }
  | .group shard first w s1 s2 =>
    (s.modShard shard.toNat fun h => h.modChunk (first / chunkElems) fun c =>
      { c with updated := Tbl.set (first % chunkElems / 256) (w, s1, s2) c.updated }).count
        (((serviceOf s d).getD 256)) fun n => { n with saturations := n.saturations + o.sats }
  | _ => s

/-- VECTOR_RETIRE with a good residue: the next operation of an engine writes its results (R114). -/
def retireOk (d j : Nat) (o : VecOp) (s : State) : State := serviceBack d j o (writeBack d j o (dropOp d j o s))

/-- CHUNK_STEP_COMPLETE: every update group of the chunk has been written; n_c advances, the slot is freed and the step
event raised (R133, R135). -/
def chunkComplete (h k : Nat) (s : State) : State :=
  match s.shard? h with
  | none => s
  | some x =>
    let c := x.chunk k
    let groups := (x.elems k + 255) / 256
    if c.running.isSome ∧ c.updated.length = groups then
      let lo := k * chunkElems
      let put (sel : List Word × List Word × List Word → List Word) (t : Tbl Word) : Tbl Word :=
        c.updated.foldl (fun t g => putElems (lo + 256 * g.1) (sel g.2) t) t
      let s1 := s.modShard h fun y =>
        { y.modChunk k (Chunk.advance (c.n + 1)) with
          w := put (fun g => g.1) y.w
          s1 := put (fun g => g.2.1) y.s1
          s2 := put (fun g => g.2.2) y.s2 }
      afterAdvance h x.step (dropChunk h k s1)
    else s

/-- A chunk step whose tier failed within its deadline: the chunk stays at n_c with its sum kept (R133, R155). -/
def chunkTierFailed (h k : Nat) (s : State) : State :=
  match s.shard? h with
  | none => s
  | some x =>
    match (x.chunk k).waitSince with
    | none => s
    | some t0 =>
      if t0 + 1000000 * (s.part x.part.val).tierMs ≤ s.sys.time then
        addLog Lc.lowerTierLate 0x50000000 noUnit (ctxWord none (some x.part.val)) [h, k]
          (dropChunk h k (s.modShard h fun y => y.modChunk k fun c => { c with running := none, waitSince := none, updated := [] }))
      else s

/-! ## Import, export, status and weights (R119, R134, R135) -/

/-- Words of a range in bytes. -/
def wordsBytes (ws : List Word) : List Byte := ws.flatMap fun w => leBytes 4 w.toNat

/-- Words from bytes. -/
def bytesWords (bs : List Byte) (n : Nat) : List Word := (List.range n).map fun i => BitVec.ofNat 32 (fieldAt bs (4 * i) 4)

/-- Chunks of an element range. -/
def chunksIn (c : Capsule) : List Nat :=
  if c.length = 0 then [] else
    (List.range ((c.offset.toNat + c.length.toNat - 1) / chunkElems - c.offset.toNat / chunkElems + 1)).map fun i =>
      c.offset.toNat / chunkElems + i

/-- A range of whole chunks within a shard. -/
def wholeChunks (h : Shard) (c : Capsule) : Bool :=
  decide (0 < c.length.toNat ∧ c.offset.toNat % chunkElems = 0 ∧ c.offset.toNat + c.length.toNat ≤ h.n ∧
    ((c.offset.toNat + c.length.toNat) % chunkElems = 0 ∨ c.offset.toNat + c.length.toNat = h.n))

/-- Store bytes of an import or export: w, then each state tensor, as FP32 words. -/
def copyBytes (h : Shard) (c : Capsule) : Nat := 4 * c.length.toNat * (1 + h.states)

/-- Checks of SHD_IMPORT (R119). -/
def shdImportCheck (c : Capsule) (s : State) : Verdict :=
  match s.shard? c.object.toNat with
  | none => none
  | some h =>
    firstBad
      [must (wholeChunks h c && decide (capDword c 0 + copyBytes h c ≤ 2 ^ 48) &&
          allMapped s c.partition.toNat (pagesOf (capDword c 0) (copyBytes h c))) St.badParam,
       must (!(chunksIn c).any fun k => (h.chunk k).holds) St.notPermitted]

/-- SHD_IMPORT copies in; the chunks are whole again (R119, R368). -/
def shdImportStart (n : Nat) (s : State) : State :=
  match s.live? n with
  | none => s
  | some l =>
    match s.shard? l.c.object.toNat with
    | none => fail n St.badObject 0 s
    | some h =>
      let p := l.c.partition.toNat
      let a0 := capDword l.c 0
      let len := l.c.length.toNat
      let a := readRange p (pagesOf a0 (copyBytes h l.c)) l.c.context s
      if a.2 ≠ .ok then stoppedBy n a.2 a.1
      else
        let ws (i : Nat) : List Word := bytesWords (storeRead s p (a0 + 4 * len * i) (4 * len)) len
        let lo := l.c.offset.toNat
        let s1 := (chargeWait n a.1).modShard l.c.object.toNat fun y =>
          let y1 : Shard :=
            { y with
              w := putElems lo (ws 0) y.w
              s1 := if 1 ≤ y.states then putElems lo (throughFormat y.stateFmt (ws 1)) y.s1 else y.s1
              s2 := if y.states = 2 then putElems lo (throughFormat y.stateFmt (ws 2)) y.s2 else y.s2 }
          (chunksIn l.c).foldl (fun y k => y.modChunk k fun c => { c with damaged := false, lost := false, nonfinite := false }) y1
        succeed n 0 [] s1

/-- Where the chunks of a range stand against a step: all at it, one past it, or one before it. -/
def stepMeets (h : Shard) (c : Capsule) (t : Nat) : Option Bool :=
  if (chunksIn c).any fun k => decide (t < (h.chunk k).n) then some false
  else if (chunksIn c).all fun k => decide ((h.chunk k).n = t) then some true else none

/-- Checks of SHD_EXPORT (R119). -/
def shdExportCheck (c : Capsule) (s : State) : Verdict :=
  match s.shard? c.object.toNat with
  | none => none
  | some h =>
    must (wholeChunks h c && decide (capDword c 0 + copyBytes h c ≤ 2 ^ 48) &&
      allMapped s c.partition.toNat (pagesOf (capDword c 0) (copyBytes h c))) St.badParam

/-- SHD_EXPORT copies out at its step (R119). -/
def shdExportStart (n : Nat) (s : State) : State :=
  match s.live? n with
  | none => s
  | some l =>
    match s.shard? l.c.object.toNat with
    | none => fail n St.badObject 0 s
    | some h =>
      match stepMeets h l.c l.c.p2.toNat with
      | some false => fail n St.epochRetired 0 s
      | none => s.modLive n fun x => { x with phase := .ordered }
      | some true =>
        let p := l.c.partition.toNat
        let lo := l.c.offset.toNat
        let len := l.c.length.toNat
        let bs := wordsBytes (elemsAt h.w lo len) ++ (if 1 ≤ h.states then wordsBytes (elemsAt h.s1 lo len) else []) ++
          (if h.states = 2 then wordsBytes (elemsAt h.s2 lo len) else [])
        let a := writeRange p (capDword l.c 0) bs l.c.context (pagesOf (capDword l.c 0) bs.length) l.sent s
        let s1 := a.1.modLive n fun x => { x with sent := a.2.1 }
        if a.2.2 = .ok then succeed n 0 [] (chargeWait n (s1.modLive n fun x => { x with sent := 0 }))
        else stoppedBy n a.2.2 s1

/-- Checks of SHD_STEP_STATUS: a range of chunks. -/
def shdStatusCheck (c : Capsule) (s : State) : Verdict :=
  match s.shard? c.object.toNat with
  | none => none
  | some h => must (decide (c.offset.toNat + c.length.toNat ≤ h.count)) St.badParam

/-- SHD_STEP_STATUS: S, then n_c, count and flags of each chunk (R135). -/
def shdStatusStart (n : Nat) (s : State) : State :=
  match s.live? n with
  | none => s
  | some l =>
    match s.shard? l.c.object.toNat with
    | none => fail n St.badObject 0 s
    | some h =>
      let rec' (k : Nat) : List Byte :=
        let c := h.chunk k
        leBytes 4 c.n ++ leBytes 2 c.bits.length ++
          leBytes 2 ((if c.late then 1 else 0) + (if c.nonfinite then 2 else 0) + (if c.lost then 4 else 0))
      succeed n 0 [(0, leBytes 8 h.step ++ (List.range l.c.length.toNat).flatMap fun i => rec' (l.c.offset.toNat + i))] s

/-- Checks of SHD_READ_WEIGHTS: a range of elements in whole update groups. -/
def shdReadCheck (c : Capsule) (s : State) : Verdict :=
  match s.shard? c.object.toNat with
  | none => none
  | some h =>
    must (decide (0 < c.length.toNat ∧ c.offset.toNat % 256 = 0 ∧ c.length.toNat % 256 = 0 ∧
      c.offset.toNat + c.length.toNat ≤ h.n)) St.badParam

/-- SHD_READ_WEIGHTS: the published values of a step, or held until it (R134). -/
def shdReadStart (n : Nat) (s : State) : State :=
  match s.live? n with
  | none => s
  | some l =>
    match s.shard? l.c.object.toNat with
    | none => fail n St.badObject 0 s
    | some h =>
      match stepMeets h l.c l.c.p0.toNat with
      | some true => succeed n 0 [(0, formatBytes h.pubFmt (elemsAt h.w l.c.offset.toNat l.c.length.toNat))] s
      | some false => fail n St.epochRetired 0 s
      | none => s.modLive n fun x => { x with phase := .ordered }

/-- The window sums of a partition's shards are lost: chunks keep n_c and are flagged (R137). -/
def loseSums (p : Nat) (s : State) : State :=
  foldOver (s.shards.filter fun e => decide (e.2.part.val = p)) (fun e acc =>
    let ks := (e.2.chunks.filter fun k => match k.2.place with
      | .slot _ => true
      | _ => false).map Prod.fst
    if ks.isEmpty then acc
    else
      let a1 := acc.modShard e.1 fun y => ks.foldl (fun y k => y.modChunk k fun c =>
        { c with bits := [], added := [], sum := [], place := .none, firstAt := none, running := none, updated := [],
                 lost := true }) y
      let a2 := foldOver ks (fun k a => raiseAttention e.1 k (dropChunk e.1 k a)) a1
      addLog Lc.sumsLost 0x50000000 noUnit (ctxWord none (some p)) [e.1, ks.length] a2) s

/-! ## Rows that never end a command -/

/-- COEF (R127). -/
def execCoef (d : DieIx) (j : EngIx) (shard : Word) (group : Nat) (t : Word) (s : State) :
    Host.Outcome State Fault Refusal := .next (coefSlot d.val j.val shard group t s)
/-- UPDATE (R124). -/
def execUpdate (d : DieIx) (j : EngIx) (shard : Word) (chunk group : Nat) (ecc : Ecc) (s : State) :
    Host.Outcome State Fault Refusal := .next (updateEcc d.val j.val shard chunk group ecc s)
/-- SHD_EVENT_REPLY (R136). -/
def execShdEventReply (shard : Word) (code : Half) (_status : Half) (s : State) : Host.Outcome State Fault Refusal :=
  .next (eventReply shard.toNat code.toNat s)
/-- SHD_EVENT_TIMEOUT (R136). -/
def execShdEventTimeout (shard : Word) (code : Half) (t : Nat) (s : State) : Host.Outcome State Fault Refusal :=
  .next (eventTimeout shard.toNat code.toNat (s.tick t))

end Sys2Proof.Machine
end

