-- ==== Sys2Proof/Machine/Contexts.lean ====
section
/-! DEFINITION. Partitions, contexts, the serving batcher and accounting (R161 to R187, R484). -/

namespace Sys2Proof.Machine

/-! ## Partitions (R161 to R163) -/

/-- Scan engines dealt in index order to the partitions in use, in turn (R28). -/
def dealScan (s : State) : State :=
  let ps := s.parts.map Prod.fst
  let maskOf (i : Nat) : BitVec 16 :=
    ((List.range 16).filter fun e => decide (e % max 1 ps.length = i)).foldl (fun m e => m ||| (1#16 <<< e)) 0
  foldOver (ps.mapIdx fun i p => (p, maskOf i)) (fun x acc => acc.modPart x.1 fun q => { q with scan := x.2 }) s

/-- The compute die mask of PAR_CREATE (R312). -/
def parMask (c : Capsule) : BitVec 4 := BitVec.ofNat 4 (bits c.p0.toNat 4 4)

/-- PAR_CREATE carries a scan engine assignment. -/
def parAssigns (c : Capsule) : Bool := c.p0.getLsbD 10

/-- The scan engines that PAR_CREATE names. -/
def parScan (c : Capsule) : BitVec 16 := BitVec.ofNat 16 c.p1.toNat

/-- Checks of PAR_CREATE (R161, R162). -/
def parCreateCheck (c : Capsule) (s : State) : Verdict :=
  let m := parMask c
  firstBad
    [must (decide (m ≠ 0)) St.badParam,
     must (s.parts.all fun e => decide (e.2.dies &&& m = 0)) St.badParam,
     must (!Tbl.has s.parts (c.p0.toNat % 4)) St.badParam,
     must (!parAssigns c || (decide (parScan c ≠ 0) && s.parts.all fun e => decide (e.2.scan &&& ~~~(parScan c) ≠ 0))) St.badParam]

/-- A change of the partition layout or its settings is logged (R162). -/
def logPart (c : Capsule) (s : State) : State :=
  addLog Lc.partitionChanged (originWord c.origin) noUnit (ctxWord none (some (c.p0.toNat % 4))) [c.p0.toNat, c.p1.toNat] s

/-- A change of a context is logged (R168, R464). -/
def logCtx (op i : Nat) (c : Capsule) (s : State) : State :=
  addLog Lc.partitionChanged (originWord c.origin) noUnit (ctxWord (some i) (some c.partition.toNat)) [op, i, c.p1.toNat, c.p2.toNat] s

/-- PAR_CREATE takes effect. -/
def parCreateStart (n : Nat) (s : State) : State :=
  match s.live? n with
  | none => s
  | some l =>
    let p := l.c.p0.toNat % 4
    let q : Part := { Part.fresh with dies := parMask l.c, swatch := BitVec.ofNat 2 (bits l.c.p0.toNat 8 2), scan := parScan l.c }
    let s1 : State :=
      if parAssigns l.c then
        { s with parts := Tbl.set p q (Tbl.mapVals (fun _ x => { x with scan := x.scan &&& ~~~(parScan l.c) }) s.parts) }
      else dealScan { s with parts := Tbl.set p q s.parts }
    succeed n 0 [] (logPart l.c s1)

/-- The partition number a PAR_* command names is in use (R162). -/
def parInUse (c : Capsule) (s : State) : Verdict := must (Tbl.has s.parts (c.p0.toNat % 4)) St.badParam

/-- Checks of PAR_DELETE (R162). -/
def parDeleteCheck (c : Capsule) (s : State) : Verdict :=
  let p := c.p0.toNat % 4
  firstBad
    [parInUse c s,
     must (!(s.ctxs.any fun e => decide (e.2.part.val = p) && e.2.shardDie.isNone)) St.notPermitted,
     must (!(s.shards.any fun e => decide (e.2.part.val = p))) St.notPermitted]

/-- A partition's store space is unmapped and its backing freed (R159). -/
def unmapAll (p : Nat) (s : State) : State :=
  let n := ((s.store p).ranges.map Range.pages).sum
  { s with
    stores := Tbl.set p Store.fresh s.stores
    media := { s.media with mapped := s.media.mapped - n * pageBytes } }

/-- PAR_DELETE takes effect: its dies are free, its store space is unmapped, its scan engines are dealt again. -/
def parDeleteStart (n : Nat) (s : State) : State :=
  match s.live? n with
  | none => s
  | some l =>
    let p := l.c.p0.toNat % 4
    let s1 := unmapAll p s
    let s2 : State :=
      { s1 with parts := Tbl.erase p s1.parts, ctxs := Tbl.keep (fun _ c => decide (c.part.val ≠ p)) s1.ctxs }
    succeed n 0 [] (refreshFenced (logPart l.c (dealScan s2)))

/-- A value held within a range (R26, R176, R177). -/
def clampTo (lo hi v : Nat) : Nat := max lo (min hi v)

/-- A setting that its range clips is logged (R26, R464). -/
def logClipped (o : Origin) (p : Option Nat) (setting asked got : Nat) (s : State) : State :=
  if asked = got then s
  else addLog Lc.policyClipped (originWord o) noUnit (ctxWord none p) [setting, asked, got] s

/-- Checks of PAR_SET_SHARES (R161, R162). -/
def parSharesCheck (c : Capsule) (s : State) : Verdict :=
  firstBad [parInUse c s, must (decide (c.p1.toNat ≤ 255 ∧ c.p2.toNat ≤ 255 ∧ c.p3.toNat ≤ 255)) St.badParam]

/-- A share as set; 0 leaves it as it is. -/
def shareOf (w : Word) (old : Nat) : Nat := if w = 0 then old else w.toNat

/-- PAR_SET_SHARES takes effect, with the policy values of R176 and R177. -/
def parSharesStart (n : Nat) (s : State) : State :=
  match s.live? n with
  | none => s
  | some l =>
    let c := l.c
    let p := c.p0.toNat % 4
    let old := s.part p
    let slice := if c.p4 = 0 then old.sliceUs else clampTo 100 1000000 c.p4.toNat
    let starve := if c.p5 = 0 then old.starveUs else clampTo 1000 1000000 c.p5.toNat
    let s1 := s.modPart p fun x =>
      { x with
        shareFlash := shareOf c.p1 x.shareFlash
        shareLinks := shareOf c.p2 x.shareLinks
        sharePool := shareOf c.p3 x.sharePool
        prioPreempt := !c.p0.getLsbD 8
        sliceUs := slice
        starveUs := starve }
    let s2 := if c.p4 = 0 then s1 else logClipped c.origin (some p) 4 c.p4.toNat slice s1
    let s3 := if c.p5 = 0 then s2 else logClipped c.origin (some p) 5 c.p5.toNat starve s2
    succeed n 0 [] (logPart c s3)

/-- Whether a context of the partition has a running or pre-empted stream. -/
def streamsIn (s : State) (p : Nat) : Bool :=
  (List.range 4).any fun d =>
    ((s.die d).stream.any fun y => decide (streamPart s y = p)) || (s.die d).parked.any fun y => decide (streamPart s y = p)

/-- Checks of PAR_SET_SWATCH (R161 to R163). -/
def parSwatchCheck (c : Capsule) (s : State) : Verdict :=
  firstBad
    [parInUse c s, must (decide (c.p1.toNat ≤ 3)) St.badParam, must (!streamsIn s (c.p0.toNat % 4)) St.notPermitted]

/-- PAR_SET_SWATCH takes effect; tasks that can no longer be placed end (R172). -/
def parSwatchStart (n : Nat) (s : State) : State :=
  match s.live? n with
  | none => s
  | some l =>
    let s1 := s.modPart (l.c.p0.toNat % 4) fun x => { x with swatch := BitVec.ofNat 2 l.c.p1.toNat }
    succeed n 0 [] (dropUnplaceable (logPart l.c s1))

/-- The record of one partition in PAR_QUERY's reply, 64 bytes; zeros for one not in use. -/
def parRecord (s : State) (p : Nat) : List Byte :=
  match s.part? p with
  | none => List.replicate 64 0
  | some x =>
    let head := [1, x.dies.toNat, x.swatch.toNat, if x.fencedAt.isSome then 1 else 0].flatMap (leBytes 1)
    let rest := [x.scan.toNat, x.shareFlash, x.shareLinks, x.sharePool, ctxCount s p, poolFrames s p, x.pinned, x.floor,
      x.pinLimit, x.sliceUs, x.starveUs, x.tierMs, if x.prioPreempt then 1 else 0].flatMap (leBytes 4)
    sliceBytes (head ++ rest) 0 64

/-- PAR_QUERY: four records of 64 bytes and the unattributed energy in mJ (R161, R160, R186). -/
def parQueryStart (n : Nat) (s : State) : State :=
  let body := ([0, 1, 2, 3].flatMap (parRecord s)) ++ leBytes 8 (s.power.unattributedUj / 1000)
  succeed n 0 [(0, body)] s

/-! ## Contexts (R165 to R168, R175, R484) -/

/-- Save capacity of CTX_CREATE in MiB; 0 means 8. -/
def ctxSave (c : Capsule) : Nat := if c.p2 = 0 then 8 else c.p2.toNat
/-- Queue depth of CTX_CREATE; 0 means 256. -/
def ctxDepth (c : Capsule) : Nat := if c.p3 = 0 then 256 else c.p3.toNat
/-- Die affinity of CTX_CREATE. -/
def ctxAffinity (c : Capsule) : BitVec 4 := BitVec.ofNat 4 (bits c.p0.toNat 2 4)

/-- An affinity mask that the clip to the partition's dies leaves usable (R175). -/
def affinityOk (s : State) (p : Nat) (a : BitVec 4) : Bool := decide (a = 0) || decide (a &&& (s.part p).dies ≠ 0)

/-- Checks of CTX_CREATE (R166, R167, R175). -/
def ctxCreateCheck (c : Capsule) (s : State) : Verdict :=
  let p := c.partition.toNat
  let cap := ctxSave c
  firstBad
    [must (decide (cap % 2 = 0 ∧ 2 ≤ cap ∧ cap ≤ 130 ∧ 1 ≤ ctxDepth c ∧ ctxDepth c ≤ 1024 ∧ c.p1.toNat < 2)) St.badParam,
     must (affinityOk s p (ctxAffinity c)) St.badParam,
     must (ctxRoom s p) St.noResource,
     must ((List.range 4).all fun d => !(s.part p).dies.getLsbD d || decide ((s.die d).saveFrames + cap ≤ 4096)) St.noResource]

/-- An affinity pin is logged: LOOP_HELD within the partition's dies, POLICY_CLIPPED when clipped (R175). -/
def logAffinity (o : Origin) (p ctx : Nat) (a : BitVec 4) (s : State) : State :=
  let d := (s.part p).dies
  if a = 0 then s
  else if a &&& d = a then addLog Lc.loopHeld (originWord o) noUnit (ctxWord (some ctx) (some p)) [0, a.toNat] s
  else addLog Lc.policyClipped (originWord o) noUnit (ctxWord (some ctx) (some p)) [0, a.toNat, (a &&& d).toNat] s

/-- Save frames pinned on each die of a list, while every die has them (R154, R167). -/
def pinSaves (need p : Nat) : List Nat → State → State × Option Bool
  | [], s => (s, some true)
  | d :: r, s =>
    let f := pinFrames d need p s
    match f.2 with
    | some true => pinSaves need p r f.1
    | o => (f.1, o)

/-- The dies of a partition, in index order. -/
def diesOf (s : State) (p : Nat) : List Nat := (List.range 4).filter fun d => (s.part p).dies.getLsbD d

/-- CTX_CREATE takes effect: the lowest free id, with its save areas pinned (R166, R167). -/
def ctxCreateStart (n : Nat) (s : State) : State :=
  match s.live? n with
  | none => s
  | some l =>
    let c := l.c
    let p := c.partition.toNat
    let cap := ctxSave c
    let f := pinSaves cap p (diesOf s p) s
    match f.2, freeCtx s with
    | some true, some i =>
      let a := ctxAffinity c
      let x : Ctx :=
        { part := c.partition.toFin, prio := BitVec.ofNat 2 c.p0.toNat, affinity := a &&& (s.part p).dies, mode := c.p1,
          onPreempt := c.p0.getLsbD 6, saveMiB := cap, depth := ctxDepth c, held := false, shardDie := none,
          search := false, ctr := {} }
      let s1 := foldOver (diesOf s p) (fun d acc => acc.modDie d fun y => { y with saveFrames := y.saveFrames + cap }) f.1
      succeed n i [] (logAffinity c.origin p i a (logCtx 0x0130 i c { s1 with ctxs := Tbl.set i x s1.ctxs }))
    | some false, _ => waitOnPage n f.1
    | _, _ => fail n St.noResource 0 f.1

/-- The context a CTX_* command names is in use and of its partition (R168). -/
def ctxNamed (c : Capsule) (s : State) : Verdict :=
  match s.ctx? c.p0.toNat with
  | none => some (St.badParam, 0)
  | some x => must (decide (x.part.val = c.partition.toNat)) St.notPermitted

/-- The admitted commands of a context (R169). -/
def ctxCommand (id : Byte) (l : Live) : Bool := usesEngine l.op.toNat && decide (l.c.context = id)

/-- Whether a context has an admitted command. -/
def ctxBusy (s : State) (id : Byte) : Bool := s.cmds.any fun e => ctxCommand id e.2 && e.2.open

/-- Checks of CTX_DELETE (R168). -/
def ctxDeleteCheck (c : Capsule) (s : State) : Verdict :=
  firstBad
    [ctxNamed c s,
     must (!((s.ctx? c.p0.toNat).any fun x => x.shardDie.isSome || x.search)) St.notPermitted,
     must (c.p1.getLsbD 0 || !ctxBusy s (BitVec.ofNat 8 c.p0.toNat)) St.notPermitted]

/-- The sequences of an endpoint end with a status; their SRV_SUBMITs are answered, and a scan is
told. -/
def endSeqs (qs : List SrvSeq) (st : Half) (detail : Nat) (s : State) : State :=
  let s1 := foldOver (qs.filterMap SrvSeq.cmd) (fun n acc => fail n st detail acc) s
  foldOver (qs.filterMap SrvSeq.scan) (fun r acc =>
    { acc with scans := Tbl.modify r.1 (fun q =>
        { q with seqs := Tbl.modify r.2 (fun z => { z with ended := some st }) q.seqs }) acc.scans }) s1

/-- A context is deleted: its commands end, its endpoints close, its save areas are free (R168). -/
def dropCtx (id : Nat) (s : State) : State :=
  match s.ctx? id with
  | none => s
  | some x =>
    let b : Byte := BitVec.ofNat 8 id
    let s1 := abortAll (ctxCommand b) St.abortedReset s
    let mine := s1.endpoints.filter fun e => decide (e.2.ctx = b)
    let s2 := foldOver (mine.map Prod.snd) (fun e acc => endSeqs e.seqs St.abortedReset 0 acc) s1
    let s3 := foldOver (diesOf s2 x.part.val) (fun d acc => acc.modDie d fun y => { y with saveFrames := y.saveFrames - x.saveMiB }) s2
    { s3 with ctxs := Tbl.erase id s3.ctxs, endpoints := Tbl.keep (fun _ e => decide (e.ctx ≠ b)) s3.endpoints }

/-- CTX_DELETE takes effect. -/
def ctxDeleteStart (n : Nat) (s : State) : State :=
  match s.live? n with
  | none => s
  | some l => succeed n 0 [] (logCtx 0x0131 l.c.p0.toNat l.c (dropCtx l.c.p0.toNat s))

/-- Checks of CTX_SET (R165, R175). -/
def ctxSetCheck (c : Capsule) (s : State) : Verdict :=
  firstBad
    [ctxNamed c s, must (decide (c.p1 = 0xFFFFFFFF ∨ c.p1.toNat ≤ 3)) St.badParam,
     must (decide (c.p2 = 0xFFFFFFFF) || affinityOk s c.partition.toNat (BitVec.ofNat 4 c.p2.toNat)) St.badParam]

/-- CTX_SET takes effect; tasks that can no longer be placed end (R172, R175). -/
def ctxSetStart (n : Nat) (s : State) : State :=
  match s.live? n with
  | none => s
  | some l =>
    let c := l.c
    let p := c.partition.toNat
    let a : BitVec 4 := BitVec.ofNat 4 c.p2.toNat
    let s1 := s.modCtx c.p0.toNat fun x =>
      { x with
        prio := if c.p1 = 0xFFFFFFFF then x.prio else BitVec.ofNat 2 c.p1.toNat
        affinity := if c.p2 = 0xFFFFFFFF then x.affinity else a &&& (s.part p).dies }
    let s2 := if c.p2 = 0xFFFFFFFF then s1 else logAffinity c.origin p c.p0.toNat a s1
    succeed n 0 [] (dropUnplaceable (logCtx 0x0132 c.p0.toNat c s2))

/-- The counter record of R185 with its snapshot time, 1,024 bytes. -/
def counterRecord (k : Counters) (now : Nat) : List Byte :=
  [k.arrayCycles, k.swatchCycles, k.vectorCycles, k.scanNs, k.issued, k.waitStall, k.structStall, k.marker, k.runNs,
    k.queueWait, k.energyUj / 1000, k.done].flatMap (leBytes 8) ++
  [k.preempted, 0].flatMap (leBytes 4) ++
  [k.saturations, k.nanToInt, k.flashRead, k.flashWrite, k.hbmRead, k.hbmWrite, k.fetchPages, k.writebackPages,
    k.evictedByOthers, k.tierWait].flatMap (leBytes 8) ++
  [k.prefetchLate, k.deadlineFail].flatMap (leBytes 4) ++ List.replicate 64 0 ++
  ((List.range 24).flatMap fun l =>
    leBytes 8 (Tbl.getD k.links l (0, 0)).1 ++ leBytes 8 (Tbl.getD k.links l (0, 0)).2) ++
  leBytes 8 now ++ List.replicate 376 0

/-- The counters of context `k` zeroed; the part of a microjoule not yet counted stays (R185). -/
def clearCounters (k : Nat) (x : Ctx) (s : State) : State :=
  let s1 := s.modCtx k (fun y => { y with ctr := { energyUj := x.ctr.energyUj % 1000 } })
  { s1 with power := { s1.power with chargedCtr := Tbl.erase k s1.power.chargedCtr } }

/-- CTX_COUNTERS: a snapshot, and with the clear flag zeroed in the same instant (R185). -/
def ctxCountersStart (n : Nat) (s : State) : State :=
  match s.live? n with
  | none => s
  | some l =>
    match s.ctx? l.c.p0.toNat with
    | none => fail n St.badParam 0 s
    | some x =>
      succeed n 0 [(0, counterRecord x.ctr s.sys.time)]
        (if l.c.p1.getLsbD 0 then clearCounters l.c.p0.toNat x s else s)

/-- Whether an admitted command is served without waiting for an engine. -/
def served (s : State) (n : Nat) (l : Live) : Bool :=
  l.open && decide (l.phase ≠ .ordered) && !(s.tasks.any fun t => decide (t.cmd = n) && decide (t.kind ≠ .update)) &&
    !((List.range 4).any fun d => (s.die d).parked.any fun y => decide (y.cmd = n))

/-- The state of a context: 0 EMPTY, 1 READY, 2 RUNNING, 3 PREEMPTED, 4 HELD, 5 FENCED (R168, R484). -/
def ctxState (s : State) (id : Nat) : Nat :=
  match s.ctx? id with
  | none => 0
  | some x =>
    let b : Byte := BitVec.ofNat 8 id
    if (s.part x.part.val).fencedAt.isSome then 5
    else if x.held then 4
    else if ((List.range 4).any fun d => (s.die d).stream.any fun y => decide (y.ctx = b)) ||
        (s.scanHeld.any fun h => decide (h.2.ctx = b)) || (s.cmds.any fun e => ctxCommand b e.2 && served s e.1 e.2) then 2
    else if (List.range 4).any fun d => (s.die d).parked.any fun y => decide (y.ctx = b) then 3
    else if ctxBusy s b || (s.tasks.any fun t => decide (t.ctx = b)) then 1
    else 0

/-- The 16-byte record of a context in CTX_QUERY's reply. -/
def ctxRecord (s : State) (id : Nat) (x : Ctx) : List Byte :=
  let b : Byte := BitVec.ofNat 8 id
  let cur := Tbl.find? (fun _ l => ctxCommand b l && l.open) s.cmds
  let on := (List.range 4).find? fun d =>
    ((s.die d).stream.any fun y => decide (y.ctx = b)) || (s.die d).parked.any fun y => decide (y.ctx = b)
  [id, ctxState s id, on.getD 15, if cur.isSome then 1 else 0].flatMap (leBytes 1) ++
    leBytes 2 ((cur.map fun e => e.2.op.toNat).getD 0) ++ leBytes 2 ((cur.map fun e => e.2.c.tag.toNat).getD 0) ++
    leBytes 4 (queueCount s b) ++ leBytes 4 x.saveMiB

/-- CTX_QUERY: the contexts of the partition from id p0, up to 64 (R165). -/
def ctxQueryStart (n : Nat) (s : State) : State :=
  match s.live? n with
  | none => s
  | some l =>
    let cs := (s.ctxs.filter fun e => decide (e.2.part.val = l.c.partition.toNat ∧ l.c.p0.toNat ≤ e.1)).take 64
    succeed n 0 [(0, cs.flatMap fun e => ctxRecord s e.1 e.2)] s

/-! ## The serving batcher (R181 to R184) -/

/-- Chunk size of SRV_OPEN; 0 means 512. -/
def srvChunk (c : Capsule) : Nat := if c.p1 = 0 then 512 else c.p1.toNat
/-- Step budget of SRV_OPEN; 0 means 4,096. -/
def srvBudget (c : Capsule) : Nat := if c.p2 = 0 then 4096 else c.p2.toNat

/-- Checks of SRV_OPEN (R181). -/
def srvOpenCheck (c : Capsule) (s : State) : Verdict :=
  let ok := decide (c.p0.toNat < imgEntries (progImage s c.object)) &&
    decide (64 ≤ srvChunk c ∧ srvChunk c ≤ 4096 ∧ srvChunk c % 64 = 0 ∧ 64 ≤ srvBudget c ∧ srvBudget c ≤ 65536 ∧
      1 ≤ c.p3.toNat ∧ c.p3.toNat ≤ 4096 ∧ c.offset.toNat % pageBytes = 0) &&
    allMapped s c.partition.toNat [c.offset.toNat / pageBytes, c.offset.toNat / pageBytes + 1]
  must ok St.badParam

/-- SRV_OPEN takes effect; the detail is the endpoint's number. -/
def srvOpenStart (n : Nat) (s : State) : State :=
  match s.live? n with
  | none => s
  | some l =>
    let e : Endpoint :=
      { part := l.c.partition.toFin, prog := l.c.object, entry := l.c.p0.toNat, ctx := l.c.context, region := l.c.offset.toNat,
        chunk := srvChunk l.c, budget := srvBudget l.c, limit := l.c.p3.toNat, seqs := [], nextSeq := 0, step := 0,
        running := none, finished := none }
    let i := s.nextEndpoint
    succeed n i [] { s with endpoints := Tbl.set i e s.endpoints, nextEndpoint := i + 1 }

/-- The endpoint a serving command names in its offset is open in its partition. -/
def srvNamed (c : Capsule) (s : State) : Verdict :=
  must ((Tbl.get? s.endpoints c.offset.toNat).any fun e => decide (e.part.val = c.partition.toNat)) St.badParam

/-- Checks of SRV_SUBMIT (R181). -/
def srvSubmitCheck (c : Capsule) (s : State) : Verdict :=
  firstBad
    [srvNamed c s, must (decide (1 ≤ c.p2.toNat)) St.badParam,
     must ((Tbl.get? s.endpoints c.offset.toNat).any fun e => decide (e.seqs.length < e.limit)) St.noResource]

/-- A sequence joins an endpoint. -/
def addSeq (e : Nat) (cmd : Option Nat) (scan : Option (Nat × Nat)) (prompt len out maxNew : Nat) (s : State) : State :=
  let add (x : Endpoint) : Endpoint :=
    { x with
      seqs := x.seqs ++
        [{ id := x.nextSeq, cmd := cmd, scan := scan, prompt := prompt, promptLen := len, out := out, maxNew := maxNew,
           done := 0, made := 0, cancelled := false }]
      nextSeq := x.nextSeq + 1 }
  { s with endpoints := Tbl.modify e add s.endpoints }

/-- SRV_SUBMIT adds a sequence; it is answered when the sequence ends. -/
def srvSubmitStart (n : Nat) (s : State) : State :=
  match s.live? n with
  | none => s
  | some l =>
    let c := l.c
    addSeq c.offset.toNat (some n) none (capDword c 0) c.p2.toNat (capDword c 3) c.p5.toNat
      (s.modLive n fun x => { x with phase := .running })

/-- Checks of SRV_CANCEL (R184). -/
def srvCancelCheck (c : Capsule) (s : State) : Verdict :=
  firstBad
    [srvNamed c s,
     must ((Tbl.get? s.endpoints c.offset.toNat).any fun e => e.seqs.any fun q => decide (q.id = c.p0.toNat)) St.badParam]

/-- SRV_CANCEL: a sequence outside the running step ends at once, one in it after the step (R184). -/
def srvCancelStart (n : Nat) (s : State) : State :=
  match s.live? n with
  | none => s
  | some l =>
    let k := l.c.offset.toNat
    let id := l.c.p0.toNat
    match Tbl.get? s.endpoints k with
    | none => fail n St.badParam 0 s
    | some e =>
      if e.inStep id then
        let mark (q : SrvSeq) : SrvSeq := if q.id = id then { q with cancelled := true } else q
        succeed n 0 [] { s with endpoints := Tbl.set k { e with seqs := e.seqs.map mark } s.endpoints }
      else
        let e' : Endpoint := { e with seqs := e.seqs.filter fun q => decide (q.id ≠ id) }
        let s1 := endSeqs (e.seqs.filter fun q => decide (q.id = id)) St.abortedReset 1
          { s with endpoints := Tbl.set k e' s.endpoints }
        succeed n 0 [] s1

/-- Checks of SRV_CLOSE (R184). -/
def srvCloseCheck (c : Capsule) (s : State) : Verdict :=
  firstBad
    [srvNamed c s, must ((Tbl.get? s.endpoints c.offset.toNat).any fun e => e.seqs.isEmpty) St.notPermitted]

/-- SRV_CLOSE takes effect. -/
def srvCloseStart (n : Nat) (s : State) : State :=
  match s.live? n with
  | none => s
  | some l => succeed n 0 [] { s with endpoints := Tbl.erase l.c.offset.toNat s.endpoints }

/-- The decode part of a batch: token steps for the oldest decode sequences (R182). -/
def decodeItems : Nat → List SrvSeq → List BatchItem
  | _, [] => []
  | 0, _ => []
  | n + 1, q :: r =>
    { seq := q.id, prefill := false, last := false, pos := q.promptLen + q.made, tokens := 1 } :: decodeItems n r

/-- The chunks of one sequence's prompt that fit, and the room left (R182). -/
def prefillChunks (chunk id total : Nat) : Nat → Nat → Nat → List BatchItem × Nat
  | 0, _, room => ([], room)
  | fuel + 1, done, room =>
    let left := total - done
    let n := min chunk (min left room)
    if room = 0 ∨ left = 0 ∨ (n < 64 ∧ n < left) then ([], room)
    else
      let r := prefillChunks chunk id total fuel (done + n) (room - n)
      ({ seq := id, prefill := true, last := decide (n = left), pos := done, tokens := n } :: r.1, r.2)

/-- The prefill part of a batch: the oldest sequences' chunks (R182). -/
def prefillItems (chunk : Nat) : Nat → List SrvSeq → List BatchItem
  | _, [] => []
  | room, q :: r =>
    let a := prefillChunks chunk q.id q.promptLen (room + 1) q.done room
    a.1 ++ prefillItems chunk a.2 r

/-- The batch of a step (R182). -/
def batchOf (e : Endpoint) : List BatchItem :=
  let pre := e.seqs.filter fun q => decide (q.done < q.promptLen)
  let dec := e.seqs.filter fun q => decide (q.promptLen ≤ q.done)
  let d := decodeItems (if pre.isEmpty then e.budget else e.budget - e.chunk) dec
  (d ++ prefillItems e.chunk (e.budget - d.length) pre).take 8192

/-- One 16-byte batch entry (R183). -/
def batchEntry (b : BatchItem) : List Byte :=
  leBytes 4 b.seq ++ leBytes 4 ((if b.prefill then 1 else 0) + if b.last then 2 else 0) ++ leBytes 4 b.pos ++
    leBytes 4 b.tokens

/-- The batch page of a step (R183): header, entries, and result words of zero. -/
def batchBytes (step : Nat) (items : List BatchItem) : List Byte :=
  let pre := items.filter fun b => b.prefill
  leBytes 8 step ++ leBytes 4 items.length ++ leBytes 4 (items.length - pre.length) ++
    leBytes 4 ((pre.map BatchItem.tokens).sum) ++ List.replicate 12 0 ++ items.flatMap batchEntry ++
    List.replicate (4 * items.length) 0

/-- The page a step's batch lies on. -/
def Endpoint.batchAddr (e : Endpoint) : Nat := e.region + (e.step % 2) * pageBytes

/-- The PRG_RUN that a step is (R183). -/
def stepCapsule (e : Endpoint) (count : Nat) : Capsule :=
  { origin := .hardware, tag := 0, completion := 0, atomic := false, barrier := false, reservedZero := true,
    partition := BitVec.ofNat 2 e.part.val, context := e.ctx, object := e.prog, offset := 0, length := 0, dataLen := 0,
    p0 := BitVec.ofNat 32 e.batchAddr, p1 := BitVec.ofNat 32 (e.batchAddr / 4294967296), p2 := BitVec.ofNat 32 count, p3 := 0,
    p4 := BitVec.ofNat 32 e.entry, p5 := 0, slotEn := false, slot := 0, dataAddr := 0 }

/-- The endpoint's running step is noted. -/
def setStep (k : Nat) (items : List BatchItem) (cmd : Nat) (fin : Option Half) (s : State) : State :=
  { s with endpoints := Tbl.modify k (fun x => { x with running := some (items, cmd), finished := fin }) s.endpoints }

/-- The step's PRG_RUN enters the context's queue; a step that no command can run ends with that command's status
(R182, R183). -/
def batchEnter (k : Nat) (e : Endpoint) (items : List BatchItem) (s : State) : State :=
  let c := stepCapsule e items.length
  match refusal 0x0502 c (prgRunCheck c) s with
  | some v => setStep k items s.nextCmd (some v.1) s
  | none =>
    let s1 := setStep k items s.nextCmd none (enterTable 0x0502 c .ordered s)
    match s1.live? s.nextCmd with
    | none => s1
    | some l => if mustWait s.nextCmd l s1 then s1 else prgRunStart s.nextCmd s1

/-- The step follows its batch's write: it waits for the page, ends with the page's status, or enters its PRG_RUN. -/
def batchWritten (k : Nat) (e : Endpoint) (items : List BatchItem) (r : PageAccess) (s : State) : State :=
  match r with
  | .wait => s
  | .unmapped => setStep k items s.nextCmd (some St.badParam) s
  | .poisoned => setStep k items s.nextCmd (some St.lowerTierFailed) s
  | .ok => batchEnter k e items s

/-- BATCH_ASSEMBLE: the batch is built and written, and its PRG_RUN enters the context's queue (R182, R183); a step
that no command can run ends with that command's status. -/
def batchAssemble (k : Nat) (s : State) : State :=
  match Tbl.get? s.endpoints k with
  | none => s
  | some e =>
    let items := batchOf e
    if e.running.isSome || items.isEmpty then s
    else
      let bs := batchBytes e.step items
      let a := writeRange e.part.val e.batchAddr bs e.ctx (pagesOf e.batchAddr bs.length) 0 s
      batchWritten k e items a.2.2 a.1

/-- What a step that ended with ST_OK does to a sequence of its batch (R182, R183). -/
def advanceSeq (items : List BatchItem) (q : SrvSeq) : SrvSeq :=
  let mine := items.filter fun b => decide (b.seq = q.id)
  let pre := ((mine.filter fun b => b.prefill).map BatchItem.tokens).sum
  let dec := (mine.filter fun b => !b.prefill).length
  { q with done := q.done + pre, made := q.made + dec }

/-- The step program has set bit 0 of one of a sequence's result words (R183). -/
def resultSet (bs : List Byte) (items : List BatchItem) (id : Nat) : Bool :=
  (items.mapIdx fun i b => decide (b.seq = id) && bit (fieldAt bs (32 + 16 * items.length + 4 * i) 4) 0).any fun b => b

/-- The outcome of the step for a sequence: none while it goes on, else status and detail (R183, R184). -/
def seqOutcome (e : Endpoint) (st : Half) (bs : List Byte) (items : List BatchItem) (q : SrvSeq) : Option (Half × Nat) :=
  if !e.inStep q.id then none
  else if q.cancelled then some (St.abortedReset, 1)
  else if st ≠ St.ok then some (st, 0)
  else
    let q' := advanceSeq items q
    if resultSet bs items q.id || decide (q'.promptLen ≤ q'.done ∧ q'.maxNew ≤ q'.made) then some (St.ok, 0) else none

/-- SERVING_STEP_COMPLETE: the step's command has completed; sequences advance, finish or fail with it (R183, R184). -/
def servingStepComplete (k : Nat) (s : State) : State :=
  match Tbl.get? s.endpoints k with
  | none => s
  | some e =>
    match e.running, e.finished with
    | some (items, _), some st =>
      let bs := storeRead s e.part.val e.batchAddr (32 + 20 * items.length)
      let out := e.seqs.map fun q => (q, seqOutcome e st bs items q)
      let stay := (out.filter fun x => x.2.isNone).map fun x =>
        if st = St.ok then advanceSeq items x.1 else x.1
      let e' : Endpoint := { e with seqs := stay, step := e.step + 1, running := none, finished := none }
      foldOver out (fun x acc =>
        match x.2 with
        | some v => endSeqs [x.1] v.1 v.2 acc
        | none => acc) { s with endpoints := Tbl.set k e' s.endpoints }
    | _, _ => s

/-! ## Energy (R186) -/

/-- Energy charged to a context, in µJ. -/
def chargeUj (c uj : Nat) (s : State) : State := s.count c fun k => { k with energyUj := k.energyUj + uj }

/-- Energy that no context is charged. -/
def chargeNone (uj : Nat) (s : State) : State :=
  { s with power := { s.power with unattributedUj := s.power.unattributedUj + uj } }

/-- Energy split between contexts by weight; what is left over, or all of it when nothing weighs, goes to no context. -/
def chargeSplit (ws : List (Nat × Nat)) (uj : Nat) (s : State) : State :=
  let total := (ws.map Prod.snd).sum
  if total = 0 then chargeNone uj s
  else
    let given := (ws.map fun w => uj * w.2 / total).sum
    chargeNone (uj - given) (foldOver ws (fun w acc => chargeUj w.1 (uj * w.2 / total) acc) s)

/-- Weights of the contexts by a measure of their counters since the last charge. -/
def sinceCharge (s : State) (f : Counters → Nat) : List (Nat × Nat) :=
  s.ctxs.map fun e => (e.1, f e.2.ctr - f (Tbl.getD s.power.chargedCtr e.1 {}))

/-- Who is charged for a unit named by its unit field: its holders, or the movers of bytes through it (R186, R362). -/
def unitWeights (s : State) (u : Nat) : List (Nat × Nat) :=
  let d := u % 16
  let ix := u / 256
  match bits u 4 4 with
  | 1 => ((s.die d).stream.map fun y => (y.ctx.toNat, 1)).toList
  | 2 =>
    (match ((s.die d).engine ix).chunk with
      | some _ => ((serviceOf s d).map fun c => (c, 1)).toList
      | none => ((s.die d).stream.map fun y => (y.ctx.toNat, 1)).toList)
  | 3 => (s.scanHeld.filter fun h => decide (h.1 = 8 * (d - 4) + ix)).map fun h => (h.2.ctx.toNat, 1)
  | 4 => sinceCharge s fun k => k.flashRead + k.flashWrite
  | 5 => sinceCharge s fun k => (Tbl.getD k.links (12 * (d - 6) + ix) (0, 0)).1 + (Tbl.getD k.links (12 * (d - 6) + ix) (0, 0)).2
  | 7 => sinceCharge s fun k => k.hbmRead + k.hbmWrite + k.flashRead + k.flashWrite
  | 8 => sinceCharge s fun k => k.hbmRead + k.hbmWrite
  | _ => []

/-- ENERGY_CHARGE_TICK: each unit's energy in µJ is charged (R186). -/
def energyTick (units : List (Nat × Nat)) (s : State) : State :=
  let s1 := foldOver units (fun u acc => chargeSplit (unitWeights s u.1) u.2 acc) s
  { s1 with power := { s1.power with chargedAt := s1.sys.time, chargedCtr := s1.ctxs.map fun e => (e.1, e.2.ctr) } }

/-- ENERGY_CHARGE_TICK (R186). -/
def execEnergyChargeTick (unitUj : List (Nat × Nat)) (t : Nat) (s : State) : Host.Outcome State Fault Refusal :=
  .next (if s.power.chargedAt + 1000000 ≤ (s.tick t).sys.time then energyTick unitUj (s.tick t) else s.tick t)

end Sys2Proof.Machine
end

