-- ==== Sys2Proof/Machine/Search.lean ====
section
/-! DEFINITION. Collections and exact nearest-item search (R188 to R223). -/

namespace Sys2Proof.Machine

/-! ## Collections (R189 to R194) -/

/-- A collection. -/
def State.col? (s : State) (k : Nat) : Option Col := Tbl.get? s.cols k
/-- The state with a collection changed. -/
def State.modCol (k : Nat) (f : Col → Col) (s : State) : State := { s with cols := Tbl.modify k f s.cols }

/-- Bytes of a full record (R192). -/
def Col.fullBytes (k : Col) : Nat := alignUp (16 + 8 * k.attrs + elemBytes k.fmt k.dim) 64
/-- Bytes of a code record (R193). -/
def Col.codeBytes (k : Col) : Nat := alignUp (16 + k.m + 8 * k.filters) 16
/-- Bytes of an item entry of COL_INSERT (R198). -/
def Col.entryBytes (k : Col) : Nat := alignUp (16 + 8 * k.attrs + elemBytes (if k.dist = 1 then 0 else k.fmt) k.dim) 64

/-- Flash space of `items` full records of `n` bytes under R192's placement (R191). -/
def placedBytes (items n : Nat) : Nat :=
  let per := 4096 / max 1 n
  if n ≤ 4096 then (items * 4096 + per - 1) / per else items * alignUp n 4096

/-- The reservation of a collection (R191). -/
def Col.reservation (k : Col) : Nat := k.limit * (k.codeBytes + 8 * k.degree + 16) + placedBytes k.limit k.fullBytes

/-- The user capacity (R248): 460 TB. -/
def userCapacity : Nat := 460000000000000

/-- User capacity that no volume, reserve or collection has taken (R191, R253). -/
def userLeft (s : State) : Nat :=
  userCapacity - (s.media.reserve + s.media.colReserved + (s.vols.map fun e => e.2.size).sum)

/-- Frames of the codebook and the parcel directory (R193, R194, R201). -/
def colFrames (k : Col) : Nat := (1024 * k.dim + k.parcels * (64 + 4 * k.dim) + pageBytes - 1) / pageBytes

/-- A setting whose all-ones code takes the default (R190). -/
def orDefault (w ones dflt : Nat) : Nat := if w = ones then dflt else w

/-- The collection that COL_CREATE describes. -/
def newCol (c : Capsule) : Col :=
  let w0 := c.p0.toNat
  let w1 := c.p1.toNat
  let w2 := c.p2.toNat
  let k : Col :=
    { part := c.partition.toFin, dim := bits w0 0 16, fmt := bits w0 16 4, dist := bits w0 20 4, m := bits w0 24 8,
      parcels := bits w1 0 21, attrs := bits w1 21 5, filters := bits w1 26 5, degree := orDefault (bits w2 0 8) 255 32,
      limit := c.length.toNat, publishMs := orDefault c.p3.toNat 0xFFFFFFFF 100,
      budget := orDefault (bits w2 16 16) 0xFFFF 256, compact := orDefault c.p4.toNat 0xFFFFFFFF 10, reserved := 0,
      frames := 0, codebook := none, centroids := none, items := [], nextItem := 0, epoch := 0, pending := 1,
      floor := 0, dir := [], edges := [], entries := [], unlinked := [], mutated := false, closing := [], publishAt := 0 }
  { k with reserved := k.reservation, frames := colFrames k }

/-- Every value of a new collection lies in its range (R190). -/
def Col.legal (k : Col) : Bool :=
  [8, 16, 32, 64].contains k.m && [0, 1, 2, 9].contains k.fmt && [0, 16, 32, 64].contains k.degree &&
    decide (8 ≤ k.dim ∧ k.dim ≤ 4096 ∧ k.dim % 8 = 0 ∧ k.dim % k.m = 0 ∧ ¬ (k.fmt = 9 ∧ k.dist = 1) ∧ k.dist ≤ 2 ∧
      1 ≤ k.parcels ∧ k.parcels ≤ 1048576 ∧ k.attrs ≤ 16 ∧ k.filters ≤ k.attrs ∧ 1 ≤ k.limit ∧ k.limit ≤ 2 ^ 36 ∧
      k.publishMs ≤ 60000 ∧ k.budget ≤ 4096 ∧ k.compact ≤ 50)

/-- The search service of a partition (R208). -/
def searchOf (s : State) (p : Nat) : Option Nat :=
  (Tbl.find? (fun _ c => c.search && decide (c.part.val = p)) s.ctxs).map Prod.fst

/-- Checks of COL_CREATE (R189 to R191, R193, R208). -/
def colCreateCheck (c : Capsule) (s : State) : Verdict :=
  let k := newCol c
  let p := c.partition.toNat
  firstBad
    [must (!Tbl.has s.cols c.object.toNat && k.legal) St.badParam,
     must (!s.statusBit Sb.readOnly) St.readOnly,
     must (decide (s.cols.length < 4096 ∧ k.reserved ≤ userLeft s) && ((searchOf s p).isSome || ctxRoom s p) &&
       decide (pinnedPages s p + (s.part p).pinned + k.frames ≤ (s.part p).pinLimit)) St.noResource]

/-- A partition's search service starts with its first collection (R208). -/
def openSearch (part : PartIx) (s : State) : State :=
  match searchOf s part.val, freeCtx s with
  | none, some i => { s with ctxs := Tbl.set i { serviceCtx part none true with prio := 1 } s.ctxs }
  | _, _ => s

/-- A collection is made under an object id: its frames are pinned and its flash space is reserved (R191). -/
def makeCol (n o p : Nat) (k : Col) (s : State) : State :=
  let d := lowestDie s p
  let now := s.sys.time
  let go (s : State) : State :=
    let s1 := (s.modDie d fun x => { x with otherFrames := x.otherFrames + k.frames }).modPart p fun x =>
      { x with pinned := x.pinned + k.frames }
    let s2 : State :=
      { s1 with
        cols := Tbl.set o { k with publishAt := now } s1.cols
        media := { s1.media with colReserved := s1.media.colReserved + k.reserved } }
    succeed n 0 [] (chargeWait n (openSearch k.part s2))
  withFrames n go (pinFrames d k.frames p s)

/-- COL_CREATE takes effect; the partition's first collection starts its search service. -/
def colCreateStart (n : Nat) (s : State) : State :=
  match s.live? n with
  | none => s
  | some l => makeCol n l.c.object.toNat l.c.partition.toNat (newCol l.c) s

/-- Whether an admitted command other than `n` names an object. -/
def objectBusy (s : State) (o : Word) (n : Option Nat) : Bool :=
  s.cmds.any fun e => decide (e.2.c.object = o) && e.2.open && decide (some e.1 ≠ n)

/-- Checks of COL_DELETE (R189). -/
def colDeleteCheck (c : Capsule) (s : State) : Verdict := must (!objectBusy s c.object none) St.notPermitted

/-- COL_DELETE takes effect; the search service ends with its last collection (R208). -/
def colDeleteStart (n : Nat) (s : State) : State :=
  match s.live? n with
  | none => s
  | some l =>
    match s.col? l.c.object.toNat with
    | none => fail n St.badObject 0 s
    | some k =>
      let p := k.part.val
      let d := lowestDie s p
      let s1 := (s.modDie d fun x => { x with otherFrames := x.otherFrames - k.frames }).modPart p fun x =>
        { x with pinned := x.pinned - k.frames }
      let s2 : State :=
        { s1 with
          cols := Tbl.erase l.c.object.toNat s1.cols
          media := { s1.media with colReserved := s1.media.colReserved - k.reserved } }
      let s3 : State :=
        if s2.cols.any fun e => decide (e.2.part.val = p) then s2
        else { s2 with ctxs := Tbl.keep (fun _ c => !(c.search && decide (c.part.val = p))) s2.ctxs }
      succeed n 0 [] s3

/-- Whether a list of FP32 words holds a NaN or an infinity. -/
def anyNonfinite (ws : List Word) : Bool := ws.any fun w => (f32 w).isNan || (f32 w).isInf

/-- Checks of COL_SET_CODEBOOK and COL_SET_PARCELS (R194, R223). -/
def colSetCheck (parcels : Bool) (c : Capsule) (s : State) : Verdict :=
  match s.col? c.object.toNat with
  | none => some (St.badObject, 0)
  | some k =>
    firstBad
      [must (!s.statusBit Sb.readOnly) St.mediaExhausted,
       must (decide (c.dataLen.toNat = if parcels then 4 * k.dim * k.parcels else 1024 * k.dim)) St.badParam,
       must k.items.isEmpty St.notPermitted]

/-- The codebook or the centroids have landed (R194). -/
def colSetLanded (parcels : Bool) (n : Nat) (s : State) : State :=
  match s.live? n with
  | none => s
  | some l =>
    let ws := bytesWords l.data (l.c.dataLen.toNat / 4)
    if anyNonfinite ws then fail n St.badParam 0 s
    else if (s.col? l.c.object.toNat).any fun k => !k.items.isEmpty then fail n St.notPermitted 0 s
    else
      succeed n 0 [] (s.modCol l.c.object.toNat fun k =>
        if parcels then { k with centroids := some ws } else { k with codebook := some ws })

/-! ## Distances (R195, R196) -/

/-- 256 lanes accumulated over the dimensions in increasing order (R195). -/
def laneSum (f : Word → Word → Word → Word) (q x : List Word) : List Word :=
  let qs := chunksOf 256 (q.length / 256 + 1) q
  let xs := chunksOf 256 (x.length / 256 + 1) x
  (List.zip qs xs).foldl (fun acc c => acc.mapIdx fun l a =>
    match c.1[l]?, c.2[l]? with
    | some y, some z => f y z a
    | _, _ => a) (List.replicate 256 0)

/-- The negation of an FP32 word. -/
def f32Neg (w : Word) : Word := (toF32 (f32 w).neg).1

/-- The distance of a collection's kind between a query and an item, both in FP32 (R195). -/
def evaluate (dist : Nat) (q x : List Word) : Word :=
  if dist = 2 then
    (sumTree 8 (laneSum (fun a b c => let t := (f32Sub a b).1; (f32Fma t t c).1) q x, 0)).1
  else f32Neg (sumTree 8 (laneSum (fun a b c => (f32Fma a b c).1) q x, 0)).1

/-- The norm of a vector as R196 forms it. -/
def vecNorm (v : List Word) : Word := (f32Sqrt (sumTree 8 (laneSum (fun a b c => (f32Fma a b c).1) v v, 0)).1).1

/-- The vector divided by its norm (R196). -/
def normalised (v : List Word) : List Word := let n := vecNorm v; v.map fun e => (f32Div e n).1

/-- A stored vector read into FP32 (R102). -/
def Col.words (k : Col) (bs : List Byte) : List Word := (List.range k.dim).map fun i => (readElem k.fmt (elemCode k.fmt bs i)).1

/-- The centroid of a parcel (R194). -/
def Col.centroid (k : Col) (p : Nat) : List Word := ((k.centroids.getD []).drop (p * k.dim)).take k.dim

/-- Codeword `c` of subquantiser `j` (R194). -/
def Col.codeword (k : Col) (j c : Nat) : List Word := ((k.codebook.getD []).drop ((256 * j + c) * (k.dim / k.m))).take (k.dim / k.m)

/-- Subvector `j` of a vector. -/
def Col.sub (k : Col) (v : List Word) (j : Nat) : List Word := (v.drop (j * (k.dim / k.m))).take (k.dim / k.m)

/-! ## Rounded steps of bounds (R199, R202, R203) -/

/-- a × b + c rounded once in a direction. -/
def fmaR (r : Rnd) (a b c : Word) : Word := (toF32R r (Num.add (Num.mul (f32 a) (f32 b)) (f32 c))).1
/-- a + b rounded in a direction. -/
def addR (r : Rnd) (a b : Num) : Word := (toF32R r (Num.add a b)).1
/-- a × b rounded in a direction. -/
def mulR (r : Rnd) (a b : Num) : Word := (toF32R r (Num.mul a b)).1
/-- a − b with its magnitude rounded up (away from zero) or down (towards it). -/
def diffR (away : Bool) (a b : Word) : Word :=
  let x := Num.add (f32 a) (f32 b).neg
  (toF32R (if x.isNeg = away then .down else .up) x).1
/-- A square root rounded in a direction. -/
def sqrtR (r : Rnd) (a : Word) : Word := (toF32R r (Num.sqrt (f32 a))).1

/-- ‖a − b‖² with every step rounded upward, or downward. -/
def sqDistR (up : Bool) (a b : List Word) : Word :=
  (List.zip a b).foldl (fun acc e => let t := diffR up e.1 e.2; fmaR (if up then .up else .down) t t acc) 0

/-- ‖a‖ with every step rounded upward. -/
def normUp (a : List Word) : Word := sqrtR .up (a.foldl (fun acc e => fmaR .up e e acc) 0)

/-- −a·b with every step rounded downward. -/
def negDotDown (a b : List Word) : Word := (List.zip a b).foldl (fun acc e => fmaR .down (f32Neg e.1) e.2 acc) 0

/-- An FP32 value as FP16 rounded upward; above 65,504 the infinity (R199). -/
def fp16Up (w : Word) : Half :=
  if Num.lt (.fin false 65504 0) (f32 w) then 0x7C00 else BitVec.ofNat 16 ((floatFmt 2).encode .up (f32 w)).1

/-- An FP16 value. -/
def fp16 (h : Half) : Num := (floatFmt 2).decode h.toNat

/-- +infinity, the k-th distance of a heap with room (R205). -/
def posInf : Word := 0x7F800000
/-- The smaller bound: never above any distance. -/
def negInf : Word := 0xFF800000

/-- A bound of R202 from the quantities it is formed of: √S or ‖q − c‖ (Euclidean) or S or −q·c (others), and the
reach: ρ or R, with ν. -/
def boundOf (dist : Nat) (base reach qn : Word) (nu : Num) (open_ : Bool) : Word :=
  let eps : Num := .fin true 1 (-120)
  if dist = 2 then
    if open_ then 0
    else
      let a := addR .down (f32 base) (f32 reach).neg
      let b := if (f32 a).isNeg then 0 else a
      let sq := mulR .down (f32 b) (f32 b)
      addR .down (f32 (mulR .down (f32 sq) (.fin false 65535 (-16)))) eps
  else if open_ then negInf
  else
    let a := addR .down (f32 base) (f32 (mulR .up (f32 qn) (f32 reach))).neg
    let slack := mulR .up (f32 (mulR .up (f32 qn) nu)) (.fin false 1 (-16))
    addR .down (f32 (addR .down (f32 a) (f32 slack).neg)) eps

/-- The code table entry of a codeword for a query (R202, R203). -/
def tableEntry (k : Col) (q : List Word) (j c : Nat) : Word :=
  if k.dist = 2 then sqDistR false (k.sub q j) (k.codeword j c) else negDotDown (k.sub q j) (k.codeword j c)

/-- The item bound from a code record (R202). -/
def itemBound (k : Col) (q : List Word) (it : Item) : Word :=
  let sum := (it.code.mapIdx fun j c => tableEntry k q j c).foldl (fun a b => addR .down (f32 a) (f32 b)) 0
  let rho := fp16 it.rho
  let nu := fp16 it.nu
  boundOf k.dist (if k.dist = 2 then sqrtR .down sum else sum) (toF32 rho).1 (normUp q) nu (rho.isInf || nu.isInf)

/-- The parcel bound from a directory entry that holds an item (R202). -/
def parcelBound (k : Col) (q : List Word) (p : Nat) (e : Parcel) : Word :=
  let c := k.centroid p
  let base := if k.dist = 2 then sqrtR .down (sqDistR false q c) else negDotDown q c
  boundOf k.dist base e.radius (normUp q) (f32 e.nuMax) (f32 e.nuMax).isInf

/-! ## Items (R198 to R201, R216 to R218) -/

/-- An item is visible at an epoch (R216). -/
def Item.visible (it : Item) (e : Nat) : Bool := decide (it.ins ≤ e ∧ e < it.del)

/-- An item is live: no mutation has ended it. -/
def Item.live (it : Item) : Bool := decide (it.del = 0xFFFFFFFF)

/-- The index of the smallest value of a list by FP32 order, the lowest on a tie. -/
def argMin : List (Nat × Word) → Option Nat
  | [] => none
  | x :: r => some (r.foldl (fun a b => if Num.lt (f32 b.2) (f32 a.2) then b else a) x).1

/-- The code of a stored vector: the nearest codeword of each subquantiser (R199). -/
def encodeItem (k : Col) (x : List Word) : List Nat :=
  (List.range k.m).map fun j =>
    let v := k.sub x j
    let d (c : Nat) : Word := (List.zip v (k.codeword j c)).foldl (fun acc e => let t := (f32Sub e.1 e.2).1; (f32Fma t t acc).1) 0
    (argMin ((List.range 256).map fun c => (c, d c))).getD 0

/-- The reconstruction of a code. -/
def reconstruct (k : Col) (code : List Nat) : List Word := (code.mapIdx fun j c => k.codeword j c).flatten

/-- A list of evaluated nodes in order of distance, then id. -/
def nearer (k : Col) (a b : Word × Nat) : Bool :=
  let id (n : Nat) : Nat := ((Tbl.get? k.items n).map Item.id).getD 0
  Num.lt (f32 a.1) (f32 b.1) || (!Num.lt (f32 b.1) (f32 a.1) && decide (id a.2 < id b.2))

/-- A node inserted into a list kept in order. -/
def insertNode (k : Col) (x : Word × Nat) : List (Word × Nat) → List (Word × Nat)
  | [] => [x]
  | y :: r => if nearer k x y then x :: y :: r else y :: insertNode k x r

/-- Evaluate nodes not yet evaluated, within the budget. -/
def evaluateNodes (k : Col) (q : List Word) (budget : Nat) : List Nat → List (Word × Nat) → List (Word × Nat)
  | [], seen => seen
  | n :: r, seen =>
    if budget ≤ seen.length ∨ (seen.any fun e => decide (e.2 = n)) then evaluateNodes k q budget r seen
    else
      match Tbl.get? k.items n with
      | none => evaluateNodes k q budget r seen
      | some it => evaluateNodes k q budget r (insertNode k (evaluate k.dist q (k.words it.vec), n) seen)

/-- Rounds of the traverse: expand the nearest unexpanded node of the beam of 16 (R209); with the nodes expanded. -/
def walkRounds (k : Col) (q : List Word) (budget : Nat) : Nat → List (Word × Nat) → List Nat → List (Word × Nat) × Nat
  | 0, seen, expanded => (seen, expanded.length)
  | n + 1, seen, expanded =>
    match (seen.take 16).find? fun e => decide (e.2 ∉ expanded) with
    | none => (seen, expanded.length)
    | some e =>
      if budget ≤ seen.length then (seen, expanded.length)
      else walkRounds k q budget n (evaluateNodes k q budget (Tbl.getD k.edges e.2 []) seen) (e.2 :: expanded)

/-- A traverse: the nodes it evaluates, nearest first, and how many it expands (R209). -/
def walkAll (k : Col) (q : List Word) (budget : Nat) : List (Word × Nat) × Nat :=
  walkRounds k q budget (budget + 1) (evaluateNodes k q budget k.entries []) []

/-- The nodes a traverse evaluates, nearest first (R209). -/
def walk (k : Col) (q : List Word) (budget : Nat) : List (Word × Nat) := (walkAll k q budget).1

/-- Bytes read from flash for a full record, 4 KiB at a time (R207). -/
def Col.recordRead (k : Col) : Nat := alignUp k.fullBytes 4096

/-- Bytes that a traverse reads from flash: a full record for each node evaluated, an edge list for each expanded. -/
def Col.walkRead (k : Col) (w : List (Word × Nat) × Nat) : Nat := w.1.length * k.recordRead + w.2 * 4096

/-- The parcel an item goes to when its entry leaves the choice (R200). -/
def chooseParcel (k : Col) (x : List Word) : Nat :=
  let found := if k.degree = 0 then [] else (walk k x 256).take 64
  let ps := if found.isEmpty then List.range k.parcels
    else ((found.filterMap fun e => (Tbl.get? k.items e.2).map Item.parcel).eraseDups)
  let ps' := if found.isEmpty then ps else (List.range k.parcels).filter fun p => decide (p ∈ ps)
  (argMin (ps'.map fun p => (p, evaluate k.dist x (k.centroid p)))).getD 0

/-- One item as a mutation gives it: id, parcel if named, attributes, and its vector as FP32. -/
structure NewItem where
  /-- Item id. -/
  id : Nat
  /-- Parcel named. -/
  parcel : Option Nat
  /-- Attribute words. -/
  attrs : List Dword
  /-- The vector as supplied, in FP32. -/
  vec : List Word
  /-- The vector bytes as supplied. -/
  raw : List Byte
deriving DecidableEq, Repr

/-- An item is inserted at an epoch; a live item of its id is ended by it (R198 to R201, R218). -/
def insertItem (p : Nat) (k : Col) (e : NewItem) : Col :=
  let stored := if k.dist = 1 then packCodes k.fmt ((normalised e.vec).map fun w => (toElem k.fmt (f32 w)).1) else e.raw
  let x := k.words stored
  let code := encodeItem k x
  let rho := fp16Up (sqrtR .up (sqDistR true x (reconstruct k code)))
  let nu := fp16Up (normUp x)
  let pc := match e.parcel with
    | some i => i
    | none => chooseParcel k x
  let it : Item :=
    { id := e.id, norm := if k.dist = 1 then vecNorm e.vec else 0, attrs := e.attrs, vec := stored, parcel := pc, ins := p,
      del := 0xFFFFFFFF, rho := rho, nu := nu, code := code }
  let r := sqrtR .up (sqDistR true x (k.centroid pc))
  let nuw := (toF32 (fp16 nu)).1
  let d := Tbl.getD k.dir pc Parcel.fresh
  let higher (a b : Word) : Word := if Num.lt (f32 a) (f32 b) then b else a
  { k with
    items := Tbl.set k.nextItem it (Tbl.mapVals (fun _ y => if y.id = e.id ∧ y.live = true then { y with del := p } else y) k.items)
    nextItem := k.nextItem + 1
    dir := Tbl.set pc { radius := higher d.radius r, nuMax := higher d.nuMax nuw, held := d.held + 1 } k.dir
    unlinked := if k.degree = 0 then k.unlinked else k.unlinked ++ [k.nextItem] }

/-- Items are inserted in order; the first insert of a collection chooses its entry nodes (R209). -/
def insertItems (p : Nat) (es : List NewItem) (k : Col) : Col :=
  let k' := es.foldl (insertItem p) k
  if k.degree ≠ 0 ∧ k.entries = [] then
    { k' with entries := (List.range (min 16 es.length)).map fun i => k.nextItem + i }
  else k'

/-- An item entry of COL_INSERT, or none if it is bad (R198). -/
def readEntry (k : Col) (bs : List Byte) : Option NewItem :=
  let fmt := if k.dist = 1 then 0 else k.fmt
  let pos := 16 + 8 * k.attrs
  let raw := sliceBytes bs pos (elemBytes fmt k.dim)
  let codes := (List.range k.dim).map fun i => elemCode fmt raw i
  let v := codes.map fun c => (readElem fmt c).1
  let pc := fieldAt bs 8 4
  if fieldAt bs 12 4 ≠ 0 ∨ (pc ≠ 0xFFFFFFFF ∧ k.parcels ≤ pc) ∨
      (codes.any fun c => let x := elemValue fmt c; x.isNan || x.isInf) ∨ (k.dist = 1 ∧ (f32 (vecNorm v)).isZero = true) then none
  else
    some { id := fieldAt bs 0 8, parcel := if pc = 0xFFFFFFFF then none else some pc,
           attrs := (List.range k.attrs).map fun i => BitVec.ofNat 64 (fieldAt bs (16 + 8 * i) 8), vec := v, raw := raw }

/-- Entries read in order: all of them, or the index of the first bad one. -/
def readEntries (k : Col) : Nat → Nat → List Byte → Except Nat (List NewItem)
  | 0, _, _ => .ok []
  | n + 1, i, bs =>
    match readEntry k bs with
    | none => .error i
    | some e =>
      match readEntries k n (i + 1) (bs.drop k.entryBytes) with
      | .error j => .error j
      | .ok r => .ok (e :: r)

/-- Checks of COL_INSERT (R194, R198, R223). -/
def colInsertCheck (c : Capsule) (s : State) : Verdict :=
  match s.col? c.object.toNat with
  | none => some (St.badObject, 0)
  | some k =>
    firstBad
      [must (!s.statusBit Sb.readOnly) St.mediaExhausted,
       must (k.codebook.isSome && k.centroids.isSome) St.notPermitted,
       must (decide (0 < c.dataLen.toNat ∧ c.dataLen.toNat ≤ 16777216 ∧ c.dataLen.toNat % k.entryBytes = 0)) St.badParam
         (c.dataLen.toNat / max 1 k.entryBytes)]

/-- A mutation takes the pending epoch when its grant is issued (R217). -/
def mutationGrant (n : Nat) (s : State) : State :=
  match s.live? n with
  | none => s
  | some l =>
    if (l.op = 0x0310 ∨ l.op = 0x0311) ∧ l.epoch = 0 then
      s.modLive n fun x => { x with epoch := BitVec.ofNat 32 (((s.col? l.c.object.toNat).map Col.pending).getD 0) }
    else s

/-- The entries of COL_INSERT have landed: all are applied, or none (R198, R218). -/
def colInsertLanded (n : Nat) (s : State) : State :=
  match s.live? n with
  | none => s
  | some l =>
    match s.col? l.c.object.toNat with
    | none => fail n St.badObject 0 s
    | some k =>
      let cnt := l.c.dataLen.toNat / max 1 k.entryBytes
      let room := k.limit - k.items.length
      match readEntries k cnt 0 l.data with
      | .error i => fail n St.badParam (min i room) s
      | .ok es =>
        if room < cnt then fail n St.badParam room s
        else
          let s1 := s.modCol l.c.object.toNat fun x => { insertItems l.epoch.toNat es x with mutated := true }
          succeed n 0 [] (s1.count l.c.context.toNat fun x => { x with flashWrite := x.flashWrite + cnt * (k.fullBytes + k.codeBytes) })

/-- Checks of COL_REMOVE (R218, R223). -/
def colRemoveCheck (c : Capsule) (s : State) : Verdict :=
  firstBad
    [must (!s.statusBit Sb.readOnly) St.mediaExhausted,
     must (decide (0 < c.dataLen.toNat ∧ c.dataLen.toNat ≤ 16777216 ∧ c.dataLen.toNat % 8 = 0)) St.badParam]

/-- The ids of COL_REMOVE have landed: each live item named ends at the mutation's epoch; the detail counts the ids
that were not live (R218). -/
def colRemoveLanded (n : Nat) (s : State) : State :=
  match s.live? n with
  | none => s
  | some l =>
    let ids := (List.range (l.c.dataLen.toNat / 8)).map fun i => fieldAt l.data (8 * i) 8
    let one (a : Col × Nat) (id : Nat) : Col × Nat :=
      if a.1.items.any fun e => decide (e.2.id = id) && e.2.live then
        ({ a.1 with items := Tbl.mapVals (fun _ y => if y.id = id ∧ y.live = true then { y with del := l.epoch.toNat } else y) a.1.items }, a.2)
      else (a.1, a.2 + 1)
    match s.col? l.c.object.toNat with
    | none => fail n St.badObject 0 s
    | some k =>
      let r := ids.foldl one (k, 0)
      succeed n r.2 [] (s.modCol l.c.object.toNat fun _ => { r.1 with mutated := true })

/-! ## Publishing and compaction (R217, R221, R222) -/

/-- The smallest epoch an admitted query or fetch of a collection is pinned to, or E (R221). -/
def compactFloor (s : State) (o : Word) (k : Col) : Nat :=
  (s.cmds.filter fun e => decide ((e.2.op = 0x0320 ∨ e.2.op = 0x0321) ∧ e.2.c.object = o) && e.2.open).foldl
    (fun m e => min m e.2.epoch.toNat) k.epoch

/-- An item number is of an item that is live. -/
def Col.liveItem (k : Col) (n : Nat) : Bool := ((Tbl.get? k.items n).map Item.live).getD false

/-- The nearest of a removed node's live neighbours to a node (R222). -/
def repairEdge (k : Col) (gone : List Nat) (n r : Nat) : Option Nat :=
  match Tbl.get? k.items n with
  | none => none
  | some it =>
    let cands := (Tbl.getD k.edges r []).filter fun x => decide (x ∉ gone ∧ x ≠ n) && k.liveItem x
    ((evaluateNodes k (k.words it.vec) (cands.length + 1) cands []).head?).map Prod.snd

/-- A live node's edges with every removed node replaced; an ended node only loses them (R222). -/
def repairEdges (k : Col) (gone : List Nat) (n : Nat) (es : List Nat) : List Nat :=
  ((es.filterMap fun x => if x ∈ gone then (if k.liveItem n then repairEdge k gone n x else none) else some x).eraseDups).take
    k.degree

/-- The directory entry of a parcel from the items it holds (R201, R221). -/
def dirOf (k : Col) (items : List Item) (p : Nat) : Parcel :=
  let mine := items.filter fun it => decide (it.parcel = p)
  let higher (a b : Word) : Word := if Num.lt (f32 a) (f32 b) then b else a
  { radius := (mine.map fun it => sqrtR .up (sqDistR true (k.words it.vec) (k.centroid p))).foldl higher 0
    nuMax := (mine.map fun it => (toF32 (fp16 it.nu)).1).foldl higher 0
    held := mine.length }

/-- A compaction to a floor: retired items leave, directory and graph are repaired (R221, R222). -/
def compactTo (f : Nat) (k : Col) : Col :=
  let gone := (k.items.filter fun e => decide (e.2.del ≤ f)).map Prod.fst
  let touched := (k.items.filter fun e => decide (e.2.del ≤ f)).map fun e => e.2.parcel
  let left := Tbl.keep (fun n _ => decide (n ∉ gone)) k.items
  let k1 : Col := { k with items := left }
  let dir := touched.foldl (fun d p => Tbl.set p (dirOf k1 (left.map Prod.snd) p) d) k.dir
  { k1 with
    dir := dir
    edges := Tbl.mapVals (fun n es => repairEdges k gone n es) (Tbl.keep (fun n _ => decide (n ∉ gone)) k.edges)
    entries := if k.degree = 0 then [] else ((left.filter fun e => e.2.live).map Prod.fst).take 16
    unlinked := k.unlinked.filter fun n => decide (n ∉ gone)
    floor := max k.floor f }

/-- A compaction of a collection, unless the media is read-only (R221). -/
def compact (o : Word) (s : State) : State :=
  if s.statusBit Sb.readOnly then s
  else s.modCol o.toNat fun k => compactTo (compactFloor s o k) k

/-- The retired fraction has reached the compaction threshold (R221). -/
def dueCompaction (k : Col) : Bool :=
  let dead := (k.items.filter fun e => decide (e.2.del ≤ k.epoch)).length
  decide (0 < k.compact ∧ 0 < dead ∧ k.compact * k.items.length ≤ 100 * dead)

/-- Whether a mutation granted in an epoch has not completed (R217). -/
def epochBusy (s : State) (o : Nat) (e : Nat) : Bool :=
  s.cmds.any fun x => decide ((x.2.op = 0x0310 ∨ x.2.op = 0x0311) ∧ x.2.c.object.toNat = o ∧ x.2.epoch.toNat = e) && x.2.open

/-- The oldest closed epoch of a collection becomes current once its mutations have completed (R217). -/
def publishOne (o : Nat) (s : State) : State :=
  match s.col? o with
  | none => s
  | some k =>
    match k.closing with
    | [] => s
    | (e, cmd) :: r =>
      if epochBusy s o e then s
      else
        let s1 := s.modCol o fun x => { x with epoch := e, closing := r }
        let s2 := if (s1.col? o).any dueCompaction then compact (BitVec.ofNat 32 o) s1 else s1
        match cmd with
        | some n => succeed n e [] s2
        | none => s2

/-- Every collection with a closed epoch publishes what is ready. -/
def publishReady (s : State) : State :=
  foldOver ((s.cols.filter fun e => !e.2.closing.isEmpty).flatMap fun e => List.replicate e.2.closing.length e.1) publishOne s

/-- Checks of COL_PUBLISH (R217). -/
def colPublishCheck (c : Capsule) (s : State) : Verdict :=
  must (!((s.col? c.object.toNat).any fun k => decide (0xFFFFFFFF ≤ k.pending))) St.noResource

/-- COL_PUBLISH closes the pending epoch; it is answered when that epoch is current (R217). -/
def colPublishStart (n : Nat) (s : State) : State :=
  match s.live? n with
  | none => s
  | some l =>
    publishReady ((s.modCol l.c.object.toNat fun k =>
      { k with closing := k.closing ++ [(k.pending, some n)], pending := k.pending + 1, mutated := false }).modLive n fun x => { x with phase := .running })

/-- AUTO_PUBLISH: at each publish interval, a pending epoch that holds a mutation is closed (R217). -/
def autoPublish (o : Nat) (s : State) : State :=
  match s.col? o with
  | none => s
  | some k =>
    if k.publishMs = 0 ∨ s.sys.time < k.publishAt + k.publishMs * 1000000 then s
    else
      let holds := k.mutated || epochBusy s o k.pending
      let s1 := s.modCol o fun x => { x with publishAt := s.sys.time }
      if holds && decide (k.pending < 0xFFFFFFFF) then
        publishReady (s1.modCol o fun x => { x with closing := x.closing ++ [(x.pending, none)], pending := x.pending + 1, mutated := false })
      else s1

/-- Checks of COL_COMPACT (R221). -/
def colCompactCheck (_c : Capsule) (s : State) : Verdict := must (!s.statusBit Sb.readOnly) St.readOnly

/-- COL_COMPACT takes effect. -/
def colCompactStart (n : Nat) (s : State) : State :=
  match s.live? n with
  | none => s
  | some l => succeed n 0 [] (compact l.c.object s)

/-- GRAPH_LINK: an inserted item gets its edges, and the nodes found get theirs back (R211). -/
def graphLink (o item : Nat) (s : State) : State :=
  match s.col? o with
  | none => s
  | some k =>
    match Tbl.get? k.items item with
    | none => s
    | some it =>
      if item ∈ k.unlinked then
        let near := (((walk k (k.words it.vec) 256).filter fun e => decide (e.2 ≠ item)).take k.degree).map Prod.snd
        let back (es : Tbl (List Nat)) (n : Nat) : Tbl (List Nat) :=
          let old := Tbl.getD es n []
          match Tbl.get? k.items n with
          | none => es
          | some b =>
            let ordered := (evaluateNodes k (k.words b.vec) (old.length + 1) old []).map Prod.snd
            if item ∈ old then es else Tbl.set n ((if k.degree ≤ old.length then ordered.take (k.degree - 1) else old) ++ [item]) es
        s.modCol o fun x =>
          { x with
            unlinked := x.unlinked.filter fun n => decide (n ≠ item)
            edges := near.foldl back (Tbl.set item near x.edges) }
      else s

/-! ## Queries (R205 to R215) -/

/-- An item satisfies one term (R212, R231): the op on an attribute word. -/
def termHolds (op w mask value : Nat) : Bool :=
  match op with
  | 0 => decide (w &&& mask = value)
  | 1 => decide (w &&& mask ≠ value)
  | 2 => decide (w &&& mask < value)
  | 3 => decide (w &&& mask ≤ value)
  | 4 => decide (value < w &&& mask)
  | 5 => decide (value ≤ w &&& mask)
  | 6 => decide (w &&& value = value)
  | _ => decide (w &&& value ≠ 0)

/-- An item satisfies a filter (R212). -/
def Item.passes (it : Item) (ts : List Term) : Bool :=
  ts.all fun t => termHolds t.op (it.attrs.getD t.word 0).toNat t.mask t.value

/-- The k-th distance: +infinity while the heap has room (R205). -/
def Query.tau (q : Query) : Word := if q.heap.length < q.k then posInf else ((q.heap.getLast?).map Prod.fst).getD posInf

/-- A heap entry inserted by distance, then id. -/
def insertHit (x : Word × Nat × Nat) : List (Word × Nat × Nat) → List (Word × Nat × Nat)
  | [] => [x]
  | y :: r =>
    if Num.lt (f32 x.1) (f32 y.1) || (!Num.lt (f32 y.1) (f32 x.1) && decide (x.2.1 < y.2.1)) then x :: y :: r
    else y :: insertHit x r

/-- An evaluated item is offered to the heap, once per id (R205, R210). -/
def Query.offer (q : Query) (d : Word) (id item : Nat) : Query :=
  if q.heap.any fun h => decide (h.2.1 = id) then q
  else { q with heap := (insertHit (d, id, item) q.heap).take q.k }

/-- Parcels by bound, ties to the lower parcel. -/
def insertBound (x : Word × Nat) : List (Word × Nat) → List (Word × Nat)
  | [] => [x]
  | y :: r => if Num.lt (f32 x.1) (f32 y.1) then x :: y :: r else y :: insertBound x r

/-- Parcels that hold an item, in ascending bound order (R202, R205, R206). -/
def parcelOrder (k : Col) (q : List Word) : List (Word × Nat) :=
  (k.dir.filter fun e => decide (0 < e.2.held)).foldl (fun acc e => insertBound (parcelBound k q e.1 e.2, e.1) acc) []

/-- Parcels a query may have started at once: one per scan engine of its partition. -/
def scanWidth (s : State) (p : Nat) : Nat := max 1 ((List.range 16).filter fun e => (s.part p).scan.getLsbD e).length

/-- The query starts further parcels while their bounds do not exceed τ (R205). -/
def startParcels (n : Nat) : Nat → State → State
  | 0, s => s
  | f + 1, s =>
    match Tbl.get? s.queries n, s.live? n with
    | some q, some l =>
      match q.order with
      | [] => s
      | (b, p) :: r =>
        if Num.lt (f32 q.tau) (f32 b) then { s with queries := Tbl.set n { q with order := [] } s.queries }
        else if scanWidth s l.c.partition.toNat ≤ q.started.length then s
        else
          let q' : Query := { q with order := r, started := q.started ++ [p] }
          startParcels n f (addTask (mkTask .scan l.c.partition.toNat l.c.context false n l.admitted [] p)
            { s with queries := Tbl.set n q' s.queries })
    | _, _ => s

/-- The result of a query (R214). -/
def queryResult (k : Col) (q : Query) : List Byte :=
  let stats := bit q.flags 1
  let num (v : Nat) : Nat := if stats then v else 0
  let entry (h : Word × Nat × Nat) : List Byte :=
    let it := Tbl.get? k.items h.2.2
    leBytes 8 h.2.1 ++ leBytes 4 h.1.toNat ++ leBytes 4 ((it.map Item.parcel).getD 0) ++
      (if bit q.flags 0 then ((it.map Item.attrs).getD []).flatMap fun w => leBytes 8 w.toNat else [])
  leBytes 4 q.heap.length ++ leBytes 4 q.epoch ++ leBytes 4 (num q.scanned) ++ leBytes 4 (num q.nodes) ++
    leBytes 8 (num q.bounded) ++ leBytes 8 (num q.evaluated) ++ leBytes 4 (num q.tau.toNat) ++ List.replicate 28 0 ++
    q.heap.flatMap entry

/-- The query goes on: it starts what it may, and completes when nothing is left (R205). -/
def queryGo (n : Nat) (s : State) : State :=
  let s1 := startParcels n (((Tbl.get? s.queries n).map fun q => q.order.length).getD 0) s
  match Tbl.get? s1.queries n with
  | none => s1
  | some q =>
    if q.order.isEmpty && q.started.isEmpty && q.survivors.isEmpty then
      match s1.col? q.col.toNat with
      | none => s1
      | some k => succeed n 0 [(0, queryResult k q)] (stopWork n s1)
    else s1

/-- A filter term of 24 bytes (R212). -/
def readTerm (bs : List Byte) : Term × Bool :=
  let w := fieldAt bs 0 8
  ({ word := bits w 0 8, op := bits w 8 8, clause := 0, mask := fieldAt bs 8 8, value := fieldAt bs 16 8 }, decide (w < 65536))

/-- Checks of COL_QUERY at its arrival (R212). -/
def colQueryCheck (c : Capsule) (_s : State) : Verdict := must (decide (64 ≤ c.dataLen.toNat)) St.badParam

/-- The offset of the query vector in the payload (R212). -/
def queryVecAt (terms : Nat) : Nat := alignUp (64 + 24 * terms) 64

/-- The payload of COL_QUERY passes R213's first check. -/
def queryLegal (k : Col) (o : Origin) (bs : List Byte) (len : Nat) : Bool :=
  let kk := fieldAt bs 0 4
  let fmt := fieldAt bs 10 1
  let nt := fieldAt bs 11 1
  let bud := fieldAt bs 12 2
  let fl := fieldAt bs 14 2
  let ts := (List.range nt).map fun i => readTerm (bs.drop (64 + 24 * i))
  let at_ := queryVecAt nt
  let codes := (List.range k.dim).map fun i => elemCode fmt (bs.drop at_) i
  let v := codes.map fun c => (readElem fmt c).1
  decide (1 ≤ kk ∧ kk ≤ 1024 ∧ fieldAt bs 8 2 = k.dim ∧ fmt ≤ 1 ∧ nt ≤ 8 ∧ (bud ≤ 4096 ∨ bud = 0xFFFF) ∧ fl < 4) &&
    (sliceBytes bs 16 48).all (fun b => decide (b = 0)) &&
    ts.all (fun t => t.2 && decide (t.1.word < k.filters ∧ t.1.op < 8)) &&
    decide (len = alignUp (at_ + elemBytes fmt k.dim) 64) && !anyNonfinite v &&
    !(decide (k.dist = 1) && (f32 (vecNorm v)).isZero) &&
    (!isCtlq o || decide (64 + kk * (16 + 8 * (if bit fl 0 then k.attrs else 0)) ≤ 4096))

/-- The payload of COL_QUERY has landed: it is checked, the traverse seeds the heap, and parcels start (R205, R209,
R213). -/
def colQueryLanded (n : Nat) (s : State) : State :=
  match s.live? n with
  | none => s
  | some l =>
    match s.col? l.c.object.toNat with
    | none => fail n St.badObject 0 s
    | some k =>
      let bs := l.data
      let asked := fieldAt bs 4 4
      let e := if asked = 0xFFFFFFFF then l.epoch.toNat else asked
      if !queryLegal k l.c.origin bs l.c.dataLen.toNat || decide (k.epoch < e) then fail n St.badParam 0 s
      else if e < k.floor then fail n St.epochRetired 0 s
      else
        let fmt := fieldAt bs 10 1
        let nt := fieldAt bs 11 1
        let raw := (List.range k.dim).map fun i => (readElem fmt (elemCode fmt (bs.drop (queryVecAt nt)) i)).1
        let v := if k.dist = 1 then normalised raw else raw
        let bud := orDefault (fieldAt bs 12 2) 0xFFFF k.budget
        let w := if k.degree = 0 ∨ bud = 0 then ([], 0) else walkAll k v bud
        let nodes := w.1
        let q0 : Query :=
          { cmd := n, col := l.c.object, k := fieldAt bs 0 4, epoch := e,
            terms := (List.range nt).map fun i => (readTerm (bs.drop (64 + 24 * i))).1, q := v, flags := fieldAt bs 14 2,
            heap := [], order := parcelOrder k v, started := [], survivors := [], scanned := 0, nodes := nodes.length,
            bounded := 0, evaluated := nodes.length }
        let q1 := nodes.foldl (fun q x =>
          match Tbl.get? k.items x.2 with
          | some it => if it.visible e && it.passes q.terms then q.offer x.1 it.id x.2 else q
          | none => q) q0
        let s1 := s.count ((searchOf s k.part.val).getD 256) fun x => { x with flashRead := x.flashRead + k.walkRead w }
        queryGo n ({ s1 with queries := Tbl.set n q1 s1.queries }.modLive n fun x =>
          { x with phase := .running, epoch := BitVec.ofNat 32 e, segs := [] })

/-- A task of a command leaves the scan engine that held it; the engine's time is charged (R185). -/
def releaseScan (n item : Nat) (s : State) : State :=
  match s.scanHeld.find? fun h => decide (h.2.cmd = n ∧ h.2.item = item) with
  | none => s
  | some h =>
    let share := max 1 (((s.scanHeld.filter fun x => decide (x.1 = h.1)).map fun x => x.2.cmd).eraseDups).length
    let s1 : State := { s with scanHeld := s.scanHeld.filter fun x => decide (¬ (x.2.cmd = n ∧ x.2.item = item)) }
    s1.count h.2.ctx.toNat fun k => { k with scanNs := k.scanNs + (s.sys.time - h.2.admitted) / share }

/-- A query ends without items, naming the parcel that could not be read (R223). -/
def queryUnreadable (n p : Nat) (s : State) : State := fail n St.mediaUncorrectable p (stopWork n s)

/-- PARCEL_SCAN_COMPLETE: the records of a started parcel are checked for visibility, filter and bound; survivors wait
to be evaluated (R205, R207, R223). -/
def parcelScanned (n p : Nat) (readable : Bool) (s : State) : State :=
  match Tbl.get? s.queries n, s.live? n with
  | some q, some l =>
    match s.col? q.col.toNat with
    | none => s
    | some k =>
      if s.scanHeld.any fun h => decide (h.2.cmd = n ∧ h.2.item = p) then
        let s1 := releaseScan n p s
        if !readable then queryUnreadable n p s1
        else
          let recs := k.items.filter fun e => decide (e.2.parcel = p)
          let seen := recs.filter fun e => e.2.visible q.epoch && e.2.passes q.terms
          let keep := seen.filter fun e => !Num.lt (f32 q.tau) (f32 (itemBound k q.q e.2))
          let q' : Query :=
            { q with started := q.started.filter fun x => decide (x ≠ p), survivors := q.survivors ++ keep.map Prod.fst,
                     scanned := q.scanned + 1, bounded := q.bounded + seen.length }
          let s2 := s1.count l.c.context.toNat fun x => { x with flashRead := x.flashRead + recs.length * k.codeBytes }
          queryGo n { s2 with queries := Tbl.set n q' s2.queries }
      else s
  | _, _ => s

/-- SURVIVOR_EVALUATE: the oldest survivor's full record is read and evaluated (R205, R207, R223). -/
def survivorEvaluated (n : Nat) (readable : Bool) (s : State) : State :=
  match Tbl.get? s.queries n with
  | none => s
  | some q =>
    match q.survivors, s.col? q.col.toNat with
    | i :: r, some k =>
      (match Tbl.get? k.items i with
        | none => queryGo n { s with queries := Tbl.set n { q with survivors := r } s.queries }
        | some it =>
          if !readable then fail n St.mediaUncorrectable it.parcel (stopWork n s)
          else
            let d := evaluate k.dist q.q (k.words it.vec)
            let q' := { q with survivors := r, evaluated := q.evaluated + 1 }.offer d it.id i
            let s1 := s.count (((searchOf s k.part.val).getD 256)) fun x => { x with flashRead := x.flashRead + k.recordRead }
            queryGo n { s1 with queries := Tbl.set n q' s1.queries })
    | _, _ => s

/-- Checks of COL_FETCH (R215). -/
def colFetchCheck (c : Capsule) (s : State) : Verdict :=
  match s.col? c.object.toNat with
  | none => some (St.badObject, 0)
  | some k =>
    firstBad
      [must (decide (0 < c.dataLen.toNat ∧ c.dataLen.toNat ≤ 524288 ∧ c.dataLen.toNat % 8 = 0 ∧
          (c.p0 = 0xFFFFFFFF ∨ c.p0.toNat ≤ k.epoch))) St.badParam,
       must (decide (c.p0 = 0xFFFFFFFF ∨ k.floor ≤ c.p0.toNat)) St.epochRetired]

/-- A full record as COL_FETCH returns it (R192). -/
def fullRecord (k : Col) (it : Item) : List Byte :=
  sliceBytes (leBytes 8 it.id ++ leBytes 4 it.norm.toNat ++ leBytes 4 0 ++ (it.attrs.flatMap fun w => leBytes 8 w.toNat) ++ it.vec)
    0 k.fullBytes

/-- The ids of COL_FETCH have landed: the records visible at its epoch are returned (R215). -/
def colFetchLanded (n : Nat) (s : State) : State :=
  match s.live? n with
  | none => s
  | some l =>
    match s.col? l.c.object.toNat with
    | none => fail n St.badObject 0 s
    | some k =>
      let e := if l.c.p0 = 0xFFFFFFFF then l.epoch.toNat else l.c.p0.toNat
      let one (id : Nat) : List Byte :=
        match List.find? (fun x : Nat × Item => decide (x.2.id = id) && x.2.visible e) k.items with
        | some x => fullRecord k x.2
        | none => leBytes 8 id ++ List.replicate 56 0xFF
      let ids := (List.range (l.c.dataLen.toNat / 8)).map fun i => fieldAt l.data (8 * i) 8
      let found := (ids.filter fun id => k.items.any fun x => decide (x.2.id = id) && x.2.visible e).length
      succeed n 0 [(0, ids.flatMap one)]
        (s.count l.c.context.toNat fun x => { x with flashRead := x.flashRead + found * k.recordRead })

/-- COL_STATUS: counts, epochs, floor, retired fraction, graph state, and admitted queries and mutations (R188, R208). -/
def colStatusStart (n : Nat) (s : State) : State :=
  match s.live? n with
  | none => s
  | some l =>
    match s.col? l.c.object.toNat with
    | none => fail n St.badObject 0 s
    | some k =>
      let dead := (k.items.filter fun e => decide (e.2.del ≤ k.epoch)).length
      let busy (ops : List Half) : Nat :=
        (s.cmds.filter fun e => decide (e.2.op ∈ ops ∧ e.2.c.object = l.c.object) && e.2.open).length
      succeed n 0
        [(0, leBytes 8 k.items.length ++ leBytes 8 (k.items.length - dead) ++ leBytes 4 k.epoch ++ leBytes 4 k.pending ++
          leBytes 4 k.floor ++ leBytes 4 (if k.items.isEmpty then 0 else 100 * dead / k.items.length) ++
          leBytes 8 k.unlinked.length ++ leBytes 4 k.entries.length ++ leBytes 4 (busy [0x0320, 0x0321]) ++
          leBytes 4 (busy [0x0310, 0x0311]) ++ leBytes 4 0)] s

/-! ## Rows that never end a command -/

/-- GRAPH_LINK (R211). -/
def execGraphLink (col : Word) (item : Nat) (s : State) : Host.Outcome State Fault Refusal := .next (graphLink col.toNat item s)

end Sys2Proof.Machine
end

