-- ==== Sys2Proof/Machine/Media.lean ====
section
/-! DEFINITION. Flash media and volumes: groups, superblocks, the plat, volume data, the absorb buffer, collection and
wear (R247 to R262, R269 to R277, R322, R323). -/

namespace Sys2Proof.Machine

/-! ## The identity row (R436) -/

/-- A byte of the identity row: the bitwise majority of its three copies. -/
def otpByte (s : State) (a : Nat) : Byte :=
  let c (i : Nat) : Byte := Mem.read (s.sec.otp.getD i []) a
  (c 0 &&& c 1) ||| (c 1 &&& c 2) ||| (c 0 &&& c 2)

/-- Bytes of the identity row. -/
def otpBytes (s : State) (a n : Nat) : List Byte := (List.range n).map fun i => otpByte s (a + i)

/-- Policy bit 2: volume keys come only from their owner (R436, R450). -/
def keysOwnerOnly (s : State) : Bool := (otpByte s 0xA0).getLsbD 2

/-! ## Places on the media (R247, R248, R254) -/

/-- Bytes of a mapping unit. -/
def unitBytes : Nat := 16384
/-- Units of data in a superblock: 4,608 stripes of 15 pages. -/
def superUnits : Nat := 69120

/-- A place: group, slot, block, page. -/
structure MediaPlace where
  /-- Group. -/
  group : Nat
  /-- Slot. -/
  slot : Nat
  /-- Block. -/
  block : Nat
  /-- Page. -/
  page : Nat
deriving DecidableEq, Repr

/-- A plat entry (R254). -/
def platEntry (p : MediaPlace) (gen : Nat) : Dword :=
  BitVec.ofNat 64 (p.page + 8192 * p.block + 2 ^ 25 * p.slot + 2 ^ 29 * p.group + 2 ^ 36 * (gen % 65536) + 2 ^ 52)

/-- The LOST entry (R254). -/
def platLost : Dword := BitVec.ofNat 64 (2 ^ 53)

/-- State of a plat entry. -/
def platState (e : Dword) : Nat := bits e.toNat 52 2
/-- The place a plat entry names. -/
def platPlace (e : Dword) : MediaPlace :=
  { group := bits e.toNat 29 7, slot := bits e.toNat 25 4, block := bits e.toNat 13 12, page := bits e.toNat 0 13 }
/-- The generation of a plat entry. -/
def platGen (e : Dword) : Nat := bits e.toNat 36 16

/-- A plat entry with no reserved bit, a known state and fields in range (R254, R266). -/
def platLegal (e : Dword) : Bool :=
  let p := platPlace e
  decide (e.toNat < 2 ^ 54 ∧ platState e < 3 ∧ p.page < 4608 ∧ p.block < 3640)

/-- A block's entry. -/
def PGroup.block (g : PGroup) (slot b : Nat) : Block := Tbl.getD g.blocks (4096 * slot + b) Block.fresh
/-- A group with a block changed. -/
def PGroup.modBlock (slot b : Nat) (f : Block → Block) (g : PGroup) : PGroup :=
  { g with blocks := Tbl.set (4096 * slot + b) (f (g.block slot b)) g.blocks }

/-- The place of position `i` of a superblock of a serial: pages in stripe order, skipping the parity slot. -/
def placeOf (gi serial : Nat) (sb : Super) (i : Nat) : MediaPlace :=
  let par := serial % 16
  let k := i % 15
  let slot := if k < par then k else k + 1
  { group := gi, slot := slot, block := sb.blocks.getD slot 0, page := i / 15 }

/-- The plat entry of position `i` of a superblock. -/
def entryOf (g : PGroup) (gi serial : Nat) (sb : Super) (i : Nat) : Dword :=
  let p := placeOf gi serial sb i
  platEntry p (g.block p.slot p.block).erases

/-- The free good block of a slot with the lowest, or the highest, erase count (R269). -/
def pickBlock (g : PGroup) (slot : Nat) (highest : Bool) : Option Nat :=
  let better (a b : Nat) : Bool :=
    if highest then decide ((g.block slot a).erases < (g.block slot b).erases)
    else decide ((g.block slot b).erases < (g.block slot a).erases)
  match (List.range 3640).filter fun b => decide ((g.block slot b).st = 0) with
  | [] => none
  | b :: r => some (r.foldl (fun a x => if better a x then x else a) b)

/-- Free superblocks of a group: the smallest number of free good blocks on any slot (R269). -/
def freeSupers (g : PGroup) : Nat :=
  ((List.range 16).map fun sl =>
    3640 - (g.blocks.filter fun e => decide (e.1 / 4096 = sl ∧ e.2.st ≠ 0)).length).foldl min 3640

/-- Good blocks of a group: the smallest number of blocks not retired on any slot (R275). -/
def goodBlocks (g : PGroup) : Nat :=
  ((List.range 16).map fun sl =>
    3640 - (g.blocks.filter fun e => decide (e.1 / 4096 = sl ∧ e.2.st = 4)).length).foldl min 3640

/-- A superblock of fresh blocks is opened in a group: lowest erase counts for writes, highest for relocation (R269). -/
def openSuper (relocate : Bool) (now : Nat) (g : PGroup) : Option (PGroup × Nat) :=
  let picks := (List.range 16).map fun sl => pickBlock g sl relocate
  if picks.any Option.isNone then none
  else
    let bs := picks.map fun o => o.getD 0
    let sb : Super :=
      { blocks := bs, isOpen := true, fill := 0, closedWl := 0, lastProg := now, closedAt := 0, patrolAt := 0,
        refresh := false, units := [], erasing := false, suspended := 0, suspends := [], resumedAt := [] }
    let g1 := (bs.mapIdx fun i b => (i, b)).foldl (fun g e => g.modBlock e.1 e.2 fun x => { x with st := 1 }) g
    let n := g.nextSerial
    some ({ g1 with supers := Tbl.set n sb g1.supers, nextSerial := n + 1,
                    openSerial := if relocate then g1.openSerial else some n }, n)

/-- The superblock open for relocation. -/
def relocSerial (g : PGroup) : Option Nat :=
  (Tbl.find? (fun k x => x.isOpen && decide (g.openSerial ≠ some k)) g.supers).map Prod.fst

/-- One unit placed in a group: its plat entry, if the group has room. -/
def placeIn (relocate : Bool) (gi : Nat) (obj : Word) (unit now : Nat) (g : PGroup) : Option (PGroup × Dword) :=
  let cur := if relocate then relocSerial g else g.openSerial
  let ready := match cur with
    | some n => if (Tbl.get? g.supers n).any (fun x : Super => decide (x.fill < superUnits)) then some (g, n) else openSuper relocate now g
    | none => openSuper relocate now g
  match ready with
  | none => none
  | some (g1, n) =>
    match Tbl.get? g1.supers n with
    | none => none
    | some sb =>
      let i := sb.fill
      let p := placeOf gi n sb i
      let e := entryOf g1 gi n sb i
      let g2 : PGroup := { g1 with supers := Tbl.set n { sb with fill := i + 1, units := Tbl.set i (obj, unit) sb.units } g1.supers }
      some (g2.modBlock p.slot p.block fun b => { b with valid := b.valid + 1 }, e)

/-- A block loses one valid unit when the record that moves it is committed (R270). -/
def dropValid (e : Dword) (s : State) : State :=
  if platState e = 1 then
    let p := platPlace e
    s.modGroup p.group fun g => g.modBlock p.slot p.block fun b => { b with valid := b.valid - 1 }
  else s

/-- A page read counts against its block (R272). -/
def countRead (e : Dword) (s : State) : State :=
  if platState e = 1 then
    let p := platPlace e
    s.modGroup p.group fun g => g.modBlock p.slot p.block fun b => { b with reads := min 65535 (b.reads + 1) }
  else s

/-- A channel that carries a die of the group is retired (R248, R371). -/
def groupCut (s : State) (g : Nat) : Bool :=
  s.media.deadChannels.any fun ch => decide (ch / 16 = 4 * (g / 64) + g % 4)

/-- A unit is placed on the first group with room from the one that placement chooses (R254). -/
def placeUnit (obj : Word) (unit : Nat) (s : State) : State × Dword :=
  let start := Config.placeGroup s.media.placed % 128
  let try_ (i : Nat) : Option (Nat × PGroup × Dword) :=
    let gi := (start + i) % 128
    if groupCut s gi then none
    else (placeIn false gi obj unit s.sys.time (s.pgroup gi)).map fun r => (gi, r.1, r.2)
  let s0 : State := { s with media := { s.media with placed := s.media.placed + 1 } }
  match (List.range 128).findSome? try_ with
  | some (gi, g, e) => (s0.modGroup gi fun _ => g, e)
  | none => (s0, platEntry { group := start, slot := 0, block := 0, page := 0 } 0)

/-! ## Capacity (R275) -/

/-- Bytes of plat, journal and flush blocks (R251). -/
def mediaOverhead : Nat := 324600000000

/-- The usable data capacity; a group with a die on a retired channel has no good blocks on it (R275, R371). -/
def usableCapacity (s : State) : Nat :=
  1132462080 * ((List.range 128).map fun g => if groupCut s g then 0 else goodBlocks (s.pgroup g)).sum - mediaOverhead

/-- Bytes of valid data, with every granted write (R275). -/
def validData (s : State) : Nat :=
  (s.media.groups.map fun e => (e.2.blocks.map fun b => b.2.valid).sum).sum * unitBytes + s.media.colReserved + s.media.landing

/-- The minimum free pool: four superblocks of every group (R269). -/
def freePool : Nat := 4 * 128 * 1132462080

/-- Volume writes not yet granted end when the media becomes read-only (R275). -/
def dropUngranted (s : State) : State :=
  abortAll (fun l => decide (l.op = 0x0221 ∧ l.granted = 0 ∧ l.c.dataLen ≠ 0)) St.mediaExhausted s

/-- The capacity is added up again after a block leaves (R275). -/
def checkCapacity (s : State) : State :=
  let u := usableCapacity s
  let s1 := if u < userCapacity ∧ Degrade.capacity ∉ s.sys.degraded then
      degrade .capacity (logHw Lc.capacityShort [u / 1000000000] s) else s
  if u < validData s1 + freePool ∧ s1.statusBit Sb.readOnly = false then
    dropUngranted (setStatus Sb.readOnly true (logHw Lc.mediaReadOnly [u / 1000000000] s1))
  else s1

/-- A block is retired and logged (R259, R275). -/
def retireBlock (gi slot b : Nat) (s : State) : State :=
  if ((s.pgroup gi).block slot b).st = 4 then s
  else
    checkCapacity (addLog Lc.blockRetired 0x50000000 (unitWord (4 + gi / 64) 4 (64 * (gi / 64) + 16 * (gi % 4) + slot)) 0 [gi, slot, b]
      (s.modGroup gi fun g => g.modBlock slot b fun x => { x with st := 4 }))

/-! ## Volumes (R252, R253, R450) -/

/-- A volume. -/
def State.vol? (s : State) (v : Nat) : Option Vol := Tbl.get? s.vols v
/-- The state with a volume changed. -/
def State.modVol (v : Nat) (f : Vol → Vol) (s : State) : State := { s with vols := Tbl.modify v f s.vols }

/-- Frames of an absorb buffer on each die under SPREAD (R143, R253). -/
def absorbFrames (mib d : Nat) : Nat := (mib / 2 + 3 - d) / 4

/-- The absorb buffer's frames pinned on the dies, while every die has them (R154). -/
def pinAbsorb (mib p : Nat) : List Nat → State → State × Option Bool
  | [], s => (s, some true)
  | d :: r, s =>
    let f := pinFrames d (absorbFrames mib d) p s
    match f.2 with
    | some true => pinAbsorb mib p r (f.1.modDie d fun x => { x with otherFrames := x.otherFrames + absorbFrames mib d })
    | o => (f.1, o)

/-- The absorb buffer is pinned for a partition, or not to be had (R253). -/
def takeAbsorb (mib p : Nat) (s : State) : State × Option Bool :=
  if (s.part p).pinLimit < pinnedPages s p + (s.part p).pinned + mib / 2 then (s, none)
  else
    let f := pinAbsorb mib p [0, 1, 2, 3] s
    if f.2 = some true then (f.1.modPart p fun x => { x with pinned := x.pinned + mib / 2 }, f.2) else (s, f.2)

/-- The absorb buffer's frames return. -/
def freeAbsorb (v : Vol) (s : State) : State :=
  match v.absorbPin with
  | none => s
  | some p =>
    foldOver [0, 1, 2, 3] (fun d acc => acc.modDie d fun x => { x with otherFrames := x.otherFrames - absorbFrames v.absorbMiB d })
      (s.modPart p.val fun x => { x with pinned := x.pinned - v.absorbMiB / 2 })

/-- Checks of VOL_CREATE (R253, R450). -/
def volCreateCheck (c : Capsule) (s : State) : Verdict :=
  let mode := c.p0.toNat % 4
  let src := c.p0.getLsbD 2
  let mib := c.p1.toNat
  let secure := match c.origin with
    | .secure _ => true
    | _ => false
  firstBad
    [must (!Tbl.has s.vols c.object.toNat &&
        decide ((mode = 1 ∨ mode = 2) ∧ c.length.toNat % 8388608 = 0 ∧ 8388608 ≤ c.length.toNat ∧ c.length.toNat ≤ userCapacity ∧
          mib % 2 = 0 ∧ mib ≤ 65536 ∧ ¬ (mode = 2 ∧ mib = 0) ∧ c.dataLen.toNat = if src then 64 else 0)) St.badParam,
     must (if src then secure else !keysOwnerOnly s) St.notPermitted,
     must (!s.statusBit Sb.readOnly) St.readOnly,
     must (decide (c.length.toNat ≤ userLeft s ∧ s.vols.length < 16384)) St.noResource]

/-- A volume comes to be, with its key (R253, R450). -/
def makeVol (n : Nat) (l : Live) (key : List Byte) (s : State) : State :=
  let c := l.c
  let mib := c.p1.toNat
  let f := if mib = 0 then (s, some true) else takeAbsorb mib c.partition.toNat s
  match f.2 with
  | none => fail n St.noResource 0 f.1
  | some false => waitOnPage n f.1
  | some true =>
    let v : Vol :=
      { part := c.partition.toFin, size := c.length.toNat, mode := BitVec.ofNat 2 c.p0.toNat, absorbMiB := mib,
        absorbPin := if mib = 0 then none else some c.partition.toFin, keySource := c.p0.getLsbD 2, keyId := s.sec.nextKey,
        keyLost := false, mem := [], plat := [], absorbNext := 1, watermark := 0, absorbed := [] }
    let s1 : State :=
      { f.1 with
        vols := Tbl.set c.object.toNat v f.1.vols
        sec := { f.1.sec with keys := Tbl.set s.sec.nextKey (c.object, key) f.1.sec.keys, nextKey := s.sec.nextKey + 1 } }
    succeed n 0 [] (addLog Lc.keyChanged (originWord c.origin) noUnit (ctxWord none (some c.partition.toNat)) [c.object.toNat] s1)

/-- VOL_CREATE with a key that the security core generates: a free value. -/
def volCreateStart (n : Nat) (s : State) : State :=
  match s.live? n with
  | none => s
  | some l => makeVol n l (leBytes 64 (Config.freeNat s.free)) { s with free := s.free + 1 }

/-- VOL_CREATE with a key supplied: its halves must differ (R450). -/
def volCreateLanded (n : Nat) (s : State) : State :=
  match s.live? n with
  | none => s
  | some l =>
    let k := sliceBytes l.data 0 64
    if k.take 32 = k.drop 32 then fail n St.badParam 0 s else makeVol n l k s

/-- Bytes of a volume as a read returns them: what the absorb buffer holds lies over the media (R254, R258). -/
def Vol.bytes (v : Vol) (off n : Nat) : List Byte :=
  Mem.readBytes (v.absorbed.foldl (fun m a => Mem.writeBytes a.off a.data m) v.mem) off n

/-- Units that a range of a volume touches. -/
def unitsOf (off len : Nat) : List Nat :=
  if len = 0 then [] else (List.range ((off + len - 1) / unitBytes - off / unitBytes + 1)).map fun i => off / unitBytes + i

/-- A unit's plat entry; 0 is ZERO. -/
def Vol.entry (v : Vol) (u : Nat) : Dword := Tbl.getD v.plat u 0

/-- A sector lies in the absorb buffer. -/
def Vol.inAbsorb (v : Vol) (sector : Nat) : Bool :=
  v.absorbed.any fun a => decide (a.off ≤ 4096 * sector ∧ 4096 * sector < a.off + a.data.length)

/-- A read of the range meets a LOST unit, or a lost key (R254, R455). -/
def Vol.unreadable (v : Vol) (off len : Nat) : Bool :=
  v.keyLost || (List.range ((len + 4095) / 4096)).any fun i =>
    decide (platState (v.entry ((off / 4096 + i) / 4)) = 2) && !v.inAbsorb (off / 4096 + i)

/-- A range of whole sectors that a volume read or write may name (R322). -/
def volRange (v : Vol) (c : Capsule) : Bool :=
  decide (c.offset.toNat % 4096 = 0 ∧ c.length.toNat % 4096 = 0 ∧ 4096 ≤ c.length.toNat ∧ c.length.toNat ≤ 16777216 ∧
    c.offset.toNat + c.length.toNat ≤ v.size)

/-- Checks of VOL_READ (R322). -/
def volReadCheck (c : Capsule) (s : State) : Verdict :=
  must ((s.vol? c.object.toNat).any fun v => volRange v c && decide (c.dataLen = 0)) St.badParam

/-- The segments of a read whose sectors all read, cut at each MiB of the range (R324). -/
def Vol.readable (v : Vol) (off len : Nat) : List (Nat × List Byte) :=
  ((List.range ((len + 1048575) / 1048576)).filter fun i =>
    !v.unreadable (off + 1048576 * i) (min 1048576 (len - 1048576 * i))).map fun i =>
      (1048576 * i, v.bytes (off + 1048576 * i) (min 1048576 (len - 1048576 * i)))

/-- The byte offset of the first sector of a range that cannot be read (R324). -/
def Vol.firstBad (v : Vol) (off len : Nat) : Nat :=
  (((List.range (len / 4096)).find? fun i => v.unreadable (off + 4096 * i) 4096).map fun i => off + 4096 * i).getD off

/-- VOL_READ returns the range's data; where a sector cannot be read, a fabric requester still gets every other segment
(R254, R258, R322, R324). -/
def volReadStart (n : Nat) (s : State) : State :=
  match s.live? n with
  | none => s
  | some l =>
    match s.vol? l.c.object.toNat with
    | none => fail n St.badObject 0 s
    | some v =>
      let off := l.c.offset.toNat
      let len := l.c.length.toNat
      let s1 := foldOver (unitsOf off len) (fun u acc => countRead (v.entry u) acc) s
      if v.unreadable off len then
        finish n St.mediaUncorrectable (v.firstBad off len) (if (fabricOf l.c.origin).isSome then v.readable off len else []) s1
      else
        succeed n 0 [(0, v.bytes off len)] (s1.count l.c.context.toNat fun k => { k with flashRead := k.flashRead + len })

/-- Checks of VOL_WRITE (R258, R275, R322, R323). -/
def volWriteCheck (c : Capsule) (s : State) : Verdict :=
  match s.vol? c.object.toNat with
  | none => some (St.badObject, 0)
  | some v =>
    let mode := if c.completion = 0 then v.mode else c.completion
    let off := c.offset.toNat
    let len := c.length.toNat
    firstBad
      [must (volRange v c && decide (c.dataLen.toNat = len) &&
          (!c.atomic || decide (off / 1048576 = (off + len - 1) / 1048576)) &&
          (decide (mode ≠ 2) || decide (0 < v.absorbMiB ∧ len ≤ v.absorbMiB * 1048576))) St.badParam,
       must (!s.statusBit Sb.readOnly) St.mediaExhausted]

/-! ## Leases that a command meets (R263, R264, R267) -/

/-- The lease covers part of a range of a volume. -/
def Lease.covers (x : Lease) (vol : Word) (off len : Nat) : Bool :=
  decide (x.vol = vol) && overlaps (x.first * 8388608) (x.count * 8388608) off len

/-- The leases that a command's range overlaps and that are not yet revoked. -/
def heldLeases (s : State) (vol : Word) (off len : Nat) : List Nat :=
  (s.leases.filter fun e => decide (e.2.st ≠ 3) && e.2.covers vol off len).map Prod.fst

/-- LSE_RECALL leaves for a lease's holder (R263, R267). -/
def sendRecall (k : Nat) (x : Lease) (s : State) : State :=
  let tag := s.fabric.nextTag
  let u : OutUnit :=
    { OutUnit.base 0 1 s.sys.node x.holder 2 with
      op := 0x0743, tag := tag, object := x.vol, detail := k + 65536 * x.inc,
      offset := BitVec.ofNat 64 (x.first * 8388608), count := x.count * 8388608 }
  let i : Issued := { tag := tag, op := 0x0743, dst := x.holder, object := x.vol, info := k, left := s.sys.time }
  sendUnit u { s with fabric := { s.fabric with issued := s.fabric.issued ++ [i], nextTag := tag + 1 } }

/-- Every active lease of a range is recalled; the command waits on them (R267, steps 1 and 2). -/
def recallRange (n : Nat) (vol : Word) (off len : Nat) (s : State) : State :=
  let ks := heldLeases s vol off len
  let s1 := foldOver ks (fun k acc =>
    match Tbl.get? acc.leases k with
    | some x =>
      if x.st = 1 then
        sendRecall k x { acc with leases := Tbl.set k { x with st := 2, recallAt := acc.sys.time } acc.leases }
      else acc
    | none => acc) s
  s1.modLive n fun l => { l with recalls := ks }

/-- A recall the command waits on has not ended (R267, step 5). -/
def recallsOpen (s : State) (l : Live) : Bool :=
  l.recalls.any fun k => (Tbl.get? s.leases k).any fun x => decide (x.st = 2)

/-! ## Volume writes (R256 to R258, R267) -/

/-- The units of a range and whether the range covers each whole. -/
def coverage (off len : Nat) : List (Nat × Bool) :=
  (unitsOf off len).map fun u => (u, decide (off ≤ u * unitBytes ∧ (u + 1) * unitBytes ≤ off + len))

/-- The first partly covered unit that is LOST, which a write or discard cannot merge (R256). -/
def lostMerge (v : Vol) (off len : Nat) : Option Nat :=
  ((coverage off len).find? fun u => !u.2 && decide (platState (v.entry u.1) = 2)).map Prod.fst

/-- One unit of a volume is programmed at a new place (R254, R256). -/
def remapUnit (vol u : Nat) (s : State) : State :=
  match s.vol? vol with
  | none => s
  | some v =>
    let a := placeUnit (BitVec.ofNat 32 vol) u (dropValid (v.entry u) s)
    a.1.modVol vol fun x => { x with plat := Tbl.set u a.2 x.plat }

/-- Data written over absorbed sectors takes their place (R258, R325). -/
def trimAbsorbed (off len : Nat) (xs : List Absorbed) : List Absorbed :=
  xs.flatMap fun a =>
    let e := a.off + a.data.length
    if e ≤ off ∨ off + len ≤ a.off then [a]
    else
      (if a.off < off then [{ a with data := a.data.take (off - a.off) }] else []) ++
        (if off + len < e then [{ a with off := off + len, data := a.data.drop (off + len - a.off) }] else [])

/-- A range of a volume is written on the media. -/
def writeMedia (vol off : Nat) (bs : List Byte) (s : State) : State :=
  (foldOver (unitsOf off bs.length) (remapUnit vol) s).modVol vol fun x => { x with mem := Mem.writeBytes off bs x.mem }

/-- The wordline of a mapped unit is closed: its superblock is closed, or its 12 pages are programmed (R259). -/
def wordlineClosed (s : State) (e : Dword) : Bool :=
  let p := platPlace e
  platState e != 1 || ((s.pgroup p.group).supers.all fun x =>
    decide (x.2.blocks.getD p.slot 4096 ≠ p.block) || !x.2.isOpen || x.2.closedWl.testBit (384 * p.slot + p.page / 12))

/-- A DURABLE write whose acknowledgement waits for its wordlines (R260). -/
def ackWaits (s : State) (l : Live) : Bool :=
  s.media.slowAck && decide (l.op = 0x0221) && !absorbedWrite s l &&
    (s.vol? l.c.object.toNat).any fun v => (unitsOf l.c.offset.toNat l.c.length.toNat).any fun u => !wordlineClosed s (v.entry u)

/-- An applied write or discard is acknowledged once nothing holds its answer (R258, R260, R325). -/
def ackMedia (n : Nat) (detail : Nat) (s : State) : State :=
  let s1 := s.modLive n fun x => { x with applied := true, detail := detail, phase := .ordered }
  match s1.live? n with
  | none => s1
  | some l => if mustHold n l s1 || ackWaits s1 l then s1 else succeed n detail [] s1

/-- VOL_WRITE starts: leases of its range are recalled, and an unpinned absorb buffer is pinned (R253, R267). -/
def volWriteStart (n : Nat) (s : State) : State :=
  match s.live? n with
  | none => s
  | some l =>
    match s.vol? l.c.object.toNat with
    | none => fail n St.badObject 0 s
    | some v =>
      let s1 := recallRange n l.c.object l.c.offset.toNat l.c.length.toNat s
      if absorbedWrite s l && v.absorbPin.isNone then
        let f := takeAbsorb v.absorbMiB l.c.partition.toNat s1
        match f.2 with
        | none => fail n St.noResource 0 s1
        | some false => waitOnPage n s1
        | some true => f.1.modVol l.c.object.toNat fun x => { x with absorbPin := some l.c.partition.toFin }
      else s1

/-- Bytes of an absorb buffer taken: held data and granted writes still to land (R258). -/
def absorbUsed (s : State) (vol : Word) (v : Vol) : Nat :=
  (v.absorbed.map fun a => a.data.length).sum +
    (s.cmds.map fun e =>
      if e.2.c.object = vol ∧ absorbedWrite s e.2 = true ∧ 0 < e.2.granted ∧ e.2.applied = false ∧ e.2.open = true then
        e.2.c.dataLen.toNat else 0).sum

/-- The decision on a volume write when it asks for its first grant (R257, R258, R275, R429). -/
def volGrant (l : Live) (s : State) : Grant :=
  match s.vol? l.c.object.toNat with
  | none => .refused St.badObject
  | some v =>
    let len := l.c.dataLen.toNat
    if s.statusBit Sb.readOnly then .refused St.mediaExhausted
    else if s.media.nandStopped then .held
    else if absorbedWrite s l then
      if v.absorbMiB * 1048576 < absorbUsed s l.c.object v + len then .held else .ok s
    else if s.media.landingCap < s.media.landing + len then .held
    else .ok { s with media := { s.media with landing := s.media.landing + len } }

/-- The landing space of a DURABLE write is free again once it is in open wordlines. -/
def freeLanding (l : Live) (s : State) : State :=
  if absorbedWrite s l ∨ l.granted = 0 then s
  else { s with media := { s.media with landing := s.media.landing - l.c.dataLen.toNat } }

/-- The data of a volume write has landed: it is committed once its leases are revoked and earlier writes have landed
(R256, R258, R267, R325). -/
def volWriteLanded (n : Nat) (s : State) : State :=
  match s.live? n with
  | none => s
  | some l =>
    match s.vol? l.c.object.toNat with
    | none => fail n St.badObject 0 s
    | some v =>
      let vol := l.c.object.toNat
      let off := l.c.offset.toNat
      let bs := l.data
      if recallsOpen s l then s.modLive n fun x => { x with phase := .recalling }
      else if mustYield n l s then s.modLive n fun x => { x with phase := .ordered }
      else if absorbedWrite s l then
        let a : Absorbed := { seq := v.absorbNext, off := off, data := bs }
        ackMedia n (v.absorbNext % 4294967296) (s.modVol vol fun x =>
          { x with absorbed := trimAbsorbed off bs.length x.absorbed ++ [a], absorbNext := x.absorbNext + 1 })
      else
        match lostMerge v off bs.length with
        | some u => fail n St.mediaUncorrectable (u * unitBytes) s
        | none =>
          let s1 := (writeMedia vol off bs (freeLanding l s)).modVol vol fun x =>
            { x with absorbed := trimAbsorbed off bs.length x.absorbed }
          ackMedia n 0 (s1.count l.c.context.toNat fun k => { k with flashWrite := k.flashWrite + bs.length })

/-- Flushes whose absorbed writes have all become durable complete (R252). -/
def flushReady (vol : Nat) (s : State) : State :=
  match s.vol? vol with
  | none => s
  | some v =>
    let ready := (s.cmds.filter fun e =>
      decide (e.2.op = 0x0211 ∧ e.2.c.object.toNat = vol ∧ e.2.phase = .running ∧ e.2.detail ≤ v.watermark)).map Prod.fst
    foldOver ready (fun n acc => succeed n 0 [] acc) s

/-- ABSORB_DESTAGE: the oldest absorbed write is committed and the durable watermark reaches it (R258). -/
def absorbDestage (vol : Nat) (s : State) : State :=
  match s.vol? vol with
  | none => s
  | some v =>
    if v.watermark + 1 = v.absorbNext then s
    else
      let q := v.watermark + 1
      let mine := v.absorbed.filter fun a => decide (a.seq = q)
      let ok := mine.filter fun a => (lostMerge v a.off a.data.length).isNone
      let s1 := foldOver ok (fun a acc => writeMedia vol a.off a.data acc) s
      flushReady vol (s1.modVol vol fun x =>
        { x with absorbed := x.absorbed.filter fun a => decide (a.seq ≠ q), watermark := q })

/-- VOL_FLUSH waits for the absorbed writes acknowledged before it (R252). -/
def volFlushStart (n : Nat) (s : State) : State :=
  match s.live? n with
  | none => s
  | some l =>
    let last := ((s.vol? l.c.object.toNat).map fun v => v.absorbNext - 1).getD 0
    flushReady l.c.object.toNat (s.modLive n fun x => { x with detail := last, phase := .running })

/-- Checks of VOL_DISCARD (R252). -/
def volDiscardCheck (c : Capsule) (s : State) : Verdict :=
  must ((s.vol? c.object.toNat).any fun v =>
    decide (c.offset.toNat % 4096 = 0 ∧ c.length.toNat % 4096 = 0 ∧ 0 < c.length.toNat ∧
      c.offset.toNat + c.length.toNat ≤ v.size)) St.badParam

/-- Whole units of a volume become ZERO (R254, R258). -/
def zeroUnits (vol : Nat) (us : List Nat) (s : State) : State :=
  match s.vol? vol with
  | none => s
  | some v =>
    let s1 := foldOver us (fun u acc => dropValid (v.entry u) acc) s
    s1.modVol vol fun x => { x with
      plat := us.foldl (fun t u => Tbl.erase u t) x.plat
      mem := us.foldl (fun m u => Mem.zeroRange (u * unitBytes) unitBytes m) x.mem }

/-- The part of a range that lies in a unit. -/
def partOf (off len u : Nat) : Nat × Nat :=
  let lo := max off (u * unitBytes)
  (lo, min (off + len) ((u + 1) * unitBytes) - lo)

/-- VOL_DISCARD takes effect once leases are revoked: whole units become ZERO, parts of units are written as zeros,
or left unchanged and counted while the media is read-only (R256, R258). -/
def volDiscardStart (n : Nat) (s : State) : State :=
  match s.live? n with
  | none => s
  | some l =>
    let vol := l.c.object.toNat
    let off := l.c.offset.toNat
    let len := l.c.length.toNat
    let s0 := recallRange n l.c.object off len s
    if !(heldLeases s0 l.c.object off len).isEmpty then s0.modLive n fun x => { x with phase := .recalling }
    else if mustYield n l s0 then s0.modLive n fun x => { x with phase := .ordered }
    else
      match s0.vol? vol with
      | none => fail n St.badObject 0 s0
      | some v =>
        let cov := coverage off len
        let whole := (cov.filter fun u => u.2).map Prod.fst
        let parts := (cov.filter fun u => !u.2).map fun u => partOf off len u.1
        let ro := s0.statusBit Sb.readOnly
        let left := if ro then (parts.map fun p => p.2 / 4096).sum else 0
        match if ro then none else lostMerge v off len with
        | some u => fail n St.mediaUncorrectable (u * unitBytes) s0
        | none =>
          let s1 := zeroUnits vol whole s0
          let s2 := if ro then s1 else foldOver parts (fun p acc => writeMedia vol p.1 (List.replicate p.2 0) acc) s1
          let gone := whole.map (fun u => (u * unitBytes, unitBytes)) ++ (if ro then [] else parts)
          ackMedia n left (s2.modVol vol fun x =>
            { x with absorbed := gone.foldl (fun a p => trimAbsorbed p.1 p.2 a) x.absorbed })

/-- Checks of VOL_DELETE (R253). -/
def volDeleteCheck (c : Capsule) (s : State) : Verdict := must (!objectBusy s c.object none) St.notPermitted

/-- VOL_DELETE takes effect once its leases are revoked: units, key and absorb buffer are freed (R252, R267). -/
def volDeleteStart (n : Nat) (s : State) : State :=
  match s.live? n with
  | none => s
  | some l =>
    match s.vol? l.c.object.toNat with
    | none => fail n St.badObject 0 s
    | some v =>
      let s0 := recallRange n l.c.object 0 v.size s
      if !(heldLeases s0 l.c.object 0 v.size).isEmpty then s0.modLive n fun x => { x with phase := .recalling }
      else
        let s1 := freeAbsorb v (foldOver (v.plat.map Prod.snd) dropValid s0)
        let s2 : State :=
          { s1 with vols := Tbl.erase l.c.object.toNat s1.vols, sec := { s1.sec with keys := Tbl.erase v.keyId s1.sec.keys } }
        succeed n 0 []
          (addLog Lc.keyChanged (originWord l.c.origin) noUnit (ctxWord none (some v.part.val)) [l.c.object.toNat] s2)

/-- VOL_QUERY: size, default mode, absorb sequence, watermark and leases held (R252). -/
def volQueryStart (n : Nat) (s : State) : State :=
  match s.live? n with
  | none => s
  | some l =>
    match s.vol? l.c.object.toNat with
    | none => fail n St.badObject 0 s
    | some v =>
      let held := (s.leases.filter fun e => decide (e.2.vol = l.c.object ∧ e.2.st ≠ 3)).length
      succeed n 0 [(0, leBytes 8 v.size ++ leBytes 4 v.mode.toNat ++ leBytes 4 v.absorbMiB ++ leBytes 8 (v.absorbNext - 1) ++
        leBytes 8 v.watermark ++ leBytes 4 held ++ leBytes 4 0)] s

/-! ## Reads that needed help, and wear (R249, R272 to R276) -/

/-- The hour of module time, in which the counts of R276 are kept. -/
def hourNow (s : State) : Nat := s.sys.time / 3600000000000

/-- The sum over the last 24 h of a table kept by hour × `w` + `i`. -/
def lastDay (s : State) (t : Tbl Nat) (w i : Nat) : Nat :=
  ((t.filter fun e => decide (e.1 % w = i ∧ hourNow s < e.1 / w + 24)).map Prod.snd).sum

/-- The flags of R276 that now stand; those newly set are logged. -/
def wearCheck (s : State) : State :=
  let d := (List.range 8).map fun i => lastDay s s.media.depths 8 i
  let reads := d.sum
  let steps := (d.mapIdx fun i x => i * x).sum
  let retry := decide (0 < reads ∧ 2 * reads ≤ steps)
  let refr := decide (0 < s.media.firstRefreshes ∧ 720 ≤ hourNow s ∧ 2 * s.media.firstRefreshes ≤ 30 * lastDay s s.media.refreshes 1 0)
  let prog := decide (0 < s.media.tprog0 ∧ 5 * s.media.tprog0 ≤ 4 * s.media.tprog)
  let f : BitVec 5 :=
    BitVec.ofNat 5 ((if retry then 1 else 0) + (if refr then 2 else 0) + (if prog then 4 else 0))
  let new := f &&& ~~~s.media.wearFlags
  let s1 : State := { s with media := { s.media with wearFlags := f } }
  if new = 0 then s1 else setFlag Ev.wearWarning (logHw Lc.wearWarning [new.toNat] s1)

/-- A count kept by hour goes up. -/
def bumpHour (s : State) (w i : Nat) (t : Tbl Nat) : Tbl Nat := Tbl.set (hourNow s * w + i) (Tbl.getD t (hourNow s * w + i) 0 + 1) t

/-- A superblock is refreshed by relocation, ahead of collection (R272, R273). -/
def startRefresh (gi serial : Nat) (s : State) : State :=
  let g := s.pgroup gi
  match Tbl.get? g.supers serial with
  | none => s
  | some sb =>
    if sb.isOpen || sb.erasing || sb.refresh then s
    else
      let s1 : State :=
        { s with media :=
          { s.media with
            refreshes := bumpHour s 1 0 s.media.refreshes
            firstRefreshes := if hourNow s < 720 then s.media.firstRefreshes + 1 else s.media.firstRefreshes } }
      wearCheck (s1.modGroup gi fun g =>
        { g with supers := Tbl.set serial { sb with refresh := true } g.supers, victim := some (g.victim.getD serial) })

/-- The superblock that holds a place. -/
def superAt (g : PGroup) (p : MediaPlace) : Option (Nat × Super) :=
  Tbl.find? (fun _ x => decide (x.blocks.getD p.slot 4096 = p.block)) g.supers

/-- A rebuild: the superblock is queued for refresh; a block rebuilt twice is retired (R249, R275). -/
def rebuildAt (e : Dword) (s : State) : State :=
  let p := platPlace e
  let b := (s.pgroup p.group).block p.slot p.block
  let s1 : State := { s with media := { s.media with rebuilds := bumpHour s 1 0 s.media.rebuilds } }
  let s2 := s1.modGroup p.group fun g => g.modBlock p.slot p.block fun x => { x with rebuilds := x.rebuilds + 1 }
  let s3 := if 1 ≤ b.rebuilds then retireBlock p.group p.slot p.block s2 else s2
  match superAt (s3.pgroup p.group) p with
  | some x => startRefresh p.group x.1 s3
  | none => s3

/-- The flash channel that serves a die slot of a parity group (R248). -/
def channelOf (g slot : Nat) : Fin 128 := ⟨(16 * (4 * (g / 64) + g % 4) + slot) % 128, Nat.mod_lt _ (by decide)⟩

/-- CODEWORD_DECODE: how a codeword of a mapped unit decoded (R249, R276). -/
def codewordDecode (vol unit : Nat) (r : CodewordResult) (s : State) : State :=
  match s.vol? vol with
  | none => s
  | some v =>
    let e := v.entry unit
    if platState e ≠ 1 then s
    else
      let depth := match r with
        | .decoded d => d.val
        | _ => 7
      let s1 : State := { s with media := { s.media with depths := bumpHour s 8 depth s.media.depths } }
      match r with
      | .decoded _ => wearCheck s1
      | .rebuilt => wearCheck (rebuildAt e s1)
      | .uncorrectable =>
        let p := platPlace e
        let s2 := eccUncorrectable (.channel (channelOf p.group p.slot)) (e.toNat % 2 ^ 52) none s1
        wearCheck ((dropValid e s2).modVol vol fun x => { x with plat := Tbl.set unit platLost x.plat })

/-! ## Programs, collection and erases (R259, R269 to R271, R274) -/

/-- A superblock closes; its blocks are closed. -/
def closeSuper (gi serial : Nat) (s : State) : State :=
  s.modGroup gi fun g =>
    match Tbl.get? g.supers serial with
    | none => g
    | some sb =>
      let g1 := (sb.blocks.mapIdx fun i b => (i, b)).foldl (fun g e => g.modBlock e.1 e.2 fun x => if x.st = 1 then { x with st := 2 } else x) g
      { g1 with
        supers := Tbl.set serial { sb with isOpen := false, closedAt := s.sys.time, patrolAt := s.sys.time } g1.supers
        openSerial := if g1.openSerial = some serial then none else g1.openSerial }

/-- The next wordline of a slot that is fully filled and not yet closed. -/
def nextWordline (sb : Super) (slot : Nat) : Option Nat :=
  (List.range 384).find? fun w => !sb.closedWl.testBit (384 * slot + w) && decide (180 * (w + 1) ≤ sb.fill)

/-- Units whose place is in a wordline of a slot. -/
def wordlineUnits (gi serial : Nat) (sb : Super) (slot w : Nat) : List (Nat × Word × Nat) :=
  sb.units.filter fun u => decide ((placeOf gi serial sb u.1).slot = slot ∧ (placeOf gi serial sb u.1).page / 12 = w)

/-- The units that a plat entry still maps to a place are programmed again elsewhere (R259). -/
def reprogram (gi serial : Nat) (sb : Super) (us : List (Nat × Word × Nat)) (s : State) : State :=
  foldOver us (fun u acc =>
    match acc.vol? u.2.1.toNat with
    | some v => if v.entry u.2.2 = entryOf (acc.pgroup gi) gi serial sb u.1 then remapUnit u.2.1.toNat u.2.2 acc else acc
    | none => acc) s

/-- WORDLINE_PROGRAM_COMPLETE: a wordline is programmed and verified, or it fails: its data is programmed again in another
superblock and its block is retired (R259). -/
def wordlineDone (gi slot : Nat) (ok : Bool) (s : State) : State :=
  let g := s.pgroup gi
  match Tbl.find? (fun _ x => x.isOpen && (nextWordline x slot).isSome) g.supers with
  | none => s
  | some (serial, sb) =>
    match nextWordline sb slot with
    | none => s
    | some w =>
      if ok then
        let sb' : Super := { sb with closedWl := sb.closedWl ||| (1 <<< (384 * slot + w)), lastProg := s.sys.time }
        let s1 : State := { s with media := { s.media with programmed := s.media.programmed + 196608 } }
        let s2 := s1.modGroup gi fun g => { g with supers := Tbl.set serial sb' g.supers }
        if sb'.closedWl + 1 = 1 <<< 6144 then closeSuper gi serial s2 else s2
      else
        let s1 := retireBlock gi slot (sb.blocks.getD slot 0) (closeSuper gi serial s)
        reprogram gi serial sb (wordlineUnits gi serial sb slot w) s1

/-- Valid units of a superblock. -/
def superValid (g : PGroup) (sb : Super) : Nat := ((sb.blocks.mapIdx fun i b => (g.block i b).valid)).sum
/-- The sum of its blocks' erase counts. -/
def superErases (g : PGroup) (sb : Super) : Nat := ((sb.blocks.mapIdx fun i b => (g.block i b).erases)).sum

/-- A closed superblock that may be a victim. -/
def Super.closed (sb : Super) : Bool := !sb.isOpen && !sb.erasing

/-- Numerator and denominator of the score of R269, common factors left out. -/
def gcScore (s : State) (g : PGroup) (sb : Super) : Num × Num :=
  let day := 86400000000000
  let a := min day (s.sys.time - sb.lastProg)
  let up := Num.mul (.fin false (superUnits - superValid g sb) 0) (Num.add (.fin false day 0) (Num.mul (f32 s.media.pol.alpha) (.fin false a 0)))
  (up, Num.add (.fin false 48000 0) (Num.mul (f32 s.media.pol.beta) (.fin false (superErases g sb) 0)))

/-- One score is higher than another. -/
def scoreLt (a b : Num × Num) : Bool := Num.lt (Num.mul a.1 b.2) (Num.mul b.1 a.2)

/-- The first of a list that no later one beats. -/
def bestOf {α : Type} (better : α → α → Bool) : List α → Option α
  | [] => none
  | x :: r => some (r.foldl (fun a b => if better b a then b else a) x)

/-- GC_START: below the low mark, or up to the high mark while collecting, the closed superblock of highest score is the
victim; a superblock queued for refresh goes first (R269, R272). -/
def gcStart (gi : Nat) (s : State) : State :=
  let g := s.pgroup gi
  let free := freeSupers g
  let on := decide (free < s.media.pol.low) || (g.collecting && decide (free < s.media.pol.high))
  let cands := g.supers.filter fun e => e.2.closed
  let pick := match List.find? (fun x : Nat × Super => x.2.refresh) cands with
    | some x => some x
    | none => if on then bestOf (fun a b : Nat × Super => scoreLt (gcScore s g b.2) (gcScore s g a.2)) cands else none
  if g.victim.isSome then s
  else
    match pick with
    | some x => s.modGroup gi fun g => { g with victim := some x.1, collecting := on }
    | none => s.modGroup gi fun g => { g with collecting := on && !cands.isEmpty }

/-- One unit is relocated: the move applies only if the entry still holds the victim's address (R270, G3). -/
def moveUnit (gi serial : Nat) (sb : Super) (u : Nat × Word × Nat) (s : State) : State :=
  match s.vol? u.2.1.toNat with
  | none => s
  | some v =>
    let old := entryOf (s.pgroup gi) gi serial sb u.1
    if v.entry u.2.2 ≠ old then s
    else
      match placeIn true gi u.2.1 u.2.2 s.sys.time (s.pgroup gi) with
      | some (g, e) =>
        (dropValid old (countRead old (s.modGroup gi fun _ => g))).modVol u.2.1.toNat fun x => { x with plat := Tbl.set u.2.2 e x.plat }
      | none => remapUnit u.2.1.toNat u.2.2 s

/-- The units of a superblock that a plat entry still maps to it. -/
def liveUnits (s : State) (gi serial : Nat) (sb : Super) : List (Nat × Word × Nat) :=
  sb.units.filter fun u => (s.vol? u.2.1.toNat).any fun v => decide (v.entry u.2.2 = entryOf (s.pgroup gi) gi serial sb u.1)

/-- The erase intent record is committed: generations advance and the erases begin (R265, R270, G4); an erase of a block
with a valid unit is refused (R270). -/
def eraseIntent (gi serial : Nat) (s : State) : State :=
  let g := s.pgroup gi
  match Tbl.get? g.supers serial with
  | none => s
  | some sb =>
    if 0 < superValid g sb then logHw Lc.eraseRefused [gi, serial] s
    else
      s.modGroup gi fun g =>
        let g1 := (sb.blocks.mapIdx fun i b => (i, b)).foldl (fun g e =>
          g.modBlock e.1 e.2 fun x => if x.st = 4 then x else { x with st := 3, erases := x.erases + 1 }) g
        { g1 with supers := Tbl.set serial { sb with erasing := true } g1.supers }

/-- GC_MOVE_COMMIT: up to 64 units of the victim move; with none left the erase intent follows (R270). -/
def gcMove (gi : Nat) (s : State) : State :=
  match (s.pgroup gi).victim with
  | none => s
  | some serial =>
    match Tbl.get? (s.pgroup gi).supers serial with
    | none => s
    | some sb =>
      if sb.erasing then s
      else
        let s1 := foldOver ((liveUnits s gi serial sb).take 64) (moveUnit gi serial sb) s
        if (liveUnits s1 gi serial sb).isEmpty then eraseIntent gi serial s1 else s1

/-- BLOCK_ERASE_COMPLETE: the erased blocks join the free pool, those that failed or are worn out are retired (R270,
R275). -/
def eraseDone (gi : Nat) (failed : List Nat) (s : State) : State :=
  let g := s.pgroup gi
  match Tbl.find? (fun _ x => x.erasing && decide (x.suspended = 0)) g.supers with
  | none => s
  | some (serial, sb) =>
    let bs := sb.blocks.mapIdx fun i b => (i, b)
    let out := bs.filter fun e => decide (e.1 ∈ failed ∨ 20000 ≤ (g.block e.1 e.2).erases)
    let s1 := s.modGroup gi fun g =>
      let g1 := bs.foldl (fun g e => g.modBlock e.1 e.2 fun x =>
        if x.st = 4 then x else { x with st := 0, reads := 0, valid := 0, rebuilds := 0 }) g
      { g1 with
        supers := Tbl.erase serial g1.supers
        victim := if g1.victim = some serial then none else g1.victim }
    let s2 := foldOver out (fun e acc => retireBlock gi e.1 e.2 acc) s1
    s2.modGroup gi fun g => { g with collecting := g.collecting && decide (freeSupers g < s.media.pol.high) }

/-- The spread of a group's erase counts (R271). -/
def eraseSpread (g : PGroup) : Nat :=
  let es := g.blocks.map fun e => e.2.erases
  let hi := es.foldl max 0
  let lo := if g.blocks.length < 58240 then 0 else es.foldl min hi
  hi - lo

/-- WEAR_LEVEL: the closed superblock of lowest mean erase count is relocated (R271). -/
def wearLevel (gi : Nat) (s : State) : State :=
  let g := s.pgroup gi
  let better (a b : Nat × Super) : Bool :=
    decide (superErases g a.2 < superErases g b.2 ∨ (superErases g a.2 = superErases g b.2 ∧ a.2.lastProg < b.2.lastProg))
  if eraseSpread g ≤ s.media.pol.wear ∨ g.victim.isSome then s
  else
    match bestOf better (g.supers.filter fun e => e.2.closed) with
    | some x => s.modGroup gi fun g => { g with victim := some x.1 }
    | none => s

/-- READ_THRESHOLD_REFRESH (R272). -/
def readRefresh (gi serial : Nat) (s : State) : State :=
  let g := s.pgroup gi
  match Tbl.get? g.supers serial with
  | none => s
  | some sb =>
    if (sb.blocks.mapIdx fun i b => (g.block i b).reads).any fun r => decide (s.media.pol.readThr ≤ r) then startRefresh gi serial s else s

/-- PATROL_READ: a closed superblock is sample-read once per patrol period (R273). -/
def patrolRead (gi serial depth : Nat) (rebuilt : Bool) (s : State) : State :=
  match Tbl.get? (s.pgroup gi).supers serial with
  | none => s
  | some sb =>
    if !sb.closed || decide (s.sys.time < sb.patrolAt + s.media.pol.patrolDays * 86400000000000) then s
    else
      let s1 := s.modGroup gi fun g => { g with supers := Tbl.set serial { sb with patrolAt := s.sys.time } g.supers }
      if 4 ≤ depth ∨ rebuilt then startRefresh gi serial s1 else s1

/-- RETENTION_REFRESH: a superblock closed for 90 days is refreshed (R273). -/
def retentionRefresh (gi serial : Nat) (s : State) : State :=
  match Tbl.get? (s.pgroup gi).supers serial with
  | none => s
  | some sb => if sb.closed && decide (sb.closedAt + 7776000000000000 ≤ s.sys.time) then startRefresh gi serial s else s

/-- The superblock of a group under erase. -/
def erasingSuper (s : State) (gi : Nat) : Option (Nat × Super) := Tbl.find? (fun _ x => x.erasing) (s.pgroup gi).supers

/-- ERASE_SUSPEND: a read of another block of the die waits (R274). -/
def eraseSuspend (gi slot : Nat) (s : State) : State :=
  match erasingSuper s gi with
  | none => s
  | some (serial, sb) =>
    let ran := match Tbl.get? sb.resumedAt slot with
      | some t => decide (t + 500000 ≤ s.sys.time)
      | none => true
    if sb.suspended.getLsbD slot || decide (16 ≤ Tbl.getD sb.suspends slot 0) || !ran then s
    else
      let sb' : Super :=
        { sb with
          suspended := sb.suspended ||| (1#16 <<< slot)
          suspends := Tbl.set slot (Tbl.getD sb.suspends slot 0 + 1) sb.suspends }
      s.modGroup gi fun g => { g with supers := Tbl.set serial sb' g.supers }

/-- ERASE_RESUME: no such read waits any more (R274). -/
def eraseResume (gi slot : Nat) (s : State) : State :=
  match erasingSuper s gi with
  | none => s
  | some (serial, sb) =>
    if sb.suspended.getLsbD slot then
      let sb' : Super :=
        { sb with
          suspended := sb.suspended &&& ~~~(1#16 <<< slot)
          resumedAt := Tbl.set slot s.sys.time sb.resumedAt }
      s.modGroup gi fun g => { g with supers := Tbl.set serial sb' g.supers }
    else s

/-- Protected staging in service on a media die, in MiB (R257, R371). -/
def stagingMiB (s : State) (m : Nat) : Nat := 256 - Tbl.getD s.media.stagingLost m 0

/-- Staging of a die has fallen below 192 MiB (R371). -/
def stagingShort (s : State) : Bool := decide (stagingMiB s 0 < 192) || decide (stagingMiB s 1 < 192)

/-- HOLDUP_MEASURE: the hold-up store's energy decides when DURABLE writes are acknowledged (R260). -/
def holdupMeasure (mj : Nat) (s : State) : State :=
  let weak := decide (mj < 16000)
  let s1 : State :=
    { s with media := { s.media with holdupMj := mj, holdupAt := s.sys.time, slowAck := weak || stagingShort s } }
  if weak then degrade .holdup (logHw Lc.holdupWeak [mj] s1) else undegrade .holdup s1

/-! ## Media commands (R275 to R277) -/

/-- MED_WEAR_LOG's record of 256 bytes (R276). -/
def wearRecord (s : State) : List Byte :=
  let es := s.media.groups.flatMap fun g => g.2.blocks.map fun b => b.2.erases
  let retired := (s.media.groups.map fun g => (g.2.blocks.filter fun b => decide (b.2.st = 4)).length).sum
  let flags := s.media.wearFlags.toNat % 8 + (if s.statusBit Sb.degraded then 8 else 0) + (if s.statusBit Sb.readOnly then 16 else 0)
  leBytes 8 s.sys.time ++ leBytes 4 (16 * es.sum / 7454720) ++ leBytes 4 (es.foldl max 0) ++ leBytes 4 retired ++
    leBytes 4 (usableCapacity s / 1000000000) ++ leBytes 8 (s.media.programmed / 1000000) ++
    ((List.range 8).flatMap fun i => leBytes 4 (lastDay s s.media.depths 8 i / 1000000)) ++
    leBytes 4 (lastDay s s.media.refreshes 1 0) ++ leBytes 4 s.media.tprog ++ leBytes 4 (lastDay s s.media.rebuilds 1 0) ++
    leBytes 4 flags ++ List.replicate 176 0

/-- MED_WEAR_LOG returns its record. -/
def medWearStart (n : Nat) (s : State) : State := succeed n 0 [(0, wearRecord s)] s

/-- An FP32 setting held within 0 to a whole number. -/
def clampF (hi : Nat) (w : Word) : Word :=
  let x := f32 w
  if x.isNan || x.isNeg then 0 else if Num.lt (.fin false hi 0) x then (toF32 (.fin false hi 0)).1 else w

/-- The media policy that MED_SET_POLICY's data asks for, before and after the clip to its ranges (R277). -/
def medPolicyOf (bs : List Byte) : MedPolicy × MedPolicy :=
  let f (i : Nat) : Nat := fieldAt bs (4 * i) 4
  let ask : MedPolicy :=
    { alpha := BitVec.ofNat 32 (f 0), beta := BitVec.ofNat 32 (f 1), low := f 2, high := f 3, wear := f 4, readThr := f 5,
      patrolDays := f 6, recallUs := f 7 }
  let high := clampTo 6 64 ask.high
  (ask,
   { alpha := clampF 4 ask.alpha, beta := clampF 4 ask.beta, low := clampTo 5 (high - 1) ask.low, high := high,
     wear := clampTo 100 1000 ask.wear, readThr := clampTo 10000 65000 ask.readThr, patrolDays := clampTo 1 30 ask.patrolDays,
     recallUs := clampTo 100 1000000 ask.recallUs })

/-- Checks of MED_SET_POLICY: its eight values travel as 32 bytes of data. -/
def medPolicyCheck (c : Capsule) (_s : State) : Verdict := must (decide (c.dataLen.toNat = 32)) St.badParam

/-- MED_SET_POLICY takes effect (R277). -/
def medPolicyLanded (n : Nat) (s : State) : State :=
  match s.live? n with
  | none => s
  | some l =>
    let p := medPolicyOf l.data
    let o := originWord l.c.origin
    let s1 : State := { s with media := { s.media with pol := p.2 } }
    let s2 := addLog (if p.1 = p.2 then Lc.loopHeld else Lc.policyClipped) o noUnit 0 [0x0641] s1
    succeed n 0 [] (addLog Lc.policyChanged o noUnit 0 [0x0641] s2)

/-- Checks of MED_FORMAT (R275). -/
def medFormatCheck (_c : Capsule) (s : State) : Verdict :=
  must (!(s.cmds.any fun e => e.2.open && decide (objClass e.2.c.object = 1 ∨ objClass e.2.c.object = 2))) St.notPermitted

/-- A mapped page after MED_FORMAT (R275). -/
def formatPage (p : Nat) (pg : Nat) (s : State) : State :=
  let g := (s.store p).page pg
  match g.st with
  | .flash => addLog Lc.pagePoisoned 0x50000000 noUnit (ctxWord none (some p)) [p, pg] (setPage p pg { Page.zero with st := .poisoned } s)
  | .clean => setPage p pg { g with st := .dirty } s
  | .writing => setPage p pg { g with st := .dirty } s
  | _ => s

/-- The blocks of a group are erased and free; retired blocks stay retired. -/
def formatGroup (g : PGroup) : PGroup :=
  { PGroup.fresh with
    nextSerial := g.nextSerial
    blocks := Tbl.mapVals (fun _ b =>
      if b.st = 4 then b else if b.st = 0 then b else { Block.fresh with erases := b.erases + 1 }) g.blocks }

/-- MED_FORMAT erases every volume, collection and store extent and adds up the capacity again (R275). -/
def medFormatStart (n : Nat) (s : State) : State :=
  let s1 := foldOver (s.stores.flatMap fun e => e.2.pages.map fun g => (e.1, g.1)) (fun x acc => formatPage x.1 x.2 acc) s
  let s2 := foldOver (s1.vols.map Prod.snd) freeAbsorb s1
  let s3 := foldOver (s2.cols.map Prod.snd) (fun k acc =>
    (acc.modDie (lowestDie acc k.part.val) fun x => { x with otherFrames := x.otherFrames - k.frames }).modPart k.part.val
      fun x => { x with pinned := x.pinned - k.frames }) s2
  let s4 := revokeLeases (fun _ _ => true) s3
  let s5 : State :=
    { s4 with
      vols := [], cols := [], ctxs := Tbl.keep (fun _ c => !c.search) s4.ctxs
      media := { s4.media with groups := Tbl.mapVals (fun _ g => formatGroup g) s4.media.groups, colReserved := 0 }
      sec := { s4.sec with keys := [] } }
  succeed n 0 [] (checkCapacity (setStatus Sb.readOnly false s5))

/-! ## Rows that never end a command -/

/-- CODEWORD_DECODE (R249). -/
def execCodewordDecode (vol : Word) (unit : Nat) (_codeword : BitVec 2) (r : CodewordResult) (s : State) :
    Host.Outcome State Fault Refusal := .next (codewordDecode vol.toNat unit r s)
/-- GC_START (R269). -/
def execGcStart (g : GroupIx) (s : State) : Host.Outcome State Fault Refusal := .next (gcStart g.val s)
/-- GC_MOVE_COMMIT (R270). -/
def execGcMoveCommit (g : GroupIx) (s : State) : Host.Outcome State Fault Refusal := .next (gcMove g.val s)
/-- WEAR_LEVEL (R271). -/
def execWearLevel (g : GroupIx) (s : State) : Host.Outcome State Fault Refusal := .next (wearLevel g.val s)
/-- READ_THRESHOLD_REFRESH (R272). -/
def execReadThresholdRefresh (g : GroupIx) (serial : Nat) (s : State) : Host.Outcome State Fault Refusal :=
  .next (readRefresh g.val serial s)
/-- PATROL_READ (R273). -/
def execPatrolRead (g : GroupIx) (serial : Nat) (deepest : Fin 8) (rebuilt : Bool) (t : Nat) (s : State) :
    Host.Outcome State Fault Refusal := .next (patrolRead g.val serial deepest.val rebuilt (s.tick t))
/-- RETENTION_REFRESH (R273). -/
def execRetentionRefresh (g : GroupIx) (serial : Nat) (t : Nat) (s : State) : Host.Outcome State Fault Refusal :=
  .next (retentionRefresh g.val serial (s.tick t))
/-- ERASE_SUSPEND (R274). -/
def execEraseSuspend (g : GroupIx) (slot : Fin 16) (t : Nat) (s : State) : Host.Outcome State Fault Refusal :=
  .next (eraseSuspend g.val slot.val (s.tick t))
/-- ERASE_RESUME (R274). -/
def execEraseResume (g : GroupIx) (slot : Fin 16) (t : Nat) (s : State) : Host.Outcome State Fault Refusal :=
  .next (eraseResume g.val slot.val (s.tick t))

end Sys2Proof.Machine
end

