-- ==== Sys2Proof/Machine/Leases.lean ====
section
/-! DEFINITION. Client leases of plat sheets (R263, R264, R266 to R268). -/

namespace Sys2Proof.Machine

/-- The incarnation of new leases: the cast-on count modulo 65,536 (R264). -/
def incarnation (s : State) : Nat := s.sys.castOns % 65536

/-- Duration of LSE_ACQUIRE in s; 0 means 60 (R263). -/
def leaseSecs (c : Capsule) : Nat := if c.p0 = 0 then 60 else c.p0.toNat

/-- Sheets leased module-wide (R255). -/
def sheetsLeased (s : State) : Nat := ((s.leases.filter fun e => decide (e.2.st ≠ 3)).map fun e => e.2.count).sum

/-- Checks of LSE_ACQUIRE (R255, R263). -/
def lseAcquireCheck (c : Capsule) (s : State) : Verdict :=
  let len := c.length.toNat
  firstBad
    [must (fabricOf c.origin).isSome St.notPermitted,
     must ((s.vol? c.object.toNat).any fun v =>
       decide (c.offset.toNat % 8388608 = 0 ∧ len % 8388608 = 0 ∧ 0 < len ∧ len ≤ 2147483648 ∧
         c.offset.toNat + len ≤ v.size ∧ leaseSecs c ≤ 3600)) St.badParam,
     must (decide (s.leases.length < 65536 ∧ sheetsLeased s + len / 8388608 ≤ 1048576)) St.noResource]

/-- A range of a volume is held by a write, discard or delete that recalls its leases (R267). -/
def rangeHeld (s : State) (n : Nat) (vol : Word) (off len : Nat) : Bool :=
  (s.leases.any fun e => decide (e.2.st = 2) && e.2.covers vol off len) ||
    s.cmds.any fun e =>
      decide (e.1 ≠ n ∧ e.2.c.object = vol) && e.2.open && !e.2.recalls.isEmpty && !e.2.applied &&
        (decide (e.2.op = 0x0202) ||
          (decide (2 ≤ touches e.2.op.toNat) && overlaps e.2.c.offset.toNat e.2.c.length.toNat off len))

/-- The plat entries of leased sheets, 8 bytes each (R254, R263). -/
def sheetBytes (v : Vol) (first count : Nat) : List Byte :=
  (List.range (512 * count)).flatMap fun i => leBytes 8 (v.entry (512 * first + i)).toNat

/-- LSE_ACQUIRE: the lowest free slot, once the range is not held (R263, R264, R268). -/
def lseAcquireStart (n : Nat) (s : State) : State :=
  match s.live? n with
  | none => s
  | some l =>
    let off := l.c.offset.toNat
    let len := l.c.length.toNat
    if rangeHeld s n l.c.object off len then s.modLive n fun x => { x with phase := .recalling }
    else
      match s.vol? l.c.object.toNat, fabricOf l.c.origin, (List.range 65536).find? fun k => !Tbl.has s.leases k with
      | some v, some (node, link), some k =>
        let x : Lease :=
          { inc := incarnation s, st := 1, vol := l.c.object, first := off / 8388608, count := len / 8388608, holder := node,
            link := link, expiry := s.sys.time + leaseSecs l.c * 1000000000, recallAt := 0 }
        succeed n (k + 65536 * x.inc) [(0, sheetBytes v x.first x.count)] { s with leases := Tbl.set k x s.leases }
      | _, _, _ => fail n St.noResource 0 s

/-- The slot of a lease id that a holder names, while it is ACTIVE or RECALLING (R264, R266). -/
def leaseNamed (s : State) (o : Origin) (id : Word) : Option (Nat × Lease) :=
  match Tbl.get? s.leases (id.toNat % 65536), fabricOf o with
  | some x, some (node, _) =>
    if x.inc = id.toNat / 65536 ∧ x.inc = incarnation s ∧ x.st ≠ 3 ∧ x.holder = node then some (id.toNat % 65536, x) else none
  | _, _ => none

/-- A recall whose lease has ended is no longer awaited. -/
def forgetRecalls (s : State) : State :=
  let gone := s.fabric.issued.filter fun i =>
    !(decide (i.op = 0x0743) && !(s.leases.any fun e => decide (e.1 = i.info ∧ e.2.st = 2)))
  { s with fabric := { s.fabric with issued := gone } }

/-- One lease slot is revoked (R264). -/
def revokeSlot (k : Nat) (s : State) : State := forgetRecalls (revokeLeases (fun i _ => decide (i = k)) s)

/-- Checks of LSE_RELEASE (R263). -/
def lseReleaseCheck (c : Capsule) (s : State) : Verdict :=
  firstBad
    [must (fabricOf c.origin).isSome St.notPermitted,
     must ((leaseNamed s c.origin c.p0).any fun x => decide (x.2.vol = c.object)) St.leaseStale]

/-- LSE_RELEASE ends a lease; it serves as the acknowledgement of a recall (R268). -/
def lseReleaseStart (n : Nat) (s : State) : State :=
  match s.live? n with
  | none => s
  | some l => succeed n 0 [] (revokeSlot (l.c.p0.toNat % 65536) s)

/-- The plat entry that LSE_READ names. -/
def readEntryOf (c : Capsule) : Dword := BitVec.ofNat 64 (capDword c 1)

/-- Checks of LSE_READ at its arrival: the origin, and its range (R263). -/
def lseReadCheck (c : Capsule) (_s : State) : Verdict :=
  firstBad
    [must (fabricOf c.origin).isSome St.notPermitted,
     must (decide (c.offset.toNat % 4096 = 0 ∧ c.length.toNat % 4096 = 0 ∧ 0 < c.length.toNat ∧
       c.offset.toNat / unitBytes = (c.offset.toNat + c.length.toNat - 1) / unitBytes)) St.badParam]

/-- The tag of the unit at a place (R256). -/
def tagAt (s : State) (e : Dword) : Option (Word × Nat) :=
  let p := platPlace e
  match superAt (s.pgroup p.group) p with
  | none => none
  | some (serial, sb) =>
    (List.find? (fun u : Nat × Word × Nat => decide (placeOf p.group serial sb u.1 = p)) sb.units).map Prod.snd

/-- LSE_READ passes R266's checks in order, or fails with the status they give; check 6 failing is a violation. -/
def lseVerdict (c : Capsule) (s : State) : Verdict × Bool :=
  match leaseNamed s c.origin c.p0 with
  | none => (some (St.leaseStale, 0), false)
  | some (_, x) =>
    let e := readEntryOf c
    let p := platPlace e
    if !(decide (x.vol = c.object) && decide (x.first * 8388608 ≤ c.offset.toNat ∧
        c.offset.toNat + c.length.toNat ≤ (x.first + x.count) * 8388608)) then (some (St.leaseStale, 0), false)
    else if !platLegal e then (some (St.badParam, 0), false)
    else if platState e ≠ 1 ∨ platGen e ≠ ((s.pgroup p.group).block p.slot p.block).erases % 65536 then (some (St.leaseStale, 0), false)
    else if tagAt s e ≠ some (c.object, c.offset.toNat / unitBytes) then (some (St.leaseStale, 0), true)
    else (none, false)

/-- LSE_READ returns the unit's data, or nothing (R266, R267). -/
def lseReadStart (n : Nat) (s : State) : State :=
  match s.live? n with
  | none => s
  | some l =>
    match lseVerdict l.c s with
    | (some v, bad) =>
      let s1 := fail n v.1 v.2 s
      (match fabricOf l.c.origin with
        | some (_, link) => if bad then violation link 266 s1 else s1
        | none => s1)
    | (none, _) =>
      match s.vol? l.c.object.toNat with
      | none => fail n St.badObject 0 s
      | some v =>
        if v.keyLost then fail n St.mediaUncorrectable 0 s
        else
          succeed n 0 [(0, Mem.readBytes v.mem l.c.offset.toNat l.c.length.toNat)]
            ((countRead (readEntryOf l.c) s).count l.c.context.toNat fun k => { k with flashRead := k.flashRead + l.c.length.toNat })

/-- LSE_RECALL_ACK: the holder's status reply ends the recall (R263, R267). -/
def recallAck (k : Nat) (node : BitVec 20) (s : State) : State :=
  match Tbl.get? s.leases k with
  | some x => if x.st = 2 ∧ x.holder = node then revokeSlot k s else s
  | none => s

/-- LEASE_RECALL_TIMEOUT: logged and counted against the link; the lease is revoked (R267). -/
def recallTimeout (k : Nat) (s : State) : State :=
  match Tbl.get? s.leases k with
  | some x =>
    if x.st = 2 ∧ x.recallAt + s.media.pol.recallUs * 1000 ≤ s.sys.time then
      violation x.link 267 (revokeSlot k (logHw Lc.leaseRecallTimeout [x.holder.toNat, k] s))
    else s
  | none => s

/-- LEASE_EXPIRY: the lease is revoked, and a recall in progress ends (R264, R268). -/
def leaseExpiry (k : Nat) (s : State) : State :=
  match Tbl.get? s.leases k with
  | some x => if x.st ≠ 3 ∧ x.expiry ≤ s.sys.time then revokeSlot k s else s
  | none => s

end Sys2Proof.Machine
end

