-- ==== Sys2Proof/Machine/Zstd.lean ====
section
/-! DEFINITION. One Zstandard frame decoded under RFC 8878, with the limits of the manual: no dictionary, no skippable frame, a
window of at most 1 MiB (R227). -/

namespace Sys2Proof.Machine

/-! ## Bit streams -/

/-- A bit stream read from its end: its bytes as a number, and how many bits are left. -/
structure ZBack where
  /-- The bytes, little endian. -/
  val : Nat
  /-- Bits left. -/
  left : Nat
deriving DecidableEq, Repr

/-- A backward bit stream: the highest set bit of its last byte marks its end. -/
def ZBack.of (bs : List Byte) : Option ZBack :=
  match bs.getLast? with
  | none => none
  | some b => if b = 0 then none else some { val := leNat bs, left := 8 * (bs.length - 1) + b.toNat.log2 }

/-- The next `n` bits, with zeros once the stream has ended; `none` for the stream once it has been overrun. -/
def ZBack.read (z : ZBack) (n : Nat) : Nat × Option ZBack :=
  if n ≤ z.left then (bits z.val (z.left - n) n, some { z with left := z.left - n })
  else ((z.val % 2 ^ z.left) <<< (n - z.left), none)

/-! ## FSE tables -/

/-- A cell of an FSE table: symbol, bits to read, base of the next state. -/
abbrev FseCell := Nat × Nat × Nat

/-- The order in which an FSE table's cells are filled: its places below a limit. -/
def fseOrder (size limit : Nat) : List Nat :=
  let step := size / 2 + size / 8 + 3
  ((List.range size).map fun k => k * step % size).filter fun p => decide (p < limit)

/-- An FSE table of 2^log cells for a distribution, in which `none` is a probability below one. -/
def fseTable (log : Nat) (dist : List (Option Nat)) : List FseCell :=
  let size := 2 ^ log
  let low := (dist.mapIdx fun s p => (s, p)).filter fun e => e.2.isNone
  let limit := size - low.length
  let marks := dist.mapIdx fun s p => List.replicate (p.getD 0) s
  let spread := (List.zip (fseOrder size limit) marks.flatten).foldl (fun t e => t.set e.1 e.2) (List.replicate limit 0)
  let syms := spread ++ (low.map Prod.fst).reverse
  (syms.foldl (fun (acc : List FseCell × List Nat) s =>
    let next := acc.2.getD s 1
    let n := log - next.log2
    ((s, n, next <<< n - size) :: acc.1, acc.2.set s (next + 1))) ([], dist.map fun p => p.getD 1)).1.reverse

/-- Zero probabilities repeated: flags of 2 bits, of which 3 goes on; the count and the position after them. -/
def fseZeros (v : Nat) : Nat → Nat → Nat → Nat × Nat
  | 0, pos, n => (n, pos)
  | fuel + 1, pos, n =>
    let k := bits v pos 2
    if k = 3 then fseZeros v fuel (pos + 2) (n + 3) else (n + k, pos + 2)

/-- The probabilities of an FSE description, from a bit position with a number of cells left to share out; the distribution
and the position after it. -/
def fseDist (v most : Nat) : Nat → Nat → Nat → List (Option Nat) → Option (List (Option Nat) × Nat)
  | 0, _, _, _ => none
  | fuel + 1, pos, left, dist =>
    if left = 0 then some (dist, pos)
    else if most < dist.length then none
    else
      let n := (left + 1).log2 + 1
      let w := bits v pos n
      let half := 2 ^ (n - 1)
      let spare := 2 ^ n - 1 - (left + 1)
      let small := decide (w % half < spare)
      let x := if small then w % half else if half ≤ w then w - spare else w
      let pos1 := if small then pos + n - 1 else pos + n
      if x = 0 then fseDist v most fuel pos1 (left - 1) (dist ++ [none])
      else if left < x - 1 then none
      else if x = 1 then
        let z := fseZeros v (most + 1) pos1 0
        fseDist v most fuel z.2 left (dist ++ List.replicate (z.1 + 1) (some 0))
      else fseDist v most fuel pos1 (left - (x - 1)) (dist ++ [some (x - 1)])

/-- An FSE description at the head of some bytes: table, accuracy and bytes taken, for symbols up to `most` and an accuracy up
to `logMax`. -/
def fseRead (logMax most : Nat) (bs : List Byte) : Option (List FseCell × Nat × Nat) :=
  let v := leNat (bs.take 256)
  let log := bits v 0 4 + 5
  if bs.isEmpty ∨ logMax < log then none
  else
    match fseDist v most (most + 2) 4 (2 ^ log) [] with
    | none => none
    | some (dist, pos) =>
      let n := (pos + 7) / 8
      if bs.length < n ∨ most + 1 < dist.length then none else some (fseTable log dist, log, n)

/-! ## Huffman trees and literals -/

/-- The Huffman weights that two interleaved FSE states give, until the stream has been overrun. -/
def zWeights (t : List FseCell) : Nat → Nat → Nat → ZBack → List Nat → Option (List Nat)
  | 0, _, _, _, _ => none
  | fuel + 1, a, b, z, out =>
    let x := t.getD a (0, 0, 0)
    match z.read x.2.1 with
    | (_, none) => some (((t.getD b (0, 0, 0)).1 :: x.1 :: out).reverse)
    | (w, some z1) => zWeights t fuel b (x.2.2 + w) z1 (x.1 :: out)

/-- A Huffman tree: its longest code, and for each value of that many bits the symbol and the bits that it takes. -/
abbrev ZTree := Nat × List (Nat × Nat)

/-- The tree of the weights of all symbols but the last. -/
def zTree (ws : List Nat) : Option ZTree :=
  let sum := (ws.map fun w => if w = 0 then 0 else 2 ^ (w - 1)).sum
  let most := sum.log2 + 1
  let rest := 2 ^ most - sum
  if sum = 0 ∨ 11 < most ∨ 255 < ws.length ∨ 2 ^ rest.log2 ≠ rest then none
  else
    let all := ws ++ [rest.log2 + 1]
    let ofLen (n : Nat) : List (Nat × Nat) :=
      (all.mapIdx fun s w => (s, w)).flatMap fun e =>
        if e.2 = most + 1 - n then List.replicate (2 ^ (most - n)) (e.1, n) else []
    some (most, (List.range most).flatMap fun i => ofLen (most - i))

/-- A Huffman tree description at the head of some bytes, and the bytes it takes. -/
def zTreeRead : List Byte → Option (ZTree × Nat)
  | [] => none
  | h :: r =>
    if h.toNat < 128 then
      let bs := r.take h.toNat
      match fseRead 6 11 bs with
      | none => none
      | some (t, log, n) =>
        (ZBack.of (bs.drop n)).bind fun z =>
          let a := z.read log
          a.2.bind fun z1 =>
            let b := z1.read log
            b.2.bind fun z2 =>
              if r.length < h.toNat then none
              else (zWeights t 256 a.1 b.1 z2 []).bind fun ws => (zTree ws).map fun tr => (tr, 1 + h.toNat)
    else
      let n := h.toNat - 127
      let bytes := (n + 1) / 2
      if r.length < bytes then none
      else (zTree ((List.range n).map fun i =>
        let b := (r.getD (i / 2) 0).toNat
        if i % 2 = 0 then b / 16 else b % 16)).map fun tr => (tr, 1 + bytes)

/-- `n` literals of a Huffman stream, which must end with the last of them. -/
def zSymbols (t : ZTree) : Nat → ZBack → List Byte → Option (List Byte)
  | 0, z, out => if z.left = 0 then some out.reverse else none
  | n + 1, z, out =>
    let e := t.2.getD (z.read t.1).1 (0, 0)
    (z.read e.2).2.bind fun z1 => zSymbols t n z1 (BitVec.ofNat 8 e.1 :: out)

/-- The literals of one stream. -/
def zStream (t : ZTree) (n : Nat) (bs : List Byte) : Option (List Byte) := (ZBack.of bs).bind fun z => zSymbols t n z []

/-- The literals of a block's Huffman streams: one, or four behind a jump table. -/
def zStreams (t : ZTree) (four : Bool) (n : Nat) (bs : List Byte) : Option (List Byte) :=
  if !four then zStream t n bs
  else
    let a := fieldAt bs 0 2
    let b := fieldAt bs 2 2
    let c := fieldAt bs 4 2
    let r := bs.drop 6
    let k := (n + 3) / 4
    if bs.length < 6 + a + b + c ∨ n < 3 * k then none
    else
      (zStream t k (r.take a)).bind fun x => (zStream t k ((r.drop a).take b)).bind fun y =>
        (zStream t k ((r.drop (a + b)).take c)).bind fun z => (zStream t (n - 3 * k) (r.drop (a + b + c))).map fun w =>
          x ++ y ++ z ++ w

/-- The literals of a block, the tree that a later block may use again, and the bytes after them. -/
def zLiterals (limit : Nat) (tree : Option ZTree) (bs : List Byte) : Option (List Byte × Option ZTree × List Byte) :=
  let h := leNat (bs.take 5)
  let kind := bits h 0 2
  let form := bits h 2 2
  if bs.isEmpty then none
  else if kind < 2 then
    let n := if form % 2 = 0 then 1 else if form = 1 then 2 else 3
    let size := if form % 2 = 0 then bits h 3 5 else if form = 1 then bits h 4 12 else bits h 4 20
    let r := bs.drop n
    if bs.length < n ∨ limit < size then none
    else if kind = 0 then (if r.length < size then none else some (r.take size, tree, r.drop size))
    else match r with
      | b :: r1 => some (List.replicate size b, tree, r1)
      | [] => none
  else
    let w := if form < 2 then 10 else if form = 2 then 14 else 18
    let n := if form < 2 then 3 else if form = 2 then 4 else 5
    let size := bits h 4 w
    let packed := bits h (4 + w) w
    let r := bs.drop n
    let body := r.take packed
    if bs.length < n ∨ r.length < packed ∨ limit < size then none
    else
      let t : Option (ZTree × Nat) := if kind = 2 then zTreeRead body else tree.map fun t => (t, 0)
      t.bind fun e => (zStreams e.1 (decide (form ≠ 0)) size (body.drop e.2)).map fun ls => (ls, some e.1, r.drop packed)

/-! ## Sequences -/

/-- Base and bits of a literals length code. -/
def zLitCode (c : Nat) : Nat × Nat :=
  if c < 16 then (c, 0)
  else ([(16, 1), (18, 1), (20, 1), (22, 1), (24, 2), (28, 2), (32, 3), (40, 3), (48, 4), (64, 6), (128, 7), (256, 8), (512, 9),
    (1024, 10), (2048, 11), (4096, 12), (8192, 13), (16384, 14), (32768, 15), (65536, 16)] : List (Nat × Nat)).getD (c - 16) (0, 0)

/-- Base and bits of a match length code. -/
def zMatchCode (c : Nat) : Nat × Nat :=
  if c < 32 then (c + 3, 0)
  else ([(35, 1), (37, 1), (39, 1), (41, 1), (43, 2), (47, 2), (51, 3), (59, 3), (67, 4), (83, 4), (99, 5), (131, 7), (259, 8),
    (515, 9), (1027, 10), (2051, 11), (4099, 12), (8195, 13), (16387, 14), (32771, 15), (65539, 16)] : List (Nat × Nat)).getD
      (c - 32) (0, 0)

/-- A default distribution, -1 being a probability below one. -/
def zDefault (ps : List Int) : List (Option Nat) := ps.map fun p => if p < 0 then none else some p.toNat

/-- The default table of literals lengths. -/
def zLitDefault : List FseCell := fseTable 6 (zDefault
  [4, 3, 2, 2, 2, 2, 2, 2, 2, 2, 2, 2, 2, 1, 1, 1, 2, 2, 2, 2, 2, 2, 2, 2, 2, 3, 2, 1, 1, 1, 1, 1, -1, -1, -1, -1])

/-- The default table of match lengths. -/
def zMatchDefault : List FseCell := fseTable 6 (zDefault
  [1, 4, 3, 2, 2, 2, 2, 2, 2, 1, 1, 1, 1, 1, 1, 1, 1, 1, 1, 1, 1, 1, 1, 1, 1, 1, 1, 1, 1, 1, 1, 1, 1, 1, 1, 1, 1, 1, 1, 1, 1, 1,
   1, 1, 1, 1, -1, -1, -1, -1, -1, -1, -1])

/-- The default table of offsets. -/
def zOffDefault : List FseCell := fseTable 5 (zDefault
  [1, 1, 1, 1, 1, 1, 2, 2, 2, 1, 1, 1, 1, 1, 1, 1, 1, 1, 1, 1, 1, 1, 1, 1, -1, -1, -1, -1, -1])

/-- A table with its accuracy. -/
abbrev ZTable := List FseCell × Nat

/-- One of a block's three tables by its mode: the default, one symbol, a description, or the table before; and the bytes
after it. -/
def zTable (mode logMax most : Nat) (fixed : ZTable) (last : Option ZTable) (bs : List Byte) : Option (ZTable × List Byte) :=
  match mode with
  | 0 => some (fixed, bs)
  | 1 => match bs with
    | b :: r => if most < b.toNat then none else some (([(b.toNat, 0, 0)], 0), r)
    | [] => none
  | 2 => (fseRead logMax most bs).map fun e => ((e.1, e.2.1), bs.drop e.2.2)
  | _ => last.map fun t => (t, bs)

/-- The tables and offsets that a frame carries from block to block. -/
structure ZFrame where
  /-- The Huffman tree of the last compressed literals. -/
  tree : Option ZTree
  /-- Literals length table. -/
  lits : Option ZTable
  /-- Offset table. -/
  offs : Option ZTable
  /-- Match length table. -/
  mats : Option ZTable
  /-- The three last offsets. -/
  reps : Nat × Nat × Nat
  /-- The output, last byte first. -/
  out : List Byte
  /-- Its length. -/
  size : Nat
deriving DecidableEq, Repr

/-- The offset that a value names, and the three last offsets after it (RFC 8878, 3.1.1.5). -/
def zOffset (v lits : Nat) (r : Nat × Nat × Nat) : Nat × (Nat × Nat × Nat) :=
  if 3 < v then (v - 3, (v - 3, r.1, r.2.1))
  else
    let k := if lits = 0 then v else v - 1
    if k = 0 then (r.1, r)
    else if k = 1 then (r.2.1, (r.2.1, r.1, r.2.2))
    else
      let o := if k = 2 then r.2.2 else r.1 - 1
      (o, (o, r.1, r.2.1))

/-- `n` bytes copied from a distance back in an output kept last byte first. -/
def zCopy : Nat → Nat → List Byte → List Byte
  | 0, _, out => out
  | n + 1, d, out => zCopy n d (out.getD (d - 1) 0 :: out)

/-- A block's sequences run: literals still to take, tables, states of the three tables, and the frame; at the end the stream
must be used up. -/
def zSequences (window limit : Nat) (tl tf tm : List FseCell) :
    Nat → Nat × Nat × Nat → ZBack → List Byte → ZFrame → Option (List Byte × ZFrame)
  | 0, _, z, ls, f => if z.left = 0 then some (ls, f) else none
  | n + 1, (a, b, c), z, ls, f =>
    let el := tl.getD a (0, 0, 0)
    let eo := tf.getD b (0, 0, 0)
    let em := tm.getD c (0, 0, 0)
    let lc := zLitCode el.1
    let mc := zMatchCode em.1
    let ro := z.read eo.1
    ro.2.bind fun z1 =>
      let rm := z1.read mc.2
      rm.2.bind fun z2 =>
        let rl := z2.read lc.2
        rl.2.bind fun z3 =>
          let lits := lc.1 + rl.1
          let len := mc.1 + rm.1
          let o := zOffset (2 ^ eo.1 + ro.1) lits f.reps
          let size := f.size + lits
          if ls.length < lits ∨ o.1 = 0 ∨ size < o.1 ∨ window < o.1 ∨ limit < size + len then none
          else
            let g : ZFrame := { f with reps := o.2, out := zCopy len o.1 ((ls.take lits).reverse ++ f.out), size := size + len }
            if n = 0 then zSequences window limit tl tf tm 0 (0, 0, 0) z3 (ls.drop lits) g
            else
              let ra := z3.read el.2.1
              ra.2.bind fun z4 =>
                let rc := z4.read em.2.1
                rc.2.bind fun z5 =>
                  let rb := z5.read eo.2.1
                  rb.2.bind fun z6 =>
                    zSequences window limit tl tf tm n (el.2.2 + ra.1, eo.2.2 + rb.1, em.2.2 + rc.1) z6 (ls.drop lits) g

/-- The number of sequences of a block, and the bytes after it. -/
def zCount (bs : List Byte) : Option (Nat × List Byte) :=
  let h := fieldAt bs 0 1
  let n := if h < 128 then 1 else if h < 255 then 2 else 3
  if bs.length < n then none
  else some (if h < 128 then h else if h < 255 then (h - 128) * 256 + fieldAt bs 1 1 else fieldAt bs 1 2 + 0x7F00, bs.drop n)

/-- A compressed block. -/
def zBlock (window most : Nat) (bs : List Byte) (f : ZFrame) : Option ZFrame :=
  (zLiterals most f.tree bs).bind fun l =>
    let f1 : ZFrame := { f with tree := l.2.1 }
    let fin (e : List Byte × ZFrame) : Option ZFrame :=
      let size := e.2.size + e.1.length
      if f.size + most < size then none else some { e.2 with out := e.1.reverse ++ e.2.out, size := size }
    (zCount l.2.2).bind fun k =>
      if k.1 = 0 then (if k.2.isEmpty then fin (l.1, f1) else none)
      else
        match k.2 with
        | [] => none
        | m :: r =>
          if m.toNat % 4 ≠ 0 then none
          else
            (zTable (m.toNat / 64) 9 35 (zLitDefault, 6) f1.lits r).bind fun tl =>
              (zTable (m.toNat / 16 % 4) 8 31 (zOffDefault, 5) f1.offs tl.2).bind fun tf =>
                (zTable (m.toNat / 4 % 4) 9 52 (zMatchDefault, 6) f1.mats tf.2).bind fun tm =>
                  (ZBack.of tm.2).bind fun z =>
                    let a := z.read tl.1.2
                    a.2.bind fun z1 =>
                      let b := z1.read tf.1.2
                      b.2.bind fun z2 =>
                        let c := z2.read tm.1.2
                        c.2.bind fun z3 =>
                          (zSequences window (f.size + most) tl.1.1 tf.1.1 tm.1.1 k.1 (a.1, b.1, c.1) z3 l.1
                            { f1 with lits := some tl.1, offs := some tf.1, mats := some tm.1 }).bind fin

/-- The blocks of a frame, and the bytes after the last. -/
def zBlocks (window : Nat) : Nat → List Byte → ZFrame → Option (ZFrame × List Byte)
  | 0, _, _ => none
  | fuel + 1, bs, f =>
    let h := fieldAt bs 0 3
    let kind := bits h 1 2
    let size := h / 8
    let r := bs.drop 3
    let most := min window 131072
    if bs.length < 3 ∨ most < size ∨ 1048576 < f.size then none
    else
      let step : Option (ZFrame × List Byte) :=
        match kind with
        | 0 => if r.length < size then none
          else some ({ f with out := (r.take size).reverse ++ f.out, size := f.size + size }, r.drop size)
        | 1 => match r with
          | b :: r1 => some ({ f with out := List.replicate size b ++ f.out, size := f.size + size }, r1)
          | [] => none
        | 2 => if r.length < size then none else (zBlock window most (r.take size) f).map fun g => (g, r.drop size)
        | _ => none
      step.bind fun e => if bit h 0 then some e else zBlocks window fuel e.2 e.1

/-! ## The content checksum -/

/-- A product, a sum and a turn of 64 bits. -/
def xxMul (a b : Nat) : Nat := a * b % 18446744073709551616
/-- A sum of 64 bits. -/
def xxAdd (a b : Nat) : Nat := (a + b) % 18446744073709551616
/-- A turn to the left of 64 bits. -/
def xxTurn (v n : Nat) : Nat := (v <<< n ||| v >>> (64 - n)) % 18446744073709551616
/-- Primes 1 to 5 of XXH64. -/
def xxPrime (i : Nat) : Nat :=
  ([0x9E3779B185EBCA87, 0xC2B2AE3D27D4EB4F, 0x165667B19E3779F9, 0x85EBCA77C2B2AE63, 0x27D4EB2F165667C5] : List Nat).getD (i - 1) 0
/-- A lane of XXH64 with 8 bytes. -/
def xxRound (acc v : Nat) : Nat := xxMul (xxTurn (xxAdd acc (xxMul v (xxPrime 2))) 31) (xxPrime 1)

/-- The four lanes after the whole stripes of 32 bytes, and the bytes after them. -/
def xxStripes : Nat → List Byte → List Nat → List Nat × List Byte
  | 0, bs, acc => (acc, bs)
  | n + 1, bs, acc => xxStripes n (bs.drop 32) (acc.mapIdx fun i a => xxRound a (fieldAt bs (8 * i) 8))

/-- The last bytes of XXH64. -/
def xxTail : Nat → List Byte → Nat → Nat
  | 0, _, h => h
  | fuel + 1, bs, h =>
    if 8 ≤ bs.length then
      xxTail fuel (bs.drop 8) (xxAdd (xxMul (xxTurn (h ^^^ xxRound 0 (fieldAt bs 0 8)) 27) (xxPrime 1)) (xxPrime 4))
    else if 4 ≤ bs.length then
      xxTail fuel (bs.drop 4) (xxAdd (xxMul (xxTurn (h ^^^ xxMul (fieldAt bs 0 4) (xxPrime 1)) 23) (xxPrime 2)) (xxPrime 3))
    else
      match bs with
      | [] => h
      | b :: r => xxTail fuel r (xxMul (xxTurn (h ^^^ xxMul b.toNat (xxPrime 5)) 11) (xxPrime 1))

/-- XXH64 with seed 0. -/
def xxh64 (bs : List Byte) : Nat :=
  let big := decide (32 ≤ bs.length)
  let init := [xxAdd (xxPrime 1) (xxPrime 2), xxPrime 2, 0, 18446744073709551616 - xxPrime 1]
  let s := xxStripes (bs.length / 32) bs init
  let turned := ([(0, 1), (1, 7), (2, 12), (3, 18)] : List (Nat × Nat)).foldl
    (fun h e => xxAdd h (xxTurn (s.1.getD e.1 0) e.2)) 0
  let merged := s.1.foldl (fun h a => xxAdd (xxMul (h ^^^ xxRound 0 a) (xxPrime 1)) (xxPrime 4)) turned
  let h := xxTail 11 s.2 (xxAdd (if big then merged else xxPrime 5) bs.length)
  let h1 := xxMul (h ^^^ h >>> 33) (xxPrime 2)
  let h2 := xxMul (h1 ^^^ h1 >>> 29) (xxPrime 3)
  h2 ^^^ h2 >>> 32

/-! ## Frames -/

/-- A Zstandard frame decoded, if it is one frame within the limits of R227 that decodes. -/
@[irreducible] def zstd (bs : List Byte) : Option (List Byte) :=
  let d := fieldAt bs 4 1
  let single := bit d 5
  let winLen := if single then 0 else 1
  let dictLen := ([0, 1, 2, 4] : List Nat).getD (d % 4) 0
  let sizeLen := if d / 64 = 0 then (if single then 1 else 0) else 2 ^ (d / 64)
  let head := 5 + winLen + dictLen + sizeLen
  let w := fieldAt bs 5 1
  let content := fieldAt bs (5 + winLen + dictLen) sizeLen + (if d / 64 = 1 then 256 else 0)
  let window := if single then content else 2 ^ (10 + w / 8) + 2 ^ (7 + w / 8) * (w % 8)
  if bs.length < head ∨ fieldAt bs 0 4 ≠ 0xFD2FB528 ∨ bit d 3 = true ∨ fieldAt bs (5 + winLen) dictLen ≠ 0 ∨ 1048576 < window then
    none
  else
    (zBlocks window bs.length (bs.drop head)
      { tree := none, lits := none, offs := none, mats := none, reps := (1, 4, 8), out := [], size := 0 }).bind fun e =>
      let o := e.1.out.reverse
      let sumOk := if bit d 2 then decide (e.2.length = 4 ∧ fieldAt e.2 0 4 = xxh64 o % 4294967296) else e.2.isEmpty
      if sumOk && (decide (sizeLen = 0) || decide (e.1.size = content)) then some o else none

end Sys2Proof.Machine
end

