-- ==== Sys2Proof/Machine/Scans.lean ====
section
/-! DEFINITION. Scans of volume ranges: pages, records, terms, spans, sinks and their completion (R224 to R246). -/

namespace Sys2Proof.Machine

/-! ## Codecs (R226, R227) -/

/-- Further length bytes of an LZ4 sequence: the sum and the rest. -/
def lz4Ext : Nat → List Byte → Option (Nat × List Byte)
  | n, b :: r => if b = 255 then lz4Ext (n + 255) r else some (n + b.toNat, r)
  | _, [] => none

/-- Copy `n` bytes from a distance back; the output is kept last byte first. -/
def lz4Copy : Nat → Nat → List Byte → List Byte
  | 0, _, out => out
  | n + 1, d, out => lz4Copy n d (out.getD (d - 1) 0 :: out)

/-- An LZ4 block decoded, sequence by sequence (R227). -/
def lz4 : Nat → List Byte → List Byte → Option (List Byte)
  | 0, _, _ => none
  | _, [], _ => none
  | fuel + 1, t :: r, out =>
    let hi := t.toNat / 16
    let lo := t.toNat % 16
    match if hi = 15 then lz4Ext 15 r else some (hi, r) with
    | none => none
    | some (n, r1) =>
      if r1.length < n then none
      else
        let out1 := (r1.take n).reverse ++ out
        match r1.drop n with
        | [] => some out1.reverse
        | [_] => none
        | a :: b :: r2 =>
          let d := a.toNat + 256 * b.toNat
          match if lo = 15 then lz4Ext 19 r2 else some (lo + 4, r2) with
          | none => none
          | some (m, r3) =>
            if d = 0 ∨ out1.length < d ∨ 1048576 < out1.length + m then none else lz4 fuel r3 (lz4Copy m d out1)

/-- One bit of CRC-32C. -/
def crcBit (c : Word) : Word := if c.getLsbD 0 then (c >>> 1) ^^^ 0x82F63B78 else c >>> 1

/-- CRC-32C of bytes (R226). -/
def crc32c (bs : List Byte) : Word :=
  ~~~(bs.foldl (fun c b =>
    crcBit (crcBit (crcBit (crcBit (crcBit (crcBit (crcBit (crcBit (c ^^^ b.zeroExtend 32))))))))) 0xFFFFFFFF)

/-! ## Pages and records (R226, R228, R229) -/

/-- What lies at a position of a range. -/
inductive PageFound where
  /-- An empty 4 KiB. -/
  | empty
  /-- A bad page. -/
  | bad
  /-- Stored length and the records of a good page. -/
  | page (stored decoded : Nat) (recs : List (List Byte))
deriving DecidableEq, Repr

/-- Records laid back to back, exactly filling the content. -/
def splitRecords (kind fixed : Nat) : Nat → List Byte → Option (List (List Byte))
  | 0, bs => if bs.isEmpty then some [] else none
  | n + 1, bs =>
    let pre := if kind = 0 then 0 else if kind = 1 then 2 else 4
    let len := if kind = 0 then fixed else fieldAt bs 0 pre
    if bs.length < pre + len ∨ 1048576 < len ∨ bs.isEmpty = true then none
    else (splitRecords kind fixed n (bs.drop (pre + len))).map fun r => ((bs.drop pre).take len) :: r

/-- The bytes per span of a scan (R235). -/
def spanBytes : Nat := 67108864

/-- The page at a byte position of a scan's range (R226, R228). -/
def pageFound (v : Vol) (q : Scan) (pos : Nat) : PageFound :=
  let h := v.bytes (q.base + pos) 32
  if h.all fun b => decide (b = 0) then .empty
  else
    let codec := fieldAt h 4 1
    let flags := fieldAt h 5 1
    let stored := fieldAt h 8 4
    let dec := fieldAt h 12 4
    let stop := pos + 32 + stored
    if fieldAt h 0 4 ≠ 0x5CA29A6E ∨ 1 < flags ∨ fieldAt h 6 2 ≠ 0 ∨ fieldAt h 24 8 ≠ 0 ∨ 2 < codec ∨ dec = 0 ∨ 1048576 < dec ∨
        q.len < stop ∨ pos / spanBytes ≠ (stop - 1) / spanBytes then .bad
    else
      let body := v.bytes (q.base + pos + 32) stored
      let out := match codec with
        | 0 => some body
        | 1 => lz4 (stored + 1) body []
        | _ => zstd body
      match out with
      | none => .bad
      | some o =>
        if o.length ≠ dec ∨ (bit flags 0 = true ∧ (crc32c o).toNat ≠ fieldAt h 20 4) then .bad
        else
          match splitRecords q.kind q.fixed (fieldAt h 16 4) o with
          | some rs => .page stored dec rs
          | none => .bad

/-! ## Fields and terms (R230, R231) -/

/-- A field of a record, absent when it reaches past the end. -/
def fieldOf (kind : Nat) (f : Field) (r : List Byte) : Option (List Byte) :=
  if f.len = 0 ∧ kind ≠ 0 then (if f.off ≤ r.length then some (r.drop f.off) else none)
  else if f.off + f.len ≤ r.length then some ((r.drop f.off).take f.len) else none

/-- A term holds on a field's bytes (R231). -/
def scanTerm (ty : Nat) (t : Term) (bs : List Byte) : Bool :=
  let w := leNat bs
  let bitsN := 8 * bs.length
  let sv (x : Nat) : Int := signedOf bitsN x
  let fa := f32 (BitVec.ofNat 32 w)
  let fb := f32 (BitVec.ofNat 32 t.value)
  let order (lt eq : Bool) : Bool :=
    match t.op with
    | 2 => lt
    | 3 => lt || eq
    | 4 => !(lt || eq)
    | _ => !lt
  if t.op = 8 then
    let n := t.mask % 256
    decide (n ≤ bs.length) && decide (bs.take n = leBytes n t.value)
  else if t.op ≤ 1 ∨ 6 ≤ t.op then termHolds t.op w t.mask t.value
  else if ty ≤ 3 then termHolds t.op w t.mask t.value
  else if ty ≤ 7 then order (decide (sv w < sv t.value)) (decide (sv w = sv t.value))
  else !fa.isNan && !fb.isNan && order (Num.lt fa fb) (Num.eqv fa fb)

/-- A record matches when every term of one clause holds, or there are no terms (R231). -/
def recordMatches (q : Scan) (r : List Byte) : Bool :=
  let holds (t : Term) : Bool :=
    match q.fields[t.word]? with
    | some f => (fieldOf q.kind f r).any fun bs => scanTerm f.ty t bs
    | none => false
  q.terms.isEmpty || (List.range 16).any fun c =>
    (q.terms.any fun t => decide (t.clause = c)) && q.terms.all fun t => decide (t.clause ≠ c) || holds t

/-! ## Output records (R238 to R240) -/

/-- Bytes padded with zeros to a multiple. -/
def padTo (m : Nat) (bs : List Byte) : List Byte := bs ++ List.replicate (alignUp bs.length m - bs.length) 0

/-- The projected fields of a record. -/
def projected (q : Scan) (r : List Byte) : List Byte :=
  q.proj.flatMap fun i =>
    match (q.fields[i]?).bind fun f => fieldOf q.kind f r with
    | some bs => padTo 8 bs
    | none => List.replicate 8 0

/-- An output record of a page offset, an index and its fields (R238). -/
def outRecord (page index : Nat) (body : List Byte) : List Byte :=
  let all := padTo 16 (List.replicate 16 0 ++ body)
  leBytes 8 page ++ leBytes 4 index ++ leBytes 4 all.length ++ all.drop 16

/-- An output record is accepted, or the summary shows that one was cut off (R239, R240). -/
def acceptOut (q : Scan) (bs : List Byte) : Scan :=
  let full := decide (q.limit ≠ 0 ∧ q.limit ≤ q.sum.output) ||
    ((q.sink == 2 || q.sink == 4) && decide (q.outLen < q.written + q.segment.length + bs.length))
  if full then { q with sum := { q.sum with truncated := true } }
  else { q with segment := q.segment ++ bs, sum := { q.sum with output := q.sum.output + 1 } }

/-- An output record into a list kept by page and index. -/
def insertOut (x : List Byte) : List (List Byte) → List (List Byte)
  | [] => [x]
  | y :: r =>
    if fieldAt x 0 8 < fieldAt y 0 8 ∨ (fieldAt x 0 8 = fieldAt y 0 8 ∧ fieldAt x 8 4 < fieldAt y 8 4) then x :: y :: r
    else y :: insertOut x r

/-- A span has a sequence still outstanding. -/
def spanWaits (q : Scan) (i : Nat) : Bool := q.seqs.any fun z => decide ((z.2.page - q.base) / spanBytes = i)

/-- Spans release their output: at once, or in volume order (R236). -/
def releaseSpans (q : Scan) : Nat → Nat → Scan
  | 0, _ => q
  | n + 1, i =>
    match Tbl.get? q.spans i with
    | none => q
    | some z =>
      let ordered := bit q.flags 1
      if ordered && !z.released && (!z.done || spanWaits q i) then q
      else
        let out := if ordered then z.out.foldl (fun acc x => insertOut x acc) [] else z.out
        let q1 := out.foldl acceptOut q
        releaseSpans { q1 with spans := Tbl.set i { z with out := [], released := z.done && !spanWaits q i } q1.spans } n (i + 1)

/-- Length of the leading whole records that one segment of 1 MiB holds (R239). -/
def segmentCut : Nat → Nat → List Byte → Nat
  | 0, n, _ => n
  | fuel + 1, n, bs =>
    let len := fieldAt bs 12 4
    if bs.isEmpty = true ∨ len = 0 ∨ 1048576 < n + len then n else segmentCut fuel (n + len) (bs.drop len)

/-- Output segments leave while there is credit; a part segment leaves only at the end (R239). -/
def sendSegments (n : Nat) (final : Bool) : Nat → State → State
  | 0, s => s
  | fuel + 1, s =>
    match Tbl.get? s.scans n, s.live? n with
    | some q, some l =>
      if q.segment.isEmpty || decide (q.window ≤ q.unreturned) || (!final && decide (q.segment.length < 1048576)) then s
      else
        let k := segmentCut (q.segment.length / 16 + 1) 0 q.segment
        let dst := ((match l.c.origin with
          | .fabric node _ => node
          | _ => 0) : BitVec 20)
        let u : OutUnit :=
          { OutUnit.base 3 2 s.sys.node dst (1 + (k + 31) / 32) with
            tag := l.c.tag, detail := q.written, count := k, data := q.segment.take k }
        let q' : Scan := { q with segment := q.segment.drop k, written := q.written + k, unreturned := q.unreturned + 1 }
        sendSegments n final fuel (sendUnit u { s with scans := Tbl.set n q' s.scans })
    | _, _ => s

/-- A scan stops with a status and a detail (R228, R246). -/
def stopScan (n : Nat) (st : Half) (detail : Nat) (s : State) : State :=
  { s with
    scans := Tbl.modify n (fun q => if q.stop.isSome then q else { q with stop := some (st, detail) }) s.scans
    tasks := s.tasks.filter fun t => decide (¬ (t.cmd = n ∧ t.kind = .scan)) }

/-- Accepted output is sent or written (R239, R240). -/
def flushScan (n : Nat) (final : Bool) (s : State) : State :=
  match Tbl.get? s.scans n, s.live? n with
  | some q, some l =>
    if q.sink = 1 then sendSegments n final (q.segment.length / 16 + 1) s
    else if (q.sink = 2 ∨ q.sink = 4) ∧ q.segment ≠ [] then
      let p := l.c.partition.toNat
      let at_ := q.outBase + q.written
      let a := writeRange p at_ q.segment l.c.context (pagesOf at_ q.segment.length) 0 s
      match a.2.2 with
      | .ok =>
        { a.1 with scans := Tbl.modify n (fun x =>
            { x with segment := [], written := x.written + q.segment.length }) a.1.scans }
      | .wait => a.1
      | .unmapped => stopScan n St.badParam 0 a.1
      | .poisoned => stopScan n St.lowerTierFailed 0 a.1
    else s
  | _, _ => s

/-! ## Sequences of an endpoint (R241) -/

/-- Bytes of staging that a sequence takes: its prompt and its output (R241). -/
def seqStaging (q : Scan) (dim : Nat) (z : ScanSeq) : Nat := 4 * z.tokens + 4 * (if q.sink = 3 then dim else q.scores)

/-- Sequences not yet submitted enter the endpoint while it and staging have room (R241). -/
def feedScan (n : Nat) : Nat → State → State
  | 0, s => s
  | fuel + 1, s =>
    match Tbl.get? s.scans n with
    | none => s
    | some q =>
      match Tbl.find? (fun _ z => !z.fed) q.seqs, Tbl.get? s.endpoints q.endpoint with
      | some (i, z), some e =>
        let dim := ((s.col? q.col.toNat).map Col.dim).getD 0
        let used := ((q.seqs.filter fun y => y.2.fed).map fun y => seqStaging q dim y.2).sum
        if e.limit ≤ e.seqs.length ∨ spanBytes < used + seqStaging q dim z ∨ q.stop.isSome = true then s
        else
          let q' : Scan := { q with seqs := Tbl.set i { z with fed := true } q.seqs }
          feedScan n fuel (addSeq q.endpoint none (some (n, i)) 0 z.tokens 0 0 { s with scans := Tbl.set n q' s.scans })
      | _, _ => s

/-- Every scan feeds its endpoint. -/
def feedScans (s : State) : State :=
  foldOver (s.scans.map fun e => (e.1, e.2.seqs.length)) (fun x acc => feedScan x.1 x.2 acc) s

/-! ## SCN_RUN (R233, R234) -/

/-- Whether an op may test a field type (R231). -/
def opFits (op ty mask : Nat) : Bool :=
  if op = 8 then ty == 9 && decide (1 ≤ mask % 256 ∧ mask % 256 ≤ 8)
  else if op ≤ 5 then decide (ty ≤ 8)
  else decide (ty ≤ 7)

/-- The width that a field type must have; none for BYTES and U32ARRAY (R230). -/
def typeWidth (ty : Nat) : Option Nat :=
  match ty with
  | 0 => some 1
  | 1 => some 2
  | 2 => some 4
  | 3 => some 8
  | 4 => some 1
  | 5 => some 2
  | 6 => some 4
  | 7 => some 8
  | 8 => some 4
  | _ => none

/-- The length fits the field type: the type's own width, or for BYTES and U32ARRAY what R230 allows. -/
def lengthFits (kind ty len : Nat) : Bool :=
  match typeWidth ty with
  | some k => decide (len = k)
  | none => decide (ty ≤ 10) && (decide (0 < len) || decide (kind ≠ 0)) && (decide (ty = 9) || decide (len % 4 = 0))

/-- A field entry, or none when a reserved bit or its type or length is wrong (R230). -/
def readField (kind w : Nat) : Option Field :=
  if bits w 36 28 = 0 ∧ lengthFits kind (bits w 32 4) (bits w 16 16) = true then
    some { off := bits w 0 16, len := bits w 16 16, ty := bits w 32 4 }
  else none

/-- The scan that a payload describes, or none when R234 refuses it on the payload alone. -/
def readScan (n : Nat) (c : Capsule) (bs : List Byte) : Option Scan :=
  let tc := fieldAt bs 2 1
  let pc := fieldAt bs 3 1
  let kind := fieldAt bs 64 1
  let fc := fieldAt bs 68 1
  let fsec := alignUp (16 + 8 * fc) 64
  let tsec := alignUp (24 * tc) 64
  let fields := (List.range fc).filterMap fun i => readField kind (fieldAt bs (80 + 8 * i) 8)
  let tw (i : Nat) : Nat := fieldAt bs (64 + fsec + 24 * i) 8
  let terms := (List.range tc).map fun i =>
    ({ word := bits (tw i) 0 8, op := bits (tw i) 8 8, clause := bits (tw i) 16 4, mask := fieldAt bs (64 + fsec + 24 * i + 8) 8,
       value := fieldAt bs (64 + fsec + 24 * i + 16) 8 } : Term)
  let prj := (List.range 16).map fun i => fieldAt bs (64 + fsec + tsec + i) 1
  let q : Scan :=
    { cmd := n, vol := c.object, base := c.offset.toNat, len := c.length.toNat, sink := fieldAt bs 0 1, flags := fieldAt bs 1 1,
      keyField := fieldAt bs 4 1, tokField := fieldAt bs 5 1, scores := fieldAt bs 6 1,
      col := BitVec.ofNat 32 (fieldAt bs 8 4), endpoint := fieldAt bs 12 4, outBase := fieldAt bs 16 8, outLen := fieldAt bs 24 8,
      limit := fieldAt bs 32 8, threshold := BitVec.ofNat 32 (fieldAt bs 40 4), topN := fieldAt bs 44 4, window := fieldAt bs 48 2,
      kind := kind, fixed := fieldAt bs 66 2, fields := fields, terms := terms, proj := prj.take pc,
      spans := (List.range ((c.length.toNat + spanBytes - 1) / spanBytes)).map fun i =>
        (i, { pos := i * spanBytes, placed := false, done := false, released := false, out := [] }),
      sum := {}, written := 0, unreturned := 0, segment := [], seqs := [], nextSeq := 0, top := [], stop := none, frames := 0 }
  let typed (i ty : Nat) : Bool := (q.fields[i]?).any fun f => decide (f.ty = ty)
  let ok := decide (q.sink ≤ 5 ∧ q.flags < 8 ∧ tc ≤ 64 ∧ pc ≤ 16 ∧ kind ≤ 2 ∧ 1 ≤ fc ∧ fc ≤ 32 ∧ fields.length = fc ∧
      c.dataLen.toNat = 64 + fsec + tsec + 16 ∧ fieldAt bs 7 1 = 0 ∧ fieldAt bs 65 1 = 0 ∧ (kind ≠ 0 ∨ 1 ≤ q.fixed)) &&
    (sliceBytes bs 50 14).all (fun b => decide (b = 0)) && (sliceBytes bs 69 11).all (fun b => decide (b = 0)) &&
    (List.range tc).all (fun i => decide (bits (tw i) 20 44 = 0)) &&
    terms.all (fun t => decide (t.op ≤ 8) && (fields[t.word]?).any fun f => opFits t.op f.ty t.mask) &&
    (prj.take pc).all (fun i => decide (i < fc)) && (prj.drop pc).all (fun i => decide (i = 0xFF)) &&
    (decide (q.sink ≠ 1) || decide (1 ≤ q.window ∧ q.window ≤ 256 ∧ isCtlq c.origin = false)) &&
    (!(decide (q.sink = 2 ∨ q.sink = 4)) || decide (q.outBase % 64 = 0)) &&
    (decide (q.sink < 3) || typed q.tokField 10) && (decide (q.sink ≠ 3) || typed q.keyField 3) &&
    (decide (q.sink < 4) || decide (1 ≤ q.scores ∧ q.scores ≤ 16)) && (decide (q.sink ≠ 4) || decide (q.topN ≤ 65536))
  if ok then some q else none

/-- The places a scan names outside its payload: output area, endpoint, collection (R234, R240). -/
def scanTargets (s : State) (c : Capsule) (q : Scan) : Verdict :=
  let p := c.partition.toNat
  firstBad
    [must (decide (q.sink ≠ 2 ∧ q.sink ≠ 4) ||
       (decide (0 < q.outLen ∧ q.outBase + q.outLen ≤ 2 ^ 48) && allMapped s p (pagesOf q.outBase q.outLen))) St.badParam,
     must (decide (q.sink < 3) || Tbl.has s.endpoints q.endpoint) St.badParam,
     must (decide (q.sink < 3) || (Tbl.get? s.endpoints q.endpoint).any fun e => decide (e.part.val = p)) St.notPermitted,
     must (decide (q.sink ≠ 3) || (s.col? q.col.toNat).isSome) St.badParam,
     must (decide (q.sink ≠ 3) || (s.col? q.col.toNat).any fun k => decide (k.part.val = p)) St.notPermitted,
     must (decide (q.sink ≠ 3) || (s.col? q.col.toNat).any fun k =>
       k.codebook.isSome && k.centroids.isSome && decide (k.attrs ≤ q.proj.length) &&
         (q.proj.take k.attrs).all fun i => (q.fields[i]?).any fun f => decide (f.ty ≤ 8)) St.badParam,
     must (decide (q.sink ≠ 3) || !s.statusBit Sb.readOnly) St.mediaExhausted]

/-- Checks of SCN_RUN at its arrival (R233, R234). -/
def scnRunCheck (c : Capsule) (s : State) : Verdict :=
  firstBad
    [must ((rightsOf s c.origin).1.getLsbD (3 * c.partition.toNat)) St.notPermitted,
     must ((s.vol? c.object.toNat).any fun v =>
       decide (c.offset.toNat % 4096 = 0 ∧ c.length.toNat % 4096 = 0 ∧ 0 < c.length.toNat ∧
         c.offset.toNat + c.length.toNat ≤ v.size ∧ 144 ≤ c.dataLen.toNat)) St.badParam]

/-- The payload of SCN_RUN has landed: it is checked, staging is pinned, and its spans wait for engines (R234, R235, R241). -/
def scnRunLanded (n : Nat) (s : State) : State :=
  match s.live? n with
  | none => s
  | some l =>
    match readScan n l.c l.data with
    | none => fail n St.badParam 0 s
    | some q =>
      match scanTargets s l.c q with
      | some v => fail n v.1 v.2 s
      | none =>
        let p := l.c.partition.toNat
        let d := endpointDie s q.endpoint
        let need := if 3 ≤ q.sink then 32 else 0
        let room := decide (pinnedPages s p + (s.part p).pinned + need ≤ (s.part p).pinLimit)
        let f := if need = 0 then (s, some true) else if room then pinFrames d need p s else (s, none)
        let go (s : State) : State :=
          let s1 := (s.modDie d fun x => { x with otherFrames := x.otherFrames + need }).modPart p fun x =>
            { x with pinned := x.pinned + need }
          let s2 := s1.modLive n fun x => { x with phase := .running, segs := [] }
          foldOver (q.spans.map Prod.fst) (fun i acc => addTask (mkTask .scan p l.c.context false n l.admitted [] i) acc)
            { s2 with scans := Tbl.set n { q with frames := need } s2.scans }
        withFrames n go f

/-! ## Pages, spans and sequences (R228, R235 to R244) -/

/-- One record of a page: counted, and handed to the sink when it matches (R231, R237, R241). -/
def takeRecord (span page : Nat) (q : Scan) (x : Nat × List Byte) : Scan :=
  let q0 : Scan := { q with sum := { q.sum with seen := q.sum.seen + 1 } }
  if !recordMatches q x.2 then q0
  else
    let q1 : Scan := { q0 with sum := { q0.sum with matched := q0.sum.matched + 1 } }
    if q.sink = 0 then { q1 with sum := { q1.sum with output := q1.sum.output + 1 } }
    else if q.sink ≤ 2 then
      { q1 with spans := Tbl.modify span (fun z => { z with out := z.out ++ [outRecord page x.1 (projected q x.2)] }) q1.spans }
    else
      let toks := (q.fields[q.tokField]?).bind fun f => fieldOf q.kind f x.2
      let nt := (toks.map fun b => b.length / 4).getD 0
      if nt = 0 then { q1 with sum := { q1.sum with failed := q1.sum.failed + 1 } }
      else
        let val (i : Nat) : Nat := (((q.fields[i]?).bind fun f => fieldOf q.kind f x.2).map leNat).getD 0
        let z : ScanSeq :=
          { attrs := q.proj.map fun i => BitVec.ofNat 64 (val i), key := val q.keyField, page := page, index := x.1,
            proj := projected q x.2, tokens := nt, fed := false, ended := none }
        { q1 with seqs := Tbl.set q1.nextSeq z q1.seqs, nextSeq := q1.nextSeq + 1 }

/-- A bad or unreadable page is counted, and the span ends there (R228). -/
def badPage (span pos : Nat) (q : Scan) : Scan :=
  { q with
    spans := Tbl.modify span (fun z => { z with pos := min q.len ((span + 1) * spanBytes) }) q.spans
    sum := { q.sum with bad := q.sum.bad + 1, firstBad := some (q.sum.firstBad.getD (q.base + pos)) } }

/-- The engines of the scan pause: output waits for credit or a page, or records wait for the endpoint (R239, R241). -/
def scanPaused (q : Scan) : Bool :=
  (q.sink == 1 && decide (1048576 ≤ q.segment.length)) || ((q.sink == 2 || q.sink == 4) && !q.segment.isEmpty) ||
    (decide (3 ≤ q.sink) && q.seqs.any fun z => !z.2.fed)

/-- SCAN_PAGE: an engine reads, decodes and filters the next page of a span it holds (R228). -/
def scanPage (n span : Nat) (readable : Bool) (s0 : State) : State :=
  let s := feedScan n 65536 (flushScan n false s0)
  match Tbl.get? s.scans n, s.live? n with
  | some q, some l =>
    match Tbl.get? q.spans span, s.vol? q.vol.toNat with
    | some z, some v =>
      if !(s.scanHeld.any fun h => decide (h.2.cmd = n ∧ h.2.item = span)) || z.done || q.stop.isSome || scanPaused q ||
          decide (min q.len ((span + 1) * spanBytes) ≤ z.pos) then s
      else if q.sink = 3 ∧ s.statusBit Sb.readOnly = true then stopScan n St.mediaExhausted 0 s
      else
        let put (q : Scan) (s : State) : State :=
          feedScan n 65536 (flushScan n false { s with scans := Tbl.set n (releaseSpans q q.spans.length 0) s.scans })
        let det := z.pos / 4096 % 4294967296
        if !readable || v.unreadable (q.base + z.pos) 4096 then
          (if bit q.flags 2 then put (badPage span z.pos q) s else stopScan n St.mediaUncorrectable det s)
        else
          match pageFound v q z.pos with
          | .empty =>
            put { q with
              spans := Tbl.set span { z with pos := z.pos + 4096 } q.spans
              sum := { q.sum with empty := q.sum.empty + 1, flash := q.sum.flash + 4096 } } s
          | .bad => if bit q.flags 0 then stopScan n St.badParam det s else put (badPage span z.pos q) s
          | .page stored dec recs =>
            let step := alignUp (32 + stored) 4096
            if v.unreadable (q.base + z.pos) step then
              (if bit q.flags 2 then put (badPage span z.pos q) s else stopScan n St.mediaUncorrectable det s)
            else
              let q1 : Scan :=
                { q with
                  spans := Tbl.set span { z with pos := z.pos + step } q.spans
                  sum := { q.sum with pages := q.sum.pages + 1, flash := q.sum.flash + step, decoded := q.sum.decoded + dec } }
              let q2 := (recs.mapIdx fun i r => (i, r)).foldl (takeRecord span (q.base + z.pos)) q1
              let s1 := foldOver (unitsOf (q.base + z.pos) step) (fun u acc => countRead (v.entry u) acc) s
              put q2 (s1.count l.c.context.toNat fun k => { k with flashRead := k.flashRead + step })
    | _, _ => s
  | _, _ => s

/-- SPAN_COMPLETE: a span at its end, or of a scan that stops, leaves its engine (R236, R246). -/
def spanComplete (n span : Nat) (s : State) : State :=
  match Tbl.get? s.scans n with
  | none => s
  | some q =>
    match Tbl.get? q.spans span with
    | none => s
    | some z =>
      if (s.scanHeld.any fun h => decide (h.2.cmd = n ∧ h.2.item = span)) && !z.done &&
          (q.stop.isSome || decide (min q.len ((span + 1) * spanBytes) ≤ z.pos)) then
        let q1 : Scan := { q with spans := Tbl.set span { z with done := true } q.spans }
        flushScan n false (releaseScan n span { s with scans := Tbl.set n (releaseSpans q1 q1.spans.length 0) s.scans })
      else s

/-- A top record inserted: highest score first, ties to the lower page and index (R243). -/
def insertTop (x : TopRec) : List TopRec → List TopRec
  | [] => [x]
  | y :: r =>
    let tie := !Num.lt (f32 x.score) (f32 y.score) && !Num.lt (f32 y.score) (f32 x.score)
    if Num.lt (f32 y.score) (f32 x.score) || (tie && decide (x.page < y.page ∨ (x.page = y.page ∧ x.index < y.index))) then x :: y :: r
    else y :: insertTop x r

/-- The class of a record: the largest score, ties to the lower index, NaN never (R243). -/
def classOf (ws : List Word) : Option Nat :=
  let cs := (ws.mapIdx fun i w => (i, w)).filter fun e => !(f32 e.2).isNan
  match cs with
  | [] => none
  | x :: r => some (r.foldl (fun a b => if Num.lt (f32 a.2) (f32 b.2) then b else a) x).1

/-- A finished sequence's record is inserted, scored or classified (R242, R243). -/
def takeResult (z : ScanSeq) (out : List Word) (q : Scan) (s : State) : Scan × State :=
  let failed : Scan := { q with sum := { q.sum with failed := q.sum.failed + 1 } }
  let counted : Scan := { q with sum := { q.sum with output := q.sum.output + 1 } }
  if q.sink = 3 then
    match s.col? q.col.toNat with
    | none => (failed, s)
    | some k =>
      let v := (List.range k.dim).map fun i => out.getD i 0
      if anyNonfinite v || (decide (k.dist = 1) && (f32 (vecNorm v)).isZero) || decide (k.limit ≤ k.items.length) then (failed, s)
      else
        let e : NewItem :=
          { id := z.key, parcel := none, attrs := z.attrs.take k.attrs, vec := v,
            raw := packCodes k.fmt (v.map fun w => (toElem k.fmt (f32 w)).1) }
        (counted, s.modCol q.col.toNat (insertItems k.pending [e]))
  else if q.sink = 4 then
    let sc := (List.range q.scores).map fun i => out.getD i 0
    let s0 := f32 (sc.headD 0)
    if s0.isNan || (f32 q.threshold).isNan || Num.lt s0 (f32 q.threshold) then (q, s)
    else
      let rec_ := outRecord z.page z.index (z.proj ++ padTo 16 (wordsBytes sc))
      if q.topN = 0 then
        ({ q with spans := Tbl.modify ((z.page - q.base) / spanBytes) (fun y => { y with out := y.out ++ [rec_] }) q.spans }, s)
      else
        ({ q with top := (insertTop { score := sc.headD 0, page := z.page, index := z.index, bytes := rec_ } q.top).take q.topN }, s)
  else
    match classOf ((List.range q.scores).map fun i => out.getD i 0) with
    | none => (failed, s)
    | some i => ({ counted with sum := { counted.sum with classes := Tbl.set i (Tbl.getD q.sum.classes i 0 + 1) q.sum.classes } }, s)

/-- SCAN_SEQUENCE_FINISH: a sequence that has ended hands its outputs over (R242 to R244). -/
def scanSeqFinish (n i : Nat) (out : List Word) (s : State) : State :=
  match Tbl.get? s.scans n with
  | none => s
  | some q =>
    match Tbl.get? q.seqs i with
    | none => s
    | some z =>
      match z.ended with
      | none => s
      | some st =>
        let q0 : Scan := { q with seqs := Tbl.erase i q.seqs }
        let r :=
          if q.sink = 3 ∧ s.statusBit Sb.readOnly = true then (q0, stopScan n St.mediaExhausted 0 s)
          else if st = St.ok then takeResult z out q0 s
          else
            ({ q0 with sum := { q0.sum with failed := q0.sum.failed + 1,
                                            status := if q0.sum.status = St.ok then st else q0.sum.status } }, s)
        let stop := ((Tbl.get? r.2.scans n).map Scan.stop).getD none
        let q1 : Scan := { r.1 with stop := stop }
        feedScan n 65536 (flushScan n false { r.2 with scans := Tbl.set n (releaseSpans q1 q1.spans.length 0) r.2.scans })

/-! ## Completion (R245, R246) -/

/-- The summary of R245, 224 bytes. -/
def summaryBytes (q : Scan) : List Byte :=
  let m := q.sum
  leBytes 8 m.pages ++ leBytes 8 m.empty ++ leBytes 8 m.bad ++ leBytes 8 (m.firstBad.getD 0xFFFFFFFFFFFFFFFF) ++ leBytes 8 m.seen ++
    leBytes 8 m.matched ++ leBytes 8 m.output ++ leBytes 8 m.failed ++ leBytes 8 m.flash ++ leBytes 8 m.decoded ++
    leBytes 2 m.status.toNat ++ leBytes 1 (if m.truncated then 1 else 0) ++ List.replicate 13 0 ++
    ((List.range 16).flatMap fun i => leBytes 8 (Tbl.getD m.classes i 0))

/-- Every span of the scan has ended, or none is on an engine once it stops. -/
def scanEnded (s : State) (n : Nat) (q : Scan) : Bool :=
  !(s.scanHeld.any fun h => decide (h.2.cmd = n)) &&
    (q.stop.isSome || ((q.spans.all fun z => z.2.done) && q.seqs.isEmpty))

/-- SCAN_COMPLETE: the last output leaves and the summary answers the command (R243, R245, R246). -/
def scanComplete (n : Nat) (s : State) : State :=
  match Tbl.get? s.scans n, s.live? n with
  | some q, some l =>
    if !scanEnded s n q then s
    else
      match q.stop with
      | some (st, d) => fail n st d (stopWork n s)
      | none =>
        let q1 := (q.top.map TopRec.bytes).foldl acceptOut { q with top := [] }
        let s1 := flushScan n true { s with scans := Tbl.set n q1 s.scans }
        match Tbl.get? s1.scans n with
        | none => s1
        | some q2 =>
          if !q2.segment.isEmpty || q2.stop.isSome then s1
          else
            let pos := if q2.sink = 1 ∧ isCtlq l.c.origin = false then q2.written else 0
            succeed n 0 [(pos, summaryBytes q2)] (stopWork n s1)
  | _, _ => s

/-- The running scan that an origin names by its tag. -/
def scanNamed (s : State) (o : Origin) (tag : Word) : Option Nat :=
  match findTag s o (BitVec.ofNat 16 tag.toNat) with
  | some n => if tag.toNat < 65536 ∧ Tbl.has s.scans n = true then some n else none
  | none => none

/-- Checks of SCN_CANCEL, SCN_STATUS and SCN_CREDIT: the tag names a running scan of the same origin (R232). -/
def scnNamedCheck (c : Capsule) (s : State) : Verdict := must (scanNamed s c.origin c.p0).isSome St.badParam

/-- SCN_CANCEL stops a scan; it completes with ST_ABORTED_RESET, detail 1 (R232, R246). -/
def scnCancelStart (n : Nat) (s : State) : State :=
  match s.live? n with
  | none => s
  | some l =>
    match scanNamed s l.c.origin l.c.p0 with
    | some k => succeed n 0 [] (stopScan k St.abortedReset 1 s)
    | none => fail n St.badParam 0 s

/-- SCN_STATUS returns the summary as it stands (R232). -/
def scnStatusStart (n : Nat) (s : State) : State :=
  match s.live? n with
  | none => s
  | some l =>
    match (scanNamed s l.c.origin l.c.p0).bind fun k => Tbl.get? s.scans k with
    | some q => succeed n 0 [(0, summaryBytes q)] s
    | none => fail n St.badParam 0 s

/-- SCN_CREDIT returns segments; an excess is ignored and logged as a violation (R239, R246). -/
def scnCreditStart (n : Nat) (s : State) : State :=
  match s.live? n with
  | none => s
  | some l =>
    match scanNamed s l.c.origin l.c.p0 with
    | none => fail n St.badParam 0 s
    | some k =>
      let give := l.c.p1.toNat
      let out := ((Tbl.get? s.scans k).map Scan.unreturned).getD 0
      let s1 : State := { s with scans := Tbl.modify k (fun q => { q with unreturned := q.unreturned - give }) s.scans }
      let s2 := succeed n 0 [] (flushScan k false s1)
      if out < give then
        (match fabricOf l.c.origin with
          | some (_, link) => violation link 246 s2
          | none => s2)
      else s2

end Sys2Proof.Machine
end

