-- ==== Sys2Proof/Machine/Links.lean ====
section
/-! DEFINITION. The optical links and the relay (chapter 11): states and training, flits, acknowledgements and replay,
wavelength shedding, credits, the relay, encryption, quarantine, counters and the link commands. -/

namespace Sys2Proof.Machine

/-! ## Masks and rings (R278 to R282) -/

/-- Bits set of a mask of wavelengths: its width (R280). -/
def maskWidth (m : Word) : Nat := ((List.range 32).filter fun i => m.getLsbD i).length

/-- The mask cut to its lowest n set bits. -/
def maskTake (n : Nat) (m : Word) : Word :=
  (((List.range 32).filter fun i => m.getLsbD i).take n).foldl (fun acc i => acc ||| (1#32 <<< i)) 0

/-- A saturating 32-bit counter counts on (R307). -/
def sat32 (n k : Nat) : Nat := min (n + k) 4294967295

/-- A link's counters change. -/
def countLink (l : Nat) (f : LinkCtr → LinkCtr) (s : State) : State := s.modLink l fun x => { x with ctr := f x.ctr }

/-- A ring: transmit 0–31, receive 32–63. -/
def Link.ring (x : Link) (r : Nat) : Ring := Tbl.getD x.rings r Ring.fresh

/-- The link with a ring changed. -/
def Link.modRing (r : Nat) (f : Ring → Ring) (x : Link) : Link := { x with rings := Tbl.put Ring.fresh r (f (x.ring r)) x.rings }

/-- A wavelength's shedding record, transmit 0–31, receive 32–63. -/
def Link.shed (x : Link) (i : Nat) : Shed := Tbl.getD x.sheds i Shed.fresh

/-- Whether every ring that is not marked failed is locked. -/
def Link.ringsLocked (x : Link) : Bool := (List.range 64).all fun r => (x.ring r).locked || (x.ring r).failed

/-- The laser input of λ0–λ7 spread over the four lanes (R278, R279). -/
def laserMask (l : BitVec 8) : Word := (List.range 32).foldl (fun m i => if l.getLsbD (i % 8) then m ||| (1#32 <<< i) else m) 0

/-- Wavelengths of one side whose ring is marked failed, or that are held out (R282, R292). -/
def Link.barred (x : Link) (now lo : Nat) : Word :=
  (List.range 32).foldl (fun m i =>
    if (x.ring (lo + i)).failed || decide (now < (x.shed (lo + i)).until_) then m ||| (1#32 <<< i) else m) 0

/-! ## Going down (R286, R299, R309) -/

/-- What carried a link down (the detail of LINK_DOWN; the codes are the model's own, log 13). -/
def downReplays : Nat := 1
def downWidth : Nat := 2
def downIdle : Nat := 3
def downNotice : Nat := 4
def downTags : Nat := 5
def downCounter : Nat := 6
def downControl : Nat := 7
def downClock : Nat := 8

/-- A unit that waited to leave on a link that is gone: an answer is routed again, a relayed unit is dropped and
answered, a segment's command ends with ST_LINK_DOWN (R299, R301, R309). -/
def strand (us : List OutUnit) (u : OutUnit) (s : State) : State :=
  let cutData := us.filter fun v => decide (v.kind = 3 ∧ v.dst = u.dst ∧ v.tag = u.tag)
  if u.inLink.isSome then
    let s1 := dropRelay u s
    if u.cls = 1 ∧ u.sent = 0 ∧ 32 ≤ u.data.length then
      answerDropped (BitVec.ofNat 20 (bits (fieldAt u.data 0 8) 20 20)) (BitVec.ofNat 16 (bits (fieldAt u.data 0 16) 72 16))
        (BitVec.ofNat 16 (bits (fieldAt u.data 0 16) 88 16)) 1 s1
    else s1
  else if u.kind = 1 then
    let v : OutUnit := if cutData.isEmpty then u
      else { u with status := St.linkDown, count := u.count - (cutData.map OutUnit.count).sum }
    (match routeTo s u.dst with
      | some k => queueUnit k { v with sent := 0 } s
      | none =>
        (match u.cmd with
          | some n => { s with cmds := Tbl.erase n s.cmds }
          | none => s))
  else if u.kind = 2 then sendUnit { u with sent := 0 } s
  else if u.kind = 3 then
    (match Tbl.find? (fun _ x => decide (x.c.tag = u.tag ∧ originId x.c.origin = (3, u.dst)) && x.open) s.cmds with
      | some (n, _) => abort n St.linkDown s
      | none => s)
  else s

/-- SHD_EVENTs whose node was reached over a link are dropped and logged (R136). -/
def dropEvents (l : Nat) (before s : State) : State :=
  foldOver (s.fabric.issued.filter fun i => decide (i.op = 0x0413) && decide (routeTo before i.dst = some l))
    (fun i acc => eventOver i.object.toNat i.info (addLog Lc.cqEventLost 0x50000000 noUnit 0 [i.dst.toNat] acc)) s

/-- An UP or QUARANTINED link goes down: units open on it are aborted, the replay buffer is discarded, credits fall to
zero and LINK_DOWN is logged; then it waits to be trained, or is DARK without laser light (R286). -/
def linkDown (l cause : Nat) (s : State) : State :=
  let k := s.link l
  if k.st ≠ .up ∧ k.st ≠ .quarantined then s
  else
    let s1 := abortInputs l (logLink Lc.linkDown l [k.peer.toNat, cause] s)
    let s2 := s1.modLink l fun x =>
      { x with
        txMask := 0, rxMask := 0, laneAsk := none, laneAt := none, peer := 0, encrypted := false, nacked := false,
        replay := [], resend := false, replayFails := 0, unacked := 0, credits := [], owed := [], stalled := [],
        waiting := [], filling := [], trying := false, fails := 0, nextTry := s.sys.time,
        nextFull := !x.ringsLocked, ctr := { x.ctr with downs := sat32 x.ctr.downs 1 } }
    let s3 := setLinkSt l (if k.laser = 0 then .dark else .training) s2
    linkCut l (dropEvents l s (foldOver k.waiting (strand k.waiting) s3))

/-- A link with a mask of a direction changed; a width below 8 takes it down instead (R286, R293). -/
def setMasks (l : Nat) (tx rx : Word) (s : State) : State :=
  let k := s.link l
  if k.st ≠ .up ∧ k.st ≠ .quarantined then s
  else if maskWidth tx < 8 ∨ maskWidth rx < 8 then linkDown l downWidth s
  else
    let narrow := (decide (maskWidth tx < k.minWidth) && decide (k.minWidth ≤ maskWidth k.txMask)) ||
      (decide (maskWidth rx < k.minWidth) && decide (k.minWidth ≤ maskWidth k.rxMask))
    let s1 := s.modLink l fun x => { x with txMask := tx, rxMask := rx }
    if narrow then logLink Lc.linkNarrow l [maskWidth tx, maskWidth rx] s1 else s1

/-! ## Training (R284 to R286) -/

/-- A training attempt begins. -/
def startTraining (l : Nat) (full : Bool) (s : State) : State :=
  setLinkSt l (if full then .tuning else .training) (s.modLink l fun x =>
    { x with trying := true, nextFull := full, ctr := { x.ctr with trainings := sat32 x.ctr.trainings 1 } })

/-- Why a training fails, by the codes of the detail of LINK_TRAIN_FAILED (R285; the numbers are the model's). -/
def trainFault (k : Link) (r : TrainingResult) (tx rx : Word) : Option Nat :=
  if !r.frame then some 0
  else if r.version ≠ 1#4 then some 1
  else if r.peer = 0#20 ∨ r.peer = 0xFFFFF#20 then some 2
  else if r.peerEncrypted ≠ (k.newKeys.isSome || k.keys.isSome) then some 3
  else if (k.newKeys.isSome || k.keys.isSome) ∧ r.keyCheckOk = false then some 4
  else if maskWidth tx < 8 ∨ maskWidth rx < 8 then some 5
  else if r.laneMismatch then some 6
  else none

/-- A training attempt fails: the next follows after 1 ms, doubling up to 1 s (R286). -/
def trainFails (l why : Nat) (s : State) : State :=
  let k := s.link l
  let n := k.fails + 1
  let s1 := if why ≠ 0 ∨ n = 16 then logLink Lc.linkTrainFailed l [why] s else s
  let s2 := if why = 4 then logLink Lc.linkKeyMismatch l [] s1 else s1
  setLinkSt l .training (s2.modLink l fun x =>
    { x with trying := false, fails := n, nextFull := !x.ringsLocked,
             nextTry := s.sys.time + min (1000000 * 2 ^ (min k.fails 10)) 1000000000 })

/-- Slots of a receiver's buffer per level of a class (R295). -/
def bufferSlots : Nat → Nat
  | 0 => 64
  | 1 => 512
  | 2 => 4096
  | _ => 1024

/-- Credits as T8 sets them (R284, R296). -/
def fullCredits : Tbl Nat := (List.range 16).map fun k => (k, bufferSlots (k / 4))

/-- What T2 and T4 of a full training find of the rings: a third failure in a row marks a ring failed (R282). -/
def ringsFound (l : Nat) (r : TrainingResult) (s : State) : State :=
  foldOver (List.range 64) (fun i acc =>
    let x := (acc.link l).ring i
    let lit := decide (32 ≤ i) || r.laser.getLsbD (i % 8)
    if x.failed then acc
    else if r.unlocked.getLsbD i then
      let acc1 := acc.modLink l (Link.modRing i fun y =>
        { y with locked := false, hopping := false, misses := y.misses + 1, failed := decide (3 ≤ y.misses + 1) })
      if 3 ≤ x.misses + 1 then degrade (.ring l i) acc1 else acc1
    else acc.modLink l (Link.modRing i fun y => { y with locked := lit, hopping := false, misses := 0 })) s

/-- A training attempt ends: UP with fresh sequence numbers and credits, DARK, FAILED, or to be tried again. -/
def trainEnds (l : Nat) (r : TrainingResult) (s : State) : State :=
  let now := s.sys.time
  let s1 := if r.full then ringsFound l r (s.modLink l fun x => { x with laser := r.laser }) else s
  let k := s1.link l
  let tx := maskTake k.maxWidth (r.txUsable &&& laserMask k.laser &&& ~~~(k.barred now 0))
  let rx := maskTake k.maxWidth (r.rxUsable &&& ~~~(k.barred now 32))
  if k.laser = 0 ∨ (r.rxUsable = 0 ∧ r.frame = false) then
    setLinkSt l .dark (s1.modLink l fun x => { x with trying := false, nextTry := now + 100000000, nextFull := true })
  else
    match trainFault k r tx rx with
    | some why =>
      if why = 5 ∧ r.localFault then
        let s2 := trainFails l why s1
        logLink Lc.linkFailed l [] (degrade (.link l) (setLinkSt l .failed s2))
      else trainFails l why s1
    | none =>
      let fresh := k.newKeys.isSome
      let s2 := s1.modLink l fun x =>
        { x with
          txMask := tx, rxMask := rx, peer := r.peer, encrypted := fresh || x.keys.isSome,
          keys := if fresh then x.newKeys else x.keys, newKeys := none,
          flitCtr := if fresh then 1 else x.flitCtr, rxCtr := if fresh then 1 else x.rxCtr,
          txSeq := 0, rxSeq := 0xFFF, nacked := false, replay := [], resend := false, replayFails := 0, ackAt := now,
          unacked := 0, ackSentAt := now, credits := fullCredits, owed := [], stalled := [], openRx := [],
          filling := [], trying := false, fails := 0, flitAt := now,
          sheds := Tbl.mapVals (fun _ y => if y.until_ ≤ now then { y with out := false, power := false } else y) x.sheds }
      undegrade (.link l) (setLinkSt l (if k.quarantinedAt.isSome then .quarantined else .up) s2)

/-! ## Acknowledgements, credits and replay (R288 to R290, R296) -/

/-- Acknowledged flits leave the replay buffer: those up to a sequence number that lies in it (R290). -/
def ackReplay (a : BitVec 12) (x : Link) (now : Nat) : Link :=
  match x.replay.findIdx? fun e => decide (e.1 = a) with
  | some i => { x with replay := x.replay.drop (i + 1), ackAt := now, replayFails := 0, resend := false }
  | none => x

/-- The transmitter resends its replay buffer; the eighth failure in a row takes the link down (R286, R290). -/
def replayOnce (l : Nat) (s : State) : State :=
  let k := s.link l
  if k.replay.isEmpty then s
  else
    let s1 := s.modLink l fun x =>
      { x with resend := true, replayFails := x.replayFails + 1, ackAt := s.sys.time,
               ctr := { x.ctr with replays := sat32 x.ctr.replays 1 } }
    if 8 ≤ k.replayFails then linkDown l downReplays s1 else s1

/-- Credits come back: the counters rise, and a class and level that has credit is not stalled (R296). -/
def addCredits (l : Nat) (ns : List Nat) (s : State) : State :=
  s.modLink l fun x =>
    (List.range 16).foldl (fun (acc : Link) k =>
      let n := ns.getD k 0
      if n = 0 then acc
      else { acc with credits := Tbl.put 0 k (Tbl.getD acc.credits k 0 + n) acc.credits,
                      stalled := Tbl.erase k acc.stalled }) x

/-- The acknowledgement and the credits that a flit header carries (R288). -/
def takeHeader (l : Nat) (h : Nat) (s : State) : State :=
  let a := BitVec.ofNat 12 (bits h 16 12)
  let s1 := if bit h 28 then s.modLink l fun x => ackReplay a x s.sys.time else s
  let s2 := if bit h 29 then replayOnce l s1 else s1
  addCredits l ((List.range 16).map fun k => bits h (74 + 3 * k) 3) s2

/-- An acknowledgement leaves, with the freed slots as a batch credit return (R288, R290). -/
def sendAck (l : Nat) (nack : Bool) (s : State) : State :=
  s.modLink l fun x =>
    { x with
      acksOut := x.acksOut ++ [(x.rxSeq, nack)], unacked := 0, ackSentAt := s.sys.time,
      controlOut := if x.owed.isEmpty then x.controlOut
        else x.controlOut ++ [.creditReturn ((List.range 16).map fun k => Tbl.getD x.owed k 0)]
      owed := [], ctr := { x.ctr with nacks := if nack then sat32 x.ctr.nacks 1 else x.ctr.nacks } }

/-- A flit is not accepted: it is nacked, and flits are discarded until the resent one (R290). -/
def nackFlit (l : Nat) (s : State) : State :=
  if (s.link l).nacked then s else sendAck l true (s.modLink l fun x => { x with nacked := true })

/-! ## Units arriving slot by slot (R291, R301) -/

/-- How the relay handles a unit for another node: the output link, or the detail of its drop (R301). -/
def relayOut (s : State) (l h : Nat) (dst : BitVec 20) : Nat ⊕ Nat :=
  let e := Tbl.getD s.fabric.routes dst.toNat 0
  let o := e.toNat % 32
  if h = 3 then .inr 3
  else if e.getLsbD 5 = false ∨ o = l ∨ 24 ≤ o then .inr 2
  else if (s.link o).st ≠ .up then .inr 1
  else .inl o

/-- A unit received whole: its class, and its bytes. -/
abbrev Arrived := Nat × List Byte

/-- A first slot: the unit it opens is for this module, is relayed, or is dropped (R291, R301, R308). -/
def firstSlot (l c h : Nat) (bs : List Byte) (s : State) : State × List Arrived :=
  let w := fieldAt bs 0 8
  let dst := BitVec.ofNat 20 (bits w 0 20)
  let src := BitVec.ofNat 20 (bits w 20 20)
  let more := bits w 40 16
  let key := 4 * c + h
  let put (r : RxUnit) (t : State) : State :=
    if more = 0 then t else t.modLink l fun x => { x with openRx := Tbl.set key r x.openRx }
  let gone : RxUnit := { left := more, bytes := [], dest := none, drop := true }
  if (s.link l).st = .quarantined ∧ c ≠ 0 then (freeSlots l key 1 (put gone s), [])
  else if h = 0 ∧ src ≠ (s.link l).peer then (violation l 291 (freeSlots l key 1 (put gone s)), [])
  else if dst = s.sys.node then
    let s1 := countLink l (fun x => { x with localRx := x.localRx + 32 }) (freeSlots l key 1 s)
    if more = 0 then (s1, [(c, bs)]) else (put { left := more, bytes := bs, dest := none, drop := false } s1, [])
  else
    match relayOut s l h dst with
    | .inl o =>
      let u : OutUnit := { OutUnit.base 4 c src dst (more + 1) with level := h + 1, data := bs, inLink := some l }
      let s1 := countLink l (fun x => { x with relayIn := x.relayIn + 32 }) (queueUnit o u s)
      (put { left := more, bytes := [], dest := some o, drop := false } s1, [])
    | .inr d =>
      let s1 := countLink l (fun x =>
        if d = 3 then { x with dropHop := sat32 x.dropHop 1 } else { x with dropRoute := sat32 x.dropRoute 1 })
        (freeSlots l key 1 (put gone s))
      let f := fieldAt bs 0 16
      (if c = 1 then answerDropped src (BitVec.ofNat 16 (bits f 72 16)) (BitVec.ofNat 16 (bits f 88 16)) d s1 else s1, [])

/-- A continuation slot of an open unit (R291). -/
def nextSlot (l c h : Nat) (bs : List Byte) (r : RxUnit) (s : State) : State × List Arrived :=
  let key := 4 * c + h
  let r' : RxUnit := { r with left := r.left - 1, bytes := if r.drop ∨ r.dest.isSome then [] else r.bytes ++ bs }
  let keep (t : State) : State :=
    t.modLink l fun x => { x with openRx := if r'.left = 0 then Tbl.erase key x.openRx else Tbl.set key r' x.openRx }
  match r.dest with
  | some o =>
    let s1 := s.modLink o fun x =>
      { x with waiting := x.waiting.map fun u =>
          if u.kind = 4 ∧ u.inLink = some l ∧ u.cls = c ∧ u.level = h + 1 ∧ u.data.length < 32 * u.slots then
            { u with data := u.data ++ bs } else u }
    (keep (countLink l (fun x => { x with relayIn := x.relayIn + 32 }) s1), [])
  | none =>
    if r.drop then (keep (freeSlots l key 1 s), [])
    else
      let s1 := keep (countLink l (fun x => { x with localRx := x.localRx + 32 }) (freeSlots l key 1 s))
      (s1, if r'.left = 0 then [(c, r.bytes ++ bs)] else [])

/-- One slot of an accepted flit, by the kind of its descriptor (R288, R291). -/
def takeSlot (l kind c h : Nat) (bs : List Byte) (s : State) : State × List Arrived :=
  let key := 4 * c + h
  let open? := Tbl.get? (s.link l).openRx key
  let closed (t : State) : State := t.modLink l fun x => { x with openRx := Tbl.erase key x.openRx }
  match kind, open? with
  | 0, _ => (s, [])
  | 1, none => firstSlot l c h bs s
  | 1, some r => firstSlot l c h bs (violation l 291 (closed (abortOnward l key r s)))
  | 2, some r => nextSlot l c h bs r s
  | 3, some r => (freeSlots l key 1 (closed (abortOnward l key r s)), [])
  | _, none => (violation l 291 (freeSlots l key 1 s), [])
  | _, some _ => (s, [])

/-- Slot descriptor i of a header: kind, class, level (R288). -/
def slotDesc (h i : Nat) : Nat × Nat × Nat := (bits h (32 + 6 * i) 2, bits h (34 + 6 * i) 2, bits h (36 + 6 * i) 2)

/-- The slots of a flit in the clear (R287, R304). -/
def flitSlots (k : Link) (flit : List Byte) : List Byte :=
  match k.encrypted, k.keys with
  | true, some (_, rxKey, _, rxSalt) => Config.gcmOpen rxKey rxSalt k.rxCtr (sliceBytes flit 16 192)
  | _, _ => sliceBytes flit 16 224

/-- A tag failure: counted; more than 16 within 1 s take the link down (R286, R304). -/
def tagFailure (l : Nat) (s : State) : State :=
  let now := s.sys.time
  let recent := now :: (s.link l).tagFails.filter fun v => decide (now < v + 1000000000)
  let s1 := s.modLink l fun x => { x with tagFails := recent, ctr := { x.ctr with gcmFail := sat32 x.ctr.gcmFail 1 } }
  if 16 < recent.length then linkDown l downTags s1 else nackFlit l s1

/-- An accepted PAYLOAD flit: its header's acknowledgement and credits act, and its slots go to their units in order. -/
def acceptFlit (l h : Nat) (body : List Byte) (s : State) : State × List Arrived :=
  let q := BitVec.ofNat 12 (bits h 4 12)
  let s1 := s.modLink l fun x =>
    let rx := match x.laneAt with
      | some (m, f) => if f = q then m else x.rxMask
      | none => x.rxMask
    { x with rxSeq := q, rxCtr := x.rxCtr + 1, nacked := false, unacked := x.unacked + 1, flitAt := s.sys.time,
             rxMask := rx, laneAt := if x.laneAt.any fun e => decide (e.2 = q) then none else x.laneAt,
             ctr := { x.ctr with flitsRx := x.ctr.flitsRx + 1 } }
  let s2 := takeHeader l h s1
  let s3 := (List.range 7).foldl (fun (acc : State × List Arrived) i =>
    let d := slotDesc h i
    if ((acc.1.link l).st = .up ∨ (acc.1.link l).st = .quarantined) ∧ 32 * i < body.length then
      let a := takeSlot l d.1 d.2.1 d.2.2 (sliceBytes body (32 * i) 32) acc.1
      (a.1, acc.2 ++ a.2)
    else acc) (s2, [])
  (if 16 ≤ (s3.1.link l).unacked then sendAck l false s3.1 else s3.1, s3.2)

/-- A flit reaches a link: corrected bytes are counted, a flit that fails its checks is dropped and nacked, and one in
sequence is accepted (R287, R290, R304, R321). -/
def payloadFlit (l : Nat) (flit : List Byte) (chk : FlitCheck) (s : State) : State × List Arrived :=
  let k := s.link l
  if k.st ≠ .up ∧ k.st ≠ .quarantined then (s, [])
  else
    let h := fieldAt flit 0 16
    let s1 := countLink l (fun x =>
      { x with corrected := x.corrected + (chk.correctedBy.map Prod.snd).sum,
               perLambda := chk.correctedBy.foldl (fun t e =>
                 Tbl.put 0 e.1.val (sat32 (Tbl.getD t e.1.val 0) e.2) t) x.perLambda }) s
    let crcOk := decide ((crc32c (sliceBytes flit 0 240)).toNat = fieldAt flit 240 4)
    if !chk.fecOk then (nackFlit l (countLink l (fun x => { x with uncorrectable := x.uncorrectable + 1 }) s1), [])
    else if !crcOk then
      (nackFlit l (countLink l (fun x =>
        { x with uncorrectable := x.uncorrectable + 1, crcFail := sat32 x.crcFail 1 }) s1), [])
    else if bits h 0 4 ≠ 1 then (s1, [])
    else if k.encrypted ∧ chk.tagOk = false then (tagFailure l s1, [])
    else if BitVec.ofNat 12 (bits h 4 12) ≠ k.rxSeq + 1 then (nackFlit l s1, [])
    else
      let body := flitSlots k flit
      let badRoute := (List.range 7).any fun i =>
        decide ((slotDesc h i).1 = 1) && decide (32 * i < body.length) && decide (fieldAt body (32 * i + 7) 1 ≠ 0)
      if badRoute then (nackFlit l (violation l 321 s1), []) else acceptFlit l h body s1

/-! ## Sending (R296, R297, R299, R304) -/

/-- Whether a unit has a slot that can leave now. -/
def OutUnit.slotReady (u : OutUnit) : Bool := decide (u.kind ≠ 4) || decide (32 * u.sent < u.data.length)

/-- The unit of a class and level whose slot leaves next: the open one, else by input link in rotation (R291, R297). -/
def nextOf (k : Link) (c h : Nat) : Option OutUnit :=
  let us := k.waiting.filter fun u => decide (u.cls = c ∧ u.level = h)
  let inKey (u : OutUnit) : Nat := (u.inLink.getD 24 + 25 - 1 - Tbl.getD k.lastIn (4 * c + h) 24 + 25) % 25
  match us.find? fun u => decide (0 < u.sent) with
  | some u => if u.slotReady then some u else none
  | none =>
    (us.filter OutUnit.slotReady).foldl (fun best u =>
      match best with
      | none => some u
      | some b => if inKey u < inKey b then some u else best) none

/-- The class and level that sends next: every class 0 unit gets a slot in each 64; else higher class, then higher level
first, while a credit is held (R296, R297, R308). -/
def pickSlot (k : Link) : Option (Nat × Nat × OutUnit) :=
  let order : List (Nat × Nat) := (List.range 16).reverse.map fun i => (i / 4, i % 4)
  let order := if k.st = .quarantined then order.filter fun e => decide (e.1 = 0)
    else if 63 ≤ k.sinceC0 then order.filter (fun e => decide (e.1 = 0)) ++ order else order
  order.findSome? fun e =>
    if 0 < Tbl.getD k.credits (4 * e.1 + e.2) 0 then (nextOf k e.1 e.2).map fun u => (e.1, e.2, u) else none

/-- The bytes of a unit of the module's own (R310 to R314). -/
def unitBytesOf (u : OutUnit) : List Byte :=
  let route := u.dst.toNat + 2 ^ 20 * u.src.toNat + 2 ^ 40 * (u.slots - 1)
  if u.kind = 0 then
    leBytes 8 route ++ leBytes 1 1 ++ leBytes 2 u.op.toNat ++ leBytes 2 u.tag.toNat ++ leBytes 1 0 ++
      leBytes 1 (if u.op = 0x0413 then u.count else 0) ++ leBytes 1 0 ++ leBytes 4 u.object.toNat ++
      leBytes 8 u.offset.toNat ++ leBytes 8 (if u.op = 0x0413 then 0 else u.count) ++ leBytes 4 0 ++
      leBytes 4 u.detail ++ leBytes 20 0
  else if u.kind = 3 then
    leBytes 8 route ++ leBytes 1 0x31 ++ leBytes 2 0 ++ leBytes 2 u.tag.toNat ++ leBytes 3 0 ++ leBytes 8 u.detail ++
      leBytes 4 u.count ++ leBytes 4 0 ++ u.data
  else
    leBytes 8 route ++ leBytes 1 (1 + 16 * u.kind) ++ leBytes 2 u.op.toNat ++ leBytes 2 u.tag.toNat ++
      leBytes 2 u.status.toNat ++ leBytes 1 0 ++ leBytes 8 u.detail ++ leBytes 4 u.count ++ leBytes 4 0

/-- The next slot of a unit: descriptor kind and bytes. -/
def slotOf (u : OutUnit) : Nat × List Byte :=
  if u.kind = 5 then (3, sliceBytes [] 0 32)
  else (if u.sent = 0 then 1 else 2, sliceBytes (if u.kind = 4 then u.data else unitBytesOf u) (32 * u.sent) 32)

/-- The flit being filled is sent: header, slots or ciphertext and tag, CRC and parity; it is kept for replay (R287, R288,
R290, R304). -/
def closeFlit (l : Nat) (s : State) : State :=
  let k := s.link l
  let owed (i : Nat) : Nat := min 7 (Tbl.getD k.owed i 0)
  let descs := (k.filling.mapIdx fun i e => e.1 * 2 ^ (32 + 6 * i)).sum
  let returns := ((List.range 16).map fun i => owed i * 2 ^ (74 + 3 * i)).sum
  let hdr (full : Bool) : List Byte :=
    leBytes 16 (1 + 16 * k.txSeq.toNat + (if full then 65536 * k.rxSeq.toNat + 2 ^ 28 + returns else 0) + descs)
  let plain := k.filling.flatMap Prod.snd
  let slots := match k.encrypted, k.keys with
    | true, some (txKey, _, txSalt, _) =>
      sliceBytes (Config.gcmSeal txKey txSalt k.flitCtr (hdr false) (sliceBytes plain 0 192)) 0 208 ++ sliceBytes [] 0 16
    | _, _ => sliceBytes plain 0 224
  let body := hdr true ++ slots
  let bytes := body ++ leBytes 4 (crc32c body).toNat
  s.modLink l fun x =>
    { x with
      filling := [], txSeq := x.txSeq + 1, flitCtr := if x.encrypted then x.flitCtr + 1 else x.flitCtr,
      replay := x.replay ++ [(x.txSeq, bytes ++ Config.fecParity bytes)],
      ackAt := if x.replay.isEmpty then s.sys.time else x.ackAt,
      owed := (List.range 16).foldl (fun t i => Tbl.put 0 i (Tbl.getD t i 0 - owed i) t) x.owed,
      unacked := 0, ackSentAt := s.sys.time, ctr := { x.ctr with flitsTx := x.ctr.flitsTx + 1 } }

/-- One slot leaves for the flit being filled; the flit is sent when it is full or nothing else can leave. -/
def sendSlot (l : Nat) (s : State) : State :=
  let k := s.link l
  if (k.st ≠ .up ∧ k.st ≠ .quarantined) ∨ 2047 ≤ k.replay.length then s
  else
    match pickSlot k with
    | none => if k.filling.isEmpty then s else closeFlit l s
    | some (c, h, u) =>
      let key := 4 * c + h
      let sl := slotOf u
      let done := decide (u.sent + 1 = u.slots)
      let u' : OutUnit := { u with sent := u.sent + 1 }
      let rest := Tbl.getD k.credits key 0 - 1
      let at' := k.waiting.findIdx fun v => decide (v = u)
      let s1 := s.modLink l fun x =>
        { x with
          waiting := if done then x.waiting.eraseIdx at' else x.waiting.set at' u'
          credits := Tbl.put 0 key rest x.credits
          stalled := if rest = 0 then Tbl.set key s.sys.time x.stalled else x.stalled
          lastIn := if u.sent = 0 then Tbl.set key (u.inLink.getD 24) x.lastIn else x.lastIn
          sinceC0 := if c = 0 then 0 else x.sinceC0 + 1
          filling := x.filling ++ [(sl.1 + 4 * c + 16 * h, sl.2)]
          ctr := if u.inLink.isSome then { x.ctr with relayOut := x.ctr.relayOut + 32 }
            else { x.ctr with localTx := x.ctr.localTx + 32 } }
      let s2 := match u.inLink with
        | some i => if u.kind = 4 then freeSlots i (key - 1) 1 s1 else s1
        | none => s1
      let s3 : State := match u.cmd with
        | some n => if done then { s2 with cmds := Tbl.erase n s2.cmds } else s2
        | none => s2
      let k3 := s3.link l
      let cap := if k3.encrypted then 6 else 7
      if cap ≤ k3.filling.length ∨ (pickSlot k3).isNone then closeFlit l s3 else s3

/-- SLOT_SEND: an output link fills one slot. -/
def execSlotSend (l : LinkIx) (s : State) : Host.Outcome State Fault Refusal := .next (sendSlot l.val s)

/-- The units of a class and level that wait on a stalled output are discarded: a violation of the link, class 1 units
answered with detail 4 (R299). -/
def creditStall (l c h : Nat) (s : State) : State :=
  let k := s.link l
  let us := k.waiting.filter fun u => decide (u.cls = c ∧ u.level = h)
  let limit := k.stallUs * 1000
  let due := (Tbl.get? k.stalled (4 * c + h)).any (fun z => decide (z + limit ≤ s.sys.time)) &&
    us.any fun u => decide (u.since + limit ≤ s.sys.time)
  if k.st = .up ∧ Tbl.getD k.credits (4 * c + h) 0 = 0 ∧ due then
    let s1 := s.modLink l fun x =>
      { x with waiting := x.waiting.filter fun u => !decide (u.cls = c ∧ u.level = h),
               ctr := { x.ctr with creditStall := sat32 x.ctr.creditStall 1 } }
    let s2 := foldOver us (fun u acc =>
      if u.inLink.isSome then
        let acc1 := dropRelay u acc
        if c = 1 ∧ 32 ≤ u.data.length then
          answerDropped (BitVec.ofNat 20 (bits (fieldAt u.data 0 8) 20 20))
            (BitVec.ofNat 16 (bits (fieldAt u.data 0 16) 72 16)) (BitVec.ofNat 16 (bits (fieldAt u.data 0 16) 88 16)) 4 acc1
        else acc1
      else if u.kind = 3 then
        (match Tbl.find? (fun _ x => decide (x.c.tag = u.tag ∧ originId x.c.origin = (3, u.dst)) && x.open) acc.cmds with
          | some (n, _) => abort n St.linkDown acc
          | none =>
            let t := acc.link l
            acc.setLink l { t with waiting := t.waiting.map fun v =>
              if v.kind = 1 ∧ v.dst = u.dst ∧ v.tag = u.tag ∧ v.status = St.ok then
                { v with status := St.linkDown, count := v.count - u.count } else v })
      else if u.op = 0x0413 ∧ u.kind = 0 then
        eventOver u.object.toNat u.detail (addLog Lc.cqEventLost 0x50000000 noUnit 0 [u.dst.toNat] acc)
      else match u.cmd with
        | some n => { acc with cmds := Tbl.erase n acc.cmds }
        | none => acc) s1
    violation l 299 s2
  else s

/-! ## Shedding (R292 to R294) -/

/-- A wavelength's record as it is shed: the fourth time within 60 s holds it for 60 s (R292). -/
def Shed.again (now : Nat) (x : Shed) : Shed :=
  let recent := now :: x.times.filter fun t => decide (now < t + 60000000000)
  { x with times := recent.take 4, out := true, clearAt := now,
           until_ := if 4 ≤ recent.length then now + 60000000000 else x.until_ }

/-- Wavelengths of one side (0 transmit, 32 receive) are shed (R292, R293). The receiving side asks the peer's
transmitter by a lane change; the transmitting side switches at its next flit. -/
def shedMask (l side : Nat) (m : Word) (s : State) : State :=
  let k := s.link l
  let active := if side = 0 then k.txMask else k.rxMask
  let hit := m &&& active
  if (k.st ≠ .up ∧ k.st ≠ .quarantined) ∨ hit = 0 then s
  else
    let s1 := s.modLink l fun x =>
      { x with
        sheds := (List.range 32).foldl (fun t i =>
          if hit.getLsbD i then Tbl.set (side + i) ((Tbl.getD t (side + i) Shed.fresh).again s.sys.time) t else t) x.sheds
        ctr := { x.ctr with sheds := sat32 x.ctr.sheds (maskWidth hit) } }
    let left := active &&& ~~~hit
    if maskWidth left < 8 then linkDown l downWidth s1
    else if side = 0 then setMasks l left k.rxMask s1
    else
      let asked := (k.laneAsk.getD k.rxMask) &&& ~~~hit
      if maskWidth asked < 8 then linkDown l downWidth s1
      else s1.modLink l fun x => { x with laneAsk := some asked, controlOut := x.controlOut ++ [.laneChange asked] }

/-- A lane change arrives: the answer to this side's own, or the peer's request, which this side answers with the seq of
its next flit (R293). -/
def laneChanged (l : Nat) (mask : Word) (seq : BitVec 12) (s : State) : State :=
  let k := s.link l
  if k.st ≠ .up ∧ k.st ≠ .quarantined then s
  else if k.laneAsk = some mask then
    let s1 := s.modLink l fun x => { x with laneAsk := none, laneAt := some (mask, seq) }
    if seq = k.rxSeq then setMasks l k.txMask mask s1 else
    if maskWidth mask < k.minWidth ∧ k.minWidth ≤ maskWidth k.rxMask then logLink Lc.linkNarrow l [maskWidth k.txMask, maskWidth mask] s1
    else s1
  else
    let s1 := s.modLink l fun x => { x with controlOut := x.controlOut ++ [.laneAnswer mask x.txSeq] }
    setMasks l mask k.rxMask s1

/-- A shed wavelength of one side is restored: its cause has cleared, 5 ms of PRBS31 have passed below a tenth of the
threshold, and it is not held (R292). -/
def restoreOne (l side i errors bytes : Nat) (s : State) : State :=
  let k := s.link l
  let x := k.shed (side + i)
  let r := k.ring (side + i)
  let lit := decide (side = 32) || k.laser.getLsbD (i % 8)
  if (k.st = .up ∨ k.st = .quarantined) ∧ x.out = true ∧ x.until_ ≤ s.sys.time ∧ r.locked = true ∧ r.hopping = false ∧
      r.failed = false ∧ lit = true ∧ x.clearAt + 5000000 ≤ s.sys.time ∧ errors * 10 * k.shedOneIn < bytes then
    let s1 := s.modLink l fun y =>
      { y with sheds := Tbl.set (side + i) { x with out := false } y.sheds,
               ctr := { y.ctr with restores := sat32 y.ctr.restores 1 } }
    let b : Word := 1#32 <<< i
    if side = 0 then
      (if maskWidth k.txMask < k.maxWidth then setMasks l (k.txMask ||| b) k.rxMask s1 else s1)
    else
      let asked := (k.laneAsk.getD k.rxMask) ||| b
      if maskWidth asked ≤ k.maxWidth then
        s1.modLink l fun y => { y with laneAsk := some asked, controlOut := y.controlOut ++ [.laneChange asked] }
      else s1
  else s

/-- The light die of a link is at its hardware limit (R429). -/
def lightLimited (s : State) (l : Nat) : Bool :=
  s.power.limited.any fun x => decide (x = Sensor.light ⟨l / 12 % 2, Nat.mod_lt _ (by decide)⟩)

/-- A link sheds for power down to 8 wavelengths, ignoring pins (R429). -/
def shedToEight (l : Nat) (s : State) : State :=
  let k := s.link l
  if k.st = .up ∨ k.st = .quarantined then
    let on := (List.range 32).filter fun i => k.txMask.getLsbD i
    let gone := on.drop 8
    setMasks l (gone.foldl (fun m i => m &&& ~~~(1#32 <<< i)) k.txMask) k.rxMask (s.modLink l fun x =>
      { x with sheds := gone.foldl (fun t i => Tbl.set i { x.shed i with power := true } t) x.sheds,
               ctr := { x.ctr with sheds := sat32 x.ctr.sheds gone.length } })
  else s

/-- The power loop sheds one wavelength below 30 % use down to min_width, and restores one above 70 % (R294); a light die
at its hardware limit keeps what it shed (R429). -/
def powerLoop (l use : Nat) (s : State) : State :=
  let k := s.link l
  if k.st ≠ .up ∨ lightLimited s l = true then s
  else if use < 30 ∧ k.powerShed = true then
    (match (List.range 32).reverse.find? fun i => k.txMask.getLsbD i with
      | some i =>
        if k.minWidth < maskWidth k.txMask then
          setMasks l (k.txMask &&& ~~~(1#32 <<< i)) k.rxMask (s.modLink l fun x =>
            { x with sheds := Tbl.set i { x.shed i with power := true } x.sheds,
                     ctr := { x.ctr with sheds := sat32 x.ctr.sheds 1 } })
        else s
      | none => s)
  else if 70 < use then
    (match (List.range 32).find? fun i => (k.shed i).power && !(k.shed i).out with
      | some i =>
        if maskWidth k.txMask < k.maxWidth then
          setMasks l (k.txMask ||| (1#32 <<< i)) k.rxMask (s.modLink l fun x =>
            { x with sheds := Tbl.set i { x.shed i with power := false } x.sheds,
                     ctr := { x.ctr with restores := sat32 x.ctr.restores 1 } })
        else s
      | none => s)
  else s

/-! ## Quarantine ends (R308) -/

/-- A quarantined link is released: violations count from zero (R308). -/
def releaseQuarantine (l : Nat) (s : State) : State :=
  let k := s.link l
  if k.quarantinedAt.isNone then s
  else
    let s1 := logLink Lc.linkReleased l [k.peer.toNat] (s.modLink l fun x =>
      { x with quarantinedAt := none, violations := [] })
    if k.st = .quarantined then setLinkSt l .up s1 else s1

/-! ## Events of the links -/

/-- IDLE_FLIT_RECEIVE: acknowledgement and credits; the flit is dropped at the elastic buffer (R288, R289). -/
def idleFlit (l header : Nat) (s : State) : State :=
  let k := s.link l
  if (k.st = .up ∨ k.st = .quarantined) ∧ bits header 0 4 = 2 then
    takeHeader l header (s.modLink l fun x => { x with flitAt := s.sys.time }) else s

/-- TRAINING_FRAME_RECEIVE: the frame is checked; a failing check ends the attempt, a good frame gives the peer (R285). -/
def execTrainingFrameReceive (l : LinkIx) (r : TrainingResult) (s : State) : Host.Outcome State Fault Refusal :=
  let k := s.link l.val
  .next (if k.trying ∧ (k.st = .tuning ∨ k.st = .training) then
    (match trainFault k r r.txUsable r.rxUsable with
      | some why => if why = 0 then s else trainFails l.val why s
      | none => setLinkSt l.val .training (s.modLink l.val fun x => { x with peer := r.peer }))
    else s)

/-- CREDIT_RETURN_RECEIVE: a batch credit return (R288, R296). -/
def execCreditReturnReceive (l : LinkIx) (slots : List Nat) (s : State) : Host.Outcome State Fault Refusal :=
  let k := s.link l.val
  .next (if k.st = .up ∨ k.st = .quarantined then
    addCredits l.val (slots.map fun n => n % 65536) (s.modLink l.val fun x => { x with flitAt := s.sys.time }) else s)

/-- LINK_TRAINING: a training attempt ends (R284, R285). -/
def execLinkTraining (l : LinkIx) (r : TrainingResult) (t : Nat) (s : State) : Host.Outcome State Fault Refusal :=
  let s1 := s.tick t
  let k := s1.link l.val
  .next (if k.trying ∧ (k.st = .tuning ∨ k.st = .training) then trainEnds l.val { r with full := k.nextFull } s1 else s1)

/-- RETRAIN_TIMER: the retry interval has passed and an attempt begins (R286). -/
def execRetrainTimer (l : LinkIx) (t : Nat) (s : State) : Host.Outcome State Fault Refusal :=
  let s1 := s.tick t
  let k := s1.link l.val
  .next (if k.st = .training ∧ k.trying = false ∧ k.nextTry ≤ s1.sys.time then startTraining l.val k.nextFull s1 else s1)

/-- DARK_RETRY: every 100 ms a DARK link measures its laser input again (R286). -/
def execDarkRetry (l : LinkIx) (laser : BitVec 8) (t : Nat) (s : State) : Host.Outcome State Fault Refusal :=
  let s1 := s.tick t
  let k := s1.link l.val
  .next (if k.st = .dark ∧ k.nextTry ≤ s1.sys.time then
    let s2 := s1.modLink l.val fun x => { x with laser := laser, nextTry := s1.sys.time + 100000000 }
    if laser = 0 then s2 else startTraining l.val true s2
    else s1)

/-- RING_TRACK_TICK: the loop moves a ring's heater, or the ring hops when the heater would leave its range; the power
after a hop is not given (R281, R282). -/
def ringTrack (l ring : Nat) (heaterUw : Int) (s : State) : State :=
  let k := s.link l
  let r := k.ring ring
  if k.st = .disabled ∨ k.st = .failed ∨ r.failed = true ∨ r.hopping = true then s
  else if 0 ≤ heaterUw ∧ heaterUw ≤ 8000 then s.modLink l (Link.modRing ring fun y => { y with heater := heaterUw })
  else
    let up := decide (heaterUw < 0)
    let p := Config.freeNat s.free % 8001
    let s1 := { s with free := s.free + 1 }.modLink l fun x =>
      { Link.modRing ring (fun y =>
          { y with heater := (p : Int), order := if up then y.order + 1 else y.order - 1, hopping := true, locked := false }) x with
        ctr := { x.ctr with hops := sat32 x.ctr.hops 1 } }
    shedMask l (ring / 32 * 32) (1#32 <<< (ring % 32)) s1

/-- RING_HOP_COMPLETE: the hop ends; the wavelength's PRBS31 begins (R282, R292). -/
def execRingHopComplete (l : LinkIx) (ring : Fin 64) (locked : Bool) (s : State) : Host.Outcome State Fault Refusal :=
  .next (if ((s.link l.val).ring ring.val).hopping then
    s.modLink l.val fun x =>
      let y := Link.modRing ring.val (fun r => { r with hopping := false, locked := locked }) x
      { y with sheds := Tbl.modify ring.val (fun z => { z with clearAt := s.sys.time }) y.sheds }
    else s)

/-- WAVELENGTH_RESTORE: a shed wavelength returns (R292). -/
def execWavelengthRestore (l : LinkIx) (i : Fin 32) (errors bytes : Nat) (t : Nat) (s : State) :
    Host.Outcome State Fault Refusal :=
  .next (restoreOne l.val 32 i.val errors bytes (restoreOne l.val 0 i.val errors bytes (s.tick t)))

/-- POWER_SHED_TICK (R294). -/
def execPowerShedTick (l : LinkIx) (usePercent : Nat) (s : State) : Host.Outcome State Fault Refusal :=
  .next (powerLoop l.val usePercent s)

/-- QUARANTINE_HOLD_EXPIRY: the hold has passed (R308). -/
def execQuarantineHoldExpiry (l : LinkIx) (t : Nat) (s : State) : Host.Outcome State Fault Refusal :=
  let s1 := s.tick t
  let k := s1.link l.val
  .next (if k.qHold ≠ 0 ∧ k.quarantinedAt.any (fun q => decide (q + k.qHold * 1000000000 ≤ s1.sys.time)) then
    releaseQuarantine l.val s1 else s1)

/-- ACK_INTERVAL_EXPIRY: 50 ns after the last one an acknowledgement leaves for flits received since (R290). -/
def execAckIntervalExpiry (l : LinkIx) (t : Nat) (s : State) : Host.Outcome State Fault Refusal :=
  let s1 := s.tick t
  let k := s1.link l.val
  .next (if (k.st = .up ∨ k.st = .quarantined) ∧ 0 < k.unacked ∧ k.ackSentAt + 50 ≤ s1.sys.time then sendAck l.val false s1 else s1)

/-- SHED_HOLD_EXPIRY: a wavelength held for 60 s is tried again (R292). -/
def execShedHoldExpiry (l : LinkIx) (i : Fin 32) (t : Nat) (s : State) : Host.Outcome State Fault Refusal :=
  let s1 := s.tick t
  let one (side : Nat) (x : Link) : Link :=
    { x with sheds := Tbl.modify (side + i.val) (fun z =>
        if z.until_ ≠ 0 ∧ z.until_ ≤ s1.sys.time then { z with until_ := 0, times := [], clearAt := s1.sys.time } else z) x.sheds }
  .next (s1.modLink l.val fun x => one 32 (one 0 x))

/-- Wavelengths whose corrected bytes over 1 ms exceed the threshold, whose power is weak or whose ring is unlocked (R292). -/
def shedFound (k : Link) (corrected : List (Fin 32 × Nat)) (carried : Nat) (weak : Word) : Word :=
  (List.range 32).foldl (fun m i =>
    let n := ((corrected.filter fun e => decide (e.1.val = i)).map Prod.snd).sum
    let r := k.ring (32 + i)
    if carried < n * k.shedOneIn ∨ weak.getLsbD i = true ∨ r.hopping = true ∨ r.locked = false then m ||| (1#32 <<< i) else m) 0

/-- Light of a wavelength is lost at the laser input: shed on all four lanes, or the link is DARK (R283, R292). -/
def laserLost (l lam : Nat) (s : State) : State :=
  let s1 := s.modLink l fun x => { x with laser := x.laser &&& ~~~(1#8 <<< lam) }
  let k := s1.link l
  if k.st = .up ∨ k.st = .quarantined then
    (if k.laser = 0 then linkDown l downWidth s1
     else shedMask l 0 ((List.range 4).foldl (fun m a => m ||| (1#32 <<< (8 * a + lam))) 0) s1)
  else if k.laser = 0 ∧ (k.st = .tuning ∨ k.st = .training) then
    setLinkSt l .dark (s1.modLink l fun x => { x with trying := false, nextTry := s.sys.time + 100000000 })
  else s1

/-! ## Records (R306, R307) -/

/-- The code of a link state (R283). -/
def linkCode : LinkSt → Nat
  | .disabled => 0
  | .dark => 1
  | .tuning => 2
  | .training => 3
  | .up => 4
  | .quarantined => 5
  | .failed => 6

/-- The status record of a link (R306). -/
def linkStatus (l : Nat) (s : State) : List Byte :=
  let k := s.link l
  let shedP := (List.range 32).any fun i => (k.shed i).power
  let viol := (k.violations.filter fun v => decide (s.sys.time < v + k.qWindow * 1000000)).length
  leBytes 1 (l + 32 * linkCode k.st) ++ leBytes 4 k.txMask.toNat ++ leBytes 4 k.rxMask.toNat ++
    leBytes 3 (k.peer.toNat + (if k.encrypted then 2 ^ 20 else 0) + (if shedP then 2 ^ 21 else 0)) ++
    leBytes 1 k.minWidth ++ leBytes 1 k.maxWidth ++ leBytes 2 (min viol 65535) ++
    leBytes 4 (min ((s.sys.time - k.since) / 1000000) 4294967295) ++ leBytes 12 0

/-- The counter record of a link (R307). -/
def linkCounters (l : Nat) (s : State) : List Byte :=
  let c := (s.link l).ctr
  ([c.flitsRx, c.flitsTx, c.localRx, c.localTx, c.relayIn, c.relayOut, c.corrected, c.uncorrectable].flatMap (leBytes 8)) ++
    ([c.crcFail, c.gcmFail, c.nacks, c.replays, c.downs, c.trainings, c.sheds, c.restores, c.hops, c.violations,
      c.dropRoute, c.dropHop, c.creditStall, 0].flatMap (leBytes 4)) ++ leBytes 8 s.sys.time ++
    (List.range 32).flatMap fun i => leBytes 4 (Tbl.getD c.perLambda i 0)

/-- The links of a mask in p0. -/
def maskLinks (c : Capsule) : List Nat := (List.range 24).filter fun i => c.p0.getLsbD i

/-- Positions of several records in a reply, one segment. -/
def oneSegment (bs : List Byte) : List (Nat × List Byte) := if bs.isEmpty then [] else [(0, bs)]

/-! ## Link commands (R305) -/

/-- LNK_QUERY returns the status records of the links of a mask. -/
def lnkQueryStart (n : Nat) (s : State) : State :=
  match s.live? n with
  | none => s
  | some l => succeed n 0 (oneSegment ((maskLinks l.c).flatMap fun i => linkStatus i s)) s

/-- LNK_COUNTERS returns the counter records, and clears them where p1 asks (R307). -/
def lnkCountersStart (n : Nat) (s : State) : State :=
  match s.live? n with
  | none => s
  | some l =>
    let bs := (maskLinks l.c).flatMap fun i => linkCounters i s
    let s1 := if l.c.p1 = 1 then foldOver (maskLinks l.c) (fun i acc => countLink i (fun _ => {}) acc) s else s
    succeed n 0 (oneSegment bs) s1

/-- Check of the link mask and of the payload length of a link command. -/
def lnkMaskCheck (len : Nat) (c : Capsule) (_s : State) : Verdict :=
  must (decide (c.p0.toNat < 2 ^ 24 ∧ c.dataLen.toNat = len)) St.badParam

/-- The values LNK_SET_POLICY carries, 4 bytes each in the order of R305. -/
def lnkValues (bs : List Byte) : List Nat := (List.range 8).map fun i => fieldAt bs (4 * i) 4

/-- LNK_SET_POLICY's values are in range (R294, R305). -/
def lnkPolicyOk (v : List Nat) : Bool :=
  let g (i : Nat) : Nat := v.getD i 0
  decide (g 0 ≤ 32 ∧ 8 ≤ g 1 ∧ g 1 ≤ 32 ∧ max 8 (g 0) ≤ g 1 ∧ g 2 ≤ 1 ∧ 1000 ≤ g 3 ∧ g 3 ≤ 1000000 ∧ 1 ≤ g 4 ∧
    g 4 ≤ 65535 ∧ 1 ≤ g 5 ∧ g 5 ≤ 60000 ∧ g 6 ≤ 3600 ∧ 100 ≤ g 7 ∧ g 7 ≤ 100000)

/-- LNK_SET_POLICY takes effect: min_width below 8 is clipped and logged; equal widths pin the loop (R294, R305). -/
def lnkPolicyLanded (n : Nat) (s : State) : State :=
  match s.live? n with
  | none => s
  | some l =>
    let v := lnkValues l.data
    if lnkPolicyOk v then
      let g (i : Nat) : Nat := v.getD i 0
      let s1 := foldOver (maskLinks l.c) (fun i acc => acc.modLink i fun x =>
        { x with minWidth := max 8 (g 0), maxWidth := g 1, powerShed := decide (g 2 = 1), shedOneIn := g 3, qCount := g 4,
                 qWindow := g 5, qHold := g 6, stallUs := g 7 }) s
      let s2 := addLog Lc.policyChanged (originWord l.c.origin) noUnit 0 [0x0712, l.c.p0.toNat] s1
      let s3 := if g 0 < 8 then addLog Lc.policyClipped (originWord l.c.origin) noUnit 0 [0x0712, g 0, 8] s2 else s2
      let s4 := if max 8 (g 0) = g 1 then addLog Lc.loopHeld (originWord l.c.origin) noUnit 0 [0x0712, g 1, g 1] s3 else s3
      succeed n 0 [] s4
    else fail n St.badParam 0 s

/-- Check of LNK_SET_ROUTE: up to 4,096 entries of 4 bytes. -/
def lnkRouteCheck (c : Capsule) (_s : State) : Verdict :=
  must (decide (c.dataLen.toNat % 4 = 0 ∧ 0 < c.dataLen.toNat ∧ c.dataLen.toNat ≤ 16384)) St.badParam

/-- LNK_SET_ROUTE writes both copies of the route table (R301, R305). -/
def lnkRouteLanded (n : Nat) (s : State) : State :=
  match s.live? n with
  | none => s
  | some l =>
    let es := (List.range (l.c.dataLen.toNat / 4)).map fun i => fieldAt l.data (4 * i) 4
    if es.all fun e => decide (e < 2 ^ 26 ∧ bits e 20 5 < 24) then
      succeed n 0 [] { s with fabric := { s.fabric with routes := es.foldl (fun t e =>
        Tbl.put 0 (e % 2 ^ 20) (BitVec.ofNat 8 (bits e 20 6)) t) s.fabric.routes } }
    else fail n (if es.all fun e => decide (e < 2 ^ 26) then St.badParam else St.violation) 0 s

/-- Check of LNK_SET_KEY: one link, and 72 bytes: transmit key and salt, receive key and salt (R304). -/
def lnkKeyCheck (c : Capsule) (_s : State) : Verdict :=
  must (decide (c.p0.toNat < 24 ∧ c.dataLen.toNat = 72)) St.badParam

/-- LNK_SET_KEY: keys and salts wait for the fast training through which they take effect (R304). -/
def lnkKeyLanded (n : Nat) (s : State) : State :=
  match s.live? n with
  | none => s
  | some l =>
    let i := l.c.p0.toNat
    let d := l.data
    let s1 := s.modLink i fun x =>
      { x with newKeys := some (sliceBytes d 0 32, sliceBytes d 36 32, BitVec.ofNat 32 (fieldAt d 32 4),
          BitVec.ofNat 32 (fieldAt d 68 4)) }
    let s2 := addLog Lc.keyChanged (originWord l.c.origin) (unitWord (6 + i / 12) 5 i) 0 [] s1
    succeed n 0 [] ((linkDown i downControl s2).modLink i fun x => { x with nextFull := !x.ringsLocked })

/-- A link is enabled: it measures its laser input as a DARK link does (R283, R305). -/
def linkEnable (i : Nat) (s : State) : State :=
  if (s.link i).st = .disabled then
    setLinkSt i .dark (s.modLink i fun x => { x with nextTry := s.sys.time, nextFull := true, fails := 0 })
  else s

/-- A link is turned off: it goes down, its rings are unheated and it sends nothing (R283, R305). -/
def linkDisable (i : Nat) (s : State) : State :=
  undegrade (.link i) (setLinkSt i .disabled ((linkDown i downControl s).modLink i fun x =>
    { x with trying := false, rings := Tbl.mapVals (fun _ r => { r with heater := 0, locked := false, hopping := false }) x.rings }))

/-- A training is ordered: a link that carries flits goes down first; a DISABLED link stays off (R286, R305). -/
def linkRetrain (full : Bool) (i : Nat) (s : State) : State :=
  if (s.link i).st = .disabled then s
  else undegrade (.link i) (startTraining i (full || !(s.link i).ringsLocked) (linkDown i downControl s))

/-- A LNK_CONTROL operation acts on each link of the mask. -/
def lnkControl (f : Nat → State → State) (n : Nat) (s : State) : State :=
  match s.live? n with
  | none => s
  | some l => succeed n 0 [] (foldOver (maskLinks l.c) f s)

/-- LNK_CONTROL by op (R305). -/
def lnkControlStart (n : Nat) (s : State) : State :=
  match (s.live? n).map fun l => l.c.p1.toNat with
  | some 0 => lnkControl linkEnable n s
  | some 1 => lnkControl linkDisable n s
  | some 2 => lnkControl (linkRetrain false) n s
  | some 3 => lnkControl (linkRetrain true) n s
  | some 4 => lnkControl releaseQuarantine n s
  | _ => s

/-- Check of LNK_CONTROL. -/
def lnkControlCheck (c : Capsule) (_s : State) : Verdict :=
  must (decide (c.p0.toNat < 2 ^ 24 ∧ c.p1.toNat ≤ 4)) St.badParam

/-! ## Package links (R20) -/

/-- PACKAGE_LINK_FAIL: the link is marked down and logged, MOD_STATUS.degraded is set, and the alternate routes of the
fixed table are installed (R20). -/
def packageLinkFail (i : Nat) (s : State) : State :=
  if s.fabric.pkgDown.getLsbD i then s
  else
    let s1 := degrade (.packageLink i) { s with fabric := { s.fabric with
      pkgDown := s.fabric.pkgDown ||| (1#22 <<< i),
      pkgAlt := s.fabric.pkgAlt ++ [(i, (Config.pkgAlternate i).getD [])] } }
    logHw Lc.linkDown [256 + i] s1

end Sys2Proof.Machine
end

