-- ==== Sys2Proof/Machine/Fabric.lean ====
section
/-! DEFINITION. The rest of the fabric protocol (chapter 12): the units that arrive, grants and request data, and the
group directory. -/

namespace Sys2Proof.Machine

/-! ## Units (R310 to R314) -/

/-- Whether a unit's version and kind agree with its class and its size (R310). -/
def unitOk (cls : Nat) (bs : List Byte) : Bool :=
  let w := fieldAt bs 0 32
  let kind := bits w 68 4
  let slots := bits w 40 16 + 1
  let op := bits w 72 16
  decide (bits w 64 4 = 1) &&
    (match kind with
      | 0 => decide (slots = 2) && decide (cls = if op / 16 = 0x72 then 0 else 1)
      | 1 => decide (slots = 1 ∧ cls = 3)
      | 2 => decide (slots = 1 ∧ cls = 3)
      | 3 =>
        let n := bits w 192 32
        decide (1 ≤ n ∧ n ≤ 1048576 ∧ cls = 2 ∧ slots = 1 + (n + 31) / 32)
      | _ => false)

/-- The fields a capsule and a control command packet share, read from 64 bytes (R311, R347). -/
def capsuleOf (o : Origin) (bs : List Byte) : Capsule :=
  let w := fieldAt bs 0 64
  let q := isCtlq o
  { origin := o, tag := BitVec.ofNat 16 (bits w 88 16), completion := BitVec.ofNat 2 (bits w 104 2), atomic := bit w 106,
    barrier := bit w 107,
    reservedZero := decide (bits w 108 (if q then 3 else 4) = 0 ∧ bits w 114 (if q then 0 else 6) = 0),
    partition := BitVec.ofNat 2 (bits w 112 2), context := BitVec.ofNat 8 (bits w 120 8),
    object := BitVec.ofNat 32 (bits w 128 32), offset := BitVec.ofNat 64 (bits w 160 64),
    length := BitVec.ofNat 64 (bits w 224 64), dataLen := BitVec.ofNat 32 (bits w 288 32),
    p0 := BitVec.ofNat 32 (bits w 320 32), p1 := BitVec.ofNat 32 (bits w 352 32), p2 := BitVec.ofNat 32 (bits w 384 32),
    p3 := BitVec.ofNat 32 (bits w 416 32), p4 := BitVec.ofNat 32 (bits w 448 32), p5 := BitVec.ofNat 32 (bits w 480 32),
    dataAddr := if q then BitVec.ofNat 64 (bits w 0 64) else 0, slotEn := q && bit w 111,
    slot := if q then BitVec.ofNat 6 (bits w 114 6) else 0 }

/-- The opcode of a capsule or packet. -/
def opcodeOf (bs : List Byte) : Nat := bits (fieldAt bs 0 16) 72 16

/-! ## Grants and request data (R318 to R320) -/

/-- Largest range of one grant: 16 MiB. -/
def grantMax : Nat := 16777216

/-- A command that may be granted more of its request data: it has begun, and everything granted has landed. -/
def Live.awaits (l : Live) : Bool :=
  (decide (l.phase = .granting) || decide (l.phase = .collecting)) && decide (l.granted < l.c.dataLen.toNat) &&
    decide (l.landed = l.granted)

/-- The next grant of a command is recorded, and its RX_GRANT leaves for a fabric node (R313, R318). -/
def recordGrant (n : Nat) (s : State) : State :=
  match s.live? n with
  | none => s
  | some l =>
    let g := min grantMax (l.c.dataLen.toNat - l.granted)
    let s1 := s.modLive n fun x =>
      { x with granted := x.granted + g, grantAt := s.sys.time, grantBase := x.landed, phase := .collecting }
    match l.c.origin with
    | .fabric node _ =>
      sendUnit { OutUnit.base 2 3 s.sys.node node 1 with op := l.op, tag := l.c.tag, detail := l.granted, count := g } s1
    | _ => s1

/-- Whether bytes at a position have landed already. -/
def Live.hasLanded (l : Live) (pos n : Nat) : Bool := l.segs.any fun e => overlaps e.1 e.2.length pos n

/-- A violation is counted against the link a command came in on, if any. -/
def blame (c : Capsule) (rule : Nat) (s : State) : State :=
  match c.origin with
  | .fabric _ l => violation l.val rule s
  | _ => s

/-- Bytes of request data land. Bytes outside every granted range end the command; bytes landed before are discarded and
counted (R318, R319). -/
def landBytes (n pos : Nat) (data : List Byte) (s : State) : State :=
  match s.live? n with
  | none => s
  | some l =>
    if l.phase ≠ .granting ∧ l.phase ≠ .collecting then s
    else if data = [] ∨ l.granted < pos + data.length then blame l.c 319 (abort n St.violation s)
    else if l.hasLanded pos data.length then blame l.c 318 s
    else s.modLive n fun x => { x with segs := x.segs ++ [(pos, data)], landed := x.landed + data.length }

/-- A segment is matched to its command by source and tag; one that matches none is discarded and counted (R298, R314,
R319). -/
def landSegment (l : LinkIx) (src : BitVec 20) (tag : Half) (pos : Nat) (data : List Byte) (s : State) : State :=
  match findTag s (.fabric src l) tag with
  | some n => if (s.live? n).any fun x => decide (x.phase = .granting ∨ x.phase = .collecting) then landBytes n pos data s
    else violation l.val 298 s
  | none => violation l.val 298 s

/-- 100 ms pass after a grant with no byte of it arriving (R319). -/
def grantTimeout (n : Nat) (s : State) : State :=
  match s.live? n with
  | none => s
  | some l =>
    if l.phase = .collecting ∧ l.landed < l.granted ∧ l.landed = l.grantBase ∧ l.grantAt + 100000000 ≤ s.sys.time then
      blame l.c 319 (abort n St.violation s)
    else s

/-- A status reply or grant naming no request the module issued is discarded and counted (R298, R321). -/
def strayReply (l : Nat) (tag : Half) (s : State) : State :=
  if s.fabric.issued.any fun i => decide (i.tag = tag) then s else violation l 321 s

/-! ## Storage groups (R329 to R331) -/

/-- A directory command is sent to a manager (R330). -/
def grpManager (s : State) : Verdict := must s.fabric.manager St.notPermitted s.fabric.managerNode.toNat

/-- The entry whose range holds a position of an object. -/
def dirFind (s : State) (object : Word) (pos : Nat) : Option DirEntry :=
  s.fabric.dir.find? fun e => decide (e.object = object ∧ e.first ≤ pos ∧ pos < e.stop)

/-- A directory entry's 32 bytes (R329). -/
def DirEntry.toBytes (e : DirEntry) : List Byte :=
  leBytes 4 e.object.toNat ++ leBytes 4 0 ++ leBytes 8 e.first ++ leBytes 8 e.stop ++ leBytes 4 e.owner.toNat ++ leBytes 4 e.gen

/-- Check of GRP_LOOKUP (R330). -/
def grpLookupCheck (c : Capsule) (s : State) : Verdict :=
  firstBad [grpManager s, must (dirFind s c.object c.offset.toNat).isSome St.badObject]

/-- GRP_LOOKUP returns the entry that holds the offset. -/
def grpLookupStart (n : Nat) (s : State) : State :=
  match s.live? n with
  | none => s
  | some l =>
    match dirFind s l.c.object l.c.offset.toNat with
    | some e => succeed n 0 [(0, e.toBytes)] s
    | none => fail n St.badObject 0 s

/-- Check of GRP_SET: up to 4,096 changes of 32 bytes, on a manager that can write its flash (R330). -/
def grpSetCheck (c : Capsule) (s : State) : Verdict :=
  firstBad
    [grpManager s, must (decide (c.dataLen.toNat % 32 = 0 ∧ 0 < c.dataLen.toNat ∧ c.dataLen.toNat ≤ 131072)) St.badParam,
     must (!s.statusBit Sb.readOnly) St.noResource]

/-- The changes a GRP_SET carries. -/
def grpChanges (gen : Nat) (bs : List Byte) : List DirEntry :=
  (List.range (bs.length / 32)).map fun i =>
    let b := sliceBytes bs (32 * i) 32
    { object := BitVec.ofNat 32 (fieldAt b 0 4), first := fieldAt b 8 8, stop := fieldAt b 16 8,
      owner := BitVec.ofNat 20 (fieldAt b 24 4), gen := gen }

/-- An entry stands before another: by object id, then first (R330). -/
def DirEntry.before (a b : DirEntry) : Bool :=
  decide (a.object.toNat < b.object.toNat) || (decide (a.object = b.object) && decide (a.first ≤ b.first))

/-- An entry put in its place of the directory's order. -/
def dirInsert (e : DirEntry) : List DirEntry → List DirEntry
  | [] => [e]
  | x :: r => if e.before x then e :: x :: r else x :: dirInsert e r

/-- One change applied: an entry of the same object and range is replaced, or removed by owner 0x0_0000. -/
def dirApply (dir : List DirEntry) (e : DirEntry) : List DirEntry :=
  let rest := dir.filter fun x => !decide (x.object = e.object ∧ x.first = e.first ∧ x.stop = e.stop)
  if e.owner = 0 then rest else dirInsert e rest

/-- Neighbours of the directory's order that overlap. -/
def dirOverlaps : List DirEntry → Bool
  | a :: b :: r => (decide (a.object = b.object) && decide (b.first < a.stop)) || dirOverlaps (b :: r)
  | _ => false

/-- GRP_SET applies its changes all at once, advances the generation and returns it (R330, R331). -/
def grpSetLanded (n : Nat) (s : State) : State :=
  match s.live? n with
  | none => s
  | some l =>
    let gen := s.fabric.dirGen + 1
    let cs := grpChanges gen l.data
    let dir := cs.foldl dirApply s.fabric.dir
    let zeros := (List.range (l.data.length / 32)).all fun i =>
      decide (fieldAt l.data (32 * i + 4) 4 = 0 ∧ fieldAt l.data (32 * i + 24) 4 < 2 ^ 20)
    if !zeros then fail n St.violation 0 s
    else if dirOverlaps dir ∨ (dir.any fun e => decide (e.stop ≤ e.first)) ∨ 1048576 < dir.length then fail n St.badParam 0 s
    else
      let s1 := addLog Lc.configChanged (originWord l.c.origin) noUnit 0 [0x0721, gen]
        { s with fabric := { s.fabric with dir := dir, dirGen := gen } }
      succeed n gen [] s1

/-- GRP_DUMP returns entries offset to offset + length − 1 in order (R330). -/
def grpDumpStart (n : Nat) (s : State) : State :=
  match s.live? n with
  | none => s
  | some l =>
    succeed n 0 (oneSegment (((s.fabric.dir.drop l.c.offset.toNat).take l.c.length.toNat).flatMap DirEntry.toBytes)) s

/-- Owners named in the directory, with the module itself: the members (R330). -/
def grpMembers (s : State) : Nat := ((s.sys.node :: s.fabric.dir.map DirEntry.owner).eraseDups).length

/-- GRP_QUERY returns group id, role, manager node id, member count and, on the manager, the generation (R330). -/
def grpQueryStart (n : Nat) (s : State) : State :=
  let f := s.fabric
  succeed n 0 [(0, leBytes 2 f.groupId.toNat ++ leBytes 2 (if f.manager then 0 else 1) ++ leBytes 4 f.managerNode.toNat ++
    leBytes 4 (if f.manager then grpMembers s else 0) ++ leBytes 4 (if f.manager then f.dirGen else 0))] s

end Sys2Proof.Machine
end

