-- ==== Sys2Proof/Machine/Host.lean ====
section
/-! DEFINITION. The PCIe control function (chapter 13): module registers, events, MSI-X, control queues, result slots,
mailboxes, the log window and function resets. -/

namespace Sys2Proof.Machine

/-! ## Control queues (R344 to R353) -/

/-- CTLQ_CFG fields. -/
def CtlQ.enable (q : CtlQ) : Bool := q.cfg.getLsbD 0
def CtlQ.depth (q : CtlQ) : Nat := bits q.cfg.toNat 1 12 + 1
def CtlQ.vector (q : CtlQ) : BitVec 6 := BitVec.ofNat 6 (bits q.cfg.toNat 13 6)
def CtlQ.irqEn (q : CtlQ) : Bool := q.cfg.getLsbD 19
def CtlQ.aggCount (q : CtlQ) : Nat := bits q.cfg.toNat 20 8
def CtlQ.aggTime (q : CtlQ) : Nat := bits q.cfg.toNat 28 4
/-- Entries of the completion queue (R345). -/
def CtlQ.cqSize (q : CtlQ) : Nat := q.depth + 64
/-- CTLQ_STAT.enabled: the queue is served. -/
def CtlQ.served (q : CtlQ) : Bool := q.enable && !q.error
/-- CTLQ_STAT.draining: enable is 0 and admitted commands remain. -/
def CtlQ.draining (q : CtlQ) : Bool := !q.enable && decide (0 < q.outstanding)
/-- Completions owed, entries not consumed: what takes room of the completion queue (R346, R352). -/
def CtlQ.load (q : CtlQ) : Nat := q.outstanding + q.written.length + (q.done.filter fun d => !d.wasLive).length
/-- Base addresses and depth accept writes (R345). -/
def CtlQ.open' (q : CtlQ) : Bool := !q.served && !q.draining && !q.error

/-- A queue stops (R353). -/
def stopQueue (n cause : Nat) (s : State) : State :=
  setFlag Ev.queueError (s.modQueue n fun q => { q with error := true, cause := BitVec.ofNat 4 cause })

/-- A submission doorbell (R345, R353). -/
def sqTail (n : Nat) (v : Word) (s : State) : State :=
  let q := s.queue n
  let i := v.toNat % 4096
  if !q.served then s else if q.depth ≤ i then stopQueue n 3 s else s.modQueue n fun x => { x with tail := i }

/-- A completion doorbell: entries up to the index are consumed (R345, R346, R353). -/
def cqHead (n : Nat) (v : Word) (s : State) : State :=
  let q := s.queue n
  let i := v.toNat % 8192
  if !q.served then s
  else if q.cqSize ≤ i then stopQueue n 3 s
  else s.modQueue n fun x =>
    { x with cqHead := i, written := x.written.drop ((i + x.cqSize - x.cqHead) % x.cqSize) }

/-- CTLQ_CFG is written (R345): enable 1 serves the queue from index 0, enable 0 stops it; the depth moves only while
enabled, draining and error are 0; enable 1 is not taken up while the queue drains or stands stopped. -/
def writeCfg (n : Nat) (v : Word) (s : State) : State :=
  let q := s.queue n
  let depthBits : Word := 0x1FFE
  let cfg := if q.open' then v else (v &&& ~~~depthBits) ||| (q.cfg &&& depthBits)
  let rises := cfg.getLsbD 0 && !q.enable
  if rises && (q.draining || q.error) then s.modQueue n fun x => { x with cfg := cfg &&& ~~~(1#32) }
  else if rises then
    s.modQueue n fun x =>
      { x with cfg := cfg, sqHead := 0, tail := 0, cqHead := 0, cqTail := 0, phase := true, written := [], unsignalled := 0,
               cqDead := false }
  else
    s.modQueue n fun x =>
      let y : CtlQ := { x with cfg := cfg }
      if !y.enable && decide (y.outstanding = 0) then { y with error := false, cause := 0 } else y

/-- The queue's vector is signalled (R351). -/
def signalQueue (n : Nat) (s : State) : State :=
  signalVector (s.queue n).vector (s.modQueue n fun x => { x with unsignalled := 0 })

/-- An entry is written to the completion queue, and the vector signalled when enough have been (R350, R351). -/
def writeEntry (n : Nat) (e : CqEntry) (s : State) : State :=
  let q := s.queue n
  let wrap := decide (q.cqTail + 1 = q.cqSize)
  let s1 := s.modQueue n fun x =>
    { x with
      written := x.written ++ [{ e with sqHead := BitVec.ofNat 12 x.sqHead, phase := x.phase }],
      cqTail := if wrap then 0 else x.cqTail + 1, phase := if wrap then !x.phase else x.phase,
      firstAt := if x.unsignalled = 0 then s.sys.time else x.firstAt, unsignalled := x.unsignalled + 1 }
  if q.irqEn ∧ q.aggCount + 1 ≤ q.unsignalled + 1 then signalQueue n s1 else s1

/-- A queue that is being turned off and has nothing outstanding is at rest: draining and error clear (R345). -/
def restQueue (n : Nat) (s : State) : State :=
  s.modQueue n fun x => if !x.enable && decide (x.outstanding = 0) then { x with error := false, cause := 0 } else x

/-- COMPLETION_WRITE: the oldest finished command places its answer in its slot, in one update, and its completion entry
is written; where the completion queue can no longer be written the result is discarded (R353, R356). -/
def completionWrite (n : Nat) (s : State) : State :=
  let q := s.queue n
  match q.done with
  | [] => s
  | d :: rest =>
    if s.sys.d3hot ∨ s.sys.pcieUp = false then s
    else
      let slotIx := 64 * n + d.slot.toNat
      let used := d.slotEn && d.wasLive
      let s1 := s.modQueue n fun x =>
        { x with done := rest, outstanding := if d.wasLive then x.outstanding - 1 else x.outstanding }
      let s2 : State := if d.wasLive then { s1 with cmds := Tbl.erase d.seq s1.cmds } else s1
      if q.cqDead then
        restQueue n (if used then s2.modSlot slotIx fun x => { x with state := 0, status := 0 } else s2)
      else
        let data := d.data.take 4096
        let s3 := if used then s2.modSlot slotIx fun x =>
            { state := 2, status := d.status, length := data.length, tag := d.tag, opcode := d.opcode, seq := x.seq + 1,
              payload := data } else s2
        restQueue n (writeEntry n
          { sqHead := 0, phase := false, slot := d.slot, slotUsed := used, kind := 1, opcode := d.opcode, tag := d.tag,
            status := d.status, detail := d.detail, count := BitVec.ofNat 32 (if used then data.length else 0) } s3)

/-- COMPLETION_WRITE (R356). -/
def execCompletionWrite (n : QueueIx) (t : Nat) (s : State) : Host.Outcome State Fault Refusal :=
  .next (completionWrite n.val (s.tick t))

/-- An event entry is written if, after it, entries and completions owed still fit; else it is dropped, flagged and
logged (R352). -/
def eventWrite (n : Nat) (s : State) : State :=
  let q := s.queue n
  match q.events with
  | [] => s
  | (code, value, object) :: rest =>
    if s.sys.d3hot then s
    else
      let s1 := s.modQueue n fun x => { x with events := rest }
      if q.load + 1 ≤ q.cqSize ∧ q.enable = true ∧ q.cqDead = false ∧ s.sys.pcieUp = true then
        writeEntry n { sqHead := 0, phase := false, slot := 0, slotUsed := false, kind := 4, opcode := code, tag := 0,
                       status := 0, detail := value, count := object } s1
      else addLog Lc.cqEventLost (0x10000000#32 + BitVec.ofNat 32 n) noUnit 0 [n] (setFlag Ev.cqEventLost s1)

/-- CQ_EVENT_WRITE (R352). -/
def execCqEventWrite (n : QueueIx) (s : State) : Host.Outcome State Fault Refusal := .next (eventWrite n.val s)

/-- CQ_AGG_TIMER: 4 × agg_time µs after the first unsignalled entry (R351). -/
def execCqAggTimer (n : QueueIx) (t : Nat) (s : State) : Host.Outcome State Fault Refusal :=
  let s1 := s.tick t
  let q := s1.queue n.val
  .next (if q.irqEn ∧ 0 < q.unsignalled ∧ 0 < q.aggTime ∧ q.firstAt + 4000 * q.aggTime ≤ s1.sys.time then
    signalQueue n.val s1 else s1)

/-- SQ_FETCH_FAIL: a submission fetch, or a completion write, fails and the queue stops (R353). -/
def execSqFetchFail (n : QueueIx) (write : Bool) (s : State) : Host.Outcome State Fault Refusal :=
  .next (if (s.queue n.val).served then
    stopQueue n.val (if write then 2 else 1) (s.modQueue n.val fun q => { q with cqDead := q.cqDead || write })
    else s)

/-- The module may take the next submission entry of a queue (R345, R346, R364). -/
def mayTake (n : Nat) (s : State) : Bool :=
  let q := s.queue n
  q.served && decide (q.tail ≠ q.sqHead) && decide (q.load < q.depth) && !s.sys.d3hot && s.sys.pcieUp &&
    (s.statusBit Sb.ready || (s.statusBit Sb.recovery && decide (n = 0)))

/-- CTLQ_SQ_TAIL: a submission doorbell. -/
def execCtlqSqTail (n : QueueIx) (v : Word) (s : State) : Host.Outcome State Fault Refusal :=
  .next (if s.sys.pcieUp then sqTail n.val v s else s)

/-- CTLQ_CQ_HEAD: a completion doorbell. -/
def execCtlqCqHead (n : QueueIx) (v : Word) (s : State) : Host.Outcome State Fault Refusal :=
  .next (if s.sys.pcieUp then cqHead n.val v s else s)

/-- CTLQ_ENABLE: a write of CTLQ_CFG with enable 1 (R345). -/
def execCtlqEnable (n : QueueIx) (v : Word) (s : State) : Host.Outcome State Fault Refusal :=
  .next (if s.sys.pcieUp then writeCfg n.val (v ||| 1#32) s else s)

/-- CTLQ_DISABLE: a write of CTLQ_CFG with enable 0 (R345). -/
def execCtlqDisable (n : QueueIx) (v : Word) (s : State) : Host.Outcome State Fault Refusal :=
  .next (if s.sys.pcieUp then writeCfg n.val (v &&& ~~~(1#32)) s else s)

/-! ## Result slots (R355 to R358) -/

/-- A release makes a DONE slot FREE; any other release is bad (R358). -/
def releaseSlot (v : Word) (s : State) : State :=
  let i := v.toNat % 4096
  if (s.slot i).state = 2 then
    s.modSlot i fun x => { x with state := 0, status := 0, length := 0, payload := [] }
  else setFlag Ev.releaseError { s with host := { s.host with badRelease := true, badSlot := BitVec.ofNat 12 i } }

/-- RSLT_RELEASE (R358). -/
def execRsltRelease (v : Word) (s : State) : Host.Outcome State Fault Refusal :=
  .next (if s.sys.pcieUp then releaseSlot v s else s)

/-- The payload of a slot as a read sees it: zeros unless DONE, and zeros at or beyond length (R357). -/
def slotPayload (s : State) (i pos : Nat) : Byte :=
  let x := s.slot i
  if x.state = 2 ∧ pos < x.length then x.payload.getD pos 0 else 0

/-! ## Events and MSI-X (R340 to R343, R364) -/

/-- A write of EVT_FORCE sets its flags as the hardware does (R340). -/
def forceFlags (v : Word) (s : State) : State :=
  foldOver ((List.range 32).filter fun k => v.getLsbD k) setFlag s

/-- EVT_FORCE. -/
def execEvtForce (v : Word) (s : State) : Host.Outcome State Fault Refusal :=
  .next (if s.sys.pcieUp then forceFlags v s else s)

/-- A write of EVT_ENABLE: each bit written 1 while its flag is set signals its vector (R343). -/
def writeEnable (v : Word) (s : State) : State :=
  let s1 : State := { s with host := { s.host with evt := { s.host.evt with enable := v } } }
  foldOver ((List.range 32).filter fun k => v.getLsbD k && s.host.evt.flags.getLsbD k)
    (fun k acc => signalVector (Tbl.getD acc.host.evt.vectors k 0) acc) s1

/-- EVT_ENABLE_WRITE. -/
def execEvtEnableWrite (v : Word) (s : State) : Host.Outcome State Fault Refusal :=
  .next (if s.sys.pcieUp then writeEnable v s else s)

/-- Pending vectors that are not masked send their one message (R343). -/
def flushPending (s : State) : State :=
  let m := s.host.msix
  if s.sys.d3hot then s
  else
    let vs := (List.range 64).filter fun i => m.pending.getLsbD i && m.unmasked.getLsbD i
    { s with host := { s.host with msix :=
      { m with pending := m.pending &&& ~~~m.unmasked, sent := m.sent ++ vs.map fun i => BitVec.ofNat 6 i } } }

/-- A vector's mask is set or cleared. -/
def maskVector (v : BitVec 6) (masked : Bool) (s : State) : State :=
  let b : Dword := 1#64 <<< v.toNat
  flushPending { s with host := { s.host with msix := { s.host.msix with
    unmasked := if masked then s.host.msix.unmasked &&& ~~~b else s.host.msix.unmasked ||| b } } }

/-- MSIX_UNMASK: the mask clears, and a pending message is sent. -/
def execMsixUnmask (vec : BitVec 6) (s : State) : Host.Outcome State Fault Refusal :=
  .next (if s.sys.pcieUp then maskVector vec false s else s)

/-- PCIE_LINK_UP: BAR0 answers and MCTP over PCIe is available (R336, R465). -/
def execPcieLinkUp (s : State) : Host.Outcome State Fault Refusal :=
  .next (if s.sys.aux then { s with sys := { s.sys with pcieUp := true } } else s)

/-- D3HOT_TRANSITION: into D3hot, or back to D0 with the messages that waited (R364). -/
def execD3hotTransition (into : Bool) (s : State) : Host.Outcome State Fault Refusal :=
  .next (if s.sys.pcieUp then flushPending { s with sys := { s.sys with d3hot := into } } else s)

/-! ## Module time registers (R338, R339) -/

/-- MOD_TIME as a 64-bit register (R337). -/
def modTime (s : State) : Dword := BitVec.ofNat 64 s.sys.time

/-- MOD_TIME_LOW_READ latches the high half (R338). -/
def execModTimeLowRead (s : State) : Host.Outcome State Fault Refusal :=
  .next (if s.sys.pcieUp then
    { s with sys := { s.sys with timeLatch := some (BitVec.ofNat 32 (s.sys.time / 4294967296)) } } else s)

/-- The epoch offset is written and logged with the old and new values (R339). -/
def writeEpoch (v : Dword) (s : State) : State :=
  let o := s.sys.epochOffset
  addLog Lc.epochOffsetSet 0x10000000 noUnit 0
    [o.toNat % 4294967296, o.toNat / 4294967296, v.toNat % 4294967296, v.toNat / 4294967296]
    { s with sys := { s.sys with epochOffset := v } }

/-- MOD_EPOCH_OFFSET_WRITE. -/
def execModEpochOffsetWrite (v : Dword) (s : State) : Host.Outcome State Fault Refusal :=
  .next (if s.sys.pcieUp then writeEpoch v s else s)

/-! ## Mailboxes (R359, R360) -/

/-- A word is sent to a channel: stored, or discarded while the channel is full (R360). -/
def mbxSend (n : Nat) (v : Word) (s : State) : State :=
  if (s.mailbox n).full then
    s.modMailbox n fun x => { x with overruns := if x.overruns = 0xFFFF then x.overruns else x.overruns + 1 }
  else
    let s1 := s.modMailbox n fun x => { x with word := v, full := true }
    if 16 ≤ n then setFlag Ev.mbxToHost s1 else s1

/-- MBX_HOST_WRITE: the host writes MBX_DATA of channels 0–15; the others are read-only to it (R359). -/
def execMbxHostWrite (n : MbxIx) (v : Word) (s : State) : Host.Outcome State Fault Refusal :=
  .next (if s.sys.pcieUp ∧ n.val < 16 then mbxSend n.val v s else s)

/-- MBX_MODULE_WRITE: the bound core of a channel 16–31 sends a word (R359). -/
def execMbxModuleWrite (n : MbxIx) (v : Word) (s : State) : Host.Outcome State Fault Refusal :=
  .next (if 16 ≤ n.val then mbxSend n.val v s else s)

/-- The receiving side takes a word and clears full (R360). -/
def mbxTake (n : Nat) (s : State) : State :=
  if (s.mailbox n).full then
    let s1 := s.modMailbox n fun x => { x with full := false }
    if n < 16 then setFlag Ev.mbxToModule s1 else s1
  else s

/-- MBX_TAKE. -/
def execMbxTake (n : MbxIx) (s : State) : Host.Outcome State Fault Refusal := .next (mbxTake n.val s)

/-- MBX_CLR_OVERRUNS (R359). -/
def execMbxClrOverruns (n : MbxIx) (s : State) : Host.Outcome State Fault Refusal :=
  .next (s.modMailbox n.val fun x => { x with overruns := 0 })

/-! ## The log (R361 to R363) -/

/-- The 64 bytes of a log entry (R362). -/
def LogEntry.toBytes (e : LogEntry) : List Byte :=
  leBytes 8 e.seq ++ leBytes 8 e.time ++ leBytes 2 e.code.toNat ++ leBytes 1 e.severity.toNat ++ leBytes 1 0 ++
    leBytes 4 e.origin.toNat ++ leBytes 4 e.unit.toNat ++ leBytes 4 e.context.toNat ++
    sliceBytes (e.detail.flatMap (leBytes 4)) 0 32

/-- The entry of a sequence number, as the ring holds it. -/
def logAt (s : State) (q : Nat) : Option LogEntry :=
  if s.log.first ≤ q ∧ q < s.log.next then s.log.entries[q - s.log.first]? else none

/-! ## Function resets (R364) -/

/-- The kind of a function reset as logged. -/
def resetKindCode : FunctionResetKind → Nat
  | .flr => 0
  | .hot => 1
  | .perst => 2
  | .linkDown => 3

/-- Commands of control queues after a function reset: those whose request data was not fully read end with
ST_ABORTED_RESET, the others run on, and every result is discarded (R364). -/
def discardQueued (s : State) : State :=
  let mark : State := { s with cmds := Tbl.mapVals (fun _ x => if isCtlq x.c.origin then { x with discard := true } else x) s.cmds }
  let s1 := abortAll (fun x => isCtlq x.c.origin && decide (0 < x.c.dataLen.toNat) && !x.full) St.abortedReset mark
  { s1 with cmds := Tbl.keep (fun _ x => !(isCtlq x.c.origin && !x.open)) s1.cmds }

/-- The function is reset: queues, event enables and vectors, epoch offset, log window and notify count stand at reset;
DONE slots become FREE; slots of commands that run on stay PENDING; `down` when the PCIe link goes down with it (R364). -/
def resetFunction (code : Nat) (down : Bool) (s : State) : State :=
  let s1 := discardQueued s
  let busy (i : Nat) : Bool := s1.cmds.any fun e => isCtlq e.2.c.origin && e.2.c.slotEn && decide (slotIndex e.2.c = i)
  let h := s1.host
  let s2 : State :=
    { s1 with
      host := { h with
        queues := []
        slots := Tbl.mapVals (fun i x => if busy i then x else { Slot.fresh with seq := x.seq }) h.slots
        evt := { h.evt with enable := 0, vectors := [] }
        msix := { h.msix with table := [], unmasked := 0, pending := 0 } }
      sys := { s1.sys with epochOffset := 0, d3hot := false, timeLatch := none, pcieUp := s1.sys.pcieUp && !down }
      log := { s1.log with window := 0, notify := 1 } }
  logHw Lc.pcieReset [code] s2

/-- The kind code of a function reset that a module reset or the clock monitor makes (R399, R420; log 23). -/
def resetKindModule : Nat := 4

/-- FLR, hot reset, PERST# or link-down reaches the function (R364). -/
def functionReset (k : FunctionResetKind) (s : State) : State :=
  resetFunction (resetKindCode k) (match k with
    | .perst => true
    | .linkDown => true
    | _ => false) s

/-! ## Registers of BAR0 and BAR4 (R335, R336) -/

/-- A 32-bit half of a 64-bit register replaced. -/
def putHalf (old : Dword) (hi : Bool) (v : Word) : Dword :=
  if hi then BitVec.ofNat 64 (old.toNat % 4294967296 + 4294967296 * v.toNat)
  else BitVec.ofNat 64 (old.toNat / 4294967296 * 4294967296 + v.toNat)

/-- A 4-byte write of a control queue register (R344). -/
def writeCtlq (n r : Nat) (v : Word) (s : State) : State :=
  let q := s.queue n
  let low : Dword := 0xFFF
  match r with
  | 0x00 => if q.open' then s.modQueue n fun x => { x with sqBase := putHalf x.sqBase false v &&& ~~~low } else s
  | 0x04 => if q.open' then s.modQueue n fun x => { x with sqBase := putHalf x.sqBase true v } else s
  | 0x08 => if q.open' then s.modQueue n fun x => { x with cqBase := putHalf x.cqBase false v &&& ~~~low } else s
  | 0x0C => if q.open' then s.modQueue n fun x => { x with cqBase := putHalf x.cqBase true v } else s
  | 0x10 => writeCfg n v s
  | 0x14 => sqTail n v s
  | 0x18 => cqHead n v s
  | _ => s

/-- A 4-byte write of a mailbox register (R359). -/
def writeMbx (n r : Nat) (v : Word) (s : State) : State :=
  match r with
  | 0x0 => if n < 16 then mbxSend n v s else s
  | 0x4 =>
    let s1 := if v.getLsbD 0 ∧ 16 ≤ n then mbxTake n s else s
    if v.getLsbD 2 then s1.modMailbox n fun x => { x with overruns := 0 } else s1
  | _ => s

/-- An aligned 4-byte write of BAR0; an offset that no table defines ignores it (R335). -/
def bar0Write (off : Nat) (v : Word) (s : State) : State :=
  if off = 0x18 then writeEpoch (putHalf s.sys.epochOffset false v) s
  else if off = 0x1C then writeEpoch (putHalf s.sys.epochOffset true v) s
  else if off = 0x1000 then { s with host := { s.host with evt := { s.host.evt with flags := s.host.evt.flags &&& ~~~v } } }
  else if off = 0x1004 then writeEnable v s
  else if off = 0x1008 then forceFlags v s
  else if 0x1200 ≤ off ∧ off < 0x1280 then
    { s with host := { s.host with evt :=
      { s.host.evt with vectors := Tbl.put 0 ((off - 0x1200) / 4) (BitVec.ofNat 6 (v.toNat % 64)) s.host.evt.vectors } } }
  else if 0x2000 ≤ off ∧ off < 0x3000 then writeCtlq ((off - 0x2000) / 64) ((off - 0x2000) % 64) v s
  else if 0x10000 ≤ off ∧ off < 0x10200 then writeMbx ((off - 0x10000) / 16) ((off - 0x10000) % 16) v s
  else if off = 0x20000 then releaseSlot v s
  else if off = 0x20004 then
    (if v.getLsbD 0 then { s with host := { s.host with badRelease := false } } else s)
  else if off = 0x80010 then
    { s with log := { s.log with window := BitVec.ofNat 58 (s.log.window.toNat / 2 ^ 26 * 2 ^ 26 + v.toNat / 64) } }
  else if off = 0x80014 then
    { s with log := { s.log with window := BitVec.ofNat 58 (s.log.window.toNat % 2 ^ 26 + v.toNat * 2 ^ 26) } }
  else if off = 0x80018 then { s with log := { s.log with notify := BitVec.ofNat 16 v.toNat } }
  else s

/-- A 4-byte write of BAR4: the MSI-X table; the pending bits are read-only (R334). -/
def bar4Write (off : Nat) (v : Word) (s : State) : State :=
  if off < 0x400 then
    (if off % 16 = 12 then maskVector (BitVec.ofNat 6 (off / 16)) (v.getLsbD 0) s
     else { s with host := { s.host with msix :=
      { s.host.msix with table := Tbl.put 0 (off / 4) v s.host.msix.table } } })
  else s

/-- A host write of 4 or 8 bytes, naturally aligned; any other access is discarded (R336). An 8-byte write acts on both
32-bit registers; one of MOD_EPOCH_OFFSET is one write (R339). -/
def barWrite (four : Nat → Word → State → State) (off : Nat) (eight : Bool) (v : Dword) (s : State) : State :=
  if s.sys.pcieUp = false then s
  else if eight then
    (if off % 8 ≠ 0 then s
     else four (off + 4) (BitVec.ofNat 32 (v.toNat / 4294967296)) (four off (BitVec.ofNat 32 v.toNat) s))
  else if off % 4 ≠ 0 then s
  else four off (BitVec.ofNat 32 v.toNat) s

/-- A write of BAR0. -/
def bar0Access (off : Nat) (eight : Bool) (v : Dword) (s : State) : State :=
  if off = 0x18 ∧ eight = true ∧ s.sys.pcieUp = true then writeEpoch v s else barWrite bar0Write off eight v s

/-! ## Reads of BAR0 (R335 to R338, R340, R344, R355, R359, R361) -/

/-- CTLQ_STAT (R344). -/
def ctlqStat (q : CtlQ) : Word :=
  BitVec.ofNat 32 (q.sqHead + (if q.served then 4096 else 0) + (if q.draining then 8192 else 0) +
    (if q.error then 16384 else 0) + 32768 * q.cause.toNat + 524288 * q.outstanding)

/-- A word of a list of bytes. -/
def wordAt (bs : List Byte) (pos : Nat) : Word := BitVec.ofNat 32 (fieldAt bs pos 4)

/-- The header of a slot (R355). -/
def slotHeader (x : Slot) : List Byte :=
  leBytes 2 x.state.toNat ++ leBytes 2 x.status.toNat ++ leBytes 4 x.length ++ leBytes 2 x.tag.toNat ++
    leBytes 2 x.opcode.toNat ++ leBytes 4 x.seq.toNat

/-- An aligned 4-byte read of BAR0; an offset that no table defines reads as zero (R335). -/
def bar0Read (off : Nat) (s : State) : Word :=
  if off = 0x000 then 0x0C28 ||| (s.sys.stepping.zeroExtend 32 <<< 16)
  else if off = 0x008 then s.sys.status
  else if off = 0x00C then
    BitVec.ofNat 32 (s.sys.castStep.toNat + (if s.sys.stepFailed then 16 else 0) + 256 * s.sys.lastReset.toNat)
  else if off = 0x010 then BitVec.ofNat 32 s.sys.time
  else if off = 0x014 then s.sys.timeLatch.getD (BitVec.ofNat 32 (s.sys.time / 4294967296))
  else if off = 0x018 then BitVec.ofNat 32 s.sys.epochOffset.toNat
  else if off = 0x01C then BitVec.ofNat 32 (s.sys.epochOffset.toNat / 4294967296)
  else if off = 0x020 then s.sys.node.zeroExtend 32
  else if off = 0x1000 ∨ off = 0x1008 then s.host.evt.flags
  else if off = 0x1004 then s.host.evt.enable
  else if 0x1100 ≤ off ∧ off < 0x1180 then Tbl.getD s.host.evt.counts ((off - 0x1100) / 4) 0
  else if 0x1200 ≤ off ∧ off < 0x1280 then (Tbl.getD s.host.evt.vectors ((off - 0x1200) / 4) 0).zeroExtend 32
  else if 0x2000 ≤ off ∧ off < 0x3000 then
    let q := s.queue ((off - 0x2000) / 64)
    (match (off - 0x2000) % 64 with
      | 0x00 => BitVec.ofNat 32 q.sqBase.toNat
      | 0x04 => BitVec.ofNat 32 (q.sqBase.toNat / 4294967296)
      | 0x08 => BitVec.ofNat 32 q.cqBase.toNat
      | 0x0C => BitVec.ofNat 32 (q.cqBase.toNat / 4294967296)
      | 0x10 => q.cfg
      | 0x1C => ctlqStat q
      | _ => 0)
  else if 0x10000 ≤ off ∧ off < 0x10200 then
    let n := (off - 0x10000) / 16
    let x := s.mailbox n
    (match off % 16 with
      | 0x0 => if 16 ≤ n then x.word else 0
      | 0x4 => BitVec.ofNat 32 ((if x.full then 1 else 0) + (if 16 ≤ n then 2 else 0) + 65536 * x.overruns.toNat)
      | 0x8 => x.bind.zeroExtend 32
      | _ => 0)
  else if off = 0x20004 then
    BitVec.ofNat 32 ((if s.host.badRelease then 1 else 0) + 16 * s.host.badSlot.toNat)
  else if 0x30000 ≤ off ∧ off < 0x40000 then wordAt (slotHeader (s.slot ((off - 0x30000) / 16))) (off % 16)
  else if off = 0x80000 then BitVec.ofNat 32 s.log.first
  else if off = 0x80004 then BitVec.ofNat 32 (s.log.first / 4294967296)
  else if off = 0x80008 then BitVec.ofNat 32 s.log.next
  else if off = 0x8000C then BitVec.ofNat 32 (s.log.next / 4294967296)
  else if off = 0x80010 then BitVec.ofNat 32 (64 * s.log.window.toNat)
  else if off = 0x80014 then BitVec.ofNat 32 (64 * s.log.window.toNat / 4294967296)
  else if off = 0x80018 then s.log.notify.zeroExtend 32
  else if 0x81000 ≤ off ∧ off < 0x82000 then
    (match logAt s (64 * s.log.window.toNat + (off - 0x81000) / 64) with
      | some e => wordAt e.toBytes (off % 64)
      | none => 0)
  else if 0x1000000 ≤ off ∧ off < 0x2000000 then
    let i := (off - 0x1000000) / 4096
    wordAt ((List.range 4).map fun j => slotPayload s i (off % 4096 + j)) 0
  else 0

end Sys2Proof.Machine
end

