-- ==== Sys2Proof/Machine/Errors.lean ====
section
/-! DEFINITION. Errors of stored data and the structural scan (chapter 14): the ECC test port, remapping, retirement of
units and frames, and the error administration commands (R370 to R385). -/

namespace Sys2Proof.Machine

/-! ## Units named by a word (R362) -/

/-- The engine that a unit field names: array cluster, vector engine, scan engine, flash channel, optical link or Futis
core. -/
def unitOfWord (w : Word) : Option HwUnit :=
  let v := w.toNat
  let d := v % 16
  let k := v / 16 % 16
  let i := v / 256
  if 65536 ≤ v then none
  else if d < 4 then
    if k = 1 ∧ i < 16 then some (.cluster (dieIx d) (clusterIx i))
    else if k = 2 ∧ i < 4 then some (.vector (dieIx d) (engIx i))
    else if k = 6 ∧ i < 8 then some (.futisCompute (dieIx d) ⟨i % 8, Nat.mod_lt _ (by decide)⟩ false)
    else none
  else if d < 6 then
    if k = 3 ∧ i < 8 then some (.scan ⟨(d - 4) % 2, Nat.mod_lt _ (by decide)⟩ ⟨i % 8, Nat.mod_lt _ (by decide)⟩)
    else if k = 4 ∧ i / 64 = d - 4 then some (.channel ⟨i % 128, Nat.mod_lt _ (by decide)⟩)
    else if k = 6 ∧ i < 4 then some (.futisMedia ⟨(d - 4) % 2, Nat.mod_lt _ (by decide)⟩ (engIx i))
    else none
  else if d < 8 then
    if k = 5 ∧ i / 12 = d - 6 ∧ i < 24 then some (.link ⟨i % 24, Nat.mod_lt _ (by decide)⟩) else none
  else none

/-! ## The ECC test port (R374, R375) -/

/-- The code of a target in ECC_INJECT_CTL (R374). -/
def targetCode : EccTarget → Nat
  | .scratchpad => 0
  | .rowMemory => 1
  | .vectorFile => 2
  | .descTable => 3
  | .hbm => 4
  | .staging => 5
  | .tableSram => 6
  | .channelBuffer => 7

/-- The target of a code; codes 8 and above are reserved (R374). -/
def targetOf : Nat → Option EccTarget
  | 0 => some .scratchpad
  | 1 => some .rowMemory
  | 2 => some .vectorFile
  | 3 => some .descTable
  | 4 => some .hbm
  | 5 => some .staging
  | 6 => some .tableSram
  | 7 => some .channelBuffer
  | _ => none

/-- Words of 64 bits that an operation on a target moves: eight for an HBM line, one for an SRAM word (R374). -/
def eccWords : EccTarget → Nat
  | .hbm => 8
  | _ => 1

/-- The die carries the memory named: array and stream memories and HBM on compute dies, flash memories on media dies
(R14). -/
def targetOnDie (d : Nat) : EccTarget → Bool
  | .staging => decide (d = 4 ∨ d = 5)
  | .tableSram => decide (d = 4 ∨ d = 5)
  | .channelBuffer => decide (d = 4 ∨ d = 5)
  | _ => decide (d < 4)

/-- The unit and word address lie within the memory (R14, R35, R39, R85, R371). -/
def eccInRange (r : EccReq) : Bool :=
  let u := r.unit.toNat
  let a := r.addr.toNat
  match r.target with
  | .scratchpad => decide (u < 16 ∧ a < 1048576)
  | .rowMemory => decide (u = 0 ∧ a < 524288)
  | .vectorFile => decide (u < 4 ∧ a < 8192)
  | .descTable => decide (u < 16 ∧ a < 1024)
  | .hbm => match r.futis with
    | some _ => decide (64 * a < 281474976710656)
    | none => decide (u < 2 ∧ a < 805306368)
  | .staging => decide (u = 0 ∧ a < 33554432)
  | .tableSram => true
  | .channelBuffer => decide (u < 64 ∧ a < 16384)

/-- The unit whose block the memory belongs to, for its enable (R418). -/
def eccUnit (d : Nat) (r : EccReq) : Option HwUnit :=
  match r.target with
  | .scratchpad => some (.cluster (dieIx d) (clusterIx r.unit.toNat))
  | .descTable => some (.cluster (dieIx d) (clusterIx r.unit.toNat))
  | .vectorFile => some (.vector (dieIx d) (engIx r.unit.toNat))
  | .rowMemory => some (.sequencer (dieIx d))
  | .channelBuffer => some (.channel ⟨(64 * (d - 4) + r.unit.toNat) % 128, Nat.mod_lt _ (by decide)⟩)
  | _ => none

/-- A caller may name the target (R375): a Futis core only scratchpads and descriptor tables of its own idle die, and
lines of resident pages of its own partition. -/
def eccPermitted (d : Nat) (r : EccReq) (s : State) : Bool :=
  targetOnDie d r.target &&
  match r.futis with
  | none => true
  | some p =>
    decide (ownerOf s d = some p.val) &&
    match r.target with
    | .scratchpad => (s.die d).stream.isNone && (s.die d).parked.isEmpty
    | .descTable => (s.die d).stream.isNone && (s.die d).parked.isEmpty
    | .hbm =>
      let g := (s.store p.val).page (64 * r.addr.toNat / pageBytes)
      g.resident && decide (g.die = d)
    | _ => false

/-- A running stream's clusters, a transfer in flight or a unit not yet programmed depends on the word (R375). -/
def eccBusy (d : Nat) (r : EccReq) (s : State) : Bool :=
  let x := s.die d
  match r.futis with
  | some _ => false
  | none =>
    match r.target with
    | .scratchpad => x.stream.any fun y => y.map.contains r.unit.toNat
    | .descTable => x.stream.any fun y => y.map.contains r.unit.toNat
    | .rowMemory => x.stream.isSome
    | .vectorFile => x.stream.any fun y =>
        (((Tbl.get? s.programs y.prog.toNat).map Program.slots).getD 0).getLsbD r.unit.toNat
    | .hbm => decide (0 < migrationsOn s d) || x.movers.any fun m => !m.2.isEmpty
    | .staging => decide (0 < s.media.landing) ||
        s.media.groups.any fun g => g.2.supers.any fun b => b.2.isOpen && decide (0 < b.2.fill)
    | _ => false

/-- The key of a word of a memory that the model keeps nowhere else. -/
def eccKey (d : Nat) (r : EccReq) : Nat := d + 8 * (targetCode r.target + 8 * (r.unit.toNat + 256 * r.addr.toNat))

/-- The data words held at the address: from the die's memories and store space; of other memories as last written
through the port, else free values (log 21). -/
def eccData (d : Nat) (r : EccReq) (s : State) : State × List Dword :=
  let a := r.addr.toNat
  let u := r.unit.toNat
  let other : State × List Dword :=
    match Tbl.get? s.errs.words (eccKey d r) with
    | some ws => (s, ws)
    | none =>
      ({ s with free := s.free + eccWords r.target },
       (List.range (eccWords r.target)).map fun i => BitVec.ofNat 64 (Config.freeNat (s.free + i)))
  match r.target with
  | .scratchpad => (s, [BitVec.ofNat 64 (leNat ((s.die d).padRead (padKey u (8 * a : Nat)) 8))])
  | .vectorFile =>
    let l := (s.die d).reg u (a / 128)
    (s, [BitVec.ofNat 64 ((l.getD (2 * (a % 128)) 0).toNat + 4294967296 * (l.getD (2 * (a % 128) + 1) 0).toNat)])
  | .hbm =>
    (match r.futis with
      | some p =>
        (s, (List.range 8).map fun i => BitVec.ofNat 64 (leNat (storeRead s p.val (64 * a + 8 * i) 8)))
      | none => other)
  | _ => other

/-- The data words stored at the address. -/
def eccPut (d : Nat) (r : EccReq) (ws : List Dword) (s : State) : State :=
  let a := r.addr.toNat
  let u := r.unit.toNat
  let other : State := { s with errs := { s.errs with words := Tbl.set (eccKey d r) ws s.errs.words } }
  match r.target with
  | .scratchpad => s.modDie d fun x => x.padWrite (padKey u (8 * a : Nat)) (leBytes 8 (ws.headD 0).toNat)
  | .vectorFile => s.modDie d fun x =>
      let w := (ws.headD 0).toNat
      let l := x.reg u (a / 128)
      x.setReg u (a / 128) ((l.set (2 * (a % 128)) (BitVec.ofNat 32 w)).set (2 * (a % 128) + 1) (BitVec.ofNat 32 (w / 4294967296)))
  | .hbm =>
    (match r.futis with
      | some p => storeWrite p.val (64 * a) (ws.flatMap fun w => leBytes 8 w.toNat) s
      | none => other)
  | _ => other

/-- The check bits that data gets (R365): 8 bits of an SRAM word, 64 of an HBM line. -/
def eccChk (t : EccTarget) (ws : List Dword) : Dword :=
  match t with
  | .hbm => Config.checkBits 512 ws
  | _ => Config.checkBits 64 ws &&& 0xFF

/-- Whether an entry of the injection list names the word. -/
def Injected.names (d : Nat) (r : EccReq) (e : Injected) : Bool :=
  decide (e.die = d ∧ e.target = targetCode r.target ∧ e.unit = r.unit.toNat ∧ e.addr = r.addr.toNat)

/-- The word's entry on the injection list still stands: no write has changed its data since (R375). -/
def eccListed (d : Nat) (r : EccReq) (ws : List Dword) (s : State) : Option Injected :=
  (s.errs.injected.find? fun e => e.names d r).bind fun e => if e.data = ws then some e else none

/-- Data and check bits as stored (R374). -/
def eccStored (d : Nat) (r : EccReq) (s : State) : State × List Dword × Dword :=
  let q := eccData d r s
  match eccListed d r q.2 s with
  | some e => (q.1, q.2, e.chk)
  | none => (q.1, q.2, eccChk r.target q.2)

/-- A 64-bit word with one bit turned. -/
def flipBit (w : Dword) (i : Nat) : Dword := w ^^^ (1#64 <<< i)

/-- A 16-bit symbol of a line replaced. -/
def setSymbol (ws : List Dword) (i v : Nat) : List Dword :=
  ws.mapIdx fun k w => if k = i / 4 then
    (w &&& ~~~(0xFFFF#64 <<< (16 * (i % 4)))) ||| (BitVec.ofNat 64 v <<< (16 * (i % 4))) else w

/-- What the checker finds in an SRAM word (R365): result, position and corrected data. -/
def checkWord (w : Dword) (chk : Dword) : Nat × Nat × Dword :=
  let c := Config.checkBits 64 [w] &&& 0xFF
  if c = chk then (0, 0x7F, w)
  else
    match (List.range 64).find? fun i => decide (Config.checkBits 64 [flipBit w i] &&& 0xFF = chk) with
    | some i => (1, i, flipBit w i)
    | none =>
      match (List.range 8).find? fun i => decide (c = flipBit chk i) with
      | some i => (1, 64 + i, w)
      | none => (2, 0x7F, w)

/-- What the checker finds in an HBM line (R365): result, symbol and corrected data. -/
def checkLine (ws : List Dword) (chk : Dword) : Nat × Nat × List Dword :=
  let c := Config.checkBits 512 ws
  if c = chk then (0, 0x7F, ws)
  else
    let hits := (List.range 32).filterMap fun i =>
      ((List.range 65536).find? fun v => decide (Config.checkBits 512 (setSymbol ws i v) = chk)).map fun v => (i, setSymbol ws i v)
    match hits with
    | (i, fixed) :: _ => (1, i, fixed)
    | [] =>
      match (List.range 4).find? fun i => decide ((c ^^^ chk) &&& ~~~(0xFFFF#64 <<< (16 * i)) = 0) with
      | some i => (1, 32 + i, ws)
      | none => (2, 0x7F, ws)

/-- ECC_INJECT_STAT (R374). -/
def eccStat (result : Nat) (refused : Bool) (cause syndrome : Nat) : Word :=
  BitVec.ofNat 32 (result + (if refused then 4 else 0) + 8 * cause + 64 * syndrome)

/-- The port's registers after an operation: STAT, CHK and DATA. -/
def setPort (d : Nat) (stat : Word) (chk : Dword) (ws : List Dword) (s : State) : State :=
  { s with errs :=
    { s.errs with portStat := Tbl.set d stat s.errs.portStat, portChk := Tbl.set d chk s.errs.portChk,
                  portData := Tbl.set d ws s.errs.portData } }

/-- The operation is refused and does nothing (R375). -/
def refusePort (d : Nat) (cause : Nat) (r : EccReq) (s : State) : State :=
  setPort d (eccStat 0 true cause 0x7F) r.chk r.data s

/-- Why an operation is refused, if it is (R374, R375). -/
def eccRefusal (op d : Nat) (r : EccReq) (s : State) : Option Nat :=
  if !eccPermitted d r s then some 1
  else if !eccInRange r then some 3
  else if eccBusy d r s then some 2
  else if op = 1 ∧ 16 ≤ (s.errs.injected.filter fun e => decide (e.die = d)).length ∧
      !(s.errs.injected.any fun e => e.names d r) then some 2
  else none

/-- One test port operation: 0 READ_RAW, 1 WRITE_SPLIT, 2 WRITE, 3 READ (R374, R375). -/
def eccPort (op d : Nat) (r : EccReq) (s : State) : State :=
  match (eccUnit d r).filter fun u => !s.enabled u with
  | some u => if r.futis.isSome then s else logUnit Lc.blockGated u [] s
  | none =>
    match eccRefusal op d r s with
    | some cause => refusePort d cause r s
    | none =>
      let ws := (r.data ++ List.replicate 8 0).take (eccWords r.target)
      let unlist (s : State) : State :=
        { s with errs := { s.errs with injected := s.errs.injected.filter fun e => !e.names d r } }
      if op = 1 then
        let e : Injected :=
          { die := d, target := targetCode r.target, unit := r.unit.toNat, addr := r.addr.toNat, data := ws,
            chk := if r.target = .hbm then r.chk else r.chk &&& 0xFF }
        let s1 := unlist (eccPut d r ws s)
        setPort d (eccStat 0 false 0 0x7F) r.chk r.data { s1 with errs := { s1.errs with injected := s1.errs.injected ++ [e] } }
      else if op = 2 then setPort d (eccStat 0 false 0 0x7F) r.chk r.data (unlist (eccPut d r ws s))
      else
        let q := eccStored d r s
        if op = 0 then setPort d (eccStat 0 false 0 0x7F) q.2.2 q.2.1 q.1
        else if r.target = .hbm then
          let f := checkLine q.2.1 q.2.2
          setPort d (eccStat f.1 false 0 f.2.1) (if f.1 = 1 then eccChk .hbm f.2.2 else q.2.2) f.2.2 q.1
        else
          let f := checkWord (q.2.1.headD 0) q.2.2
          setPort d (eccStat f.1 false 0 f.2.1) (if f.1 = 1 then eccChk r.target [f.2.2] else q.2.2) [f.2.2] q.1

/-- CTL and ADDR as a row's request sets them (R374). -/
def portTakes (op d : Nat) (r : EccReq) (s : State) : State :=
  let ctl := BitVec.ofNat 32 (2 * (op % 4) + 8 * targetCode r.target + 128 * r.unit.toNat)
  { s with errs := { s.errs with portCtl := Tbl.set d ctl s.errs.portCtl, portAddr := Tbl.set d r.addr s.errs.portAddr } }

/-- The registers of a port are set and its operation starts: its effects, and STAT, CHK and DATA after it (R374). -/
def portRuns (op d : Nat) (r : EccReq) (s : State) : State := eccPort op d r (portTakes op d r s)

/-- The data words of a port. -/
def portWords (d : Nat) (s : State) : List Dword := (Tbl.getD s.errs.portData d [] ++ List.replicate 8 0).take 8

/-- A 4-byte write of a test port register by the management core: CTL with go set starts the operation; a reserved field
that is not zero refuses it with cause 4 (R374). -/
def portWrite (d off : Nat) (v : Word) (s : State) : State :=
  let half (old : Dword) : Dword :=
    if off % 8 = 4 then BitVec.ofNat 64 (old.toNat % 4294967296 + 4294967296 * v.toNat)
    else BitVec.ofNat 64 (old.toNat / 4294967296 * 4294967296 + v.toNat)
  let chk := Tbl.getD s.errs.portChk d 0
  let ws := portWords d s
  if off = 0 then
    let s1 : State := { s with errs := { s.errs with portCtl := Tbl.set d (v &&& 0x7FFE) s.errs.portCtl } }
    if v.getLsbD 0 then
      match targetOf (bits v.toNat 3 4) with
      | some t =>
        if v.toNat / 32768 ≠ 0 then setPort d (eccStat 0 true 4 0x7F) chk ws s1
        else
          eccPort (bits v.toNat 1 2) d
            { futis := none, target := t, unit := BitVec.ofNat 8 (bits v.toNat 7 8), addr := Tbl.getD s.errs.portAddr d 0,
              chk := chk, data := ws } s1
      | none => setPort d (eccStat 0 true (if v.toNat / 32768 ≠ 0 then 4 else 1) 0x7F) chk ws s1
    else s1
  else if off = 0x8 ∨ off = 0xC then
    { s with errs := { s.errs with portAddr := Tbl.set d (half (Tbl.getD s.errs.portAddr d 0)) s.errs.portAddr } }
  else if off = 0x10 ∨ off = 0x14 then
    { s with errs := { s.errs with portChk := Tbl.set d (half chk) s.errs.portChk } }
  else if 0x40 ≤ off ∧ off < 0x80 then
    let k := (off - 0x40) / 8
    { s with errs := { s.errs with portData := Tbl.set d (ws.mapIdx fun i w => if i = k then half w else w) s.errs.portData } }
  else s

/-- ECC_READ_RAW (R374). -/
def execEccReadRaw (d : AllDieIx) (r : EccReq) (s : State) : Host.Outcome State Fault Refusal := .next (portRuns 0 d.val r s)
/-- ECC_WRITE_SPLIT (R374, R375). -/
def execEccWriteSplit (d : AllDieIx) (r : EccReq) (s : State) : Host.Outcome State Fault Refusal := .next (portRuns 1 d.val r s)
/-- ECC_WRITE (R374). -/
def execEccWrite (d : AllDieIx) (r : EccReq) (s : State) : Host.Outcome State Fault Refusal := .next (portRuns 2 d.val r s)
/-- ECC_READ (R374). -/
def execEccRead (d : AllDieIx) (r : EccReq) (s : State) : Host.Outcome State Fault Refusal := .next (portRuns 3 d.val r s)

/-! ## Hard faults (R370 to R373) -/

/-- Live units of plat that lie on a channel's dies: volume and unit (R371). -/
def unitsOn (s : State) (ch : Nat) : List (Nat × Nat) :=
  s.vols.flatMap fun v => (v.2.plat.filter fun e =>
    let p := platPlace e.2
    decide (platState e.2 = 1 ∧ 64 * (p.group / 64) + 16 * (p.group % 4) + p.slot = ch)).map fun e => (v.1, e.1)

/-- A flash channel is retired: the data of its 16 dies is rebuilt and relocated, and their blocks no longer count
(R275, R371). -/
def retireChannel (ch : Fin 128) (s : State) : State :=
  let s1 := retireUnit (.channel ch) s
  let s2 : State := { s1 with media := { s1.media with deadChannels := s1.media.deadChannels ++ [ch.val] } }
  checkCapacity (foldOver (unitsOn s2 ch.val) (fun u acc => remapUnit u.1 u.2 acc) s2)

/-- A unit is retired with what that entails for the work that needs it (R371, R383, R393). -/
def retireFor (u : HwUnit) (s : State) : State :=
  match u with
  | .channel ch => if ch.val ∈ s.media.deadChannels then s else retireChannel ch s
  | _ => dropUnplaceable (retireUnit u s)

/-- Eight entries of a macro's remap table are in use and another address fails (R371). -/
def remapFull (d sram : Nat) (u : HwUnit) (s0 : State) : State :=
  let s := addLog Lc.remapFull 0x50000000 (unitOf u) 0 [d, sram] s0
  match u with
  | .cluster _ _ => retireFor u s
  | .vector _ _ => retireFor u s
  | .sequencer k =>
    dropUnplaceable (s.modDie k.val fun x =>
      let y : Die := { x with deadSegs := min 64 (x.deadSegs + 4) }
      { y with rows := freeRows y 0 64 y.rows })
  | .channel ch =>
    let lost := Tbl.getD s.media.deadBuffers ch.val 0 + 1
    let s1 : State :=
      { s with media :=
        { s.media with deadBuffers := Tbl.set ch.val lost s.media.deadBuffers
                       slowChannels := if ch.val ∈ s.media.slowChannels then s.media.slowChannels else s.media.slowChannels ++ [ch.val] } }
    if 8 < lost + 2 then retireFor u s1 else s1
  | .dieManager k =>
    if (k.val = 4 ∨ k.val = 5) ∧ sram < 256 then
      let s1 : State :=
        { s with media :=
          { s.media with stagingLost := Tbl.set (k.val - 4) (Tbl.getD s.media.stagingLost (k.val - 4) 0 + 1) s.media.stagingLost
                         landingCap := s.media.landingCap - 1048576 } }
      if stagingShort s1 then degrade (.sram d) { s1 with media := { s1.media with slowAck := true } } else s1
    else degrade (.sram d) s
  | _ => degrade (.sram d) s

/-- WORD_REMAPPED: an entry of the macro's remap table is installed and recorded, or the table is full (R370, R371,
R373). -/
def wordRemapped (d sram addr : Nat) (u : HwUnit) (s : State) : State :=
  if (d, sram, addr) ∈ s.errs.remaps then s
  else if 8 ≤ (s.errs.remaps.filter fun e => decide (e.1 = d ∧ e.2.1 = sram)).length then remapFull d sram u s
  else
    let e := (d, sram, addr)
    logUnit Lc.wordRemapped u [d, sram, addr]
      { s with errs := { s.errs with remaps := s.errs.remaps ++ [e], repair := (s.errs.repair.1 ++ [e], s.errs.repair.2) } }

/-- FRAME_RETIRE: a page's frame is copied to a free frame of its die and leaves the die's frames; a poisoned page's
frame leaves without a copy (R372). -/
def frameRetire (d p pg : Nat) (s : State) : State :=
  match Tbl.get? (s.store p).pages pg with
  | none => s
  | some g =>
    let out (s : State) : State :=
      let n := (s.die d).retired + 1
      let s1 := addLog Lc.frameRetired 0x50000000 (unitWord d 0 0) (ctxWord none (some p)) [pg]
        (s.modDie d fun x => { x with retired := n })
      if 1024 ≤ n then degrade (.frames d) s1 else s1
    if g.st = .poisoned then out s
    else if g.framed && decide (g.die = d) then
      if 0 < freeFrames s d then out s
      else
        match victim s d p with
        | none => s
        | some v =>
          let s1 := evictPage v p s
          if 0 < freeFrames s1 d then out s1 else s1
    else s

/-! ## The structural scan (R381 to R383) -/

/-- A structural scan may run on the unit: it is out of service, or a cluster or engine of an idle die (R381). -/
def scannable (s : State) (u : HwUnit) : Bool :=
  let free (d : DieIx) : Bool := (s.die d.val).stream.isNone && (s.die d.val).parked.isEmpty
  match u with
  | .cluster d _ => decide (u ∈ s.errs.out ∨ u ∈ s.errs.retired) || free d
  | .vector d _ => decide (u ∈ s.errs.out ∨ u ∈ s.errs.retired) || free d
  | _ => false

/-- When a unit was last scanned. -/
def scannedAt (s : State) (u : HwUnit) : Nat := ((s.errs.scannedAt.find? fun e => decide (e.1 = u)).map Prod.snd).getD 0

/-- The result of a structural scan: a unit that fails is retired, one that passes returns to the role it had (R381). -/
def scanResult (u : HwUnit) (passes : Bool) (pattern : Nat) (s : State) : State :=
  if scannable s u && decide (u ∉ s.errs.retired) then
    let s1 : State :=
      { s with errs := { s.errs with scannedAt := (s.errs.scannedAt.filter fun e => decide (e.1 ≠ u)) ++ [(u, s.sys.time)] } }
    if passes then putBack u s1 else retireFor u (logUnit Lc.scanFail u [pattern] s1)
  else s

/-- SCAN_PERIOD_EXPIRY: a swatch cluster not mirroring, or a unit of an idle die, is taken out for its scan (R381,
R382). -/
def scanPeriod (u : HwUnit) (s : State) : State :=
  let due (sec : Nat) : Bool := decide (scannedAt s u + 1000000000 * sec ≤ s.sys.time)
  let idle (d : DieIx) : Bool := (s.die d.val).stream.isNone && (s.die d.val).parked.isEmpty
  if s.inService u then
    match u with
    | .cluster d c =>
      let swatch := (swatchClusters s d.val).contains c.val
      let mirroring := (s.die d.val).clusters.any fun k => k.2.flight.any fun p => decide (p.mirror = some c.val)
      if (swatch && due s.errs.swatchPeriod && !mirroring) || (idle d && due s.errs.idlePeriod) then takeOut u s else s
    | .vector d _ => if idle d && due s.errs.idlePeriod then takeOut u s else s
    | _ => s
  else s

/-! ## Administration (R377) -/

/-- The die a unit lies on, in the order of the log's unit field. -/
def unitDie (u : HwUnit) : Nat := (unitOf u).toNat % 16

/-- At most 1,024 bytes of a record, from the command's offset. -/
def windowOf (c : Capsule) (bs : List Byte) : List Byte := (bs.drop c.offset.toNat).take 1024

/-- ERR_QUERY's record for one die: six counts, then per unit the counts of errors, the remap entries, retired units,
the injection list, and the self-test record (R377; layout: log 22). -/
def errRecord (d : Nat) (s : State) : List Byte :=
  let units := (s.errs.corrected.map Prod.fst ++ s.errs.uncorrected.map Prod.fst).eraseDups.filter fun k => decide (k % 16 = d)
  let remaps := s.errs.remaps.filter fun e => decide (e.1 = d)
  let gone := s.errs.retired.filter fun u => decide (unitDie u = d)
  let inj := s.errs.injected.filter fun e => decide (e.die = d)
  let frames := if d < 4 then (s.die d).retired else 0
  leBytes 4 units.length ++ leBytes 4 remaps.length ++ leBytes 4 gone.length ++ leBytes 4 frames ++
    leBytes 4 inj.length ++ leBytes 4 0 ++
    (units.flatMap fun k => leBytes 4 (k % 65536) ++ leBytes 4 (Tbl.getD s.errs.corrected k 0) ++ leBytes 4 (Tbl.getD s.errs.uncorrected k 0)) ++
    (remaps.flatMap fun e => leBytes 4 e.2.1 ++ leBytes 4 e.2.2) ++ (gone.flatMap fun u => leBytes 4 (unitOf u).toNat) ++
    (inj.flatMap fun e => leBytes 4 e.target ++ leBytes 4 e.unit ++ leBytes 8 e.addr) ++
    sliceBytes ((Tbl.get? s.errs.selfTest d).getD []) 0 64

/-- Checks of ERR_QUERY: one of the eight dies. -/
def errQueryCheck (c : Capsule) (_s : State) : Verdict := must (decide (c.p0.toNat < 8)) St.badParam

/-- ERR_QUERY (R377). -/
def errQueryStart (n : Nat) (s : State) : State :=
  match s.live? n with
  | none => s
  | some l => succeed n 0 (oneSegment (windowOf l.c (errRecord (l.c.p0.toNat % 8) s))) s

/-- Checks of ERR_INJECT: a die, and the 64 bytes of DATA. -/
def errInjectCheck (c : Capsule) (_s : State) : Verdict := must (decide (c.p0.toNat < 8 ∧ c.dataLen.toNat = 64)) St.badParam

/-- The operation that a command's words name: p1 CTL, p2–p3 ADDR, p4–p5 CHK, data DATA (R374, R377). -/
def injectReq (c : Capsule) (data : List Byte) : Option EccReq :=
  let ctl := c.p1.toNat
  if ctl / 32768 ≠ 0 then none
  else (targetOf (bits ctl 3 4)).map fun t =>
    { futis := none, target := t, unit := BitVec.ofNat 8 (bits ctl 7 8), addr := BitVec.ofNat 64 (capDword c 2),
      chk := BitVec.ofNat 64 (capDword c 4), data := (List.range 8).map fun i => BitVec.ofNat 64 (fieldAt data (8 * i) 8) }

/-- ERR_INJECT: one test port operation; the reply returns STAT, CHK and DATA (R377). -/
def errInjectLanded (n : Nat) (s : State) : State :=
  match s.live? n with
  | none => s
  | some l =>
    let d := l.c.p0.toNat % 8
    let s1 := match injectReq l.c l.data with
      | some r => portRuns (bits l.c.p1.toNat 1 2) d r s
      | none => setPort d (eccStat 0 true 4 0x7F) (BitVec.ofNat 64 (capDword l.c 4)) [] s
    let ws := (Tbl.getD s1.errs.portData d [] ++ List.replicate 8 0).take 8
    let out := leBytes 4 (Tbl.getD s1.errs.portStat d 0x1FC0).toNat ++ leBytes 4 0 ++
      leBytes 8 (Tbl.getD s1.errs.portChk d 0).toNat ++ ws.flatMap fun w => leBytes 8 w.toNat
    succeed n 0 (oneSegment out) s1

/-- One value of ERR_SET_POLICY is logged: held in its range, or clipped to it (R382, R433). -/
def logLoop (o : Origin) (w : Word) (setting got : Nat) (s : State) : State :=
  if w = 0xFFFFFFFF then s
  else if w.toNat = got then addLog Lc.loopHeld (originWord o) noUnit 0 [setting, got] s
  else logClipped o none setting w.toNat got s

/-- ERR_SET_POLICY: p0 swatch scan period in minutes, p1 idle scan period in hours, p2 residue limit (R382). -/
def errPolicyStart (n : Nat) (s : State) : State :=
  match s.live? n with
  | none => s
  | some l =>
    let c := l.c
    let a := clampTo 1 1440 (kept c.p0 (s.errs.swatchPeriod / 60))
    let b := clampTo 1 720 (kept c.p1 (s.errs.idlePeriod / 3600))
    let r := clampTo 1 4 (kept c.p2 s.errs.residueLimit)
    let s1 : State := { s with errs := { s.errs with swatchPeriod := 60 * a, idlePeriod := 3600 * b, residueLimit := r } }
    let s2 := logLoop c.origin c.p2 2 r (logLoop c.origin c.p1 1 b (logLoop c.origin c.p0 0 a s1))
    succeed n 0 [] (addLog Lc.policyChanged (originWord c.origin) noUnit 0 [0x0652] s2)

/-- What ERR_REINSTATE names: a retired cluster, vector engine or channel, or a retired frame of a stack's die. -/
def reinstated (w : Word) (s : State) : Option (HwUnit ⊕ Nat) :=
  match unitOfWord w with
  | some u =>
    let kind := match u with
      | .cluster _ _ => true
      | .vector _ _ => true
      | .channel _ => true
      | _ => false
    if kind && decide (u ∈ s.errs.retired) then some (.inl u) else none
  | none =>
    let d := w.toNat % 16
    if w.toNat / 16 % 16 = 8 ∧ w.toNat < 65536 ∧ d < 4 ∧ 0 < (s.die d).retired then some (.inr d) else none

/-- ERR_REINSTATE: a retired part that passes its tests returns to service (R377). -/
def errReinstateStart (passes : Bool) (n : Nat) (s : State) : State :=
  match s.live? n with
  | none => s
  | some l =>
    match reinstated l.c.p0 s with
    | none => fail n St.notPermitted 0 s
    | some x =>
      if !passes then fail n St.notPermitted 0 s
      else
        match x with
        | .inl u =>
          let s1 : State :=
            { s with
              errs := { s.errs with retired := s.errs.retired.filter fun y => decide (y ≠ u)
                                    repair := (s.errs.repair.1, s.errs.repair.2.filter fun y => decide (y ≠ u)) }
              media := { s.media with deadChannels := s.media.deadChannels.filter fun ch => decide (unitOf u ≠ unitWord (4 + ch / 64) 4 ch) } }
          succeed n 0 [] (undegrade (.unit u) s1)
        | .inr d =>
          let k := (s.die d).retired - 1
          let s1 := s.modDie d fun x => { x with retired := k }
          succeed n 0 [] (if k < 1024 then undegrade (.frames d) s1 else s1)

/-- ERR_SCAN: the structural scan runs now; the unit must be out of service or on an idle die (R377, R381). -/
def errScanStart (passes : Bool) (pattern : Nat) (n : Nat) (s : State) : State :=
  match s.live? n with
  | none => s
  | some l =>
    match unitOfWord l.c.p0 with
    | none => fail n St.badParam 0 s
    | some u =>
      if scannable s u then succeed n 0 [] (scanResult u passes pattern s) else fail n St.notPermitted 0 s

/-- SCAN_PERIOD_EXPIRY (R382). -/
def execScanPeriodExpiry (u : HwUnit) (t : Nat) (s : State) : Host.Outcome State Fault Refusal :=
  .next (scanPeriod u (s.tick t))

end Sys2Proof.Machine
end

