-- ==== Sys2Proof/Machine/Recovery.lean ====
section
/-! DEFINITION. Watchdogs, generations, the four reset domains, suspects, dumps and the recovery commands (chapter 15),
and what a module reset or a loss of 48 V takes away (R261, R262, R399, R407). -/

namespace Sys2Proof.Machine

/-! ## Generations and resets under way (R387, R390, R401) -/

/-- A reset has reached its last step, or a larger one takes its place. -/
def clearReset (r : ResetTarget) (s : State) : State :=
  { s with rcv := { s.rcv with resets := s.rcv.resets.filter fun x => decide (x.target ≠ r) } }

/-- The reset of a domain that is under way. -/
def resetOf (s : State) (r : ResetTarget) : Option Reset := s.rcv.resets.find? fun x => decide (x.target = r)

/-- The index of a scan engine among the 16 of the module. -/
def scanIndex (m : MediaIx) (e : Fin 8) : Nat := 8 * m.val + e.val

/-- The partition that owns an engine; none for a shared engine (R388). -/
def unitOwner (s : State) : HwUnit → Option Nat
  | .cluster d _ => ownerOf s d.val
  | .vector d _ => ownerOf s d.val
  | .mover d _ => ownerOf s d.val
  | .futisCompute d _ _ => ownerOf s d.val
  | .sequencer d => ownerOf s d.val
  | .scan m e => (Tbl.find? (fun _ p => p.scan.getLsbD (scanIndex m e)) s.parts).map Prod.fst
  | _ => none

/-- An engine of R388: not a row sequencer, a die manager or the management core. -/
def isEngine : HwUnit → Bool
  | .sequencer _ => false
  | .dieManager _ => false
  | .mgmtCore => false
  | _ => true

/-! ## Charges (R393) -/

/-- A hang is charged to an engine; the fourth within 24 h of a cluster, vector engine, scan engine or compute-die Futis
core retires it (R393). -/
def chargeEngine (u : HwUnit) (s : State) : State :=
  let day := s.rcv.hangs.filter fun h => decide (h.1 = u ∧ s.sys.time < h.2 + 86400000000000)
  let s1 : State := { s with rcv := { s.rcv with hangs := s.rcv.hangs ++ [(u, s.sys.time)] } }
  let kind := match u with
    | .cluster _ _ => true
    | .vector _ _ => true
    | .scan _ _ => true
    | .futisCompute _ _ _ => true
    | _ => false
  if kind && decide (3 ≤ day.length) && decide (u ∉ s.errs.retired) then retireFor u s1 else s1

/-- The compute die of an engine that carries streams. -/
def streamDie : HwUnit → Option Nat
  | .cluster d _ => some d.val
  | .vector d _ => some d.val
  | .mover d _ => some d.val
  | _ => none

/-- No suspect of the engine remains: its die takes other work again, and a hang none reproduced is charged to it
(R393, R394). -/
def suspectsOver (u : HwUnit) (s : State) : State :=
  if s.rcv.suspects.any fun x => decide (x.unit = u) then s
  else
    let s1 : State := match streamDie u with
      | some d =>
        if s.rcv.suspects.any fun x => decide (streamDie x.unit = some d) then s
        else s.modDie d fun x => { x with replaying := false }
      | none => s
    let owed := s.rcv.charge.filter fun e => decide (e.1 = u)
    let s2 : State := { s1 with rcv := { s1.rcv with charge := s1.rcv.charge.filter fun e => decide (e.1 ≠ u) } }
    if owed.any fun e => !e.2 then chargeEngine u s2 else s2

/-- Suspects that a test names leave the list; the engines they leave with none are settled. -/
def dropSuspects (f : Suspect → Bool) (s : State) : State :=
  let gone := s.rcv.suspects.filter f
  let s1 : State := { s with rcv := { s.rcv with suspects := s.rcv.suspects.filter fun x => !f x } }
  foldOver (gone.map Suspect.unit) suspectsOver s1

/-! ## Context reset (R397) -/

/-- The effects of a context reset: streams stop, tasks are withdrawn, commands and sequences end with
ST_ABORTED_RESET, images are void, and the context is EMPTY (R397). -/
def contextReset (id : Nat) (s : State) : State :=
  let b : Byte := BitVec.ofNat 8 id
  let s1 := abortAll (ctxCommand b) St.abortedReset (dropSuspects (fun x => decide (x.ctx = b)) s)
  let mine := s1.endpoints.filter fun e => decide (e.2.ctx = b)
  let s2 := foldOver (mine.map Prod.snd) (fun e acc => endSeqs e.seqs St.abortedReset 0 acc) s1
  let s3 : State :=
    { s2 with endpoints := Tbl.mapVals (fun _ e => if e.ctx = b then { e with seqs := [] } else e) s2.endpoints }
  armReset (.context b) false Lc.engineReset (holdContext b false s3)

/-! ## Dumps (R403 to R405) -/

/-- A dump is taken: its header goes to the summary ring of 16, the whole to the area of two (R403 to R405). -/
def takeDump (trigger part : Nat) (cause : Half) (units unreadable : List HwUnit) (s : State) : State :=
  let d : Dump :=
    { seq := s.rcv.nextDump, time := s.sys.time, trigger := trigger, part := part, cause := cause, units := units,
      unreadable := unreadable.filter fun u => decide (u ∈ units), flags := 2 }
  logHw Lc.dumpTaken [d.seq]
    { s with rcv :=
      { s.rcv with
        summaries := (s.rcv.summaries ++ [d]).drop (s.rcv.summaries.length - 15)
        area := (s.rcv.area ++ [d]).drop (s.rcv.area.length - 1)
        nextDump := d.seq + 1 } }

/-- The engines of a compute die. -/
def dieUnits (d : Nat) : List HwUnit :=
  ((List.range 16).map fun c => HwUnit.cluster (dieIx d) (clusterIx c)) ++
    ((List.range 4).map fun j => HwUnit.vector (dieIx d) (engIx j)) ++
    ((List.range 4).map fun k => HwUnit.mover (dieIx d) (engIx k)) ++
    ((List.range 8).map fun c => HwUnit.futisCompute (dieIx d) ⟨c % 8, Nat.mod_lt _ (by decide)⟩ false)

/-- The scan engine of an index. -/
def scanUnit (e : Nat) : HwUnit := .scan ⟨e / 8 % 2, Nat.mod_lt _ (by decide)⟩ ⟨e % 8, Nat.mod_lt _ (by decide)⟩

/-- The engines a partition owns. -/
def partUnits (s : State) (p : Nat) : List HwUnit :=
  ((diesOf s p).flatMap dieUnits) ++ ((List.range 16).filter fun e => (s.part p).scan.getLsbD e).map scanUnit

/-- Every engine of the module. -/
def allUnits : List HwUnit :=
  ((List.range 4).flatMap dieUnits) ++ ((List.range 16).map scanUnit) ++
    ((List.range 128).map fun c => HwUnit.channel ⟨c % 128, Nat.mod_lt _ (by decide)⟩) ++
    ((List.range 24).map fun l => HwUnit.link ⟨l % 24, Nat.mod_lt _ (by decide)⟩) ++
    ((List.range 8).map fun c => HwUnit.futisMedia ⟨c / 4 % 2, Nat.mod_lt _ (by decide)⟩ (engIx (c % 4))) ++
    ((List.range 4).flatMap fun d => [HwUnit.tierDma (dieIx d), HwUnit.fabricDma (dieIx d)])

/-! ## What a module reset or a loss of 48 V takes away (R261, R262, R399, R407) -/

/-- A compute die after HBM and SRAM are lost: what the repair record and the windows set keep. -/
def freshDie (d : Nat) (x : Die) : Die :=
  { Die.fresh with
    moduleFrames := x.moduleFrames, retired := x.retired, deadSegs := x.deadSegs, kmin := x.kmin, kmax := x.kmax,
    k := x.k, capK := x.capK, thermK := x.thermK, milliC := x.milliC, dead := x.dead && decide (d < 4) }

/-- Every die's modules frames less the staging area of a bundle, which is freed (R442). -/
def dropStaging (s : State) : State :=
  if s.sec.staging.isSome && !s.statusBit Sb.recovery then
    { s.modDie 0 (fun x => { x with moduleFrames := x.moduleFrames - 32 }) with sec := { s.sec with staging := none } }
  else { s with sec := { s.sec with staging := none } }

/-- A parity group after power loss: open superblocks are closed, erases and collections stand as R262 and R270 say, and
read counts are half their threshold. -/
def cutGroup (thr : Nat) (g : PGroup) : PGroup :=
  { g with
    blocks := Tbl.mapVals (fun _ b => { b with reads := thr / 2, st := if b.st = 1 then 2 else b.st }) g.blocks
    supers := Tbl.mapVals (fun _ x => { x with isOpen := false, refresh := false, suspended := 0 }) g.supers
    openSerial := none, victim := none, collecting := false }

/-- A collection after power loss: mutations not yet published take the epoch after the current one (R220). -/
def cutCol (k : Col) : Col :=
  let late (e : Nat) : Nat := if e = 0xFFFFFFFF then e else min e (k.epoch + 1)
  { k with
    closing := [], pending := k.epoch + 1, mutated := k.mutated || k.items.any fun e => decide (e.2.ins > k.epoch ∨
      (e.2.del > k.epoch ∧ ¬ e.2.live = true))
    items := Tbl.mapVals (fun _ it => { it with ins := late it.ins, del := late it.del }) k.items }

/-- A link at its next training: policies stand and keys are lost; a module reset also ends its counters and a
LNK_CONTROL that turned it off (R307, R451, R461). -/
def cutLink (keepCtr : Bool) (x : Link) : Link :=
  { Link.fresh with
    st := if x.st = .disabled ∧ keepCtr = true then .disabled else .dark
    minWidth := x.minWidth, maxWidth := x.maxWidth, powerShed := x.powerShed, shedOneIn := x.shedOneIn,
    qCount := x.qCount, qWindow := x.qWindow, qHold := x.qHold, stallUs := x.stallUs,
    ctr := if keepCtr then x.ctr else {}, rings := Tbl.mapVals (fun _ r => { Ring.fresh with failed := r.failed }) x.rings }

/-- Every link that is UP goes down, with a notice when one can be sent (R303, R399). -/
def allLinksDown (cause : Nat) (notice : Bool) (s : State) : State :=
  foldOver (List.range 24) (fun l acc =>
    let up := decide ((acc.link l).st = .up ∨ (acc.link l).st = .quarantined)
    if up then
      linkDown l cause (if notice then acc.modLink l fun x => { x with controlOut := x.controlOut ++ [.linkDown] } else acc)
    else acc) s

/-- The work and the HBM contents that a module reset or a loss of 48 V takes away; commands of the fabric get no reply,
and those of control queues and MCTP end with ST_ABORTED_RESET (R261, R262, R407). -/
def loseWork (s0 : State) : State :=
  let s := dropStaging (abortAll (fun _ => true) St.abortedReset s0)
  let thr := s.media.pol.readThr
  let pools := Tbl.mapVals (fun _ p => { p with pinned := 0, fencedAt := none }) s.parts
  { s with
    cmds := Tbl.keep (fun _ l => !l.open && isCtlq l.c.origin) s.cmds
    tasks := [], scanHeld := [], programs := [], ctxs := [], endpoints := [], stores := [], shards := [], leases := [],
    queries := [], scans := []
    parts := pools
    dies := Tbl.mapVals freshDie s.dies
    vols := Tbl.mapVals (fun _ v => { v with absorbed := [], absorbPin := none, watermark := v.absorbNext }) s.vols
    cols := Tbl.mapVals (fun _ k => cutCol k) s.cols
    media := { s.media with
      mapped := 0, landing := 0, nandStopped := false, groups := Tbl.mapVals (fun _ g => cutGroup thr g) s.media.groups }
    fabric := { s.fabric with issued := [] }
    errs := { s.errs with out := [], injected := [], words := [], portCtl := [], portAddr := [], portStat := [], portChk := [], portData := [] }
    rcv := { s.rcv with gens := [], stale := [], staleLogged := [], suspects := [], charge := [], resets := [], resetAt := [] }
    power := { s.power with belowSince := none, limited := [], clipped := [], chargedCtr := [] }
    sec := { s.sec with spdm := [] } }

/-- Staging is written to the flush blocks (steps 3 and 4 of R261). -/
def flushStaging (s : State) : State :=
  { s with sys := { s.sys with flushed := true } }

/-- The buffer of log copies is written to the lasting log, a ring of 262,144 (R463). -/
def writeLogBatch (s : State) : State :=
  let all := s.log.lasting ++ s.log.buffer
  { s with log := { s.log with lasting := all.drop (all.length - 262144), buffer := [] } }

/-- Cast-on begins at a step: the incarnation of leases advances (R264, R411). -/
def castFrom (step : Nat) (s : State) : State :=
  let s1 : State :=
    { s with sys := { s.sys with castStep := BitVec.ofNat 4 step, stepFailed := false, castAt := s.sys.time,
                                 castOns := s.sys.castOns + 1, off := false, offAsked := false,
                                 faultPin := s.sys.tripLatched } }
  setStatus Sb.castOnBusy true (setStatus Sb.ready false s1)

/-! ## Module reset (R399, R401, R444) -/

/-- Every context and partition is fenced, links go down and the function is reset: step S1 (R399). -/
def resetBegins (s : State) : State :=
  let s1 : State := { s with parts := Tbl.mapVals (fun _ p => { p with fencedAt := some (p.fencedAt.getD s.sys.time) }) s.parts }
  let s2 := resetFunction resetKindModule false (allLinksDown downControl true s1)
  setStatus Sb.castOnBusy true (setStatus Sb.ready false (refreshFenced s2))

/-- A module reset starts, with its MOD_CAUSE code; ordered during C2 to C6 of a commit it waits, unless an escalation
orders it (R399, R401, R402, R444). -/
def startModuleReset (code : BitVec 4) (noDump escalation : Bool) (cause : Half) (s : State) : State :=
  if (resetOf s .whole).isSome then s
  else
    let s1 : State := { s with rcv := { s.rcv with whole := some (code, noDump) } }
    if s.sec.commitStep ≠ 0 && !escalation then { s1 with sys := { s1.sys with heldReset := true } }
    else resetBegins (armReset .whole false cause { s1 with sys := { s1.sys with heldReset := false } })

/-- The thermal shutdown may end: every sensor reads below 85 °C and every NAND sensor below 60 °C (R429). -/
def coolEnough (s : State) : Bool :=
  (s.dies.all fun e => decide (e.2.milliC < 85000)) &&
    s.power.temps.all fun e => match e.1 with
      | .nand _ => decide (e.2 < 60000)
      | _ => decide (e.2 < 85000)

/-- Steps S2 to S5: the dump, the flush, the reset of every die, and cast-on from step 1 (R399, R405). -/
def resetModule (unreadable : List HwUnit) (s : State) : State :=
  match s.rcv.whole, resetOf s .whole with
  | some (code, noDump), some r =>
    if s.sys.thermalOff && !coolEnough s then s
    else
      let s1 := if noDump then s else takeDump 0 0 r.cause allUnits unreadable s
      let s2 := loseWork (flushStaging s1)
      let boxes := Tbl.mapVals (fun _ m => { Mbx.fresh with bind := m.bind }) s2.host.mbx
      let s3 : State :=
        { s2 with
          host := { s2.host with mbx := boxes }
          links := Tbl.mapVals (fun _ x => cutLink false x) s2.links
          rcv := { s2.rcv with whole := none }
          sec := { s2.sec with commitStep := 0, waitingCfg := [] }
          sys := { s2.sys with
            lastReset := code, thermalOff := false, tripLatched := false, faultPin := false, dataOn := s2.sys.main,
            dataFenced := false, heldReset := false, offAsked := false, shutdownAt := none,
            pwrCycleReq := none } }
      refreshFenced (castFrom 1 s3)
  | _, _ => s

/-- MODULE_RESET: step S1, if it has not been made, and the rest (R399); an order that is held for a commit waits. -/
def moduleReset (unreadable : List HwUnit) (s : State) : State :=
  if s.sys.heldReset && s.sec.commitStep ≠ 0 then s
  else
    let w := s.rcv.whole.getD (1, false)
    resetModule unreadable (startModuleReset w.1 w.2 false Lc.resetEscalated s)

/-! ## Partition reset (R398) -/

/-- Step B1: the partition is fenced and its running streams are asked to leave (R398). -/
def bindOff (p : Nat) (s : State) : State :=
  match s.part? p with
  | none => s
  | some x =>
    if x.fencedAt.isSome then s
    else
      let s1 := refreshFenced (s.modPart p fun y => { y with fencedAt := some s.sys.time })
      foldOver ((List.range 4).filter fun d => (s1.die d).stream.any fun y => decide (streamPart s1 y = p)) preemptRequest s1

/-- A partition reset starts; a second of the same partition, or one during a module reset, is merged (R398, R402). -/
def partitionReset (p : Nat) (cause : Half) (s : State) : State :=
  if (s.part? p).isNone || (resetOf s .whole).isSome || (resetOf s (.partition (partIx p))).isSome then s
  else bindOff p (armReset (.partition (partIx p)) false cause s)

/-- Whether an admitted command is work of a partition: every command but management, links and group (R398). -/
def partWork (p : Nat) (l : Live) : Bool :=
  decide (commandPart l.op.toNat l.c = p) && (decide (l.op.toNat < 0x0600) || decide (0x0740 ≤ l.op.toNat))

/-- Step B3: what is still admitted ends, leases are revoked, window sums are discarded, and suspects become EMPTY
(R396, R398). -/
def endPartition (p : Nat) (s : State) : State :=
  let inPart (c : Byte) : Bool := (s.ctx? c.toNat).any fun x => decide (x.part.val = p)
  let s1 := dropSuspects (fun x => inPart x.ctx) s
  let s2 := foldOver (s.rcv.suspects.filter fun x => inPart x.ctx) (fun x acc => holdContext x.ctx false acc) s1
  let s3 := abortAll (partWork p) St.abortedReset s2
  let s4 := foldOver (s3.endpoints.filter fun e => decide (e.2.part.val = p)) (fun e acc =>
    let a := endSeqs e.2.seqs St.abortedReset 0 acc
    { a with endpoints := Tbl.modify e.1 (fun x => { x with seqs := [] }) a.endpoints }) s3
  let s5 := revokeLeases (fun _ x => (s4.vol? x.vol.toNat).any fun v => decide (v.part.val = p)) s4
  loseSums p (forgetRecalls s5)

/-- Step B5: the partition's dies and scan engines are reset (R398). -/
def resetPartDies (p : Nat) (s : State) : State :=
  let mine := partUnits s p
  let hung := s.rcv.resets.filter fun r => r.hang && (match r.target with
    | .engine u => decide (u ∈ mine)
    | _ => false)
  let s1 := foldOver mine advanceGen s
  let s2 := foldOver (diesOf s p) (fun d acc => acc.modDie d fun x =>
    { x with
      stream := none, parked := [], clusters := [], engines := [], movers := [], pad := [], regs := [], undef := 0,
      rows := [], replaying := false, idleAt := some (x.idleAt.getD s.sys.time) }) s1
  let s3 : State :=
    { s2 with
      tasks := s2.tasks.filter fun t => decide (t.part.val ≠ p)
      scanHeld := s2.scanHeld.filter fun h => decide (h.2.part.val ≠ p)
      rcv := { s2.rcv with resets := s2.rcv.resets.filter fun r => match r.target with
        | .engine u => decide (u ∉ mine)
        | _ => true } }
  foldOver hung (fun r acc => match r.target with
    | .engine u => chargeEngine u acc
    | _ => acc) s3

/-- BIND_OFF_DRAIN_EXPIRY: 10 ms after B1, B3, and of a partition reset B4 to B6 too (R398, R425). -/
def bindOffDrain (p : Nat) (unreadable : List HwUnit) (s : State) : State :=
  match (s.part? p).bind Part.fencedAt with
  | none => s
  | some t0 =>
    if s.sys.time < t0 + 10000000 then s
    else
      let s1 := endPartition p s
      match resetOf s (.partition (partIx p)) with
      | none => s1
      | some r =>
        let s2 := resetPartDies p (takeDump 1 p r.cause (partUnits s p) unreadable s1)
        let s3 := refreshFenced ((clearReset (.partition (partIx p)) s2).modPart p fun x => { x with fencedAt := none })
        addLog Lc.partitionReset 0x50000000 noUnit (ctxWord none (some p)) [(s.sys.time - r.started) / 1000000] s3

/-! ## Engine reset (R391 to R393) -/

/-- A suspect record of a stream, and of a scan task. -/
def suspectOf (ctx : Byte) (cmd : Nat) (u : HwUnit) (pos : Nat) : Suspect := { ctx := ctx, cmd := cmd, unit := u, pos := pos }

/-- A suspect enters the list in the order in which affected commands were admitted (R394). -/
def insertSuspect (x : Suspect) : List Suspect → List Suspect
  | [] => [x]
  | y :: r => if x.cmd < y.cmd then x :: y :: r else y :: insertSuspect x r

/-- A context is recorded as a suspect, once per engine and command, and is HELD (R391, R394). -/
def addSuspect (x : Suspect) (s : State) : State :=
  if s.rcv.suspects.any fun y => decide (y.unit = x.unit ∧ y.cmd = x.cmd) then s
  else holdContext x.ctx true { s with rcv := { s.rcv with suspects := insertSuspect x s.rcv.suspects } }

/-- The stream of a die stops for an engine reset: abandoned, kept for its replay, its context a suspect (R392, R394). -/
def suspectStream (d : Nat) (u : HwUnit) (s : State) : State :=
  match (s.die d).stream with
  | none => s
  | some x =>
    let s1 := (vacate d s).modDie d fun y =>
      { y with parked := y.parked ++ [{ x with stall := none, preempt := false, swatch := none }], replaying := true }
    addSuspect (suspectOf x.ctx x.cmd u x.row) s1

/-- A chunk's update leaves a vector engine that is reset, and waits for an engine again (R172, R392). -/
def requeueUpdate (d j : Nat) (s : State) : State :=
  match ((s.die d).engine j).chunk with
  | none => s
  | some (h, k) =>
    let s1 := s.modDie d fun x => x.modEngine j fun e => { e with chunk := none, flight := [], coef := none }
    match s.shard? h.toNat with
    | none => s1
    | some y =>
      addTask (mkTask .update y.part.val (BitVec.ofNat 8 ((serviceOf s d).getD 0)) true h.toNat s.sys.time [d] k) s1

/-- The parcel scans and spans on a scan engine stop and wait for an engine again once their contexts are released
(R392, R394). -/
def stopScans (e : Nat) (u : HwUnit) (s : State) : State :=
  let held := (s.scanHeld.filter fun h => decide (h.1 = e)).map Prod.snd
  let s1 : State :=
    { s with
      scanHeld := s.scanHeld.filter fun h => decide (h.1 ≠ e)
      tasks := s.tasks ++ held
      scans := held.foldl (fun t x => Tbl.modify x.cmd (fun q =>
        { q with spans := Tbl.modify x.item (fun z => { z with placed := false }) q.spans }) t) s.scans }
  foldOver held (fun t acc => addSuspect (suspectOf t.ctx t.cmd u t.item) acc) s1

/-- A flash channel or media-die Futis core that needs a fifth engine reset within 60 s escalates (R393). -/
def countReset (u : HwUnit) (s : State) : State :=
  let near := s.rcv.engineResets.filter fun e => decide (e.1 = u ∧ s.sys.time < e.2 + 60000000000)
  let s1 : State := { s with rcv := { s.rcv with engineResets := s.rcv.engineResets ++ [(u, s.sys.time)] } }
  if 4 ≤ near.length then startModuleReset 1 false true Lc.engineReset s1 else s1

/-- Step E2: how the work in flight on an engine ends (R392). -/
def abandonWork (u : HwUnit) (s : State) : State :=
  match u with
  | .cluster d _ => suspectStream d.val u s
  | .vector d j => suspectStream d.val u (requeueUpdate d.val j.val s)
  | .mover d _ => suspectStream d.val u s
  | .scan m e => stopScans (scanIndex m e) u s
  | .futisCompute d _ service =>
    if service then s
    else (match (s.die d.val).stream with
      | some x => abort x.cmd St.computeFault s
      | none => s)
  | .channel _ => countReset u s
  | .futisMedia _ _ => countReset u s
  | .link l => linkRetrain false l.val s
  | _ => s

/-- An engine reset starts: E1 and E2; it merges into a larger reset under way, and no engine is reset twice within
100 µs (R390 to R392, R402). -/
def engineReset (u : HwUnit) (hang : Bool) (cause : Half) (s : State) : State :=
  let k := unitKey u
  let merged := (resetOf s .whole).isSome || s.resetting u ||
    (unitOwner s u).any fun p => (resetOf s (.partition (partIx p))).isSome
  let soon := (Tbl.get? s.rcv.resetAt k).any fun t => decide (s.sys.time < t + 100000)
  if !isEngine u || merged || soon then s
  else
    let s1 := advanceGen u (armReset (.engine u) hang cause s)
    abandonWork u { s1 with rcv := { s1.rcv with resetAt := Tbl.set k s.sys.time s1.rcv.resetAt } }

/-- The engine's own logic stands as after its reset (E3, R391). -/
def clearEngine (u : HwUnit) (s : State) : State :=
  match u with
  | .cluster d c => s.modDie d.val fun x => { x with clusters := Tbl.erase c.val x.clusters }
  | .vector d j => s.modDie d.val fun x => x.modEngine j.val fun e => { VEng.fresh with mismatches := e.mismatches, chunk := e.chunk }
  | .mover d k => s.modDie d.val fun x =>
      x.setMover k.val []
  | _ => s

/-- ENGINE_REOPEN: the engine reopens and is logged; a hang waits for its suspects, or is charged at once (E3, E4,
R393). -/
def engineReopen (u : HwUnit) (s : State) : State :=
  match resetOf s (.engine u) with
  | none => s
  | some r =>
    let s1 := logUnit Lc.engineReset u [r.cause.toNat, (s.sys.time - r.started) / 1000] (clearEngine u (clearReset (.engine u) s))
    if r.hang then
      if s.rcv.suspects.any fun x => decide (x.unit = u) then
        { s1 with rcv := { s1.rcv with charge := s1.rcv.charge ++ [(u, false)] } }
      else chargeEngine u s1
    else s1

/-! ## Suspects (R394 to R396) -/

/-- A replayed stream that passed its point runs on: it returns to its die, at its newest image or its entry row
(R394, R395). -/
def releaseStream (d : Nat) (cmd : Nat) (s : State) : State :=
  match (s.die d).parked.find? fun y => decide (y.cmd = cmd) with
  | none => s
  | some x =>
    let s1 := s.modDie d fun y => { y with parked := y.parked.filter fun z => decide (z.cmd ≠ cmd), idleAt := none }
    replayOn d { x with placedAt := s.sys.time, replayTo := none } s1

/-- A residue mismatch is counted against a vector engine; at the limit within 24 h the engine is retired (R112, R383). -/
def countMismatch (d j : Nat) (s : State) : State :=
  let now := s.sys.time
  let ts := now :: ((s.die d).engine j).mismatches.filter fun t => decide (now < t + 86400000000000)
  let s1 := s.modDie d fun x => x.modEngine j fun e => { e with mismatches := ts }
  let u := HwUnit.vector (dieIx d) (engIx j)
  if s.errs.residueLimit ≤ ts.length ∧ u ∉ s.errs.retired then retireFor u s1 else s1

/-- The residue mismatch of a vector engine recurred in the replay; a hang is charged apart (R112, R395). -/
def recurred (u : HwUnit) (s : State) : State :=
  match u with
  | .vector d j => if s.rcv.charge.any fun e => decide (e.1 = u) then s else countMismatch d.val j.val s
  | _ => s

/-- SUSPECT_REPLAY: the first suspect of an engine is replayed: it reproduces the fault and is held, or passes its point
and is released (R394, R395). -/
def suspectReplay (u : HwUnit) (reproduced : Bool) (s : State) : State :=
  match s.rcv.suspects.find? fun x => decide (x.unit = u) with
  | none => s
  | some x =>
    if s.resetting u || (streamDie u).any fun d => (s.die d).stream.isSome then s
    else
      let s1 : State := { s with rcv := { s.rcv with suspects := s.rcv.suspects.erase x } }
      if reproduced then
        let s2 : State :=
          { s1 with rcv := { s1.rcv with charge := s1.rcv.charge.map fun e => if e.1 = u then (e.1, true) else e } }
        suspectsOver u (recurred u <| holdContext x.ctx true
          (addLog Lc.suspectHeld 0x50000000 (unitOf u) (ctxWord (some x.ctx.toNat) none) [x.pos] (abort x.cmd St.computeFault s2)))
      else
        let still := s1.rcv.suspects.any fun y => decide (y.ctx = x.ctx)
        let s2 := if still then s1 else holdContext x.ctx false s1
        let s3 := match streamDie u with
          | some d => releaseStream d x.cmd s2
          | none => s2
        suspectsOver u s3

/-- CONTEXT_RELEASE_TIMEOUT: an engine that has not released a reset context's work is engine-reset, and the context is
no suspect of it (R397). -/
def releaseTimeout (c : Byte) (u : HwUnit) (s : State) : State :=
  match resetOf s (.context c) with
  | none => s
  | some r =>
    if r.deadline ≤ s.sys.time then
      let s1 := logUnit Lc.resetEscalated u [1] (clearReset (.context c) s)
      dropSuspects (fun x => decide (x.ctx = c)) (engineReset u false Lc.resetEscalated s1)
    else s

/-! ## Escalation and the power cycle (R400, R401) -/

/-- PWR_CYCLE_REQ# is asserted: data domains fenced, links down (R400). -/
def askPowerCycle (s : State) : State :=
  if s.sys.pwrCycleReq.isSome then s
  else
    let s1 := logHw Lc.pwrCycleReq [] { s with sys := { s.sys with pwrCycleReq := some s.sys.time, dataFenced := true } }
    allLinksDown downControl false (refreshFenced s1)

/-- ESCALATION_TIMER: a reset has passed its deadline and the next level starts (R387, R401). -/
def escalate (r : ResetTarget) (s : State) : State :=
  match resetOf s r with
  | none => s
  | some e =>
    if s.sys.time < e.deadline then s
    else
      match r with
      | .context _ => clearReset r (logHw Lc.resetEscalated [1] s)
      | .engine u =>
        let s1 := logUnit Lc.resetEscalated u [2] s
        (match unitOwner s u with
          | some p => partitionReset p Lc.resetEscalated s1
          | none => startModuleReset 1 false true Lc.resetEscalated (clearReset r s1))
      | .partition p =>
        startModuleReset 1 false true Lc.resetEscalated
          (addLog Lc.resetEscalated 0x50000000 noUnit (ctxWord none (some p.val)) [3] s)
      | .whole => askPowerCycle (logHw Lc.resetEscalated [4] s)

/-- PWR_CYCLE_IGNORED: 48 V has not been removed 10 s after the request (R400). -/
def powerCycleIgnored (s : State) : State :=
  match s.sys.pwrCycleReq with
  | none => s
  | some t0 =>
    if s.sys.main && decide (t0 + 10000000000 ≤ s.sys.time) then
      allLinksDown downControl false (refreshFenced
        (logHw Lc.pwrCycleIgnored [] { s with sys := { s.sys with dataFenced := true } }))
    else s

/-! ## Watchdogs (R389) -/

/-- The time in ns without progress after which a unit is hung; for a vector engine past its latency (R389). -/
def hangLimit : HwUnit → Nat
  | .cluster _ _ => 10000
  | .vector _ _ => 1000
  | .mover _ _ => 100000
  | .tierDma _ => 100000
  | .fabricDma _ => 100000
  | .scan _ _ => 1000000
  | .channel _ => 50000000
  | .link _ => 1000
  | .futisCompute _ _ _ => 10000000
  | .futisMedia _ _ => 10000000
  | .sequencer _ => 10000000
  | .dieManager _ => 10000000
  | .mgmtCore => 100000000

/-- The unit has work on which it could make progress (R389). -/
def mayHang (s : State) : HwUnit → Bool
  | .cluster d c => let k := (s.die d.val).cluster c.val; !k.flight.isEmpty || k.waiting.isSome
  | .vector d j => !((s.die d.val).engine j.val).flight.isEmpty
  | .mover d k =>
    ((s.die d.val).mover k.val).head?.any (fun m => m.waitSince.isNone) &&
      !(s.die d.val).stream.any fun x => x.halted.contains k.val
  | .scan m e => s.scanHeld.any fun h => decide (h.1 = scanIndex m e)
  | .link l => decide ((s.link l.val).st = .up)
  | .sequencer d => (s.die d.val).stream.any fun x => x.stall.isNone && !x.ended
  | _ => true

/-- WATCHDOG: the unit has made no progress for its limit; the event is logged with its action and the action starts:
0 engine reset, 1 partition reset, 2 die manager restart, 3 module reset (R389). -/
def watchdog (u : HwUnit) (ns : Nat) (s : State) : State :=
  if ns < hangLimit u || !mayHang s u then s
  else
    match u with
    | .sequencer d =>
      let s1 := logUnit Lc.watchdog u [1] s
      (match ownerOf s d.val with
        | some p => partitionReset p Lc.watchdog s1
        | none => s1)
    | .dieManager _ =>
      if ns < 11000000 then logUnit Lc.watchdog u [2] s
      else startModuleReset 1 false false Lc.watchdog (logUnit Lc.watchdog u [3] s)
    | .mgmtCore => startModuleReset 1 false false Lc.watchdog (logUnit Lc.watchdog u [3] s)
    | _ => engineReset u true Lc.watchdog (logUnit Lc.watchdog u [0] s)

/-! ## Recovery commands (R406) -/

/-- Checks of RCV_RESET by level: p0 0 context, 1 engine, 2 partition, 3 module; p1 what is reset. -/
def rcvResetCheck (c : Capsule) (s : State) : Verdict :=
  match c.p0.toNat with
  | 0 => must (s.ctx? c.p1.toNat).isSome St.badParam
  | 1 => must ((unitOfWord c.p1).any isEngine) St.badParam
  | 2 => must (s.part? c.p1.toNat).isSome St.badParam
  | 3 => none
  | _ => some (St.badParam, 0)

/-- RCV_RESET is answered and the reset starts (R397 to R399, R406). -/
def rcvResetStart (n : Nat) (s : State) : State :=
  match s.live? n with
  | none => s
  | some l =>
    let s1 := succeed n 0 [] s
    match l.c.p0.toNat with
    | 0 => contextReset l.c.p1.toNat s1
    | 1 => (match unitOfWord l.c.p1 with
      | some u => engineReset u false Lc.engineReset s1
      | none => s1)
    | 2 => partitionReset l.c.p1.toNat Lc.partitionReset s1
    | _ => startModuleReset 3 (l.c.p2.getLsbD 0) false Lc.engineReset s1

/-- A reset's target as the report of RCV_QUERY writes it: level and target (log 22). -/
def targetWords : ResetTarget → Nat × Nat
  | .context c => (0, c.toNat)
  | .engine u => (1, (unitOf u).toNat)
  | .partition p => (2, p.val)
  | .whole => (3, 0)

/-- RCV_QUERY's record: four counts, resets under way with deadlines, suspects, HELD contexts, and per engine its
generation, stale counter and hangs charged (R406; layout: log 22). -/
def rcvRecord (s : State) : List Byte :=
  let rs := s.rcv.resets.filter fun r => decide (s.sys.time < r.deadline)
  let held := (s.ctxs.filter fun e => e.2.held).map Prod.fst
  let units := (s.rcv.gens.map Prod.fst ++ s.rcv.stale.map Prod.fst ++ s.rcv.hangs.map fun h => unitKey h.1).eraseDups
  leBytes 4 rs.length ++ leBytes 4 s.rcv.suspects.length ++ leBytes 4 held.length ++ leBytes 4 units.length ++
    (rs.flatMap fun r => leBytes 4 (targetWords r.target).1 ++ leBytes 4 (targetWords r.target).2 ++ leBytes 8 r.deadline) ++
    (s.rcv.suspects.flatMap fun x => leBytes 4 x.ctx.toNat ++ leBytes 4 (unitOf x.unit).toNat ++ leBytes 4 x.pos) ++
    (held.flatMap fun c => leBytes 4 c) ++
    (units.flatMap fun k => leBytes 4 (k % 65536) ++ leBytes 1 (Tbl.getD s.rcv.gens k 0).toNat ++
      leBytes 3 (s.rcv.hangs.filter fun h => decide (unitKey h.1 = k)).length ++ leBytes 4 (Tbl.getD s.rcv.stale k 0))

/-- RCV_QUERY (R406). -/
def rcvQueryStart (n : Nat) (s : State) : State :=
  match s.live? n with
  | none => s
  | some l => succeed n 0 (oneSegment (windowOf l.c (rcvRecord s))) s

/-- Checks of RCV_RELEASE: the context is in use, HELD, and its command has ended (R406). -/
def rcvReleaseCheck (c : Capsule) (s : State) : Verdict :=
  match s.ctx? c.p0.toNat with
  | none => some (St.badParam, 0)
  | some x =>
    firstBad
      [must (decide (x.part.val = c.partition.toNat)) St.notPermitted,
       must (x.held && !s.rcv.suspects.any (fun y => decide (y.ctx.toNat = c.p0.toNat)) &&
         !ctxBusy s (BitVec.ofNat 8 c.p0.toNat)) St.notPermitted]

/-- RCV_RELEASE returns a HELD context to EMPTY (R406). -/
def rcvReleaseStart (n : Nat) (s : State) : State :=
  match s.live? n with
  | none => s
  | some l => succeed n 0 [] (holdContext (BitVec.ofNat 8 l.c.p0.toNat) false s)

/-- The units RCV_DUMP names: p0 how many, p1 to p5 each in the unit format of R362 (log 22). -/
def dumpNamed (c : Capsule) : List (Option HwUnit) := (List.range c.p0.toNat).map fun i => unitOfWord (capWord c (i + 1))

/-- Checks of RCV_DUMP. -/
def rcvDumpCheck (c : Capsule) (_s : State) : Verdict :=
  must (decide (1 ≤ c.p0.toNat ∧ c.p0.toNat ≤ 5) && (dumpNamed c).all Option.isSome) St.badParam

/-- RCV_DUMP: a dump of the named units is taken (R403). -/
def rcvDumpStart (unreadable : List HwUnit) (n : Nat) (s : State) : State :=
  match s.live? n with
  | none => s
  | some l => succeed n 0 [] (takeDump 2 0 0 ((dumpNamed l.c).filterMap id) unreadable s)

/-- The record of one unit in a dump (R404). -/
def unitRecord (d : Dump) (u : HwUnit) : List Byte :=
  if u ∈ d.unreadable then
    leBytes 4 (unitOf u).toNat ++ leBytes 4 1 ++ leBytes 4 0 ++ leBytes 4 1
  else
    let st := padTo 64 ((Config.unitState d.seq (unitKey u)).take 65472)
    leBytes 4 (unitOf u).toNat ++ leBytes 4 0 ++ leBytes 4 st.length ++ leBytes 4 (st.length / 8) ++ st

/-- The 4 KiB header of a dump (R404). -/
def dumpHeader (d : Dump) (size : Nat) : List Byte :=
  sliceBytes
    (leBytes 4 0xD0A90C28 ++ leBytes 4 d.seq ++ leBytes 8 d.time ++ leBytes 1 d.trigger ++ leBytes 1 d.part ++
      leBytes 2 d.cause.toNat ++ leBytes 4 noUnit.toNat ++ leBytes 4 d.units.length ++ leBytes 4 d.unreadable.length ++
      leBytes 8 size ++ leBytes 4 d.flags.toNat ++ List.replicate 20 0 ++
      (d.unreadable.take 1008).flatMap fun u => leBytes 4 (unitOf u).toNat) 0 4096

/-- The bytes of a whole dump (R404). -/
def dumpBytes (d : Dump) : List Byte :=
  let body := d.units.flatMap (unitRecord d)
  dumpHeader d (4096 + body.length) ++ body

/-- What RCV_DUMP_READ reads: p0 0 summary record p1, 1 dump p1 of the area, 2 the dump region (log 22). -/
def dumpSource (c : Capsule) (s : State) : Option (List Byte) :=
  match c.p0.toNat with
  | 0 => (s.rcv.summaries[c.p1.toNat]?).map fun d => (dumpBytes d).take 4096
  | 1 => (s.rcv.area[c.p1.toNat]?).map dumpBytes
  | 2 => s.rcv.region.map dumpBytes
  | _ => none

/-- Checks of RCV_DUMP_READ. -/
def rcvDumpReadCheck (c : Capsule) (s : State) : Verdict :=
  must ((dumpSource c s).isSome && decide (c.length.toNat ≤ 1048576)) St.badParam

/-- RCV_DUMP_READ from a byte offset (R406). -/
def rcvDumpReadStart (n : Nat) (s : State) : State :=
  match s.live? n with
  | none => s
  | some l =>
    let bs := ((dumpSource l.c s).getD []).drop l.c.offset.toNat
    succeed n 0 (oneSegment (bs.take l.c.length.toNat)) s

/-- After HBM training, the newest dump of the area is copied to the dump region, cut at 32 MiB (R405). -/
def copyDump (s : State) : State :=
  match s.rcv.area.getLast? with
  | none => s
  | some d =>
    let cut := decide (33554432 < (dumpBytes d).length)
    { s with rcv := { s.rcv with region := some { d with flags := d.flags ||| (if cut then 1 else 0) } } }

end Sys2Proof.Machine
end

