-- ==== Sys2Proof/Machine/Cflash.lean ====
section
/-! DEFINITION. The configuration flash controller (R454 to R458): command sequences, suspended erases, and the bytes of
the window. -/

namespace Sys2Proof.Machine

/-! ## The window (R454, R456) -/

/-- Bytes of an erase block. -/
def cflBlock : Nat := 65536

/-- Bytes of a sector. -/
def cflSector : Nat := 1024

/-- A byte of the configuration flash; an erased byte reads 0xFF (R454). -/
def cflByte (s : State) (a : Nat) : Byte := Tbl.getD s.sec.cfl.mem a 0xFF

/-- Bytes of the configuration flash. -/
def cflBytes (s : State) (a n : Nat) : List Byte := (List.range n).map fun i => cflByte s (a + i)

/-- The controller changed by a function. -/
def State.modCfl (f : Cfl → Cfl) (s : State) : State := { s with sec := { s.sec with cfl := f s.sec.cfl } }

/-- Bytes of the flash replaced. -/
def cflPut (a : Nat) : List Byte → Mem → Mem
  | [], m => m
  | b :: bs, m => cflPut (a + 1) bs (Tbl.put 0xFF a b m)

/-- A range of the flash erased. -/
def cflErased (a n : Nat) (m : Mem) : Mem := Tbl.keep (fun k _ => decide (k < a ∨ a + n ≤ k)) m

/-- The region of the identity certificate chain, which no command erases or programs (R454). -/
def cflProtected (a : Nat) : Bool := decide (0x4100000 ≤ a ∧ a < 0x4200000)

/-- A sequence that breaks R456 is ignored and flagged. -/
def seqError (s : State) : State := s.modCfl fun c => { c with seqError := true }

/-- An erase that a fetch suspended runs on after 100 µs with no fetch (R457). -/
def cflNow (s : State) : State :=
  match s.sec.cfl.fetchAt with
  | some t => if t + 100000 ≤ s.sys.time then s.modCfl fun c => { c with suspended := false, fetchAt := none } else s
  | none => s

/-- A program, or an erase that is not suspended, is in progress (R458). -/
def Cfl.active (c : Cfl) : Bool := c.progAt.isSome || (c.eraseAt.isSome && !c.suspended)

/-! ## Sequences (R456) -/

/-- The two unlock writes and the command byte. -/
def unlock (code : Byte) : List (BitVec 28 × Byte) := [(0xAAA, 0xAA), (0x554, 0x55), (0xAAA, code)]

/-- The base of the sector that a SECTOR_PROGRAM sequence names, when the sequence is as R456 gives it. -/
def programAt (w : List (BitVec 28 × Byte)) : Option Nat :=
  match w.drop 3 with
  | [] => none
  | (a, _) :: _ =>
    let base := a.toNat
    let body := (w.drop 3).take cflSector
    if w.take 3 = unlock 0xA0 ∧ base % cflSector = 0 ∧ w.length = 4 + cflSector ∧
        body.map (fun e => e.1.toNat) = (List.range cflSector).map (fun i => base + i) ∧
        (w.drop (3 + cflSector)) = [(a, 0x29)] then some base else none

/-- The base of the block that a BLOCK_ERASE sequence names. -/
def eraseAtOf (w : List (BitVec 28 × Byte)) : Option Nat :=
  match w.drop 5 with
  | [(a, v)] =>
    if w.take 5 = unlock 0x80 ++ [(0xAAA, 0xAA), (0x554, 0x55)] ∧ v = 0x30 then some (a.toNat / cflBlock * cflBlock) else none
  | _ => none

/-- SECTOR_PROGRAM (R456, R457). -/
def sectorProgram (w : List (BitVec 28 × Byte)) (s0 : State) : State :=
  let s := cflNow s0
  let c := s.sec.cfl
  match programAt w with
  | none => seqError s
  | some base =>
    let row := c.otp && decide (base < 4096)
    if c.active || (!row && cflProtected base) || (c.eraseAt.any fun b => decide (b ≤ base ∧ base < b + cflBlock)) then
      seqError s
    else s.modCfl fun c => { c with progAt := some base, data := ((w.drop 3).take cflSector).map Prod.snd }

/-- An erase begins: the block's erase count advances, and a block that passes 90,000 is logged (R458). -/
def countErase (b : Nat) (s : State) : State :=
  let n := Tbl.getD s.sec.cfl.ecnt b 0 + 1
  let s1 := s.modCfl fun c => { c with ecnt := Tbl.set b n c.ecnt }
  if n = 90001 then logHw Lc.cflWear [b, n] s1 else s1

/-- BLOCK_ERASE (R456, R457). -/
def blockErase (w : List (BitVec 28 × Byte)) (s0 : State) : State :=
  let s := cflNow s0
  match eraseAtOf w with
  | none => seqError s
  | some base =>
    if s.sec.cfl.active || s.sec.cfl.eraseAt.isSome || cflProtected base then seqError s
    else countErase (base / cflBlock) (s.modCfl fun c => { c with eraseAt := some base, suspended := false, fetchAt := none })

/-- ERASE_SUSPEND (R456). -/
def cflSuspend (s0 : State) : State :=
  let s := cflNow s0
  if s.sec.cfl.eraseAt.isSome && !s.sec.cfl.suspended then
    s.modCfl fun c => { c with suspended := true, fetchAt := none }
  else seqError s

/-- ERASE_RESUME (R456). -/
def cflResume (s0 : State) : State :=
  let s := cflNow s0
  if s.sec.cfl.eraseAt.isSome && s.sec.cfl.suspended && s.sec.cfl.progAt.isNone then
    s.modCfl fun c => { c with suspended := false, fetchAt := none }
  else seqError s

/-- OTP_ENTER shows the identity row, to the security core only; OTP_EXIT hides it (R456). -/
def otpEnter (security : Bool) (w : List (BitVec 28 × Byte)) (s0 : State) : State :=
  let s := cflNow s0
  if security && decide (w = unlock 0x88) && !s.sec.cfl.active then s.modCfl fun c => { c with otp := true } else seqError s

/-- OTP_EXIT: unlock, 0x90, then 0x00 to any address (R456). -/
def otpExit (security : Bool) (w : List (BitVec 28 × Byte)) (s0 : State) : State :=
  let s := cflNow s0
  if security && decide (w.take 3 = unlock 0x90 ∧ w.length = 4 ∧ (w.drop 3).map Prod.snd = [0x00]) && !s.sec.cfl.active then
    s.modCfl fun c => { c with otp := false }
  else seqError s

/-- Bits of the identity row are set in its three copies, and the write is logged (R436). -/
def otpSet (o : Word) (a : Nat) (bs : List Byte) (s : State) : State :=
  let put (m : Mem) : Mem := (bs.mapIdx fun i b => (a + i, b)).foldl (fun m e => Mem.write e.1 (Mem.read m e.1 ||| e.2) m) m
  addLog Lc.otpWritten o noUnit 0 [a, bs.length] { s with sec := { s.sec with otp := s.sec.otp.map put } }

/-- Bytes that the manual leaves open: one free value each. -/
def freeBytes (n : Nat) (s : State) : State × List Byte :=
  ({ s with free := s.free + n }, (List.range n).map fun i => BitVec.ofNat 8 (Config.freeNat (s.free + i)))

/-- A program or an erase of the window ends; after a failed verify the bytes it touched are open (R456, R458). -/
def flashDone (ok : Bool) (s0 : State) : State :=
  let s := cflNow s0
  let c := s.sec.cfl
  match c.progAt with
  | some base =>
    if c.otp && decide (base < 4096) then
      let old := otpBytes s base cflSector
      let clear := (List.zip old c.data).any fun e => decide (e.1 &&& ~~~e.2 ≠ 0)
      let s1 := s.modCfl fun c => { c with progAt := none, data := [], opError := c.opError || !ok || clear }
      if ok && !clear then otpSet 0x50000000 base c.data s1 else s1
    else
      let old := cflBytes s base cflSector
      let raise := (List.zip old c.data).any fun e => decide (e.2 &&& ~~~e.1 ≠ 0)
      if ok then
        s.modCfl fun c =>
          { c with progAt := none, data := [], opError := c.opError || raise
                   mem := cflPut base (List.zipWith (fun a b => a &&& b) old c.data) c.mem }
      else
        let f := freeBytes cflSector s
        f.1.modCfl fun c => { c with progAt := none, data := [], opError := true, mem := cflPut base f.2 c.mem }
  | none =>
    match c.eraseAt with
    | none => s
    | some base =>
      if c.suspended then s
      else if ok then s.modCfl fun c => { c with eraseAt := none, mem := cflErased base cflBlock c.mem }
      else
        let f := freeBytes cflBlock s
        f.1.modCfl fun c => { c with eraseAt := none, opError := true, mem := cflPut base f.2 c.mem }

/-- A bus error is held in CFL_CAUSE (R457, R458). -/
def cflFault (cause : BitVec 3) (addr : BitVec 28) (s : State) : State :=
  s.modCfl fun c => { c with cause := cause, causeValid := true, causeAddr := addr }

/-- CFL_FETCH_DURING_ERASE: a management core fetch suspends an active erase and is served; a fetch of the suspended
block is a bus error (R457). -/
def fetchDuringErase (addr : BitVec 28) (s0 : State) : State :=
  let s := cflNow s0
  let c := s.sec.cfl
  match c.eraseAt with
  | none => s
  | some base =>
    if !c.suspended then s.modCfl fun c => { c with suspended := true, fetchAt := some s.sys.time }
    else if base ≤ addr.toNat ∧ addr.toNat < base + cflBlock then cflFault 2 addr s
    else if c.fetchAt.isSome then s.modCfl fun c => { c with fetchAt := some s.sys.time }
    else s

/-- CFL_STATUS (R458). -/
def cflStatus (c : Cfl) : Word :=
  BitVec.ofNat 32 ((if c.active then 1 else 0) + (if c.progAt.isSome then 2 else if c.eraseAt.isSome && !c.suspended then 4 else 0) +
    (if c.suspended then 8 else 0) + (if c.seqError then 16 else 0) + (if c.opError then 32 else 0) + (if c.xoLocked then 64 else 0))

/-! ## Rows -/

/-- SECTOR_PROGRAM (R456). -/
def execSectorProgram (writes : List (BitVec 28 × Byte)) (s : State) : Host.Outcome State Fault Refusal := .next (sectorProgram writes s)
/-- BLOCK_ERASE (R456). -/
def execBlockErase (writes : List (BitVec 28 × Byte)) (s : State) : Host.Outcome State Fault Refusal := .next (blockErase writes s)
/-- ERASE_SUSPEND (R456): any address serves. -/
def execCflEraseSuspend (_addr : BitVec 28) (s : State) : Host.Outcome State Fault Refusal := .next (cflSuspend s)
/-- ERASE_RESUME (R456): any address serves. -/
def execCflEraseResume (_addr : BitVec 28) (s : State) : Host.Outcome State Fault Refusal := .next (cflResume s)
/-- OTP_ENTER (R456). -/
def execOtpEnter (security : Bool) (writes : List (BitVec 28 × Byte)) (s : State) : Host.Outcome State Fault Refusal :=
  .next (otpEnter security writes s)
/-- OTP_EXIT (R456). -/
def execOtpExit (security : Bool) (writes : List (BitVec 28 × Byte)) (s : State) : Host.Outcome State Fault Refusal :=
  .next (otpExit security writes s)
/-- RESET (R456): it abandons a sequence in progress, never an operation; rows carry whole sequences (log 24). -/
def execCflReset (_addr : BitVec 28) (s : State) : Host.Outcome State Fault Refusal := .next (cflNow s)
/-- CFL_FETCH_DURING_ERASE (R457). -/
def execCflFetchDuringErase (addr : BitVec 28) (t : Nat) (s : State) : Host.Outcome State Fault Refusal :=
  .next (fetchDuringErase addr (s.tick t))

end Sys2Proof.Machine
end

