-- ==== Sys2Proof/Machine/Shake.lean ====
section
/-! DEFINITION. SHAKE256 (FIPS 202), which the manual names for its digests (R434, R437, R440, R448, R449), from the published
standard. -/

namespace Sys2Proof.Machine

/-- The round constants of Keccak-f[1600]. -/
def keccakConsts : List Nat :=
  [0x0000000000000001, 0x0000000000008082, 0x800000000000808A, 0x8000000080008000, 0x000000000000808B, 0x0000000080000001,
   0x8000000080008081, 0x8000000000008009, 0x000000000000008A, 0x0000000000000088, 0x0000000080008009, 0x000000008000000A,
   0x000000008000808B, 0x800000000000008B, 0x8000000000008089, 0x8000000000008003, 0x8000000000008002, 0x8000000000000080,
   0x000000000000800A, 0x800000008000000A, 0x8000000080008081, 0x8000000000008080, 0x0000000080000001, 0x8000000080008008]

/-- The rotation of lane x + 5y. -/
def keccakTurns : List Nat :=
  [0, 1, 62, 28, 27, 36, 44, 6, 55, 20, 3, 10, 43, 25, 39, 41, 45, 15, 21, 8, 18, 2, 61, 56, 14]

/-- A 64-bit lane turned left. -/
def turnLeft (v n : Nat) : Nat := (v <<< n ||| v >>> (64 - n)) % 18446744073709551616

/-- One round of Keccak-f[1600] on 25 lanes, lane x + 5y at that place: θ, ρ with π, χ and ι. -/
def keccakRound (a : List Nat) (rc : Nat) : List Nat :=
  let at_ (b : List Nat) (x y : Nat) : Nat := b.getD (x % 5 + 5 * (y % 5)) 0
  let c := (List.range 5).map fun x => at_ a x 0 ^^^ at_ a x 1 ^^^ at_ a x 2 ^^^ at_ a x 3 ^^^ at_ a x 4
  let d := (List.range 5).map fun x => c.getD ((x + 4) % 5) 0 ^^^ turnLeft (c.getD ((x + 1) % 5) 0) 1
  let t := a.mapIdx fun i v => turnLeft (v ^^^ d.getD (i % 5) 0) (keccakTurns.getD i 0)
  let b := (List.range 25).map fun i => at_ t (i % 5 + 3 * (i / 5)) (i % 5)
  let e := (List.range 25).map fun i =>
    at_ b i (i / 5) ^^^ ((18446744073709551615 ^^^ at_ b (i % 5 + 1) (i / 5)) &&& at_ b (i % 5 + 2) (i / 5))
  e.mapIdx fun i v => if i = 0 then v ^^^ rc else v

/-- Keccak-f[1600]. -/
def keccakF (a : List Nat) : List Nat := keccakConsts.foldl keccakRound a

/-- A block of 136 bytes absorbed. -/
def shakeAbsorb (a : List Nat) (block : List Byte) : List Nat :=
  keccakF (a.mapIdx fun i v =>
    v ^^^ ((block.drop (8 * i)).take 8).foldr (fun b n => b.toNat + 256 * n) 0)

/-- The blocks of 136 bytes of a padded message. -/
def shakeBlocks : Nat → List Byte → List (List Byte)
  | 0, _ => []
  | n + 1, bs => bs.take 136 :: shakeBlocks n (bs.drop 136)

/-- A number of blocks of output squeezed from a state. -/
def shakeSqueeze : Nat → List Nat → List Byte
  | 0, _ => []
  | n + 1, a =>
    ((a.take 17).flatMap fun v => (List.range 8).map fun i => BitVec.ofNat 8 (v >>> (8 * i))) ++ shakeSqueeze n (keccakF a)

/-- SHAKE256 of bytes, to a length in bytes. -/
@[irreducible] def shake256 (bs : List Byte) (n : Nat) : List Byte :=
  let k := bs.length / 136 + 1
  let pad := 136 * k - bs.length
  let tail : List Byte := if pad = 1 then [0x9F] else 0x1F :: (List.replicate (pad - 2) 0 ++ [0x80])
  let a := (shakeBlocks k (bs ++ tail)).foldl shakeAbsorb (List.replicate 25 0)
  (shakeSqueeze ((n + 135) / 136) a).take n

end Sys2Proof.Machine
end

