-- ==== Sys2Proof/Machine/Security.lean ====
section
/-! DEFINITION. Trust (chapter 17): the firmware bundle and its commit, the identity row, SPDM attestation and secure
sessions, PLDM, and the management commands (R434 to R449, R463 to R467). -/

namespace Sys2Proof.Machine

/-! ## The bundle (R437 to R440) -/

/-- The staged bundle as FW_COMMIT reads it: bytes from a position; in recovery it stands in flash (R445). -/
def stagedBytes (s : State) (a n : Nat) : List Byte :=
  if s.statusBit Sb.recovery then cflBytes s a n
  else match s.sec.staging with
    | some (_, m, _) => Mem.readBytes m a n
    | none => List.replicate n 0

/-- A bundle as a reader of its bytes. -/
abbrev BundleRd := Nat → Nat → List Byte

/-- A little-endian field of a bundle. -/
def rdNat (rd : BundleRd) (a n : Nat) : Nat := leNat (rd a n)

/-- Bytes of a range are zero. -/
def rdZero (rd : BundleRd) (a n : Nat) : Bool := (rd a n).all fun b => decide (b = 0)

/-- Total length of a bundle. -/
def bundleLen (rd : BundleRd) : Nat := rdNat rd 0x10 8

/-- Offset of the trailer. -/
def trailerAt (rd : BundleRd) : Nat := bundleLen rd - 12288

/-- An entry of the part table: type, flags, offset, length, reserved (R437). -/
def partEntry (rd : BundleRd) (i : Nat) : Nat × Nat × Nat × Nat × Nat :=
  let a := 0x20 + 32 * i
  (rdNat rd a 4, rdNat rd (a + 4) 4, rdNat rd (a + 8) 8, rdNat rd (a + 16) 8, rdNat rd (a + 24) 8)

/-- The layout of header, parts and trailer is as R437 to R439 give it: check 1 of R440. -/
def bundleShape (rd : BundleRd) : Bool :=
  let len := bundleLen rd
  let n := rdNat rd 6 2
  let t := trailerAt rd
  let parts := (List.range n).map (partEntry rd)
  decide (rdNat rd 0 4 = 0xF1A00C28 ∧ rdNat rd 4 2 = 1 ∧ 1 ≤ n ∧ n ≤ 16 ∧ rdNat rd 0xC 4 ≤ 64 ∧ len ≤ 67108864 ∧
      16384 ≤ len) && rdZero rd 0x18 8 && rdZero rd 0x220 3552 &&
    (List.range 16).all (fun i => decide (i < n) || rdZero rd (0x20 + 32 * i) 32) &&
    parts.all (fun e => decide (1 ≤ e.1 ∧ e.1 ≤ 7 ∧ e.2.1 < 2 ∧ 4096 ≤ e.2.2.1 ∧ e.2.2.1 + e.2.2.2.1 ≤ t ∧ e.2.2.2.2 = 0 ∧
      (e.2.1 = 1 → e.2.2.1 % 65536 = 0) ∧ (e.1 = 1 → e.2.1 = 1))) &&
    (List.range 7).all (fun k => decide ((parts.filter fun e => decide (e.1 = k + 1)).length = 1)) &&
    decide (rdNat rd t 4 < 4) && rdZero rd (t + 4) 12 && rdZero rd (t + 1968) 80 && rdZero rd (t + 0x800 + 3309) 787 &&
    rdZero rd (t + 0x1800 + 3309) 787 && rdZero rd (t + 0x2800 + 1952) 96

/-- The bundle digest: SHAKE256 of the header and parts, 64 bytes (R439). -/
def bundleDigest (rd : BundleRd) : List Byte := shake256 (rd 0 (trailerAt rd)) 64

/-- Bundle policy bit 0: the owner must co-sign; bit 1: configuration images must be signed (R435). -/
def otpPolicy (s : State) (i : Nat) : Bool := (otpByte s 0xA0).getLsbD i

/-- The owner key digest; all zero while unclaimed (R435). -/
def ownerDigest (s : State) : List Byte := otpBytes s 0x60 64

/-- The module has an owner (R449). -/
def owned (s : State) : Bool := (ownerDigest s).any fun b => decide (b ≠ 0)

/-- The security version floor: the number of set bits (R435). -/
def versionFloor (s : State) : Nat :=
  let v := leNat (otpBytes s 0xA8 8)
  ((List.range 64).filter fun i => v.testBit i).length

/-- The first failing check of R440 out of 1 to 5, with its status. -/
def bundleCheck (rd : BundleRd) (s : State) : Option (Nat × Half) :=
  if !bundleShape rd then some (1, St.badParam)
  else
    let t := trailerAt rd
    let key := rd (t + 0x10) 1952
    let i := rdNat rd t 4
    let own := rd (t + 0x2800) 1952
    let d := bundleDigest rd
    if shake256 key 64 ≠ Config.rootDigest i ∨ (otpByte s 0xA4).getLsbD i = true then some (2, St.signatureInvalid)
    else if Config.mlDsaVerify key d (rd (t + 0x800) 3309) = false then some (3, St.signatureInvalid)
    else if otpPolicy s 0 = true ∧ (shake256 own 64 ≠ ownerDigest s ∨
        Config.mlDsaVerify own d (rd (t + 0x1800) 3309) = false) then some (4, St.signatureInvalid)
    else if rdNat rd 0xC 4 < versionFloor s then some (5, St.notPermitted)
    else none

/-- The bundle as FW_QUERY and the commit block know it. -/
def bundleOf (rd : BundleRd) : Bundle :=
  { version := BitVec.ofNat 32 (rdNat rd 8 4), sv := rdNat rd 0xC 4, digest := bundleDigest rd }

/-! ## FW_STAGE, FW_ABORT, FW_QUERY (R441, R442, R445) -/

/-- Staging is held by another origin (R442). -/
def stagedByOther (c : Capsule) (s : State) : Bool := s.sec.staging.any fun g => !sameSource g.1 c.origin

/-- Checks of FW_STAGE (R441 to R443, R445). -/
def fwStageCheck (c : Capsule) (s : State) : Verdict :=
  let rec_ := s.statusBit Sb.recovery
  firstBad
    [must (decide (c.offset.toNat + c.dataLen.toNat ≤ 67108864) && (!rec_ || decide (c.offset.toNat = s.sec.recoveryNext))) St.badParam,
     must (decide (s.sec.commitStep = 0) && !stagedByOther c s) St.notPermitted,
     must (rec_ || s.sec.staging.isSome || decide (32 ≤ freeFrames s 0)) St.noResource]

/-- The first FW_STAGE takes the staging area and names its owner (R442). -/
def takeStaging (o : Origin) (s : State) : State :=
  if s.sec.staging.isSome then s
  else if s.statusBit Sb.recovery then { s with sec := { s.sec with staging := some (o, [], 0) } }
  else { s.modDie 0 (fun x => { x with moduleFrames := x.moduleFrames + 32 }) with sec := { s.sec with staging := some (o, [], 0) } }

/-- FW_STAGE admitted: staging is held from here (R442). -/
def fwStageStart (n : Nat) (s : State) : State :=
  match s.live? n with
  | none => s
  | some l => takeStaging l.c.origin s

/-- The blocks that begin within `len` bytes at an offset. -/
def blocksIn (off len : Nat) : List Nat :=
  let first := (off + cflBlock - 1) / cflBlock
  (List.range ((off + len + cflBlock - 1) / cflBlock - first)).map fun i => first + i

/-- One block of configuration flash erased and counted (R445, R456). -/
def eraseBlock (b : Nat) (s : State) : State :=
  countErase b (s.modCfl fun c => { c with mem := cflErased (b * cflBlock) cflBlock c.mem })

/-- In recovery staged data goes to flash, each block erased before it is written (R445). -/
def putRecovered (blocks : List Nat) (off : Nat) (bs : List Byte) (s : State) : State :=
  let s2 := (foldOver blocks eraseBlock s).modCfl fun c => { c with mem := cflPut off bs c.mem }
  { s2 with sec := { s2.sec with recoveryNext := off + bs.length } }

/-- Staged data is written at its offset; in recovery it goes to flash (R442, R445). -/
def putStaged (off : Nat) (bs : List Byte) (s : State) : State :=
  if s.statusBit Sb.recovery then putRecovered (blocksIn off bs.length) off bs s
  else
    { s with sec := { s.sec with staging := s.sec.staging.map fun g => (g.1, Mem.writeBytes off bs g.2.1, g.2.2 + bs.length) } }

/-- The data of FW_STAGE has landed (R441). -/
def fwStageLanded (n : Nat) (s : State) : State :=
  match s.live? n with
  | none => s
  | some l =>
    if s.sec.staging.isNone || decide (s.sec.commitStep ≠ 0) then fail n St.notPermitted 0 s
    else if s.statusBit Sb.recovery && decide (l.c.offset.toNat ≠ s.sec.recoveryNext) then fail n St.badParam 0 s
    else
      succeed n 0 [] (addLog Lc.fwStaged (originWord l.c.origin) noUnit 0 [l.c.offset.toNat, l.c.dataLen.toNat]
        (putStaged l.c.offset.toNat l.data s))

/-- The staging area is given up (R442). -/
def freeStaging (s : State) : State :=
  if s.sec.staging.isSome && !s.statusBit Sb.recovery then
    { s.modDie 0 (fun x => { x with moduleFrames := x.moduleFrames - 32 }) with sec := { s.sec with staging := none } }
  else { s with sec := { s.sec with staging := none } }

/-- Check of FW_ABORT and FW_QUERY: no commit runs (R443). -/
def noCommit (_c : Capsule) (s : State) : Verdict := must (decide (s.sec.commitStep = 0)) St.notPermitted

/-- FW_ABORT discards the staging area (R441, R442). -/
def fwAbortStart (n : Nat) (s : State) : State := succeed n 0 [] (freeStaging s)

/-- A bundle's record in FW_QUERY: version, security version, digest (log 22). -/
def bundleRecord (b : Option Bundle) : List Byte :=
  match b with
  | some b => leBytes 4 b.version.toNat ++ leBytes 4 b.sv ++ sliceBytes b.digest 0 64
  | none => List.replicate 72 0

/-- FW_QUERY: running, committed and staged bundles, staging owner, bytes staged, commit step (R441). -/
def fwQueryStart (n : Nat) (s : State) : State :=
  let staged := s.sec.staging.map fun _ => bundleOf (stagedBytes s)
  let owner := (s.sec.staging.map fun g => (originWord g.1).toNat).getD 0
  let count := (s.sec.staging.map fun g => g.2.2).getD 0
  succeed n 0 (oneSegment (bundleRecord (some s.sec.running) ++ bundleRecord s.sec.committed ++ bundleRecord staged ++
    leBytes 4 owner ++ leBytes 4 count ++ leBytes 4 s.sec.commitStep ++ leBytes 4 0)) s

/-! ## FW_COMMIT (R440, R443 to R445) -/

/-- Checks of FW_COMMIT: no other commit, and the staging owner's (R442, R443). -/
def fwCommitCheck (c : Capsule) (s : State) : Verdict :=
  firstBad [must (decide (s.sec.commitStep = 0) && !stagedByOther c s) St.notPermitted, must (decide (c.p0.toNat < 8)) St.badParam]

/-- A commit is answered: a command by its status, a PLDM update by its ApplyComplete (R443, R466). -/
def commitAnswer (st : Half) (detail : Nat) (s : State) : State :=
  match s.sec.commitFor with
  | .inl n => fail n st detail s
  | .inr eid =>
    { s with sec := { s.sec with replies := s.sec.replies ++ [(eid, 0x18, leBytes 2 st.toNat)] } }

/-- Step C1: the staged bundle is checked; a failing check is logged and answered (R440, R443). -/
def commitBegins (who : Nat ⊕ Byte) (opts : Nat) (s : State) : State :=
  let s1 : State := { s with sec := { s.sec with commitFor := who, commitOpts := opts, commitAgain := false } }
  match bundleCheck (stagedBytes s) s with
  | some (k, st) => commitAnswer st k (logHw Lc.fwRejected [k] s1)
  | none => { s1 with sec := { s1.sec with commitStep := 2 } }

/-- The owed options of a commit: advance_sv raises the floor to the bundle's version, revoke_older revokes the key
indices below the bundle's (R435, R441; log 25). -/
def commitOptions (b : Bundle) (keyIx : Nat) (s : State) : State :=
  let s1 := if s.sec.commitOpts.testBit 0 then otpSet 0x40000000 0xA8 (leBytes 8 (2 ^ b.sv - 1)) s else s
  if s.sec.commitOpts.testBit 2 then otpSet 0x40000000 0xA4 (leBytes 4 (2 ^ keyIx - 1)) s1 else s1

/-- The commit block holds the bundle's digest, and the commit is answered (step C6, R443). -/
def commitEnds (s : State) : State :=
  let rd := stagedBytes s
  let b := bundleOf rd
  let keyIx := rdNat rd (trailerAt rd) 4
  let s1 := s.modCfl fun c => { c with mem := cflPut 0x4000000 b.digest c.mem }
  let s2 := commitOptions b keyIx { s1 with sec := { s1.sec with committed := some b, commitStep := 0 } }
  commitAnswer St.ok 0 (logHw Lc.fwCommitted [b.version.toNat] s2)

/-- FW_COMMIT: C1 of a running module; in recovery, the check, the commit block and the module reset (R443, R445). -/
def fwCommitStart (n : Nat) (s : State) : State :=
  match s.live? n with
  | none => s
  | some l =>
    if s.statusBit Sb.recovery then
      match bundleCheck (stagedBytes s) s with
      | some (k, st) => fail n st k (logHw Lc.fwRejected [k] s)
      | none =>
        startModuleReset 3 false true Lc.fwCommitted
          (commitEnds { s with sec := { s.sec with commitFor := .inl n, commitOpts := l.c.p0.toNat } })
    else commitBegins (.inl n) l.c.p0.toNat s

/-- The blocks a bundle needs. -/
def bundleBlocks (rd : BundleRd) : List Nat := List.range ((bundleLen rd + cflBlock - 1) / cflBlock)

/-- One step of a commit ends: C2 to C5 (R443). -/
def commitStep (ok : Bool) (s : State) : State :=
  let rd := stagedBytes s
  let goTo (k : Nat) (s : State) : State := { s with sec := { s.sec with commitStep := k } }
  match s.sec.commitStep with
  | 2 =>
    goTo 3 (countErase 1024 { s.modCfl (fun c => { c with mem := cflErased 0x4000000 cflBlock c.mem }) with
      sec := { (s.modCfl fun c => { c with mem := cflErased 0x4000000 cflBlock c.mem }).sec with committed := none } })
  | 3 =>
    goTo 4 (foldOver (bundleBlocks rd) (fun b acc =>
      countErase b (acc.modCfl fun c => { c with mem := cflErased (b * cflBlock) cflBlock c.mem })) s)
  | 4 => goTo 5 (s.modCfl fun c => { c with mem := cflPut 0 (rd 0 (bundleLen rd)) c.mem })
  | 5 =>
    if ok then goTo 6 s
    else if s.sec.commitAgain then commitAnswer St.mediaUncorrectable 0 (goTo 0 s)
    else goTo 3 { s with sec := { s.sec with commitAgain := true } }
  | _ => s

/-! ## The identity row by command (R435, R436, R449) -/

/-- Checks of SEC_OTP_WRITE: the owner key digest (64 bytes at 0x060), once, or the policy (4 bytes at 0x0A0) in an
owner session; a claim session writes only the digest (R435, R449). -/
def otpWriteCheck (c : Capsule) (s : State) : Verdict :=
  let key := decide (c.offset.toNat = 0x60 ∧ c.dataLen.toNat = 64)
  let pol := decide (c.offset.toNat = 0xA0 ∧ c.dataLen.toNat = 4)
  firstBad
    [must (key || pol) St.badParam,
     must (if key then !owned s else decide (c.origin = .secure 0) && sessionOpen s 0) St.notPermitted]

/-- SEC_OTP_WRITE: bits move from 0 to 1 only; the digest ends the session that claimed ownership (R436, R449). -/
def otpWriteLanded (n : Nat) (s : State) : State :=
  match s.live? n with
  | none => s
  | some l =>
    let a := l.c.offset.toNat
    let clear := (List.zip (otpBytes s a l.data.length) l.data).any fun e => decide (e.1 &&& ~~~e.2 ≠ 0)
    if clear then fail n St.notPermitted 0 s
    else if a = 0xA0 ∧ 8 ≤ leNat l.data then fail n St.violation 0 s
    else
      let s1 := succeed n 0 [] (otpSet (originWord l.c.origin) a l.data s)
      if a = 0x60 then
        { s1 with sec := { s1.sec with spdm := Tbl.mapVals (fun _ x =>
            if x.session = some (0, true) then { x with session := none } else x) s1.sec.spdm } }
      else s1

/-! ## SPDM (R446 to R449) -/

/-- A reply to an endpoint. -/
def reply (eid : Byte) (code : Nat) (data : List Byte) (s : State) : State :=
  { s with sec := { s.sec with replies := s.sec.replies ++ [(eid, code, data)] } }

/-- The connection of an endpoint. -/
def State.conn (s : State) (eid : Byte) : Spdm := Tbl.getD s.sec.spdm eid.toNat { step := 0, session := none }

/-- The connection of an endpoint changed. -/
def setConn (eid : Byte) (x : Spdm) (s : State) : State := { s with sec := { s.sec with spdm := Tbl.set eid.toNat x s.sec.spdm } }

/-- An SPDM error reply: 1 invalid request, 4 unexpected request, 7 unsupported request (R447; DSP0274). -/
def spdmError (eid : Byte) (e : Nat) (s : State) : State := reply eid 0x7F [BitVec.ofNat 8 e] s

/-- GET_VERSION starts the flow: version 1.2 (R447). -/
def getVersion (eid : Byte) (s : State) : State := reply eid 0x04 [0x00, 0x12] (setConn eid { step := 1, session := none } s)

/-- GET_CAPABILITIES: CERT, CHAL, MEAS with signature, KEY_EX, MUT_AUTH, ENCRYPT and MAC (R447). -/
def getCapabilities (eid : Byte) (s : State) : State :=
  if 1 ≤ (s.conn eid).step then reply eid 0x61 (leBytes 4 0x3D6) (setConn eid { s.conn eid with step := 2 } s)
  else spdmError eid 4 s

/-- NEGOTIATE_ALGORITHMS: the extended algorithms must be offered (R447). -/
def negotiate (eid : Byte) (dsa shake kem : Bool) (s : State) : State :=
  if (s.conn eid).step < 2 then spdmError eid 4 s
  else if dsa && shake then
    reply eid 0x63 [if kem then 1 else 0] (setConn eid { s.conn eid with step := if kem then 4 else 3 } s)
  else spdmError eid 7 s

/-- The certificate chain of slot 0: Molnov root, identity key, alias key (R446, R447). -/
def chain (s : State) : List Byte := Config.certChain (otpBytes s 0 4096 ++ s.sec.running.digest)

/-- GET_DIGESTS (R447). -/
def getDigests (eid : Byte) (s : State) : State :=
  if (s.conn eid).step < 3 then spdmError eid 4 s else reply eid 0x01 (shake256 (chain s) 64) s

/-- GET_CERTIFICATE: a part of slot 0's chain; no other slot is provisioned (R447). -/
def getCertificate (eid : Byte) (slot : BitVec 4) (off len : Half) (s : State) : State :=
  if (s.conn eid).step < 3 then spdmError eid 4 s
  else if slot ≠ 0 then spdmError eid 1 s
  else reply eid 0x02 (((chain s).drop off.toNat).take len.toNat) s

/-- CHALLENGE: answered with a signature, and logged (R447). -/
def challenge (eid : Byte) (slot : BitVec 4) (nonce : List Byte) (s : State) : State :=
  if (s.conn eid).step < 3 then spdmError eid 4 s
  else if slot ≠ 0 then spdmError eid 1 s
  else
    let body := shake256 (chain s) 64 ++ nonce
    addLog Lc.attested (0x20000000#32 + eid.zeroExtend 32) noUnit 0 []
      (reply eid 0x03 (body ++ Config.mlDsaSign body s.free) { s with free := s.free + 1 })

/-- The newest image of a slot pair. -/
def newestImage (xs : List CfgImage) : Option CfgImage := xs.getLast?

/-- The raw bytes of the image in force: the base, or overlay i. -/
def baseRaw (s : State) : List Byte := ((newestImage s.sec.base).map CfgImage.raw).getD []
/-- The raw bytes of an overlay's image. -/
def overlayRaw (s : State) (i : Nat) : List Byte := ((newestImage (Tbl.getD s.sec.overlays i [])).map CfgImage.raw).getD []

/-- A measurement block, 64 bytes (R448). -/
def measurement (s : State) (i : Nat) : List Byte :=
  match i with
  | 1 => shake256 Config.romImage 64
  | 2 => sliceBytes s.sec.running.digest 0 64
  | 3 => sliceBytes ((s.sec.committed.map Bundle.digest).getD []) 0 64
  | 4 => shake256 (baseRaw s) 64
  | 5 => shake256 (leBytes 2 s.sec.active.toNat ++
      ((List.range 16).filter fun k => s.sec.active.getLsbD k).flatMap (overlayRaw s)) 64
  | _ => shake256 (otpBytes s 0x60 80) 64

/-- GET_MEASUREMENTS: index 0 the count, 1 to 6 one block, 0xFF all; signed (R448). -/
def getMeasurements (eid : Byte) (index : Byte) (nonce : List Byte) (s : State) : State :=
  let i := index.toNat
  if (s.conn eid).step < 3 then spdmError eid 4 s
  else if 6 < i ∧ i ≠ 255 then spdmError eid 1 s
  else
    let blocks := if i = 0 then [] else if i = 255 then (List.range 6).flatMap fun k => measurement s (k + 1) else measurement s i
    let body := (if i = 0 then [6] else []) ++ blocks ++ nonce
    reply eid 0x60 (body ++ Config.mlDsaSign body s.free) { s with free := s.free + 1 }

/-- The secure origin index that an authenticated key gives: 0 for the owner's, 1 to 15 for session keys (R449). -/
def keyIndex (digest : List Byte) (s : State) : Option Nat :=
  if owned s && decide (digest = ownerDigest s) then some 0
  else ((List.range 15).find? fun i => decide (s.sec.sessionKeys[i]? = some digest)).map fun i => i + 1

/-- KEY_EXCHANGE: a session opens for an authenticated requester, or to claim an unowned module (R449). -/
def keyExchange (eid : Byte) (key : Option (List Byte)) (proof : List Byte) (s : State) : State :=
  let who : Word := 0x20000000#32 + eid.zeroExtend 32
  let open_ (i : BitVec 4) (claim : Bool) (s : State) : State :=
    addLog Lc.sessionOpened who noUnit 0 [i.toNat] (reply eid 0x64 (leBytes 1 i.toNat)
      (setConn eid { s.conn eid with session := some (i, claim) } s))
  let bad (s : State) : State := addLog Lc.authFailure who noUnit 0 [] (reply eid 0x7F (leBytes 2 St.authFailed.toNat) s)
  if (s.conn eid).step < 4 then spdmError eid 4 s
  else
    match key with
    | none => if owned s then bad s else open_ 0 true s
    | some k =>
      let d := shake256 k 64
      match keyIndex d s with
      | some i => if Config.requesterGenuine d proof then open_ (BitVec.ofNat 4 i) false s else bad s
      | none => bad s

/-! ## PLDM and addresses (R465, R466, R474) -/

/-- The value a PLDM sensor reads: m°C, mL/min, mW, mJ, or a bit (R466). -/
def sensorValue (s : State) : PldmSensor → Int
  | .inlet => s.power.inletMc
  | .outlet => s.power.outletMc
  | .flow => s.power.flow
  | .power => s.power.inputMw
  | .junction d =>
    if d.val < 4 then (s.die d.val).milliC
    else ((s.power.temps.find? fun e => match e.1 with
      | .media m => decide (m.val + 4 = d.val)
      | .light l => decide (l.val + 6 = d.val)
      | _ => false).map Prod.snd).getD 25000
  | .stack k => ((s.power.temps.find? fun e => decide (e.1 = Sensor.hbm k)).map Prod.snd).getD 25000
  | .nandHottest => (s.power.temps.filterMap fun e => match e.1 with
      | .nand _ => some e.2
      | _ => none).foldl max 25000
  | .holdup => s.media.holdupMj
  | .status b => if s.statusBit b.val then 1 else 0

/-- PLDM_SENSOR_READ (R466): four bytes, two's complement. -/
def sensorRead (eid : Byte) (x : PldmSensor) (s : State) : State :=
  reply eid 0x11 (leBytes 4 (BitVec.ofInt 32 (sensorValue s x)).toNat) s

/-- PLDM_FIRMWARE_UPDATE: the bundle is pulled into staging, or into flash in recovery, and committed (R466). -/
def pldmUpdate (eid : Byte) (image : List Byte) (s : State) : State :=
  let o : Origin := .mctp eid false
  let held := s.sec.staging.any fun g => !sameSource g.1 o
  if s.sec.commitStep ≠ 0 || held || decide (67108864 < image.length) ||
      (!s.statusBit Sb.recovery && s.sec.staging.isNone && decide (freeFrames s 0 < 32)) then
    reply eid 0x18 (leBytes 2 St.noResource.toNat) s
  else
    let s0 := takeStaging o s
    let s1 := addLog Lc.fwStaged (originWord o) noUnit 0 [0, image.length]
      (putStaged 0 image { s0 with sec := { s0.sec with recoveryNext := 0 } })
    if s.statusBit Sb.recovery then
      match bundleCheck (stagedBytes s1) s1 with
      | some (k, st) => reply eid 0x18 (leBytes 2 st.toNat) (logHw Lc.fwRejected [k] s1)
      | none => commitEnds { s1 with sec := { s1.sec with commitFor := .inr eid, commitOpts := 0 } }
    else commitBegins (.inr eid) 0 s1

/-- SET_ENDPOINT_ID: the bus owner of a binding assigns the EID; 0 and 255 are no EIDs (R465; DSP0236). -/
def setEid (eid : Byte) (i3c : Bool) (s : State) : State :=
  if eid = 0 ∨ eid = 255 then s
  else if i3c then { s with sys := { s.sys with eidI3c := eid } } else { s with sys := { s.sys with eidPcie := eid } }

/-- SETDASA turns the static address of the slot pins into a dynamic one (R474). -/
def setDasa (static dynamic : BitVec 7) (s : State) : State :=
  if static.toNat = 0x30 + s.sys.slotId.toNat then { s with sys := { s.sys with i3cAddr := some dynamic } } else s

/-! ## Management (R463) -/

/-- MGT_IDENTIFY: the identity row, the node id and the bundle versions, from the command's offset (R463). -/
def identifyStart (n : Nat) (s : State) : State :=
  match s.live? n with
  | none => s
  | some l =>
    let bs := otpBytes s 0 4096 ++ leBytes 4 s.sys.node.toNat ++ leBytes 4 s.sec.running.version.toNat ++
      leBytes 4 ((s.sec.committed.map fun b => b.version.toNat).getD 0)
    succeed n 0 (oneSegment ((bs.drop l.c.offset.toNat).take l.c.length.toNat)) s

/-- Check of MGT_LOG_READ: at most 1 MiB. -/
def logReadCheck (c : Capsule) (_s : State) : Verdict := must (decide (c.length.toNat ≤ 1048576)) St.badParam

/-- MGT_LOG_READ: entries of the lasting log from a sequence number (R463). -/
def logReadStart (n : Nat) (s : State) : State :=
  match s.live? n with
  | none => s
  | some l =>
    let es := (s.log.lasting.filter fun e => decide (l.c.offset.toNat ≤ e.seq)).take (l.c.length.toNat / 64)
    succeed n 0 (oneSegment (es.flatMap LogEntry.toBytes)) s

/-- LOG_BATCH_WRITE: 16 copies wait, or the oldest has waited 1 s (R463). -/
def logBatch (s : State) : State :=
  match s.log.buffer with
  | [] => s
  | e :: _ => if 16 ≤ s.log.buffer.length ∨ e.time + 1000000000 ≤ s.sys.time then writeLogBatch s else s

/-! ## Rows that never end a command -/

/-- GET_VERSION (R447). -/
def execGetVersion (eid : Byte) (s : State) : Host.Outcome State Fault Refusal := .next (getVersion eid s)
/-- GET_CAPABILITIES (R447). -/
def execGetCapabilities (eid : Byte) (s : State) : Host.Outcome State Fault Refusal := .next (getCapabilities eid s)
/-- NEGOTIATE_ALGORITHMS (R447). -/
def execNegotiateAlgorithms (eid : Byte) (mlDsa65 shake256 mlKem768 : Bool) (s : State) : Host.Outcome State Fault Refusal :=
  .next (negotiate eid mlDsa65 shake256 mlKem768 s)
/-- GET_DIGESTS (R447). -/
def execGetDigests (eid : Byte) (s : State) : Host.Outcome State Fault Refusal := .next (getDigests eid s)
/-- GET_CERTIFICATE (R447). -/
def execGetCertificate (eid : Byte) (slot : BitVec 4) (offset length : Half) (s : State) : Host.Outcome State Fault Refusal :=
  .next (getCertificate eid slot offset length s)
/-- CHALLENGE (R447). -/
def execChallenge (eid : Byte) (slot : BitVec 4) (nonce : List Byte) (s : State) : Host.Outcome State Fault Refusal :=
  .next (challenge eid slot nonce s)
/-- GET_MEASUREMENTS (R448). -/
def execGetMeasurements (eid : Byte) (index : Byte) (nonce : List Byte) (s : State) : Host.Outcome State Fault Refusal :=
  .next (getMeasurements eid index nonce s)
/-- KEY_EXCHANGE (R449). -/
def execKeyExchange (eid : Byte) (key : Option (List Byte)) (proof : List Byte) (s : State) : Host.Outcome State Fault Refusal :=
  .next (keyExchange eid key proof s)
/-- PLDM_SENSOR_READ (R466). -/
def execPldmSensorRead (eid : Byte) (x : PldmSensor) (s : State) : Host.Outcome State Fault Refusal := .next (sensorRead eid x s)
/-- PLDM_FIRMWARE_UPDATE (R466). -/
def execPldmFirmwareUpdate (eid : Byte) (image : List Byte) (s : State) : Host.Outcome State Fault Refusal :=
  .next (pldmUpdate eid image s)
/-- SET_ENDPOINT_ID (R465). -/
def execSetEndpointId (eid : Byte) (i3c : Bool) (s : State) : Host.Outcome State Fault Refusal := .next (setEid eid i3c s)
/-- SETDASA (R474). -/
def execSetdasa (static dynamic : BitVec 7) (s : State) : Host.Outcome State Fault Refusal := .next (setDasa static dynamic s)
/-- LOG_BATCH_WRITE (R463). -/
def execLogBatchWrite (t : Nat) (s : State) : Host.Outcome State Fault Refusal := .next (logBatch (s.tick t))

end Sys2Proof.Machine
end

