-- ==== Sys2Proof/Machine/Power.lean ====
section
/-! DEFINITION. Rate steps, caps, temperatures, coolant, power states of compute dies and block enables (R418 to R433). -/

namespace Sys2Proof.Machine

/-! ## Rate steps and windows (R426, R433) -/

/-- The lowest step (R426). -/
def kLow : Nat := 8

/-- A pin that a limit begins to override is logged at most once a minute; one that holds again is logged (R433). Entries
of `clipped` under die + 4 keep the time of the last log of a pin that holds. -/
def notePin (d : Nat) (excess : Bool) (s : State) : State :=
  let now := s.sys.time
  let active := s.power.clipped.any fun e => decide (e.1 = d)
  let last := (s.power.clipped.find? fun e => decide (e.1 % 4 = d)).map Prod.snd
  let rest := s.power.clipped.filter fun e => decide (e.1 % 4 ≠ d)
  if excess && !active then
    let due := match last with
      | some t => decide (t + 60000000000 ≤ now)
      | none => true
    let s1 : State := { s with power := { s.power with clipped := rest ++ [(d, if due then now else last.getD now)] } }
    if due then addLog Lc.policyClipped 0x50000000 (unitWord d 0 0) 0 [(s.die d).kmin, (s.die d).k] s1 else s1
  else if !excess && active then
    addLog Lc.loopHeld 0x50000000 (unitWord d 0 0) 0 [(s.die d).kmin]
      { s with power := { s.power with clipped := rest ++ [(d + 4, last.getD now)] } }
  else s

/-- A die runs at the lower of the steps its cap loop and its thermal loop allow, inside its window (R429, R433). -/
def stepDie (d : Nat) (s : State) : State :=
  let x := s.die d
  let k := max kLow (min (min x.capK x.thermK) x.kmax)
  notePin d (decide (k < x.kmin)) (if k = x.k then s else s.modDie d fun y => { y with k := k })

/-- The rate steps of the four dies settle, and thermal_limit shows whether one runs below its maximum (R429). -/
def settleSteps (s : State) : State :=
  let s1 := foldOver [0, 1, 2, 3] stepDie s
  setStatus Sb.thermalLimit ([0, 1, 2, 3].any fun d => decide ((s1.die d).k < (s1.die d).kmax) && !(s1.die d).dead) s1

/-! ## The cap loop (R427, R428) -/

/-- The module cap in force, in W: software's cap below the limits for the coolant (R427, R432). -/
def moduleCap (s : State) : Nat := min s.power.capW (min (2400 - s.power.hotW) (if s.power.lowFlow then 1600 else 2400))

/-- The compute dies of a list that can be lowered, or raised. -/
def bestDie (better : Nat → Nat → Bool) (ok : Nat → Bool) (ds : List Nat) (s : State) : Option Nat :=
  ds.foldl (fun b d =>
    if ok d && !(s.die d).dead then
      (match b with
        | none => some d
        | some e => if better (s.die d).k (s.die e).k then some d else b)
    else b) none

/-- Partitions whose compute dies draw more than their cap (R427). -/
def overParts (partMw : List Nat) (s : State) : List Nat :=
  (s.parts.filter fun e => e.2.capW.any fun w => decide (w * 1000 < partMw.getD e.1 0)).map Prod.fst

/-- Input and every partition lie below their caps by 50 W (R427). -/
def wellBelow (inputMw : Nat) (partMw : List Nat) (s : State) : Bool :=
  decide (inputMw + 50000 ≤ moduleCap s * 1000) &&
    s.parts.all fun e => e.2.capW.all fun w => decide (partMw.getD e.1 0 + 50000 ≤ w * 1000)

/-- One tick of the cap loop: the 2,400 W limit, one step down over a cap, or one step up after 1 ms below every cap
(R427, R428). -/
def capTick (inputMw : Nat) (partMw : List Nat) (s0 : State) : State :=
  let s : State := { s0 with power := { s0.power with inputMw := inputMw } }
  let quiet (v : Option Nat) (s : State) : State := { s with power := { s.power with belowSince := v } }
  if 2400000 < inputMw then
    settleSteps (logHw Lc.powerLimitHit [inputMw] (quiet none
      (foldOver [0, 1, 2, 3] (fun d acc => acc.modDie d fun x => { x with capK := kLow }) s)))
  else
    let excess := overParts partMw s
    let whole := decide (moduleCap s * 1000 < inputMw)
    if whole || !excess.isEmpty then
      let ds := if whole then [0, 1, 2, 3] else [0, 1, 2, 3].filter fun d => excess.any fun p => (s.part p).dies.getLsbD d
      match bestDie (fun a b => decide (b < a)) (fun d => decide (kLow < (s.die d).k)) ds s with
      | some d => settleSteps (quiet none (s.modDie d fun x => { x with capK := x.k - 1 }))
      | none => quiet none s
    else if wellBelow inputMw partMw s then
      let since := s.power.belowSince.getD s.sys.time
      let s1 := quiet (some since) s
      if since + 1000000 ≤ s.sys.time then
        (match bestDie (fun a b => decide (a < b)) (fun d => decide ((s.die d).capK < (s.die d).kmax)) [0, 1, 2, 3] s with
          | some d => settleSteps (s1.modDie d fun x => { x with capK := x.capK + 1 })
          | none => s1)
      else s1
    else quiet none s

/-- CAP_LOOP_TICK (R427). -/
def execCapLoopTick (inputMw : Nat) (partMw : List Nat) (t : Nat) (s : State) : Host.Outcome State Fault Refusal :=
  .next (capTick inputMw partMw (s.tick t))

/-! ## Temperatures (R429) -/

/-- The reading of a sensor is recorded. -/
def setTemp (x : Sensor) (mc : Int) (s : State) : State :=
  match x with
  | .compute d => s.modDie d.val fun y => { y with milliC := mc }
  | _ => { s with power := { s.power with temps := (s.power.temps.filter fun e => decide (e.1 ≠ x)) ++ [(x, mc)] } }

/-- THERMAL_LOOP_TICK: above the target the loop lowers k by one; 3 K below it a raise is allowed (R429). -/
def thermalTick (d : Nat) (mc : Int) (s0 : State) : State :=
  let s := s0.modDie d fun y => { y with milliC := mc }
  let target : Int := 1000 * (s.power.targetC : Int)
  if target < mc then settleSteps (s.modDie d fun y => { y with thermK := max kLow (y.k - 1) })
  else if mc ≤ target - 3000 then settleSteps (s.modDie d fun y => { y with thermK := min 16 (y.thermK + 1) })
  else s

/-- THERMAL_LOOP_TICK (R429). -/
def execThermalLoopTick (d : DieIx) (milliC : Int) (t : Nat) (s : State) : Host.Outcome State Fault Refusal :=
  .next (thermalTick d.val milliC (s.tick t))

/-- A sensor's hardware limit in m°C (R429). -/
def hardLimit : Sensor → Int
  | .compute _ => 105000
  | .media _ => 105000
  | .light _ => 95000
  | .hbm _ => 95000
  | .nand _ => 70000

/-- A sensor's trip in m°C (R429). -/
def tripLimit : Sensor → Int
  | .compute _ => 115000
  | .media _ => 115000
  | .light _ => 110000
  | .hbm _ => 105000
  | .nand _ => 80000

/-- THERMAL_LIMIT: a compute die goes to k = 8; a light die's links shed to 8 wavelengths; media dies, stacks and NAND
packages are throttled while they stay at the limit (R429). -/
def thermalLimit (x : Sensor) (mc : Int) (s0 : State) : State :=
  let s := setTemp x mc s0
  let rest := s.power.limited.filter fun y => decide (y ≠ x)
  if hardLimit x ≤ mc then
    match x with
    | .compute d => settleSteps (s.modDie d.val fun y => { y with thermK := kLow })
    | .light l =>
      let s1 : State := { s with power := { s.power with limited := rest ++ [x] } }
      foldOver ((List.range 12).map fun i => 12 * l.val + i) shedToEight s1
    | _ => { s with power := { s.power with limited := rest ++ [x] } }
  else { s with power := { s.power with limited := rest } }

/-- THERMAL_LIMIT (R429). -/
def execThermalLimit (x : Sensor) (milliC : Int) (s : State) : Host.Outcome State Fault Refusal := .next (thermalLimit x milliC s)

/-- A sensor as a log entry's details name it: kind and index. -/
def sensorWords : Sensor → List Nat
  | .compute d => [0, d.val]
  | .media m => [1, m.val]
  | .light l => [2, l.val]
  | .hbm k => [3, k.val]
  | .nand g => [4, g.val]

/-- FAULT# is low while a cast-on step has failed, and after a thermal trip until the next module reset (R474). -/
def drivePins (s : State) : State :=
  { s with sys := { s.sys with faultPin := s.sys.aux && (s.sys.stepFailed || s.sys.tripLatched) } }

/-- Every die but the management island is powered off: work and HBM contents are lost, links are down (R261, R425). -/
def diesOff (s : State) : State :=
  let s1 := loseWork (allLinksDown downControl false s)
  let s2 : State :=
    { s1 with
      links := Tbl.mapVals (fun _ x => cutLink true x) s1.links
      sys := { s1.sys with dataOn := false } }
  setStatus Sb.ready false (refreshFenced s2)

/-- Thermal shutdown: steps 2 to 5 of R261, dies off, THERMAL_TRIP logged, no restart by itself (R429). -/
def thermalShutdown (detail : List Nat) (s : State) : State :=
  if s.sys.thermalOff then s
  else
    let s1 := diesOff (flushStaging (logHw Lc.thermalTrip detail s))
    drivePins { s1 with sys := { s1.sys with thermalOff := true, tripLatched := true } }

/-- THERMAL_TRIP: NAND programs stop while a package is at its trip; any other trip is a thermal shutdown (R429). -/
def thermalTrip (x : Sensor) (mc : Int) (s0 : State) : State :=
  let s := setTemp x mc s0
  match x with
  | .nand _ =>
    let hot := s.power.temps.any fun e => match e.1 with
      | .nand _ => decide (80000 ≤ e.2)
      | _ => false
    { s with media := { s.media with nandStopped := hot } }
  | _ => if tripLimit x ≤ mc then thermalShutdown (sensorWords x ++ [mc.toNat]) s else s

/-! ## Coolant (R432) -/

/-- COOLANT_HOT: the cap falls 100 W for each kelvin above 40 °C, in proportion (R432). -/
def coolantHot (mc : Int) (s : State) : State :=
  let excess := (mc - 40000).toNat
  let s1 : State := { s with power := { s.power with inletMc := mc, hotW := (excess + 9) / 10 } }
  if 0 < excess then logHw Lc.coolantHot [mc.toNat] s1 else s1

/-- COOLANT_HOT (R432). -/
def execCoolantHot (inletMilliC : Int) (s : State) : Host.Outcome State Fault Refusal := .next (coolantHot inletMilliC s)

/-- COOLANT_FLOW_LOW: below 3.6 L/min for 1 s with more than 600 W of input (R432). -/
def flowLow (flow inputMw held : Nat) (s0 : State) : State :=
  let s : State := { s0 with power := { s0.power with flow := flow, inputMw := inputMw } }
  if flow < 3600 ∧ 600000 < inputMw ∧ 1000000000 ≤ held then
    logHw Lc.coolantFlowLow [flow] (degrade .flow { s with power := { s.power with lowFlow := true } })
  else s

/-- COOLANT_FLOW_LOW (R432). -/
def execCoolantFlowLow (mlPerMin inputMw heldNs : Nat) (s : State) : Host.Outcome State Fault Refusal :=
  .next (flowLow mlPerMin inputMw heldNs s)

/-- COOLANT_FLOW_RESTORED: above 4.0 L/min for 10 s (R432). -/
def flowRestored (flow held : Nat) (s0 : State) : State :=
  let s : State := { s0 with power := { s0.power with flow := flow } }
  if s.power.lowFlow ∧ 4000 < flow ∧ 10000000000 ≤ held then
    undegrade .flow { s with power := { s.power with lowFlow := false } }
  else s

/-- COOLANT_FLOW_RESTORED (R432). -/
def execCoolantFlowRestored (mlPerMin heldNs : Nat) (s : State) : Host.Outcome State Fault Refusal := .next (flowRestored mlPerMin heldNs s)

/-- COOLANT_INLET_SHUTDOWN: above 45 °C for 1 s (R432). -/
def inletShutdown (mc : Int) (held : Nat) (s0 : State) : State :=
  let s : State := { s0 with power := { s0.power with inletMc := mc, hotW := ((mc - 40000).toNat + 9) / 10 } }
  if 45000 < mc ∧ 1000000000 ≤ held then thermalShutdown [5, 0, mc.toNat] s else s

/-! ## Power states of a compute die (R423, R424) -/

/-- A die holds no stream, no task and no vector or mover work (R423). -/
def dieIdle (s : State) (d : Nat) : Bool :=
  let x := s.die d
  x.stream.isNone && !x.replaying && decide (migrationsOn s d = 0) &&
    (x.clusters.all fun e => e.2.flight.isEmpty && e.2.waiting.isNone) &&
    (x.engines.all fun e => e.2.flight.isEmpty && e.2.chunk.isNone) &&
    x.movers.all fun e => e.2.isEmpty

/-- A die enters GATE, or RETAIN, which ends the contents of its scratchpads and vector registers (R423). -/
def enterState (d : Nat) (p : PState) (s : State) : State :=
  s.modDie d fun x =>
    let y : Die := { x with pstate := p, enteredAt := s.sys.time }
    if p = .retain then { y with pad := [], regs := [], undef := 0 } else y

/-- When a die went idle; a die without work since cast-on has been idle from there. -/
def idleSince (s : State) (d : Nat) : Nat := (s.die d).idleAt.getD s.sys.castAt

/-- GATE_TIMER (R423). -/
def gateTimer (d : Nat) (s : State) : State :=
  let x := s.die d
  if s.sys.dataOn && decide (x.pstate = .run) && x.wakingAt.isNone && dieIdle s d &&
      decide (idleSince s d + s.power.gateUs * 1000 ≤ s.sys.time) then enterState d .gate s else s

/-- RETAIN_TIMER (R423). -/
def retainTimer (d : Nat) (s : State) : State :=
  let x := s.die d
  match s.power.retainMs with
  | none => s
  | some r =>
    if decide (x.pstate = .gate) && x.wakingAt.isNone && decide (idleSince s d + r * 1000000 ≤ s.sys.time) then
      enterState d .retain s
    else s

/-- GATE_TIMER (R423). -/
def execGateTimer (d : DieIx) (t : Nat) (s : State) : Host.Outcome State Fault Refusal := .next (gateTimer d.val (s.tick t))
/-- RETAIN_TIMER (R423). -/
def execRetainTimer (d : DieIx) (t : Nat) (s : State) : Host.Outcome State Fault Refusal := .next (retainTimer d.val (s.tick t))
/-- DIE_WAKE: a task, an interrupt or a command makes the die leave its state (R424). -/
def execDieWake (d : DieIx) (t : Nat) (s : State) : Host.Outcome State Fault Refusal := .next (wakeDie d.val (s.tick t))

/-- DIE_WAKE_COMPLETE: the exit has ended (R424). -/
def wakeComplete (d : Nat) (s : State) : State :=
  match (s.die d).wakingAt with
  | none => s
  | some t =>
    if t ≤ s.sys.time then
      s.modDie d fun x => { x with pstate := .run, wakingAt := none, idleAt := some s.sys.time }
    else s

/-! ## Power commands (R430) -/

/-- The typical core voltage of a step in mV (R426). -/
def stepMv (k : Nat) : Nat := [650, 670, 680, 700, 720, 740, 760, 780, 800].getD (k - 8) 800

/-- A die's line of PWR_QUERY, 16 bytes: state, k, mV, m°C, mW of the last 1 ms, zero (log 22); what the state does not
hold is a free value. -/
def dieLine (s : State) (d : Nat) : List Byte :=
  let x := s.die d
  let st := if d < 4 then (match x.pstate with
    | .run => 0
    | .gate => 1
    | .retain => 2) else 0
  let mv := if d < 4 then stepMv x.k else Config.freeNat (s.free + d) % 65536
  leBytes 1 (if s.sys.dataOn then st else 3) ++ leBytes 1 (if d < 4 then x.k else 16) ++ leBytes 2 mv ++
    leBytes 4 (BitVec.ofInt 32 (sensorValue s (.junction ⟨d % 8, Nat.mod_lt _ (by decide)⟩))).toNat ++
    leBytes 4 (Config.freeNat (s.free + 8 + d)) ++ leBytes 4 0

/-- PWR_QUERY's record (R430; layout: log 22). -/
def pwrRecord (s : State) : List Byte :=
  ((List.range 8).flatMap (dieLine s)) ++ leBytes 4 s.power.inputMw ++ leBytes 4 (moduleCap s) ++
    ((List.range 4).flatMap fun p => leBytes 4 ((s.part p).capW.getD 0xFFFFFFFF)) ++
    leBytes 4 (BitVec.ofInt 32 s.power.inletMc).toNat ++ leBytes 4 (BitVec.ofInt 32 s.power.outletMc).toNat ++
    leBytes 4 s.power.flow ++ leBytes 4 s.media.holdupMj ++
    ((List.range 2).flatMap fun m => leBytes 4 (Tbl.getD s.power.spread m (5, 31)).1 ++ leBytes 4 (Tbl.getD s.power.spread m (5, 31)).2)

/-- PWR_QUERY (R430). -/
def pwrQueryStart (n : Nat) (s : State) : State :=
  match s.live? n with
  | none => s
  | some l => succeed n 0 (oneSegment (windowOf l.c (pwrRecord s))) { s with free := s.free + 16 }

/-- The policy values at their defaults, in the order in which PWR_SET_POLICY carries them (log 22): module cap; compute
cap of each partition, all ones for none; kmin and kmax of each die; thermal target; gate timer; retain timer, all ones for
never; spread depth and rate of each media die. -/
def pwrDefaults : List Nat :=
  [2400, 0xFFFFFFFF, 0xFFFFFFFF, 0xFFFFFFFF, 0xFFFFFFFF, 8, 16, 8, 16, 8, 16, 8, 16, 95, 20, 10, 5, 31, 5, 31]

/-- A window after its clip to the steps that exist. -/
def clipWindow (lo hi : Nat) : Nat × Nat := (max kLow lo, min 16 hi)

/-- The values lie in their ranges, windows and the module cap after their clips (R417, R423, R427, R429, R433). -/
def pwrOk (v : List Nat) : Bool :=
  let g (i : Nat) : Nat := v.getD i 0
  decide (v.length = 20 ∧ 600 ≤ g 0 ∧ 70 ≤ g 13 ∧ g 13 ≤ 95 ∧ 1 ≤ g 14 ∧ g 14 ≤ 10000 ∧
    (g 15 = 0xFFFFFFFF ∨ (1 ≤ g 15 ∧ g 15 ≤ 10000))) &&
    ((List.range 4).all fun d =>
      let w := clipWindow (g (5 + 2 * d)) (g (6 + 2 * d))
      decide (w.1 ≤ w.2)) &&
    (List.range 2).all fun m => decide (g (16 + 2 * m) ≤ 10 ∧ 30 ≤ g (17 + 2 * m) ∧ g (17 + 2 * m) ≤ 63)

/-- A value is clipped (R428, R433). -/
def pwrClips (v : List Nat) : Bool :=
  let g (i : Nat) : Nat := v.getD i 0
  decide (2400 < g 0) || (List.range 4).any fun d => decide (g (5 + 2 * d) < kLow ∨ 16 < g (6 + 2 * d))

/-- The values take effect. -/
def pwrApply (v : List Nat) (s : State) : State :=
  let g (i : Nat) : Nat := v.getD i 0
  let s1 : State :=
    { s with
      power := { s.power with
        capW := min 2400 (g 0), targetC := g 13, gateUs := g 14
        retainMs := if g 15 = 0xFFFFFFFF then none else some (g 15)
        spread := [(0, (g 16, g 17)), (1, (g 18, g 19))] }
      parts := Tbl.mapVals (fun p x => { x with capW := if g (1 + p) = 0xFFFFFFFF then none else some (g (1 + p)) }) s.parts }
  settleSteps (foldOver [0, 1, 2, 3] (fun d acc => acc.modDie d fun x =>
    { x with kmin := (clipWindow (g (5 + 2 * d)) (g (6 + 2 * d))).1, kmax := (clipWindow (g (5 + 2 * d)) (g (6 + 2 * d))).2 }) s1)

/-- Check of PWR_SET_POLICY: 20 values of 4 bytes. -/
def pwrPolicyCheck (c : Capsule) (_s : State) : Verdict := must (decide (c.dataLen.toNat = 80)) St.badParam

/-- PWR_SET_POLICY takes effect; windows inside their limits are logged LOOP_HELD, clipped ones POLICY_CLIPPED (R427 to
R430, R433). -/
def pwrPolicyLanded (n : Nat) (s : State) : State :=
  match s.live? n with
  | none => s
  | some l =>
    let v := (List.range 20).map fun i => fieldAt l.data (4 * i) 4
    let o := originWord l.c.origin
    if pwrOk v then
      let s1 := addLog (if pwrClips v then Lc.policyClipped else Lc.loopHeld) o noUnit 0 [0x0671] (pwrApply v s)
      succeed n 0 [] (addLog Lc.policyChanged o noUnit 0 [0x0671] s1)
    else fail n St.badParam 0 s

/-- PWR_SET_STATE's target and state: p0 a compute die 0 to 3 or 4 for the module, p1 0 RUN or ON, 1 GATE or OFF, 2 RETAIN
(log 22). -/
def pwrStateCheck (c : Capsule) (s : State) : Verdict :=
  let d := c.p0.toNat
  let v := c.p1.toNat
  if d = 4 then
    firstBad
      [must (decide (v ≤ 1)) St.badParam,
       must (!(s.sys.off && decide (v = 0)) || (match c.origin with
          | .mctp _ _ => true
          | .secure _ => true
          | _ => false)) St.notPermitted]
  else
    firstBad
      [must (decide (d < 4 ∧ v ≤ 2)) St.badParam,
       must (decide (v = 0) || dieIdle s d) St.notPermitted]

/-- A compute die is forced to a state; the change is logged (R430). -/
def forceDie (n : Nat) (c : Capsule) (s : State) : State :=
  let d := c.p0.toNat
  let s1 := if c.p1 = 0 then wakeDie d s
    else enterState d (if c.p1 = 1 then .gate else .retain) (s.modDie d fun x => { x with wakingAt := none })
  succeed n 0 [] (addLog Lc.policyChanged (originWord c.origin) (unitWord d 0 0) 0 [0x0672, c.p1.toNat] s1)

/-! ## Block enables (R418, R419) -/

/-- The unit behind a bit of DIE_BLOCK_EN or DIE_CHAN_EN. -/
def bitUnit (d : AllDieIx) (chan : Bool) (b : Nat) : Option HwUnit :=
  let cd := dieIx d.val
  let md : MediaIx := ⟨d.val % 2, Nat.mod_lt _ (by decide)⟩
  if d.val < 4 then
    if chan then none
    else if b < 16 then some (.cluster cd (clusterIx b))
    else if b < 20 then some (.vector cd (engIx (b - 16)))
    else if b < 24 then some (.mover cd (engIx (b - 20)))
    else if b < 32 then some (.futisCompute cd ⟨b % 8, Nat.mod_lt _ (by decide)⟩ false)
    else if b = 32 then some (.sequencer cd)
    else if b < 35 then some (.tierDma cd)
    else none
  else if d.val < 6 then
    if chan then some (.channel ⟨(64 * (d.val - 4) + b) % 128, Nat.mod_lt _ (by decide)⟩)
    else if b < 8 then some (.scan md ⟨b % 8, Nat.mod_lt _ (by decide)⟩)
    else if b < 12 then some (.futisMedia md (engIx (b - 8)))
    else none
  else if chan then none
  else if b < 12 then some (.link ⟨(12 * (d.val - 6) + b) % 24, Nat.mod_lt _ (by decide)⟩)
  else none

/-- Bits that the register of a die has (R418). -/
def blockBits (d : AllDieIx) (chan : Bool) : Nat :=
  if d.val < 4 then (if chan then 0 else 35) else if d.val < 6 then (if chan then 64 else 15) else if chan then 0 else 14

/-- A block holds a request, so that its enable is not cleared (R419). -/
def unitBusy (s : State) : HwUnit → Bool
  | .cluster d c => let k := (s.die d.val).cluster c.val; !k.flight.isEmpty || k.waiting.isSome
  | .vector d j => let e := (s.die d.val).engine j.val; !e.flight.isEmpty || e.chunk.isSome
  | .mover d k => !((s.die d.val).mover k.val).isEmpty
  | .sequencer d => (s.die d.val).stream.isSome
  | .tierDma d => decide (0 < migrationsOn s d.val)
  | .scan m e => s.scanHeld.any fun h => decide (h.1 = scanIndex m e)
  | .link l => !(s.link l.val).waiting.isEmpty
  | .channel ch => s.media.groups.any fun e =>
      decide (e.1 / 64 = ch.val / 64 ∧ e.1 % 4 = ch.val % 64 / 16) && e.2.supers.any fun x => x.2.erasing
  | _ => false

/-- DIE_BLOCK_EN_WRITE: retired units stay disabled, and a block that holds a request stays enabled (R418, R419). -/
def blockWrite (d : AllDieIx) (chan : Bool) (v : Dword) (s : State) : State :=
  let old := Tbl.getD (if chan then s.power.chanEn else s.power.blockEn) d.val 0xFFFFFFFFFFFFFFFF
  let bitOk (b : Nat) : Bool :=
    match bitUnit d chan b with
    | none => v.getLsbD b
    | some u => if v.getLsbD b then decide (u ∉ s.errs.retired) else old.getLsbD b && unitBusy s u
  let w := ((List.range (blockBits d chan)).filter bitOk).foldl (fun m b => m ||| (1#64 <<< b)) (0#64)
  if blockBits d chan = 0 then s
  else if chan then { s with power := { s.power with chanEn := Tbl.set d.val w s.power.chanEn } }
  else { s with power := { s.power with blockEn := Tbl.set d.val w s.power.blockEn } }

/-- DIE_BLOCK_EN_WRITE (R418, R419). -/
def execDieBlockEnWrite (d : AllDieIx) (chan : Bool) (v : Dword) (s : State) : Host.Outcome State Fault Refusal :=
  .next (blockWrite d chan v s)

end Sys2Proof.Machine
end

