-- ==== Sys2Proof/Machine/Configure.lean ====
section
/-! DEFINITION. Base configuration, overlays and the access table (R452, R453, R459 to R462). -/

namespace Sys2Proof.Machine

/-! ## Items (R461; value layouts: log 26) -/

/-- The 8-byte slots of item 0x000A: policy key and value. -/
def keyValues (v : List Byte) : List (Nat × Nat) :=
  (List.range (v.length / 8)).map fun i => (fieldAt v (8 * i) 4, fieldAt v (8 * i + 4) 4)

/-- A run of policy values: the defaults with the item's keys laid over them. -/
def laidOver (base : Nat) (defaults : List Nat) (kv : List (Nat × Nat)) : List Nat :=
  defaults.mapIdx fun i d => ((kv.find? fun e => decide (e.1 = base + i)).map Prod.snd).getD d

/-- Media policy values at their defaults, in the order of MED_SET_POLICY (R277). -/
def medDefaults : List Nat := [0x3F000000, 0x3E800000, 8, 16, 300, 60000, 7, 10000]
/-- Link policy values at their defaults, in the order of LNK_SET_POLICY (R305). -/
def lnkDefaults : List Nat := [8, 32, 0, 5000, 16, 1000, 0, 1000]
/-- Error policy values at their defaults: scan periods in minutes and hours, residue limit (R382). -/
def errDefaults : List Nat := [10, 24, 2]
/-- Store policy values at their defaults: floor, pin limit, tier deadline, prefetch distance, idle age (R153, R156). -/
def stoDefaults : List Nat := [0, 32768, 50, 2, 24]

/-- Whether a key of item 0x000A names a policy value or a route. -/
def keyKnown (k : Nat) : Bool :=
  decide ((0x100 ≤ k ∧ k < 0x114) ∨ (0x200 ≤ k ∧ k < 0x208) ∨ (0x300 ≤ k ∧ k < 0x308) ∨ (0x400 ≤ k ∧ k < 0x403) ∨
    (0x500 ≤ k ∧ k < 0x520 ∧ k % 8 < 5) ∨ (0x80000001 ≤ k ∧ k < 0x800FFFFF))

/-- Store policy values in range (R153, R156). -/
def stoOk (v : List Nat) : Bool :=
  let g (i : Nat) : Nat := v.getD i 0
  decide (g 0 ≤ 196608 ∧ g 1 ≤ 196608 ∧ 1 ≤ g 2 ∧ g 2 ≤ 10000 ∧ g 3 ≤ 15 ∧ 1 ≤ g 4 ∧ g 4 ≤ 168)

/-- The values of item 0x000A are in range. -/
def policyItemOk (v : List Byte) : Bool :=
  let kv := keyValues v
  decide (v.length % 8 = 0) && kv.all (fun e => keyKnown e.1) && pwrOk (laidOver 0x100 pwrDefaults kv) &&
    lnkPolicyOk (laidOver 0x300 lnkDefaults kv) &&
    (List.range 4).all (fun p => stoOk (laidOver (0x500 + 8 * p) stoDefaults kv)) &&
    kv.all fun e => decide (e.1 < 0x80000000) || decide (e.2 < 64 ∧ e.2 % 32 < 24)

/-- An access table entry of 16 bytes (R452). -/
def accessOf (bs : List Byte) : Access :=
  let v := fieldAt bs 0 16
  { kind := BitVec.ofNat 4 (bits v 0 4), id := BitVec.ofNat 20 (bits v 4 20), mask := BitVec.ofNat 20 (bits v 24 20),
    rights := BitVec.ofNat 12 (bits v 48 12), admin := v.testBit 60 }

/-- The entries of an access table. -/
def accessTable (bs : List Byte) : List Access := (List.range (bs.length / 16)).map fun i => accessOf (sliceBytes bs (16 * i) 16)

/-- Each entry is well formed: a kind that R452 names, and reserved bits zero. -/
def accessShape (bs : List Byte) : Bool :=
  decide (bs.length % 16 = 0 ∧ bs.length ≤ 65536) && (List.range (bs.length / 16)).all fun i =>
    let v := fieldAt bs (16 * i) 16
    [1, 2, 3, 6].contains (bits v 0 4) && decide (bits v 44 4 = 0 ∧ v >>> 61 = 0)

/-- Module administration stays reachable: an entry for MCTP or a secure origin holds it (R453). -/
def accessKeeps (xs : List Access) : Bool := xs.any fun e => e.admin && decide (e.kind = 2 ∨ e.kind = 6)

/-- A partition of item 0x0003: 16 bytes of dies, swatch fraction and three shares. -/
def partField (v : List Byte) (p i : Nat) : Nat := fieldAt v (16 * p + i) 1

/-- Item 0x0003: disjoint dies, shares 1 to 255 of a partition that has dies, nothing for one that has none. -/
def layoutOk (v : List Byte) : Bool :=
  let dies (p : Nat) : Nat := partField v p 0
  decide (v.length = 64) && (List.range 4).any (fun p => decide (dies p ≠ 0)) &&
    (List.range 4).all (fun p =>
      decide (dies p < 16 ∧ fieldAt v (16 * p + 5) 11 = 0) &&
        (if dies p = 0 then decide (fieldAt v (16 * p) 16 = 0)
         else decide (partField v p 1 < 4 ∧ 1 ≤ partField v p 2 ∧ 1 ≤ partField v p 3 ∧ 1 ≤ partField v p 4))) &&
    (List.range 4).all fun p => (List.range 4).all fun q => decide (p = q ∨ dies p &&& dies q = 0)

/-- A mailbox binding byte: kind 0 none, 1 management core, 2 a Futis core with its die and number (R359). -/
def bindOk (b : Nat) : Bool := decide (b < 128 ∧ b % 4 < 3 ∧ (b % 4 = 2 ∨ b / 4 = 0))

/-- An item of a known id with a value of the right length and in range (R461). -/
def itemOk (id : Nat) (v : List Byte) : Bool :=
  let n := leNat v
  match id with
  | 1 => decide (v.length = 4 ∧ 1 ≤ n ∧ n < 0xFFFFF)
  | 2 => decide (v.length = 8 ∧ fieldAt v 2 1 < 2 ∧ fieldAt v 3 1 = 0 ∧ fieldAt v 4 4 < 2 ^ 20)
  | 3 => layoutOk v
  | 4 => decide (v.length = 8) && (List.range 16).all fun e => decide (bits n (4 * e) 4 < 4)
  | 5 => decide (v.length = 8 ∧ n ≤ 120000000000000)
  | 6 => decide (v.length = 4 ∧ 4 ≤ n ∧ n ≤ 64 ∧ n % 4 = 0)
  | 7 => accessShape v && accessKeeps (accessTable v)
  | 8 => decide (v.length = 32) && v.all fun b => bindOk b.toNat
  | 9 => decide (v.length = 4 ∧ n < 2)
  | 10 => policyItemOk v
  | 11 => decide (v.length % 64 = 0 ∧ v.length ≤ 960)
  | 12 => decide (v.length = 4 ∧ n < 2)
  | _ => false

/-! ## Images (R460) -/

/-- The items of a body: id, value length, value, padded to 8 bytes with zeros; none when it is malformed. -/
def parseItems : Nat → List Byte → Option (List (Nat × List Byte))
  | _, [] => some []
  | 0, _ => none
  | f + 1, bs =>
    let id := fieldAt bs 0 2
    let len := fieldAt bs 2 2
    let size := alignUp (4 + len) 8
    if bs.length < size ∨ ((bs.drop (4 + len)).take (size - 4 - len)).any (fun b => decide (b ≠ 0)) = true then none
    else (parseItems f (bs.drop size)).map fun r => (id, (bs.drop 4).take len) :: r

/-- Image limits: 1 MiB for the base, 256 KiB for an overlay. -/
def imageMax (kind : Nat) : Nat := if kind = 0 then 1048576 else 262144

/-- Bytes of the body. -/
def bodyLen (bs : List Byte) : Nat := fieldAt bs 0x10 4

/-- The items of an image for a slot of this kind; none when the image is malformed (R460, R461). -/
def imageItems (kind : Nat) (bs : List Byte) : Option (List (Nat × List Byte)) :=
  let n := bodyLen bs
  let body := (bs.drop 128).take n
  if 128 ≤ bs.length ∧ bs.length ≤ imageMax kind ∧ fieldAt bs 0 4 = 0xC0F90C28 ∧ fieldAt bs 4 1 = kind ∧
      fieldAt bs 5 3 = 0 ∧ fieldAt bs 0x14 12 = 0 ∧ fieldAt bs 0x60 32 = 0 ∧
      (bs.length = 128 + n ∨ bs.length = 128 + n + 3309) ∧ sliceBytes bs 0x20 64 = shake256 body 64 then
    match parseItems (n / 8 + 1) body with
    | some items =>
      if items.all (fun e => itemOk e.1 e.2) && decide ((items.map Prod.fst).eraseDups.length = items.length) then some items else none
    | none => none
  else none

/-- A required owner signature over the header is good (R460, R462). -/
def imageSigned (bs : List Byte) (s : State) : Bool :=
  !otpPolicy s 1 ||
    (decide (bs.length = 128 + bodyLen bs + 3309) &&
      Config.mlDsaVerify (ownerDigest s) (bs.take 128) (bs.drop (128 + bodyLen bs)))

/-! ## What is in force (R459, R461) -/

/-- The items of an image list. -/
def itemsOf (xs : List CfgImage) : List (Nat × List Byte) := ((newestImage xs).map CfgImage.items).getD []

/-- An item's value under a mask of overlays: the highest active overlay that sets it, else the base; none for the
factory default (R459). -/
def effItem (s : State) (mask : BitVec 16) (id : Nat) : Option (List Byte) :=
  let layers := (((List.range 16).reverse.filter fun i => mask.getLsbD i).map fun i => itemsOf (Tbl.getD s.sec.overlays i [])) ++
    [itemsOf s.sec.base]
  layers.findSome? fun xs => (xs.find? fun e => decide (e.1 = id)).map Prod.snd

/-- The item ids (R461). -/
def itemIds : List Nat := (List.range 12).map fun i => i + 1

/-- The items that apply to commands admitted after a change (R461). -/
def nowIds : List Nat := [2, 7, 9, 11]

/-- MODULE frames of a compute die: its quarter of the plat cache, and on C0 the dump area, the group directory of a
manager and staging while it is held (R141, R255, R329, R442). -/
def moduleFrames (s : State) (d : Nat) : Nat :=
  128 * s.media.platGiB + (if d = 0 then 256 + (if s.fabric.manager then 16 else 0) +
    (if s.sec.staging.isSome && !s.statusBit Sb.recovery then 32 else 0) else 0)

/-- The MODULE frames of the four dies set. -/
def setModuleFrames (s : State) : State :=
  foldOver [0, 1, 2, 3] (fun d acc => acc.modDie d fun x => { x with moduleFrames := moduleFrames s d }) s

/-- Partitions as item 0x0003 lays them out, or the default (R161). -/
def layoutParts (v : Option (List Byte)) : Tbl Part :=
  match v with
  | none => [(0, { Part.fresh with dies := 0xF })]
  | some v =>
    ((List.range 4).filter fun p => decide (partField v p 0 ≠ 0)).map fun p =>
      (p, { Part.fresh with
            dies := BitVec.ofNat 4 (partField v p 0), swatch := BitVec.ofNat 2 (partField v p 1)
            shareFlash := partField v p 2, shareLinks := partField v p 3, sharePool := partField v p 4 })

/-- Scan engines as item 0x0004 assigns them when that gives each partition one, else dealt in turn (R28). -/
def assignScan (v : Option (List Byte)) (s : State) : State :=
  match v with
  | none => dealScan s
  | some v =>
    let n := leNat v
    let mask (p : Nat) : BitVec 16 :=
      ((List.range 16).filter fun e => decide (bits n (4 * e) 4 = p)).foldl (fun m e => m ||| (1#16 <<< e)) 0
    let used := (List.range 16).all fun e => (s.part? (bits n (4 * e) 4)).isSome
    if used && s.parts.all fun e => decide (mask e.1 ≠ 0) then
      { s with parts := Tbl.mapVals (fun p x => { x with scan := mask p }) s.parts }
    else dealScan s

/-- Policies and routes as item 0x000A starts them (R461). -/
def startPolicies (v : Option (List Byte)) (s : State) : State :=
  let kv := keyValues (v.getD [])
  let med := laidOver 0x200 medDefaults kv
  let l := laidOver 0x300 lnkDefaults kv
  let e := laidOver 0x400 errDefaults kv
  let g (i : Nat) : Nat := l.getD i 0
  let s1 := pwrApply (laidOver 0x100 pwrDefaults kv) s
  let s2 := foldOver (List.range 24) (fun i acc =>
    if (lnkDefaults = l ∧ Tbl.has acc.links i = false) then acc
    else acc.modLink i fun x =>
      { x with minWidth := max 8 (g 0), maxWidth := g 1, powerShed := decide (g 2 = 1), shedOneIn := g 3, qCount := g 4,
               qWindow := g 5, qHold := g 6, stallUs := g 7 }) s1
  { s2 with
    media := { s2.media with pol := (medPolicyOf (med.flatMap (leBytes 4))).2 }
    errs := { s2.errs with
      swatchPeriod := 60 * clampTo 1 1440 (e.getD 0 10), idlePeriod := 3600 * clampTo 1 720 (e.getD 1 24)
      residueLimit := clampTo 1 4 (e.getD 2 2) }
    parts := Tbl.mapVals (fun p x =>
      let w := laidOver (0x500 + 8 * p) stoDefaults kv
      { x with floor := w.getD 0 0, pinLimit := w.getD 1 32768, tierMs := w.getD 2 50, prefetch := w.getD 3 2,
               idleH := w.getD 4 24 }) s2.parts
    fabric := { s2.fabric with
      routes := kv.foldl (fun t e => if 0x80000000 ≤ e.1 then Tbl.put 0 (e.1 - 0x80000000) (BitVec.ofNat 8 e.2) t else t) [] } }

/-- One item takes effect with its value, or the factory default where none is set (R461). -/
def applyItem (id : Nat) (v : Option (List Byte)) (s : State) : State :=
  let n (d : Nat) : Nat := (v.map leNat).getD d
  match id with
  | 1 => { s with sys := { s.sys with node := BitVec.ofNat 20 (n 1) } }
  | 2 =>
    let b := v.getD (List.replicate 8 0)
    setModuleFrames { s with fabric := { s.fabric with
      groupId := BitVec.ofNat 16 (fieldAt b 0 2), manager := decide (v.isSome ∧ fieldAt b 2 1 = 0)
      managerNode := BitVec.ofNat 20 (fieldAt b 4 4) } }
  | 3 => { s with parts := layoutParts v }
  | 4 => assignScan v s
  | 5 => { s with media := { s.media with reserve := n 24000000000000 } }
  | 6 => setModuleFrames { s with media := { s.media with platGiB := n 16 } }
  | 7 => { s with sec := { s.sec with access := (v.map accessTable).getD State.reset.sec.access } }
  | 8 =>
    { s with host := { s.host with mbx := (List.range 32).foldl (fun t i =>
        Tbl.put Mbx.fresh i { Tbl.getD t i Mbx.fresh with bind := BitVec.ofNat 7 (fieldAt (v.getD []) i 1) } t) s.host.mbx } }
  | 9 => { s with power := { s.power with pg25 := decide (n 0 = 1) } }
  | 10 => startPolicies v s
  | 11 =>
    let b := v.getD []
    { s with sec := { s.sec with sessionKeys := (List.range (b.length / 64)).map fun i => sliceBytes b (64 * i) 64 } }
  | 12 => { s with sec := { s.sec with n4 := decide (n 0 = 1) } }
  | _ => s

/-- Items of a list take the values in force now, and stand as applied. -/
def applyItems (ids : List Nat) (s : State) : State :=
  foldOver ids (fun id acc =>
    let v := effItem acc acc.sec.active id
    let s1 := applyItem id v acc
    { s1 with sec := { s1.sec with applied := match v with
      | some x => Tbl.set id x s1.sec.applied
      | none => Tbl.erase id s1.sec.applied } }) s

/-- Cast-on step 1 reads base and overlays: every item is applied, defaults included (R411, R461). -/
def castConfig (s : State) : State := applyItems [1, 2, 3, 4, 5, 6, 7, 8, 9, 10, 11, 12] s

/-- A changed set of images takes effect for the items marked "now"; a changed group item is logged (R329, R461). -/
def changeNow (before : Nat → Option (List Byte)) (s : State) : State :=
  let ids := nowIds.filter fun id => decide (before id ≠ effItem s s.sec.active id)
  let s1 := applyItems ids s
  if 2 ∈ ids then logHw Lc.configChanged [2] s1 else s1

/-! ## Configuration commands (R453, R462) -/

/-- The raw bytes of a slot as CFG_READ returns them, with the slot's generation. -/
def imageBytes (x : CfgImage) : List Byte := (x.raw.take 8) ++ leBytes 8 x.gen ++ x.raw.drop 16

/-- The running item values: id, length, flags (bit 0 a reset item that is pending, bit 1 factory default), value, padded
to 8 bytes (log 26). -/
def runningItems (s : State) : List Byte :=
  itemIds.flatMap fun id =>
    let v := (Tbl.get? s.sec.applied id).getD []
    let pend := decide (effItem s s.sec.active id ≠ Tbl.get? s.sec.applied id)
    padTo 8 (leBytes 2 id ++ leBytes 2 v.length ++
      leBytes 4 ((if pend then 1 else 0) + (if Tbl.has s.sec.applied id then 0 else 2)) ++ v)

/-- Check of CFG_READ: p0 0 base, 1 to 16 overlay 0 to 15, 17 the running values (log 26). -/
def cfgReadCheck (c : Capsule) (_s : State) : Verdict := must (decide (c.p0.toNat ≤ 17 ∧ c.length.toNat ≤ 1048576)) St.badParam

/-- CFG_READ (R462). -/
def cfgReadStart (n : Nat) (s : State) : State :=
  match s.live? n with
  | none => s
  | some l =>
    let k := l.c.p0.toNat
    let bs := if k = 17 then runningItems s
      else ((newestImage (if k = 0 then s.sec.base else Tbl.getD s.sec.overlays (k - 1) [])).map imageBytes).getD []
    succeed n 0 (oneSegment ((bs.drop l.c.offset.toNat).take l.c.length.toNat)) s

/-- Check of CFG_WRITE: p0 names the image, whose bytes are the data. -/
def cfgWriteCheck (c : Capsule) (_s : State) : Verdict :=
  must (decide (c.p0.toNat ≤ 16 ∧ 128 ≤ c.dataLen.toNat ∧ c.dataLen.toNat ≤ imageMax c.p0.toNat)) St.badParam

/-- A slot pair with a new image: it takes the place of the older one, with the next generation (R462). -/
def pushImage (items : List (Nat × List Byte)) (raw : List Byte) (xs : List CfgImage) : List CfgImage :=
  let gen := ((newestImage xs).map CfgImage.gen).getD 0 + 1
  let x : CfgImage := { gen := gen, items := items, raw := raw }
  (xs ++ [x]).drop (xs.length - 1)

/-- The item ids whose values differ between two item lists. -/
def changedIds (a b : Nat → Option (List Byte)) : List Nat := itemIds.filter fun id => decide (a id ≠ b id)

/-- A CFG_WRITE takes effect (R462). -/
def cfgWriteNow (n : Nat) (data : List Byte) (s : State) : State :=
  match s.live? n with
  | none => s
  | some l =>
    let k := l.c.p0.toNat
    match imageItems k data with
    | none => fail n St.badParam 0 s
    | some items =>
      if !imageSigned data s then fail n St.signatureInvalid 0 s
      else
        let before := effItem s s.sec.active
        let old := itemsOf (if k = 0 then s.sec.base else Tbl.getD s.sec.overlays (k - 1) [])
        let find (xs : List (Nat × List Byte)) (id : Nat) : Option (List Byte) := (xs.find? fun e => decide (e.1 = id)).map Prod.snd
        let s1 : State :=
          if k = 0 then { s with sec := { s.sec with base := pushImage items data s.sec.base } }
          else
            let xs := Tbl.set (k - 1) (pushImage items data (Tbl.getD s.sec.overlays (k - 1) [])) s.sec.overlays
            { s with sec := { s.sec with overlays := xs } }
        let s2 := addLog (if k = 0 then Lc.configChanged else Lc.overlayChanged) (originWord l.c.origin) noUnit 0
          (k :: changedIds (find old) (find items)) s1
        succeed n 0 [] (changeNow before s2)

/-- Check of CFG_SELECT: p0 is a mask of at most four overlays (R462). -/
def cfgSelectCheck (c : Capsule) (_s : State) : Verdict :=
  must (decide (c.p0.toNat < 65536 ∧ ((List.range 16).filter fun i => c.p0.getLsbD i).length ≤ 4)) St.badParam

/-- A CFG_SELECT takes effect (R462). -/
def cfgSelectNow (n : Nat) (s : State) : State :=
  match s.live? n with
  | none => s
  | some l =>
    let m : BitVec 16 := BitVec.ofNat 16 l.c.p0.toNat
    let bad := ((List.range 16).filter fun i => m.getLsbD i).any fun i =>
      (newestImage (Tbl.getD s.sec.overlays i [])).any fun x => !imageSigned x.raw s
    if bad then fail n St.signatureInvalid 0 s
    else
      let before := effItem s s.sec.active
      let s1 : State := { s with sec := { s.sec with active := m } }
      let s2 := addLog Lc.overlayChanged (originWord l.c.origin) noUnit 0 (m.toNat :: changedIds before (effItem s m)) s1
      succeed n 0 [] (changeNow before s2)

/-- A configuration command that arrives during a commit waits for its step C6 (R462). -/
def cfgOrWait (n : Nat) (go : State → State) (s : State) : State :=
  if s.sec.commitStep = 0 then go s
  else
    let s1 := s.modLive n fun x => { x with phase := .running }
    { s1 with sec := { s1.sec with waitingCfg := s1.sec.waitingCfg ++ [n] } }

/-- CFG_WRITE's data has landed. -/
def cfgWriteLanded (n : Nat) (s : State) : State :=
  match s.live? n with
  | none => s
  | some l => cfgOrWait n (cfgWriteNow n l.data) s

/-- CFG_SELECT starts. -/
def cfgSelectStart (n : Nat) (s : State) : State := cfgOrWait n (cfgSelectNow n) s

/-- Check of CFG_SET_ACCESS: up to 4,096 entries. -/
def cfgAccessCheck (c : Capsule) (_s : State) : Verdict :=
  must (decide (c.dataLen.toNat % 16 = 0 ∧ c.dataLen.toNat ≤ 65536)) St.badParam

/-- CFG_SET_ACCESS takes effect now: the table is replaced (R453). -/
def cfgAccessNow (n : Nat) (data : List Byte) (s : State) : State :=
  match s.live? n with
  | none => s
  | some l =>
    if !accessShape data then fail n St.violation 0 s
    else if !accessKeeps (accessTable data) then fail n St.notPermitted 0 s
    else
      succeed n 0 [] (addLog Lc.accessChanged (originWord l.c.origin) noUnit 0 [data.length / 16]
        { s with sec := { s.sec with access := accessTable data } })

/-- CFG_SET_ACCESS's data has landed. -/
def cfgAccessLanded (n : Nat) (s : State) : State :=
  match s.live? n with
  | none => s
  | some l => cfgOrWait n (cfgAccessNow n l.data) s

/-- The configuration commands that waited for a commit, in admission order (R462). -/
def runWaitingCfg (s : State) : State :=
  foldOver s.sec.waitingCfg (fun n acc =>
    match acc.live? n with
    | none => acc
    | some l =>
      if l.op = 0x0621 then cfgWriteNow n l.data acc
      else if l.op = 0x0622 then cfgSelectNow n acc
      else cfgAccessNow n l.data acc) { s with sec := { s.sec with waitingCfg := [] } }

end Sys2Proof.Machine
end

