-- ==== Sys2Proof/Machine/Caston.lean ====
section
/-! DEFINITION. Supplies, the clock monitor, cast-on and the clean shutdown (R408 to R414, R420 to R425). -/

namespace Sys2Proof.Machine

/-! ## Supplies (R408 to R410) -/

/-- AUX_POWER_UP: module time and log sequence numbers start afresh; the management island runs from the oscillator
(R409). -/
def auxUp (s : State) : State :=
  if s.sys.aux then s
  else
    let r := State.reset
    { s with
      sys := { r.sys with
        main := s.sys.main, refclk := s.sys.refclk, status := 0x10, castStep := 0, castOns := s.sys.castOns,
        stepping := s.sys.stepping, dataOn := false, pcieUp := false, slotId := s.sys.slotId,
        flushed := s.sys.flushed, cleanMark := s.sys.cleanMark, node := s.sys.node }
      log := { r.log with lasting := s.log.lasting }
      host := r.host
      rcv := { r.rcv with summaries := s.rcv.summaries, region := s.rcv.region, nextDump := s.rcv.nextDump }
      sec := { s.sec with commitStep := 0, waitingCfg := [], staging := none, spdm := [], replies := [] } }

/-- AUX_POWER_LOSS: with 48 V present staging is flushed from the hold-up store; nothing runs from here (R408, R409). -/
def auxLoss (s : State) : State :=
  if s.sys.aux then
    let s1 := if s.sys.main && s.sys.dataOn then flushStaging s else s
    let s2 := loseWork s1
    { s2 with
      links := Tbl.mapVals (fun _ x => cutLink false x) s2.links
      sys := { s2.sys with
        aux := false, dataOn := false, status := 0, degraded := [], castStep := 0, stepFailed := false, faultPin := false,
        pwrCycleReq := none, pcieUp := false, off := false, offAsked := false, shutdownAt := none, thermalOff := false,
        tripLatched := false, cycled := false, i3cAddr := none } }
  else s

/-- The 48 V input is lost: the flush of R261, and everything outside the management island is off. Cast-on waits at step
2, unless step 1 or recovery is under way or a thermal shutdown stands (R261, R408, R410, R429). -/
def mainLost (s : State) : State :=
  if !s.sys.main then s
  else
    let s0 : State := { s with sys := { s.sys with main := false } }
    if !s.sys.aux then s0
    else
      let s1 := logHw Lc.mainPowerLost [] (undegrade .supplyLow s0)
      let s2 := if s.sys.dataOn then diesOff (flushStaging s1) else s1
      let asked := s.sys.pwrCycleReq.isSome
      let s3 : State :=
        { s2 with
          sys := { s2.sys with pwrCycleReq := none, cycled := s2.sys.cycled || asked }
          rcv := { s2.rcv with whole := none } }
      if decide (s.sys.castStep.toNat < 2) || s.sys.thermalOff || s.statusBit Sb.recovery then s3 else castFrom 2 s3

/-- MAIN_POWER_FAIL: below 36 V for 2 µs (R261, R410). -/
def mainFail (mv held : Nat) (s : State) : State := if mv < 36000 ∧ 2000 ≤ held then mainLost s else s

/-- SUPPLY_OVERVOLTAGE: above 66 V for 10 µs the converter opens (R410). -/
def overVoltage (mv held : Nat) (s : State) : State := if 66000 < mv ∧ 10000 ≤ held then mainLost s else s

/-- The always-on sequencer resets the management complex after a power cycle it asked for (R400, R410). -/
def afterCycle (s : State) : State :=
  let s1 := resetFunction resetKindModule false s
  castFrom 1
    { s1 with
      host := { s1.host with mbx := Tbl.mapVals (fun _ m => { Mbx.fresh with bind := m.bind }) s1.host.mbx }
      sec := { s1.sec with commitStep := 0, waitingCfg := [] }
      rcv := { s1.rcv with area := [] }
      sys := { s1.sys with lastReset := 2, cycled := false, thermalOff := false, tripLatched := false, dataFenced := false } }

/-- MAIN_POWER_RETURN: 48 V is in range again: cast-on runs from step 2, or from step 1 after a power cycle that the
module asked for (R400, R410). -/
def mainReturn (mv : Nat) (s : State) : State :=
  if mv < 36000 ∨ 66000 < mv then s
  else
    let low (s : State) : State := if 40000 ≤ mv then undegrade .supplyLow s else s
    if s.sys.main then (if s.sys.aux then low s else s)
    else
      let s1 : State := { s with sys := { s.sys with main := true } }
      if !s.sys.aux then s1
      else if s.sys.cycled then refreshFenced (afterCycle { s1 with sys := { s1.sys with dataOn := true } })
      else if s.sys.thermalOff || s.statusBit Sb.recovery then s1
      else { s1 with sys := { s1.sys with dataOn := true, castAt := s.sys.time } }

/-- The last log of a supply condition was a minute ago or more. -/
def minuteOver (last : Option Nat) (now : Nat) : Bool :=
  match last with
  | some t => decide (t + 60000000000 ≤ now)
  | none => true

/-- SUPPLY_LOW: 36 V to 40 V (R410). -/
def supplyLow (mv : Nat) (s : State) : State :=
  if s.sys.aux && s.sys.main && decide (36000 ≤ mv ∧ mv < 40000) then
    let s1 := degrade .supplyLow s
    if minuteOver s.sys.lowLogged s.sys.time then
      logHw Lc.supplyLow [mv] { s1 with sys := { s1.sys with lowLogged := some s.sys.time } }
    else s1
  else s

/-- SUPPLY_HIGH: 60 V to 66 V (R410). -/
def supplyHigh (mv : Nat) (s : State) : State :=
  if s.sys.aux && s.sys.main && decide (60000 < mv ∧ mv ≤ 66000) && minuteOver s.sys.highLogged s.sys.time then
    logHw Lc.supplyHigh [mv] { s with sys := { s.sys with highLogged := some s.sys.time } }
  else s

/-- SUPPLY_LOW (R410). -/
def execSupplyLow (millivolt t : Nat) (s : State) : Host.Outcome State Fault Refusal := .next (supplyLow millivolt (s.tick t))
/-- SUPPLY_HIGH (R410). -/
def execSupplyHigh (millivolt t : Nat) (s : State) : Host.Outcome State Fault Refusal := .next (supplyHigh millivolt (s.tick t))

/-! ## Cast-on (R411 to R414) -/

/-- CAST_ON: cast-on starts once 3.3 V and REFCLK are there and the management domain has left the oscillator (R408, R409,
R411). -/
def castOn (s : State) : State :=
  if s.sys.aux && s.sys.refclk && !s.statusBit Sb.safeClock && decide (s.sys.castStep = 0) then castFrom 1 s else s

/-- CAST_ON (R411). -/
def execCastOn (t : Nat) (s : State) : Host.Outcome State Fault Refusal := .next (castOn (s.tick t))

/-- Cast-on stops: step_failed, FAULT#, CAST_ON_FAILED with the step and the unit (R413, R474). -/
def castStops (unit : Word) (s : State) : State :=
  let s1 := addLog Lc.castOnFailed 0x50000000 unit 0 [s.sys.castStep.toNat] { s with sys := { s.sys with stepFailed := true } }
  drivePins (setStatus Sb.castOnBusy false s1)

/-- The boot ROM enters recovery: the commit block is erased, and staged data is awaited (R413, R445). -/
def enterRecovery (s : State) : State :=
  let s1 := countErase 1024 (s.modCfl fun c => { c with mem := cflErased 0x4000000 cflBlock c.mem })
  let s2 : State :=
    { s1 with
      sec := { s1.sec with committed := none, recoveryNext := 0, staging := none }
      sys := { s1.sys with castStep := 1, stepFailed := true } }
  drivePins (logHw Lc.recoveryEntered [] (setStatus Sb.castOnBusy false (setStatus Sb.recovery true s2)))

/-- Conditions that hold degraded set across a cast-on: those that the repair record, the fabric of the module or the
supplies keep; the others are found afresh. -/
def lasting : Degrade → Bool
  | .link _ => false
  | .die _ => false
  | .config => false
  | .holdup => false
  | _ => true

/-- Step 1 ends: the committed bundle runs, and base and overlays are read (R411, R413, R443). -/
def stepBoot (found : List StepResult) (s : State) : State :=
  match s.sec.committed with
  | none => enterRecovery s
  | some b =>
    if StepResult.imageFailed ∈ found then enterRecovery s
    else
      let keep := s.sys.degraded.filter lasting
      let s1 : State :=
        { s with
          sec := { s.sec with running := b }
          sys := { s.sys with castStep := 2, degraded := keep, dataOn := s.sys.main }
          dies := Tbl.mapVals (fun _ x => { x with dead := false }) s.dies }
      castConfig (setStatus Sb.degraded (!keep.isEmpty) (setStatus Sb.recovery false s1))

/-- A compute die is out of service: its partitions go on without it, and one left with no die is not created (R413). -/
def dieFails (d : Nat) (s : State) : State :=
  let s1 := degrade (.die d) (s.modDie d fun x => { x with dead := true })
  let m : BitVec 4 := 1#4 <<< d
  { s1 with parts := Tbl.keep (fun _ p => decide (p.dies ≠ 0)) (Tbl.mapVals (fun _ p => { p with dies := p.dies &&& ~~~m }) s1.parts) }

/-- One light die fails: its links are FAILED (R413). -/
def lightFails (l : Nat) (s : State) : State :=
  foldOver ((List.range 12).map fun i => 12 * l + i) (fun i acc =>
    setLinkSt i .failed (degrade (.link i) acc)) s

/-- A failure that a step found takes effect (R371, R376, R413). -/
def stepFinding (r : StepResult) (s : State) : State :=
  let k := s.sys.castStep.toNat
  match r with
  | .computeDieFailed d => if 2 ≤ k ∧ k ≤ 4 then dieFails d.val s else s
  | .stackFailed x =>
    if k = 4 then degrade (.die (8 + x.val)) (s.modDie (x.val / 2) fun y => { y with retired := y.retired + 24576 }) else s
  | .lightDieFailed l => if k = 2 ∨ k = 3 then lightFails l.val s else s
  | .checkerFailed u => if k = 5 then retireFor u (logUnit Lc.checkerFail u [] s) else s
  | .channelFailed ch again =>
    if k ≠ 7 then s
    else if again then retireFor (.channel ch) s
    else
      degrade (.unit (.channel ch)) { s with media := { s.media with
        slowChannels := if ch.val ∈ s.media.slowChannels then s.media.slowChannels else s.media.slowChannels ++ [ch.val] } }
  | _ => s

/-- A failure that stops cast-on: M0's data blocks, M1 or both light dies in steps 2 and 3, the journal in step 8 (R413). -/
def stepStops (k : Nat) (found : List StepResult) : Bool :=
  ((decide (k = 2 ∨ k = 3)) &&
    (decide (StepResult.fatalDieFailed ∈ found) ||
      (decide (StepResult.lightDieFailed 0 ∈ found) && decide (StepResult.lightDieFailed 1 ∈ found)))) ||
    (decide (k = 8) && decide (StepResult.journalFailed ∈ found))

/-- The self-test record of a die in the N4 layout (R378); its counts are free values. -/
def selfTestOf (s : State) (d : Nat) : List Byte :=
  leBytes 4 (Config.freeNat (s.free + 4 * d)) ++ leBytes 4 (Config.freeNat (s.free + 4 * d + 1)) ++
    leBytes 4 (Config.freeNat (s.free + 4 * d + 2)) ++ leBytes 4 (Config.freeNat (s.free + 4 * d + 3)) ++
    leBytes 1 d ++ List.replicate 7 0 ++ leBytes 8 s.sys.time ++ List.replicate 32 0

/-- Work of a step besides its findings: the dump is copied after HBM training, the repair record and the self-test of
step 5 (R373, R378, R405, R411). -/
def stepWork (k : Nat) (s : State) : State :=
  if k = 4 then copyDump s
  else if k = 5 then
    let s1 : State := { s with errs := { s.errs with remaps := s.errs.repair.1, retired := s.errs.repair.2, selfTest := [] } }
    if s.sec.n4 then
      { s1 with free := s.free + 32, errs := { s1.errs with selfTest := (List.range 8).map fun d => (d, selfTestOf s d) } }
    else s1
  else s

/-- Cast-on ends: ready is set, fences are lifted, and the deadlines of held commands run from here (R411, R412, R414,
R425). -/
def castEnds (s : State) : State :=
  let now := s.sys.time
  let s1 : State :=
    { s with
      sys := { s.sys with castStep := 0xF, cleanMark := false, flushed := false }
      parts := Tbl.mapVals (fun _ p => { p with fencedAt := none }) s.parts
      dies := (List.range 4).foldl (fun t d =>
        let x := s.die d
        Tbl.set d { x with idleAt := some now, pstate := .run, wakingAt := none } t) s.dies
      cmds := Tbl.mapVals (fun _ l => { l with admitted := if l.open then now else l.admitted, grantAt := now }) s.cmds }
  setStatus Sb.ready true (setStatus Sb.castOnBusy false (refreshFenced s1))

/-- CAST_ON_STEP_END: the running step ends with what it found, and the next begins or ready is set (R411, R413). -/
def castStepEnd (found : List StepResult) (s : State) : State :=
  let k := s.sys.castStep.toNat
  if !s.statusBit Sb.castOnBusy || s.sys.stepFailed || decide (k = 0 ∨ 8 < k) || (decide (k ≠ 1) && !s.sys.dataOn) then s
  else if k = 1 then stepBoot found s
  else if stepStops k found then castStops noUnit s
  else
    let s1 := stepWork k (foldOver found stepFinding s)
    if k = 8 then castEnds s1 else { s1 with sys := { s1.sys with castStep := BitVec.ofNat 4 (k + 1) } }

/-! ## The clock monitor (R420 to R422) -/

/-- REFCLK_LOST: the oscillator takes over, data domains are fenced, links are down, the function is reset, and staging is
written while the PLLs hold (R420, R421). -/
def refclkLost (quiet off : Nat) (s : State) : State :=
  if s.sys.aux && s.sys.refclk && decide (s.sys.castStep ≠ 0) && decide (40 ≤ quiet ∨ 20000 < off) then
    let s1 := logHw Lc.refclkLost [] { s with sys := { s.sys with refclk := false, dataFenced := true } }
    let s2 := resetFunction resetKindModule true (allLinksDown downControl false (setStatus Sb.safeClock true s1))
    let s3 := if s.sys.dataOn then loseWork (flushStaging s2) else s2
    refreshFenced { s3 with links := Tbl.mapVals (fun _ x => cutLink true x) s3.links }
  else s

/-- REFCLK_RESTORED: stable for 100 ms, the module leaves safe mode through a module reset (R399, R422). -/
def refclkRestored (stable : Nat) (s : State) : State :=
  if s.sys.aux && s.statusBit Sb.safeClock && decide (s.sys.castStep ≠ 0) && decide (100000000 ≤ stable) then
    let s1 := logHw Lc.refclkRestored [] (setStatus Sb.safeClock false { s with sys := { s.sys with refclk := true } })
    startModuleReset 4 false false Lc.refclkRestored s1
  else s

/-- REFCLK_LOCK: stable for 10 ms before step 1, the management domain switches to the PLL (R409). -/
def refclkLock (stable : Nat) (s : State) : State :=
  if s.sys.aux && s.statusBit Sb.safeClock && decide (s.sys.castStep = 0) && decide (10000000 ≤ stable) then
    setStatus Sb.safeClock false { s with sys := { s.sys with refclk := true } }
  else s

/-- REFCLK_LOCK (R409). -/
def execRefclkLock (stableNs : Nat) (s : State) : Host.Outcome State Fault Refusal := .next (refclkLock stableNs s)

/-! ## Clean shutdown (R425) -/

/-- Step D3: the dies are powered off with a clean mark (R425). -/
def shutdownEnds (s : State) : State :=
  let s1 := diesOff (allLinksDown downControl true s)
  logHw Lc.shutdownClean [] { s1 with sys := { s1.sys with off := true, offAsked := false, shutdownAt := none, cleanMark := true } }

/-- Step D1 of a shutdown has ended: every partition's admitted commands have ended, 10 ms after its fence. -/
def drained (s : State) : Bool :=
  (s.parts.all fun e => e.2.fencedAt.any fun t => decide (t + 10000000 ≤ s.sys.time)) &&
    !s.cmds.any fun e => e.2.open && (List.range 4).any fun p => partWork p e.2

/-- A shutdown goes on: D2 begins when the partitions are drained, and D3 when nothing absorbed is left to destage
(R425). -/
def shutdownGoesOn (s : State) : State :=
  if s.sys.offAsked then
    let s1 : State :=
      if s.sys.shutdownAt.isNone && drained s then { s with sys := { s.sys with shutdownAt := some s.sys.time } } else s
    if s1.sys.shutdownAt.isSome && s1.vols.all fun e => e.2.absorbed.isEmpty then shutdownEnds s1 else s1
  else s

/-- SHUTDOWN_DRAIN_TIMEOUT: D2 has not ended 60 s after D1; staging is flushed and no clean mark is written (R425). -/
def shutdownTimeout (s : State) : State :=
  match s.sys.shutdownAt with
  | none => s
  | some t =>
    if t + 60000000000 ≤ s.sys.time then
      let s1 := diesOff (flushStaging s)
      { s1 with sys := { s1.sys with off := true, offAsked := false, shutdownAt := none, cleanMark := false } }
    else s

/-- PWR_SET_STATE: a die is forced to a state; the module is shut down, or leaves OFF with cast-on from step 2 (R425,
R430). -/
def pwrStateStart (n : Nat) (s : State) : State :=
  match s.live? n with
  | none => s
  | some l =>
    if l.c.p0.toNat < 4 then forceDie n l.c s
    else
      let s1 := succeed n 0 [] (addLog Lc.policyChanged (originWord l.c.origin) noUnit 0 [0x0672, 4, l.c.p1.toNat] s)
      if l.c.p1 = 1 then
        if s.sys.off || s.sys.offAsked then s1
        else
          let s2 : State := { s1 with sys := { s1.sys with offAsked := true } }
          foldOver (s2.parts.map Prod.fst) bindOff s2
      else if s.sys.off then
        { castFrom 2 s1 with sys := { (castFrom 2 s1).sys with dataOn := s.sys.main } }
      else s1

end Sys2Proof.Machine
end

