-- ==== Sys2Proof/Machine/Protocol.lean ====
section
/-! DEFINITION. Which checks, start and completion of request data each opcode has, commands that waited and may go on,
grants, and the units and packets that bring commands in (chapters 12 and 13). -/

namespace Sys2Proof.Machine

/-! ## The opcodes -/

/-- A command that needs request data: what it does at its start, and what it does once all its data has landed; a
command without data goes on at once. -/
def withData (pre landed : Nat → State → State) (n : Nat) (s : State) : State :=
  match s.live? n with
  | none => s
  | some l => if l.c.dataLen = 0 then landed n s else pre n s

/-- Nothing happens at the start besides the wait for data. -/
def awaitData (_n : Nat) (s : State) : State := s

/-- A structural scan whose outcome nothing reports here has a free outcome (R377, R381). -/
def freeScan (f : Bool → Nat → State → State) (s : State) : State :=
  f (decide (Config.freeNat s.free % 2 = 1)) (Config.freeNat (s.free + 1)) { s with free := s.free + 2 }

/-- Units of a dump that nothing reports as readable or not: a free choice (R403). -/
def freeUnreadable (c : Capsule) (s : State) : List HwUnit :=
  ((dumpNamed c).filterMap id).mapIdx (fun i u => (i, u)) |>.filterMap fun e =>
    if Config.freeNat (s.free + e.1) % 2 = 1 then some e.2 else none

/-- RCV_DUMP with a free choice of unreadable units. -/
def dumpFree (n : Nat) (s : State) : State :=
  match s.live? n with
  | none => s
  | some l => rcvDumpStart (freeUnreadable l.c s) n { s with free := s.free + 5 }

/-- The checks of an opcode's own chapter: check 9 of R317. -/
def checkOf (op : Nat) (c : Capsule) (s : State) : Verdict :=
  match op with
  | 0x0120 => parCreateCheck c s
  | 0x0121 => parDeleteCheck c s
  | 0x0122 => parSharesCheck c s
  | 0x0123 => parSwatchCheck c s
  | 0x0130 => ctxCreateCheck c s
  | 0x0131 => ctxDeleteCheck c s
  | 0x0132 => ctxSetCheck c s
  | 0x0133 => ctxNamed c s
  | 0x0134 => ctxNamed c s
  | 0x0140 => stoMapCheck c s
  | 0x0141 => stoFreeCheck c s
  | 0x0142 => stoPinCheck c s
  | 0x0143 => stoPinCheck c s
  | 0x0144 => stoBytesCheck c s
  | 0x0145 => stoBytesCheck c s
  | 0x0146 => stoFreeCheck c s
  | 0x0147 => stoQueryCheck c s
  | 0x0148 => stoPolicyCheck c s
  | 0x0201 => volCreateCheck c s
  | 0x0202 => volDeleteCheck c s
  | 0x0210 => volDiscardCheck c s
  | 0x0220 => volReadCheck c s
  | 0x0221 => volWriteCheck c s
  | 0x0301 => colCreateCheck c s
  | 0x0302 => colDeleteCheck c s
  | 0x0303 => colSetCheck false c s
  | 0x0304 => colSetCheck true c s
  | 0x0310 => colInsertCheck c s
  | 0x0311 => colRemoveCheck c s
  | 0x0312 => colPublishCheck c s
  | 0x0320 => colQueryCheck c s
  | 0x0321 => colFetchCheck c s
  | 0x0330 => colCompactCheck c s
  | 0x0401 => shdCreateCheck c s
  | 0x0402 => shdDeleteCheck c s
  | 0x0403 => shdGroupsCheck c s
  | 0x0404 => shdCurveCheck c s
  | 0x0405 => shdImportCheck c s
  | 0x0406 => shdExportCheck c s
  | 0x0410 => shdPushCheck c s
  | 0x0411 => shdCloseCheck c s
  | 0x0412 => shdStatusCheck c s
  | 0x0420 => shdReadCheck c s
  | 0x0501 => prgLoadCheck c s
  | 0x0502 => prgRunCheck c s
  | 0x0503 => prgUnloadCheck c s
  | 0x0510 => srvOpenCheck c s
  | 0x0511 => srvSubmitCheck c s
  | 0x0512 => srvCancelCheck c s
  | 0x0513 => srvCloseCheck c s
  | 0x0520 => scnRunCheck c s
  | 0x0521 => scnNamedCheck c s
  | 0x0522 => scnNamedCheck c s
  | 0x0523 => scnNamedCheck c s
  | 0x0602 => logReadCheck c s
  | 0x0610 => fwStageCheck c s
  | 0x0611 => fwCommitCheck c s
  | 0x0612 => noCommit c s
  | 0x0613 => noCommit c s
  | 0x0620 => cfgReadCheck c s
  | 0x0621 => cfgWriteCheck c s
  | 0x0622 => cfgSelectCheck c s
  | 0x0623 => cfgAccessCheck c s
  | 0x0630 => otpWriteCheck c s
  | 0x0641 => medPolicyCheck c s
  | 0x0642 => medFormatCheck c s
  | 0x0650 => errQueryCheck c s
  | 0x0651 => errInjectCheck c s
  | 0x0660 => rcvResetCheck c s
  | 0x0662 => rcvReleaseCheck c s
  | 0x0663 => rcvDumpCheck c s
  | 0x0664 => rcvDumpReadCheck c s
  | 0x0671 => pwrPolicyCheck c s
  | 0x0672 => pwrStateCheck c s
  | 0x0710 => lnkMaskCheck 0 c s
  | 0x0711 => lnkMaskCheck 0 c s
  | 0x0712 => lnkMaskCheck 32 c s
  | 0x0713 => lnkRouteCheck c s
  | 0x0714 => lnkKeyCheck c s
  | 0x0715 => lnkControlCheck c s
  | 0x0720 => grpLookupCheck c s
  | 0x0721 => grpSetCheck c s
  | 0x0722 => grpManager s
  | 0x0740 => lseAcquireCheck c s
  | 0x0741 => lseReleaseCheck c s
  | 0x0742 => lseReadCheck c s
  | _ => none

/-- What the landing of all request data does, for the opcodes that take data. -/
def landedOf (op : Nat) : Nat → State → State :=
  match op with
  | 0x0145 => stoWriteLanded
  | 0x0201 => volCreateLanded
  | 0x0221 => volWriteLanded
  | 0x0303 => colSetLanded false
  | 0x0304 => colSetLanded true
  | 0x0310 => colInsertLanded
  | 0x0311 => colRemoveLanded
  | 0x0320 => colQueryLanded
  | 0x0321 => colFetchLanded
  | 0x0403 => shdGroupsLanded
  | 0x0404 => shdCurveLanded
  | 0x0410 => shdPushLanded
  | 0x0520 => scnRunLanded
  | 0x0610 => fwStageLanded
  | 0x0621 => cfgWriteLanded
  | 0x0623 => cfgAccessLanded
  | 0x0630 => otpWriteLanded
  | 0x0641 => medPolicyLanded
  | 0x0651 => errInjectLanded
  | 0x0671 => pwrPolicyLanded
  | 0x0712 => lnkPolicyLanded
  | 0x0713 => lnkRouteLanded
  | 0x0714 => lnkKeyLanded
  | 0x0721 => grpSetLanded
  | _ => awaitData

/-- What an opcode does when its command starts. -/
def startOf (op : Nat) : Nat → State → State :=
  match op with
  | 0x0120 => parCreateStart
  | 0x0121 => parDeleteStart
  | 0x0122 => parSharesStart
  | 0x0123 => parSwatchStart
  | 0x0124 => parQueryStart
  | 0x0130 => ctxCreateStart
  | 0x0131 => ctxDeleteStart
  | 0x0132 => ctxSetStart
  | 0x0133 => ctxCountersStart
  | 0x0134 => ctxQueryStart
  | 0x0140 => stoMapStart
  | 0x0141 => stoUnmapStart
  | 0x0142 => stoPinStart
  | 0x0143 => stoUnpinStart
  | 0x0144 => stoReadStart
  | 0x0146 => stoDiscardStart
  | 0x0147 => stoQueryStart
  | 0x0148 => stoPolicyStart
  | 0x0201 => withData awaitData volCreateStart
  | 0x0202 => volDeleteStart
  | 0x0203 => volQueryStart
  | 0x0210 => volDiscardStart
  | 0x0211 => volFlushStart
  | 0x0220 => volReadStart
  | 0x0221 => withData volWriteStart volWriteLanded
  | 0x0301 => colCreateStart
  | 0x0302 => colDeleteStart
  | 0x0312 => colPublishStart
  | 0x0330 => colCompactStart
  | 0x0331 => colStatusStart
  | 0x0401 => shdCreateStart
  | 0x0402 => shdDeleteStart
  | 0x0405 => shdImportStart
  | 0x0406 => shdExportStart
  | 0x0411 => fun n s => shdCloseStart ((s.live? n).any fun l => decide (l.c.p1 = 1)) n s
  | 0x0412 => shdStatusStart
  | 0x0420 => shdReadStart
  | 0x0501 => prgLoadStart
  | 0x0502 => prgRunStart
  | 0x0503 => prgUnloadStart
  | 0x0510 => srvOpenStart
  | 0x0511 => srvSubmitStart
  | 0x0512 => srvCancelStart
  | 0x0513 => srvCloseStart
  | 0x0521 => scnCancelStart
  | 0x0522 => scnStatusStart
  | 0x0523 => scnCreditStart
  | 0x0601 => identifyStart
  | 0x0602 => logReadStart
  | 0x0610 => withData fwStageStart fwStageLanded
  | 0x0611 => fwCommitStart
  | 0x0612 => fwAbortStart
  | 0x0613 => fwQueryStart
  | 0x0620 => cfgReadStart
  | 0x0622 => cfgSelectStart
  | 0x0640 => medWearStart
  | 0x0642 => medFormatStart
  | 0x0650 => errQueryStart
  | 0x0652 => errPolicyStart
  | 0x0653 => fun n => freeScan fun passes _ s => errReinstateStart passes n s
  | 0x0654 => fun n => freeScan fun passes pattern s => errScanStart passes pattern n s
  | 0x0660 => rcvResetStart
  | 0x0661 => rcvQueryStart
  | 0x0662 => rcvReleaseStart
  | 0x0663 => dumpFree
  | 0x0664 => rcvDumpReadStart
  | 0x0670 => pwrQueryStart
  | 0x0672 => pwrStateStart
  | 0x0710 => lnkQueryStart
  | 0x0711 => lnkCountersStart
  | 0x0715 => lnkControlStart
  | 0x0720 => grpLookupStart
  | 0x0722 => grpDumpStart
  | 0x0723 => grpQueryStart
  | 0x0740 => lseAcquireStart
  | 0x0741 => lseReleaseStart
  | 0x0742 => lseReadStart
  | _ => withData awaitData (landedOf op)

/-! ## Commands that waited (R155, R170, R267, R325, R328) -/

/-- A command that has not begun, or that waited on a page or on leases, begins (again). -/
def begin' (n : Nat) (s : State) : State :=
  match s.live? n with
  | none => s
  | some l =>
    startOf l.op.toNat n (s.modLive n fun x => { x with phase := if l.c.dataLen = 0 then .running else .granting })

/-- One command that waited goes on, if what it waited for has come. -/
def settleOne (n : Nat) (s : State) : State :=
  match s.live? n with
  | none => s
  | some l =>
    let go (s : State) : State :=
      if 0 < l.c.dataLen.toNat ∧ l.granted = l.c.dataLen.toNat ∧ l.full = true then landedOf l.op.toNat n s else begin' n s
    match l.phase with
    | .ordered =>
      if l.applied then (if mustHold n l s || ackWaits s l then s else succeed n l.detail [] s)
      else if mustWait n l s then s
      else go s
    | .pages => go s
    | .recalling => go s
    | _ => s

/-- Whether a command waits for something that `settleOne` looks for. -/
def Live.waits (l : Live) : Bool := decide (l.phase = .ordered ∨ l.phase = .pages ∨ l.phase = .recalling)

/-- After an event, the commands that waited go on in admission order, epochs that are ready are published, and a
shutdown in progress goes on. -/
def settle (s : State) : State :=
  let s1 := foldOver ((s.cmds.filter fun e => e.2.waits).map Prod.fst) settleOne s
  shutdownGoesOn (publishReady s1)

/-! ## Grants and request data (R318, R319, R349) -/

/-- The decision on a command's next grant (R130, R217, R257, R318, R398). -/
def grantDecision (n : Nat) (l : Live) (s : State) : Grant :=
  let op := l.op.toNat
  if (s.part (commandPart op l.c)).fencedAt.isSome then .held
  else if 0 < l.granted then .ok s
  else if op = 0x0410 then pushGrant n l s
  else if op = 0x0221 then volGrant l s
  else .ok (mutationGrant n s)

/-- A command whose grant is refused ends; a second push from one contributor is a violation of the link it came in on,
logged with its sender (R130, R321). -/
def refuseGrant (n : Nat) (l : Live) (st : Half) (s : State) : State :=
  match l.c.origin with
  | .fabric node k => if st = St.violation then violationBy node k.val 130 (abort n st s) else abort n st s
  | _ => abort n st s

/-- RX_GRANT: a command that waits for a grant gets its next one, is refused, or is held (R318). -/
def rxGrant (n : Nat) (s : State) : State :=
  match s.live? n with
  | none => s
  | some l =>
    if l.awaits then
      match grantDecision n l s with
      | .held => s
      | .refused st => refuseGrant n l st s
      | .ok s1 => recordGrant n s1
    else s

/-- The data of a command has landed whole: it goes on. -/
def landIfFull (n : Nat) (s : State) : State :=
  match s.live? n with
  | none => s
  | some l => if l.phase = .collecting ∧ l.full = true then landedOf l.op.toNat n s else s

/-- REQUEST_DATA_READ: the request data of a packet, or of a command that another transport carries, is read whole once it
is granted; a read that fails ends the command with ST_PROTOCOL_VIOLATION and detail 4 (R349). -/
def requestDataRead (n : Nat) (data : Option (List Byte)) (s : State) : State :=
  match s.live? n with
  | none => s
  | some l =>
    let fabric := match l.c.origin with
      | .fabric _ _ => true
      | _ => false
    if fabric || !l.awaits then s
    else
      match data with
      | none => fail n St.violation 4 (stopWork n s)
      | some bs =>
        if bs.length ≠ l.c.dataLen.toNat then s
        else
          match grantDecision n l s with
          | .held => s
          | .refused st => abort n st s
          | .ok s1 =>
            landIfFull n (s1.modLive n fun x =>
              { x with granted := bs.length, landed := bs.length, segs := [(0, bs)], grantAt := s.sys.time, phase := .collecting })

/-! ## What arrives (R310, R317, R346 to R348) -/

/-- A command arrives by its opcode. -/
def deliver (op : Nat) (c : Capsule) (s : State) : State := command op c (checkOf op c) (startOf op) s

/-- A status reply of a request that the module issued (R136, R267, R298). -/
def takeReply (l : Nat) (src : BitVec 20) (tag : Half) (s : State) : State :=
  match s.fabric.issued.find? fun i => decide (i.tag = tag ∧ i.dst = src) with
  | none => violation l 298 s
  | some i =>
    if i.op = 0x0743 then
      recallAck i.info src { s with fabric := { s.fabric with issued := s.fabric.issued.filter fun y => decide (y.tag ≠ tag) } }
    else eventReply i.object.toNat i.info s

/-- A unit for this module has arrived whole (R310, R314). -/
def takeUnit (l : LinkIx) (u : Arrived) (s : State) : State :=
  let w := fieldAt u.2 0 32
  let src := BitVec.ofNat 20 (bits w 20 20)
  let tag := BitVec.ofNat 16 (bits w 88 16)
  if !unitOk u.1 u.2 then violation l.val 310 s
  else if bits w 68 4 = 0 then deliver (opcodeOf u.2) (capsuleOf (.fabric src l) u.2) s
  else if bits w 68 4 = 1 then takeReply l.val src tag s
  else if bits w 68 4 = 2 then strayReply l.val tag s
  else
    let s1 := landSegment l src tag (bits w 128 64) (sliceBytes u.2 32 (bits w 192 32)) s
    match findTag s1 (.fabric src l) tag with
    | some n => landIfFull n s1
    | none => s1

/-- SQ_ENTRY_TAKE: the next entry of a queue is taken and its packet decided (R346 to R348). -/
def takeEntry (n : QueueIx) (packet : List Byte) (s : State) : State :=
  if mayTake n.val s then
    let s1 := s.modQueue n.val fun q => { q with sqHead := (q.sqHead + 1) % q.depth }
    let c := capsuleOf (.ctlq n) packet
    let op := opcodeOf packet
    if fieldAt packet 8 1 ≠ 1 then refuse op c (St.violation, 0) s1 else deliver op c s1
  else s

end Sys2Proof.Machine
end

