-- ==== Sys2Proof/Machine/RowsCommand.lean ====
section
/-! DEFINITION. One row for each command of the module: its capsule arrives with the opcode of its row, is checked in the
order of R317, and starts (chapters 5 to 17). A row that is one form of an opcode sets the parameter that names the form.
Where a row says what a structural scan or a dump found, the command's start is given it. -/

namespace Sys2Proof.Machine

/-- STO_MAP (R144), opcode 0x0140. -/
def execStoMap (c : Capsule) (s : State) : Host.Outcome State Fault Refusal :=
  .next (settle (deliver 0x0140 c s))

/-- STO_UNMAP (R144), opcode 0x0141. -/
def execStoUnmap (c : Capsule) (s : State) : Host.Outcome State Fault Refusal :=
  .next (settle (deliver 0x0141 c s))

/-- STO_PIN (R154), opcode 0x0142. -/
def execStoPin (c : Capsule) (s : State) : Host.Outcome State Fault Refusal :=
  .next (settle (deliver 0x0142 c s))

/-- STO_UNPIN (R144), opcode 0x0143. -/
def execStoUnpin (c : Capsule) (s : State) : Host.Outcome State Fault Refusal :=
  .next (settle (deliver 0x0143 c s))

/-- STO_READ (R144), opcode 0x0144. -/
def execStoRead (c : Capsule) (s : State) : Host.Outcome State Fault Refusal :=
  .next (settle (deliver 0x0144 c s))

/-- STO_WRITE (R144), opcode 0x0145. -/
def execStoWrite (c : Capsule) (s : State) : Host.Outcome State Fault Refusal :=
  .next (settle (deliver 0x0145 c s))

/-- STO_DISCARD (R144), opcode 0x0146. -/
def execStoDiscard (c : Capsule) (s : State) : Host.Outcome State Fault Refusal :=
  .next (settle (deliver 0x0146 c s))

/-- STO_QUERY (R146), opcode 0x0147. -/
def execStoQuery (c : Capsule) (s : State) : Host.Outcome State Fault Refusal :=
  .next (settle (deliver 0x0147 c s))

/-- STO_SET_POLICY (R156), opcode 0x0148. -/
def execStoSetPolicy (c : Capsule) (s : State) : Host.Outcome State Fault Refusal :=
  .next (settle (deliver 0x0148 c s))

/-- PRG_LOAD (R67), opcode 0x0501. -/
def execPrgLoad (c : Capsule) (s : State) : Host.Outcome State Fault Refusal :=
  .next (settle (deliver 0x0501 c s))

/-- PRG_RUN (R68), opcode 0x0502. -/
def execPrgRun (c : Capsule) (s : State) : Host.Outcome State Fault Refusal :=
  .next (settle (deliver 0x0502 c s))

/-- PRG_UNLOAD (R67), opcode 0x0503. -/
def execPrgUnload (c : Capsule) (s : State) : Host.Outcome State Fault Refusal :=
  .next (settle (deliver 0x0503 c s))

/-- SHD_CREATE (R120), opcode 0x0401. -/
def execShdCreate (c : Capsule) (s : State) : Host.Outcome State Fault Refusal :=
  .next (settle (deliver 0x0401 c s))

/-- SHD_DELETE (R119), opcode 0x0402. -/
def execShdDelete (c : Capsule) (s : State) : Host.Outcome State Fault Refusal :=
  .next (settle (deliver 0x0402 c s))

/-- SHD_SET_GROUPS (R126), opcode 0x0403. -/
def execShdSetGroups (c : Capsule) (s : State) : Host.Outcome State Fault Refusal :=
  .next (settle (deliver 0x0403 c s))

/-- SHD_SET_CURVE (R127), opcode 0x0404. -/
def execShdSetCurve (c : Capsule) (s : State) : Host.Outcome State Fault Refusal :=
  .next (settle (deliver 0x0404 c s))

/-- SHD_IMPORT (R119), opcode 0x0405. -/
def execShdImport (c : Capsule) (s : State) : Host.Outcome State Fault Refusal :=
  .next (settle (deliver 0x0405 c s))

/-- SHD_EXPORT (R119), opcode 0x0406. -/
def execShdExport (c : Capsule) (s : State) : Host.Outcome State Fault Refusal :=
  .next (settle (deliver 0x0406 c s))

/-- SHD_PUSH_GRAD (R130), opcode 0x0410. -/
def execShdPushGrad (c : Capsule) (s : State) : Host.Outcome State Fault Refusal :=
  .next (settle (deliver 0x0410 c s))

/-- SHD_CLOSE_STEP_ABANDON (R131), opcode 0x0411 with p1 = 0. -/
def execShdCloseStepAbandon (c : Capsule) (s : State) : Host.Outcome State Fault Refusal :=
  .next (settle (deliver 0x0411 { c with p1 := 0 } s))

/-- SHD_CLOSE_STEP_PARTIAL (R131), opcode 0x0411 with p1 = 1. -/
def execShdCloseStepPartial (c : Capsule) (s : State) : Host.Outcome State Fault Refusal :=
  .next (settle (deliver 0x0411 { c with p1 := 1 } s))

/-- SHD_STEP_STATUS (R135), opcode 0x0412. -/
def execShdStepStatus (c : Capsule) (s : State) : Host.Outcome State Fault Refusal :=
  .next (settle (deliver 0x0412 c s))

/-- SHD_READ_WEIGHTS (R134), opcode 0x0420. -/
def execShdReadWeights (c : Capsule) (s : State) : Host.Outcome State Fault Refusal :=
  .next (settle (deliver 0x0420 c s))

/-- PAR_CREATE (R162), opcode 0x0120. -/
def execParCreate (c : Capsule) (s : State) : Host.Outcome State Fault Refusal :=
  .next (settle (deliver 0x0120 c s))

/-- PAR_DELETE (R162), opcode 0x0121. -/
def execParDelete (c : Capsule) (s : State) : Host.Outcome State Fault Refusal :=
  .next (settle (deliver 0x0121 c s))

/-- PAR_SET_SHARES (R161), opcode 0x0122. -/
def execParSetShares (c : Capsule) (s : State) : Host.Outcome State Fault Refusal :=
  .next (settle (deliver 0x0122 c s))

/-- PAR_SET_SWATCH (R163), opcode 0x0123. -/
def execParSetSwatch (c : Capsule) (s : State) : Host.Outcome State Fault Refusal :=
  .next (settle (deliver 0x0123 c s))

/-- PAR_QUERY (R161), opcode 0x0124. -/
def execParQuery (c : Capsule) (s : State) : Host.Outcome State Fault Refusal :=
  .next (settle (deliver 0x0124 c s))

/-- CTX_CREATE (R166), opcode 0x0130. -/
def execCtxCreate (c : Capsule) (s : State) : Host.Outcome State Fault Refusal :=
  .next (settle (deliver 0x0130 c s))

/-- CTX_DELETE (R168), opcode 0x0131. -/
def execCtxDelete (c : Capsule) (s : State) : Host.Outcome State Fault Refusal :=
  .next (settle (deliver 0x0131 c s))

/-- CTX_SET (R175), opcode 0x0132. -/
def execCtxSet (c : Capsule) (s : State) : Host.Outcome State Fault Refusal :=
  .next (settle (deliver 0x0132 c s))

/-- CTX_COUNTERS (R185), opcode 0x0133. -/
def execCtxCounters (c : Capsule) (s : State) : Host.Outcome State Fault Refusal :=
  .next (settle (deliver 0x0133 c s))

/-- CTX_QUERY (R165), opcode 0x0134. -/
def execCtxQuery (c : Capsule) (s : State) : Host.Outcome State Fault Refusal :=
  .next (settle (deliver 0x0134 c s))

/-- SRV_OPEN (R181), opcode 0x0510. -/
def execSrvOpen (c : Capsule) (s : State) : Host.Outcome State Fault Refusal :=
  .next (settle (deliver 0x0510 c s))

/-- SRV_SUBMIT (R181), opcode 0x0511. -/
def execSrvSubmit (c : Capsule) (s : State) : Host.Outcome State Fault Refusal :=
  .next (settle (deliver 0x0511 c s))

/-- SRV_CANCEL (R184), opcode 0x0512. -/
def execSrvCancel (c : Capsule) (s : State) : Host.Outcome State Fault Refusal :=
  .next (settle (deliver 0x0512 c s))

/-- SRV_CLOSE (R184), opcode 0x0513. -/
def execSrvClose (c : Capsule) (s : State) : Host.Outcome State Fault Refusal :=
  .next (settle (deliver 0x0513 c s))

/-- COL_CREATE (R190), opcode 0x0301. -/
def execColCreate (c : Capsule) (s : State) : Host.Outcome State Fault Refusal :=
  .next (settle (deliver 0x0301 c s))

/-- COL_DELETE (R189), opcode 0x0302. -/
def execColDelete (c : Capsule) (s : State) : Host.Outcome State Fault Refusal :=
  .next (settle (deliver 0x0302 c s))

/-- COL_SET_CODEBOOK (R194), opcode 0x0303. -/
def execColSetCodebook (c : Capsule) (s : State) : Host.Outcome State Fault Refusal :=
  .next (settle (deliver 0x0303 c s))

/-- COL_SET_PARCELS (R194), opcode 0x0304. -/
def execColSetParcels (c : Capsule) (s : State) : Host.Outcome State Fault Refusal :=
  .next (settle (deliver 0x0304 c s))

/-- COL_INSERT (R198), opcode 0x0310. -/
def execColInsert (c : Capsule) (s : State) : Host.Outcome State Fault Refusal :=
  .next (settle (deliver 0x0310 c s))

/-- COL_REMOVE (R218), opcode 0x0311. -/
def execColRemove (c : Capsule) (s : State) : Host.Outcome State Fault Refusal :=
  .next (settle (deliver 0x0311 c s))

/-- COL_PUBLISH (R217), opcode 0x0312. -/
def execColPublish (c : Capsule) (s : State) : Host.Outcome State Fault Refusal :=
  .next (settle (deliver 0x0312 c s))

/-- COL_QUERY (R205), opcode 0x0320. -/
def execColQuery (c : Capsule) (s : State) : Host.Outcome State Fault Refusal :=
  .next (settle (deliver 0x0320 c s))

/-- COL_FETCH (R215), opcode 0x0321. -/
def execColFetch (c : Capsule) (s : State) : Host.Outcome State Fault Refusal :=
  .next (settle (deliver 0x0321 c s))

/-- COL_COMPACT (R221), opcode 0x0330. -/
def execColCompact (c : Capsule) (s : State) : Host.Outcome State Fault Refusal :=
  .next (settle (deliver 0x0330 c s))

/-- COL_STATUS (R188), opcode 0x0331. -/
def execColStatus (c : Capsule) (s : State) : Host.Outcome State Fault Refusal :=
  .next (settle (deliver 0x0331 c s))

/-- SCN_RUN (R233), opcode 0x0520. -/
def execScnRun (c : Capsule) (s : State) : Host.Outcome State Fault Refusal :=
  .next (settle (deliver 0x0520 c s))

/-- SCN_CANCEL (R246), opcode 0x0521. -/
def execScnCancel (c : Capsule) (s : State) : Host.Outcome State Fault Refusal :=
  .next (settle (deliver 0x0521 c s))

/-- SCN_STATUS (R232), opcode 0x0522. -/
def execScnStatus (c : Capsule) (s : State) : Host.Outcome State Fault Refusal :=
  .next (settle (deliver 0x0522 c s))

/-- SCN_CREDIT (R239), opcode 0x0523. -/
def execScnCredit (c : Capsule) (s : State) : Host.Outcome State Fault Refusal :=
  .next (settle (deliver 0x0523 c s))

/-- VOL_CREATE (R253), opcode 0x0201. -/
def execVolCreate (c : Capsule) (s : State) : Host.Outcome State Fault Refusal :=
  .next (settle (deliver 0x0201 c s))

/-- VOL_DELETE (R267), opcode 0x0202. -/
def execVolDelete (c : Capsule) (s : State) : Host.Outcome State Fault Refusal :=
  .next (settle (deliver 0x0202 c s))

/-- VOL_QUERY (R252), opcode 0x0203. -/
def execVolQuery (c : Capsule) (s : State) : Host.Outcome State Fault Refusal :=
  .next (settle (deliver 0x0203 c s))

/-- VOL_DISCARD (R258), opcode 0x0210. -/
def execVolDiscard (c : Capsule) (s : State) : Host.Outcome State Fault Refusal :=
  .next (settle (deliver 0x0210 c s))

/-- VOL_FLUSH (R252), opcode 0x0211. -/
def execVolFlush (c : Capsule) (s : State) : Host.Outcome State Fault Refusal :=
  .next (settle (deliver 0x0211 c s))

/-- VOL_READ (R324), opcode 0x0220. -/
def execVolRead (c : Capsule) (s : State) : Host.Outcome State Fault Refusal :=
  .next (settle (deliver 0x0220 c s))

/-- VOL_WRITE (R322), opcode 0x0221. -/
def execVolWrite (c : Capsule) (s : State) : Host.Outcome State Fault Refusal :=
  .next (settle (deliver 0x0221 c s))

/-- LSE_ACQUIRE (R263), opcode 0x0740. -/
def execLseAcquire (c : Capsule) (s : State) : Host.Outcome State Fault Refusal :=
  .next (settle (deliver 0x0740 c s))

/-- LSE_RELEASE (R263), opcode 0x0741. -/
def execLseRelease (c : Capsule) (s : State) : Host.Outcome State Fault Refusal :=
  .next (settle (deliver 0x0741 c s))

/-- LSE_READ (R266), opcode 0x0742. -/
def execLseRead (c : Capsule) (s : State) : Host.Outcome State Fault Refusal :=
  .next (settle (deliver 0x0742 c s))

/-- MED_WEAR_LOG (R276), opcode 0x0640. -/
def execMedWearLog (c : Capsule) (s : State) : Host.Outcome State Fault Refusal :=
  .next (settle (deliver 0x0640 c s))

/-- MED_SET_POLICY (R277), opcode 0x0641. -/
def execMedSetPolicy (c : Capsule) (s : State) : Host.Outcome State Fault Refusal :=
  .next (settle (deliver 0x0641 c s))

/-- MED_FORMAT (R275), opcode 0x0642. -/
def execMedFormat (c : Capsule) (s : State) : Host.Outcome State Fault Refusal :=
  .next (settle (deliver 0x0642 c s))

/-- LNK_QUERY (R306), opcode 0x0710. -/
def execLnkQuery (c : Capsule) (s : State) : Host.Outcome State Fault Refusal :=
  .next (settle (deliver 0x0710 c s))

/-- LNK_COUNTERS (R307), opcode 0x0711. -/
def execLnkCounters (c : Capsule) (s : State) : Host.Outcome State Fault Refusal :=
  .next (settle (deliver 0x0711 c s))

/-- LNK_SET_POLICY (R305), opcode 0x0712. -/
def execLnkSetPolicy (c : Capsule) (s : State) : Host.Outcome State Fault Refusal :=
  .next (settle (deliver 0x0712 c s))

/-- LNK_SET_ROUTE (R301), opcode 0x0713. -/
def execLnkSetRoute (c : Capsule) (s : State) : Host.Outcome State Fault Refusal :=
  .next (settle (deliver 0x0713 c s))

/-- LNK_SET_KEY (R304), opcode 0x0714. -/
def execLnkSetKey (c : Capsule) (s : State) : Host.Outcome State Fault Refusal :=
  .next (settle (deliver 0x0714 c s))

/-- LNK_ENABLE (R305), opcode 0x0715 with p1 = 0. -/
def execLnkEnable (c : Capsule) (s : State) : Host.Outcome State Fault Refusal :=
  .next (settle (deliver 0x0715 { c with p1 := 0 } s))

/-- LNK_DISABLE (R305), opcode 0x0715 with p1 = 1. -/
def execLnkDisable (c : Capsule) (s : State) : Host.Outcome State Fault Refusal :=
  .next (settle (deliver 0x0715 { c with p1 := 1 } s))

/-- LNK_FAST_TRAINING (R305), opcode 0x0715 with p1 = 2. -/
def execLnkFastTraining (c : Capsule) (s : State) : Host.Outcome State Fault Refusal :=
  .next (settle (deliver 0x0715 { c with p1 := 2 } s))

/-- LNK_FULL_TRAINING (R305), opcode 0x0715 with p1 = 3. -/
def execLnkFullTraining (c : Capsule) (s : State) : Host.Outcome State Fault Refusal :=
  .next (settle (deliver 0x0715 { c with p1 := 3 } s))

/-- LNK_RELEASE_QUARANTINE (R308), opcode 0x0715 with p1 = 4. -/
def execLnkReleaseQuarantine (c : Capsule) (s : State) : Host.Outcome State Fault Refusal :=
  .next (settle (deliver 0x0715 { c with p1 := 4 } s))

/-- GRP_LOOKUP (R330), opcode 0x0720. -/
def execGrpLookup (c : Capsule) (s : State) : Host.Outcome State Fault Refusal :=
  .next (settle (deliver 0x0720 c s))

/-- GRP_SET (R330), opcode 0x0721. -/
def execGrpSet (c : Capsule) (s : State) : Host.Outcome State Fault Refusal :=
  .next (settle (deliver 0x0721 c s))

/-- GRP_DUMP (R330), opcode 0x0722. -/
def execGrpDump (c : Capsule) (s : State) : Host.Outcome State Fault Refusal :=
  .next (settle (deliver 0x0722 c s))

/-- GRP_QUERY (R330), opcode 0x0723. -/
def execGrpQuery (c : Capsule) (s : State) : Host.Outcome State Fault Refusal :=
  .next (settle (deliver 0x0723 c s))

/-- MGT_IDENTIFY (R463), opcode 0x0601. -/
def execMgtIdentify (c : Capsule) (s : State) : Host.Outcome State Fault Refusal :=
  .next (settle (deliver 0x0601 c s))

/-- MGT_LOG_READ (R463), opcode 0x0602. -/
def execMgtLogRead (c : Capsule) (s : State) : Host.Outcome State Fault Refusal :=
  .next (settle (deliver 0x0602 c s))

/-- FW_STAGE (R442), opcode 0x0610. -/
def execFwStage (c : Capsule) (s : State) : Host.Outcome State Fault Refusal :=
  .next (settle (deliver 0x0610 c s))

/-- FW_COMMIT (R443), opcode 0x0611. -/
def execFwCommit (c : Capsule) (s : State) : Host.Outcome State Fault Refusal :=
  .next (settle (deliver 0x0611 c s))

/-- FW_ABORT (R442), opcode 0x0612. -/
def execFwAbort (c : Capsule) (s : State) : Host.Outcome State Fault Refusal :=
  .next (settle (deliver 0x0612 c s))

/-- FW_QUERY (R441), opcode 0x0613. -/
def execFwQuery (c : Capsule) (s : State) : Host.Outcome State Fault Refusal :=
  .next (settle (deliver 0x0613 c s))

/-- CFG_READ (R462), opcode 0x0620. -/
def execCfgRead (c : Capsule) (s : State) : Host.Outcome State Fault Refusal :=
  .next (settle (deliver 0x0620 c s))

/-- CFG_WRITE (R462), opcode 0x0621. -/
def execCfgWrite (c : Capsule) (s : State) : Host.Outcome State Fault Refusal :=
  .next (settle (deliver 0x0621 c s))

/-- CFG_SELECT (R462), opcode 0x0622. -/
def execCfgSelect (c : Capsule) (s : State) : Host.Outcome State Fault Refusal :=
  .next (settle (deliver 0x0622 c s))

/-- CFG_SET_ACCESS (R453), opcode 0x0623. -/
def execCfgSetAccess (c : Capsule) (s : State) : Host.Outcome State Fault Refusal :=
  .next (settle (deliver 0x0623 c s))

/-- SEC_OTP_WRITE (R436), opcode 0x0630. -/
def execSecOtpWrite (c : Capsule) (s : State) : Host.Outcome State Fault Refusal :=
  .next (settle (deliver 0x0630 c s))

/-- ERR_QUERY (R377), opcode 0x0650. -/
def execErrQuery (c : Capsule) (s : State) : Host.Outcome State Fault Refusal :=
  .next (settle (deliver 0x0650 c s))

/-- ERR_INJECT (R377), opcode 0x0651. -/
def execErrInject (c : Capsule) (s : State) : Host.Outcome State Fault Refusal :=
  .next (settle (deliver 0x0651 c s))

/-- ERR_SET_POLICY (R382), opcode 0x0652. -/
def execErrSetPolicy (c : Capsule) (s : State) : Host.Outcome State Fault Refusal :=
  .next (settle (deliver 0x0652 c s))

/-- ERR_REINSTATE (R377), opcode 0x0653. -/
def execErrReinstate (c : Capsule) (passes : Bool) (s : State) : Host.Outcome State Fault Refusal :=
  .next (settle (command 0x0653 c (checkOf 0x0653 c) (errReinstateStart passes) s))

/-- ERR_SCAN (R377), opcode 0x0654. -/
def execErrScan (c : Capsule) (passes : Bool) (pattern : Nat) (s : State) : Host.Outcome State Fault Refusal :=
  .next (settle (command 0x0654 c (checkOf 0x0654 c) (errScanStart passes pattern) s))

/-- RCV_RESET_CONTEXT (R397), opcode 0x0660 with p0 = 0. -/
def execRcvResetContext (c : Capsule) (s : State) : Host.Outcome State Fault Refusal :=
  .next (settle (deliver 0x0660 { c with p0 := 0 } s))

/-- RCV_RESET_ENGINE (R391), opcode 0x0660 with p0 = 1. -/
def execRcvResetEngine (c : Capsule) (s : State) : Host.Outcome State Fault Refusal :=
  .next (settle (deliver 0x0660 { c with p0 := 1 } s))

/-- RCV_RESET_PARTITION (R398), opcode 0x0660 with p0 = 2. -/
def execRcvResetPartition (c : Capsule) (s : State) : Host.Outcome State Fault Refusal :=
  .next (settle (deliver 0x0660 { c with p0 := 2 } s))

/-- RCV_RESET_MODULE (R399), opcode 0x0660 with p0 = 3. -/
def execRcvResetModule (c : Capsule) (s : State) : Host.Outcome State Fault Refusal :=
  .next (settle (deliver 0x0660 { c with p0 := 3 } s))

/-- RCV_QUERY (R406), opcode 0x0661. -/
def execRcvQuery (c : Capsule) (s : State) : Host.Outcome State Fault Refusal :=
  .next (settle (deliver 0x0661 c s))

/-- RCV_RELEASE (R406), opcode 0x0662. -/
def execRcvRelease (c : Capsule) (s : State) : Host.Outcome State Fault Refusal :=
  .next (settle (deliver 0x0662 c s))

/-- RCV_DUMP_READ (R406), opcode 0x0664. -/
def execRcvDumpRead (c : Capsule) (s : State) : Host.Outcome State Fault Refusal :=
  .next (settle (deliver 0x0664 c s))

/-- RCV_DUMP (R403), opcode 0x0663. -/
def execRcvDump (c : Capsule) (unreadable : List HwUnit) (s : State) : Host.Outcome State Fault Refusal :=
  .next (settle (command 0x0663 c (checkOf 0x0663 c) (rcvDumpStart unreadable) s))

/-- PWR_QUERY (R430), opcode 0x0670. -/
def execPwrQuery (c : Capsule) (s : State) : Host.Outcome State Fault Refusal :=
  .next (settle (deliver 0x0670 c s))

/-- PWR_SET_POLICY (R427), opcode 0x0671. -/
def execPwrSetPolicy (c : Capsule) (s : State) : Host.Outcome State Fault Refusal :=
  .next (settle (deliver 0x0671 c s))

/-- PWR_SET_DIE_STATE (R430), opcode 0x0672. -/
def execPwrSetDieState (c : Capsule) (s : State) : Host.Outcome State Fault Refusal :=
  .next (settle (deliver 0x0672 c s))

/-- PWR_SET_STATE_OFF (R425), opcode 0x0672 with p0 = 4, p1 = 1. -/
def execPwrSetStateOff (c : Capsule) (s : State) : Host.Outcome State Fault Refusal :=
  .next (settle (deliver 0x0672 { c with p0 := 4, p1 := 1 } s))

/-- PWR_SET_STATE_ON (R425), opcode 0x0672 with p0 = 4, p1 = 0. -/
def execPwrSetStateOn (c : Capsule) (s : State) : Host.Outcome State Fault Refusal :=
  .next (settle (deliver 0x0672 { c with p0 := 4, p1 := 0 } s))

end Sys2Proof.Machine
end

