-- ==== Sys2Proof/Machine/RowsFabric.lean ====
section
/-! DEFINITION. Rows of search, scans, media, leases, links and request data that may end a command, and so let others go
on (chapters 8 to 13). -/

namespace Sys2Proof.Machine

/-! ## Search and scans -/

/-- The scan engine that holds a task of a command is paused: its media die is at its temperature limit (R429). -/
def enginePaused (n item : Nat) (s : State) : Bool :=
  s.scanHeld.any fun h => decide (h.2.cmd = n ∧ h.2.item = item) &&
    s.power.limited.any fun x => decide (x = Sensor.media ⟨h.1 / 8 % 2, Nat.mod_lt _ (by decide)⟩)

/-- AUTO_PUBLISH (R217). -/
def execAutoPublish (col : Word) (t : Nat) (s : State) : Host.Outcome State Fault Refusal :=
  .next (settle (autoPublish col.toNat (s.tick t)))

/-- PARCEL_SCAN_COMPLETE (R207). -/
def execParcelScanComplete (query parcel : Nat) (readable : Bool) (s : State) : Host.Outcome State Fault Refusal :=
  .next (if enginePaused query parcel s then s else settle (parcelScanned query parcel readable s))

/-- SURVIVOR_EVALUATE (R205). -/
def execSurvivorEvaluate (query : Nat) (readable : Bool) (s : State) : Host.Outcome State Fault Refusal :=
  .next (settle (survivorEvaluated query readable s))

/-- SCAN_PAGE (R228). -/
def execScanPage (scan span : Nat) (readable : Bool) (s : State) : Host.Outcome State Fault Refusal :=
  .next (if enginePaused scan span s then s else settle (scanPage scan span readable s))

/-- SPAN_COMPLETE (R236). -/
def execSpanComplete (scan span : Nat) (s : State) : Host.Outcome State Fault Refusal :=
  .next (settle (spanComplete scan span s))

/-- SCAN_SEQUENCE_FINISH (R242). -/
def execScanSequenceFinish (scan seq : Nat) (out : List Word) (s : State) : Host.Outcome State Fault Refusal :=
  .next (settle (scanSeqFinish scan seq out s))

/-- SCAN_COMPLETE (R245). -/
def execScanComplete (scan : Nat) (s : State) : Host.Outcome State Fault Refusal :=
  .next (settle (scanComplete scan s))

/-! ## Media and leases -/

/-- ABSORB_DESTAGE (R258). -/
def execAbsorbDestage (vol : Word) (s : State) : Host.Outcome State Fault Refusal :=
  .next (settle (absorbDestage vol.toNat s))

/-- LSE_RECALL_ACK: whatever the reply's status (R263, R267). -/
def execLseRecallAck (lease : Half) (node : BitVec 20) (_status : Half) (s : State) : Host.Outcome State Fault Refusal :=
  .next (settle (recallAck lease.toNat node s))

/-- LEASE_RECALL_TIMEOUT (R267). -/
def execLeaseRecallTimeout (lease : Half) (t : Nat) (s : State) : Host.Outcome State Fault Refusal :=
  .next (settle (recallTimeout lease.toNat (s.tick t)))

/-- LEASE_EXPIRY (R268). -/
def execLeaseExpiry (lease : Half) (t : Nat) (s : State) : Host.Outcome State Fault Refusal :=
  .next (settle (leaseExpiry lease.toNat (s.tick t)))

/-- WORDLINE_PROGRAM_COMPLETE (R259). -/
def execWordlineProgramComplete (g : GroupIx) (slot : Fin 16) (ok : Bool) (s : State) : Host.Outcome State Fault Refusal :=
  .next (settle (wordlineDone g.val slot.val ok s))

/-- BLOCK_ERASE_COMPLETE (R270). -/
def execBlockEraseComplete (g : GroupIx) (failed : List (Fin 16)) (s : State) : Host.Outcome State Fault Refusal :=
  .next (settle (eraseDone g.val (failed.map Fin.val) s))

/-- HOLDUP_MEASURE (R260). -/
def execHoldupMeasure (millijoule t : Nat) (s : State) : Host.Outcome State Fault Refusal :=
  .next (settle (holdupMeasure millijoule (s.tick t)))

/-! ## Links -/

/-- PAYLOAD_FLIT_RECEIVE: the units that the flit completed are taken in order (R290, R310). -/
def execPayloadFlitReceive (l : LinkIx) (flit : List Byte) (chk : FlitCheck) (s : State) : Host.Outcome State Fault Refusal :=
  let a := payloadFlit l.val flit chk s
  .next (settle (foldOver a.2 (takeUnit l) a.1))

/-- IDLE_FLIT_RECEIVE (R289). -/
def execIdleFlitReceive (l : LinkIx) (header : BitVec 128) (s : State) : Host.Outcome State Fault Refusal :=
  .next (settle (idleFlit l.val header.toNat s))

/-- LANE_CHANGE (R293). -/
def execLaneChange (l : LinkIx) (mask : Word) (firstSeq : BitVec 12) (s : State) : Host.Outcome State Fault Refusal :=
  .next (settle (laneChanged l.val mask firstSeq s))

/-- LINK_DOWN_NOTICE (R286). -/
def execLinkDownNotice (l : LinkIx) (s : State) : Host.Outcome State Fault Refusal :=
  .next (settle (linkDown l.val downNotice s))

/-- No acknowledgement progressed for 2 µs (R290). -/
def replayLate (l : Nat) (s : State) : State :=
  let k := s.link l
  if (k.st = .up ∨ k.st = .quarantined) ∧ k.ackAt + 2000 ≤ s.sys.time then replayOnce l s else s

/-- REPLAY_TIMEOUT (R290). -/
def execReplayTimeout (l : LinkIx) (t : Nat) (s : State) : Host.Outcome State Fault Refusal :=
  .next (settle (replayLate l.val (s.tick t)))

/-- No valid flit arrived for 1 µs (R286). -/
def linkIdle (l : Nat) (s : State) : State :=
  if (s.link l).flitAt + 1000 ≤ s.sys.time then linkDown l downIdle s else s

/-- LINK_IDLE_TIMEOUT (R286). -/
def execLinkIdleTimeout (l : LinkIx) (t : Nat) (s : State) : Host.Outcome State Fault Refusal :=
  .next (settle (linkIdle l.val (s.tick t)))

/-- LASER_LOSS (R292). -/
def execLaserLoss (l : LinkIx) (lam : Fin 8) (s : State) : Host.Outcome State Fault Refusal :=
  .next (settle (laserLost l.val lam.val s))

/-- RING_TRACK_TICK (R281). -/
def execRingTrackTick (l : LinkIx) (ring : Fin 64) (heaterUw : Int) (s : State) : Host.Outcome State Fault Refusal :=
  .next (settle (ringTrack l.val ring.val heaterUw s))

/-- SHED_CHECK (R292). -/
def execShedCheck (l : LinkIx) (corrected : List (Fin 32 × Nat)) (carried : Nat) (weak : Word) (t : Nat) (s : State) :
    Host.Outcome State Fault Refusal :=
  let s1 := s.tick t
  .next (settle (shedMask l.val 32 (shedFound (s1.link l.val) corrected carried weak) s1))

/-- CREDIT_STALL_TIMEOUT (R299). -/
def execCreditStallTimeout (l : LinkIx) (cls level : Fin 4) (t : Nat) (s : State) : Host.Outcome State Fault Refusal :=
  .next (settle (creditStall l.val cls.val level.val (s.tick t)))

/-- The flit counter of an encrypted link has reached 2^48 (R286, R304). -/
def keyExhausted (l : Nat) (s : State) : State :=
  let k := s.link l
  if k.encrypted = true ∧ (k.st = .up ∨ k.st = .quarantined) ∧ (281474976710656 ≤ k.flitCtr ∨ 281474976710656 ≤ k.rxCtr) then
    linkDown l downCounter (logLink Lc.linkKeyExhausted l [k.peer.toNat] s)
  else s

/-- LINK_KEY_EXHAUSTED (R304). -/
def execLinkKeyExhausted (l : LinkIx) (s : State) : Host.Outcome State Fault Refusal :=
  .next (settle (keyExhausted l.val s))

/-- PACKAGE_LINK_FAIL (R20). -/
def execPackageLinkFail (n : Fin 22) (s : State) : Host.Outcome State Fault Refusal :=
  .next (settle (packageLinkFail n.val s))

/-! ## Grants, request data and replies -/

/-- A segment lands, and a command whose data it completes goes on (R320). -/
def dataSegment (l : LinkIx) (src : BitVec 20) (tag : Half) (position : Nat) (data : List Byte) (s : State) : State :=
  let s1 := landSegment l src tag position data s
  match findTag s1 (.fabric src l) tag with
  | some n => landIfFull n s1
  | none => s1

/-- DATA_SEGMENT_RECEIVE (R320). -/
def execDataSegmentReceive (l : LinkIx) (src : BitVec 20) (tag : Half) (position : Nat) (data : List Byte) (t : Nat)
    (s : State) : Host.Outcome State Fault Refusal :=
  .next (settle (dataSegment l src tag position data (s.tick t)))

/-- RX_GRANT (R318). -/
def execRxGrant (seq : Nat) (s : State) : Host.Outcome State Fault Refusal :=
  .next (settle (rxGrant seq s))

/-- GRANT_DATA_TIMEOUT (R319). -/
def execGrantDataTimeout (seq t : Nat) (s : State) : Host.Outcome State Fault Refusal :=
  .next (settle (grantTimeout seq (s.tick t)))

/-- STRAY_REPLY_RECEIVE (R321). -/
def execStrayReplyReceive (l : LinkIx) (tag : Half) (s : State) : Host.Outcome State Fault Refusal :=
  .next (settle (strayReply l.val tag s))

/-- SQ_ENTRY_TAKE (R348). -/
def execSqEntryTake (n : QueueIx) (packet : List Byte) (s : State) : Host.Outcome State Fault Refusal :=
  .next (settle (takeEntry n packet s))

/-- REQUEST_DATA_READ (R349). -/
def execRequestDataRead (seq : Nat) (data : Option (List Byte)) (t : Nat) (s : State) : Host.Outcome State Fault Refusal :=
  .next (settle (requestDataRead seq data (s.tick t)))

end Sys2Proof.Machine
end

