-- ==== Sys2Proof/Machine/RowsModule.lean ====
section
/-! DEFINITION. Rows of errors, resets, supplies, cast-on, power, the function and the configuration flash that may end a
command, and so let others go on (chapters 13 to 17). -/

namespace Sys2Proof.Machine

/-! ## Errors -/

/-- STRUCTURAL_SCAN (R381). -/
def execStructuralScan (u : HwUnit) (passes : Bool) (pattern : Nat) (s : State) : Host.Outcome State Fault Refusal :=
  .next (settle (scanResult u passes pattern s))

/-- WORD_REMAPPED (R370). -/
def execWordRemapped (d : AllDieIx) (sram addr : Nat) (u : HwUnit) (s : State) : Host.Outcome State Fault Refusal :=
  .next (settle (wordRemapped d.val sram addr u s))

/-- FRAME_RETIRE (R372). -/
def execFrameRetire (d : DieIx) (p : PartIx) (page : Nat) (s : State) : Host.Outcome State Fault Refusal :=
  .next (settle (frameRetire d.val p.val page s))

/-! ## Hangs and resets -/

/-- WATCHDOG (R389). -/
def execWatchdog (u : HwUnit) (ns t : Nat) (s : State) : Host.Outcome State Fault Refusal :=
  .next (settle (watchdog u ns (s.tick t)))

/-- ENGINE_RESET (R391). -/
def execEngineReset (u : HwUnit) (t : Nat) (s : State) : Host.Outcome State Fault Refusal :=
  .next (settle (engineReset u false Lc.engineReset (s.tick t)))

/-- ENGINE_REOPEN (R391). -/
def execEngineReopen (u : HwUnit) (t : Nat) (s : State) : Host.Outcome State Fault Refusal :=
  .next (settle (engineReopen u (s.tick t)))

/-- SUSPECT_REPLAY (R395). -/
def execSuspectReplay (u : HwUnit) (reproduced : Bool) (s : State) : Host.Outcome State Fault Refusal :=
  .next (settle (suspectReplay u reproduced s))

/-- ESCALATION_TIMER (R401). -/
def execEscalationTimer (r : ResetTarget) (t : Nat) (s : State) : Host.Outcome State Fault Refusal :=
  .next (settle (escalate r (s.tick t)))

/-- PARTITION_RESET (R398). -/
def execPartitionReset (p : PartIx) (t : Nat) (s : State) : Host.Outcome State Fault Refusal :=
  .next (settle (partitionReset p.val Lc.partitionReset (s.tick t)))

/-- BIND_OFF_DRAIN_EXPIRY (R398). -/
def execBindOffDrainExpiry (p : PartIx) (unreadable : List HwUnit) (t : Nat) (s : State) : Host.Outcome State Fault Refusal :=
  .next (settle (bindOffDrain p.val unreadable (s.tick t)))

/-- MODULE_RESET (R399). -/
def execModuleReset (unreadable : List HwUnit) (t : Nat) (s : State) : Host.Outcome State Fault Refusal :=
  .next (settle (moduleReset unreadable (s.tick t)))

/-- CONTEXT_RELEASE_TIMEOUT (R397). -/
def execContextReleaseTimeout (ctx : Byte) (u : HwUnit) (t : Nat) (s : State) : Host.Outcome State Fault Refusal :=
  .next (settle (releaseTimeout ctx u (s.tick t)))

/-- PWR_CYCLE_IGNORED (R400). -/
def execPwrCycleIgnored (t : Nat) (s : State) : Host.Outcome State Fault Refusal :=
  .next (settle (powerCycleIgnored (s.tick t)))

/-! ## Supplies, cast-on and the clock monitor -/

/-- AUX_POWER_UP (R409). -/
def execAuxPowerUp (s : State) : Host.Outcome State Fault Refusal := .next (settle (auxUp s))

/-- AUX_POWER_LOSS (R409). -/
def execAuxPowerLoss (s : State) : Host.Outcome State Fault Refusal := .next (settle (auxLoss s))

/-- MAIN_POWER_FAIL (R261, R410). -/
def execMainPowerFail (millivolt heldNs : Nat) (s : State) : Host.Outcome State Fault Refusal :=
  .next (settle (mainFail millivolt heldNs s))

/-- MAIN_POWER_RETURN (R410). -/
def execMainPowerReturn (millivolt t : Nat) (s : State) : Host.Outcome State Fault Refusal :=
  .next (settle (mainReturn millivolt (s.tick t)))

/-- SUPPLY_OVERVOLTAGE (R410). -/
def execSupplyOvervoltage (millivolt heldNs : Nat) (s : State) : Host.Outcome State Fault Refusal :=
  .next (settle (overVoltage millivolt heldNs s))

/-- CAST_ON_STEP_END (R411, R413). -/
def execCastOnStepEnd (found : List StepResult) (t : Nat) (s : State) : Host.Outcome State Fault Refusal :=
  .next (settle (castStepEnd found (s.tick t)))

/-- REFCLK_LOST (R420). -/
def execRefclkLost (quietNs offPpm : Nat) (s : State) : Host.Outcome State Fault Refusal :=
  .next (settle (refclkLost quietNs offPpm s))

/-- REFCLK_RESTORED (R422). -/
def execRefclkRestored (stableNs : Nat) (s : State) : Host.Outcome State Fault Refusal :=
  .next (settle (refclkRestored stableNs s))

/-! ## Power and cooling -/

/-- DIE_WAKE_COMPLETE (R424). -/
def execDieWakeComplete (d : DieIx) (t : Nat) (s : State) : Host.Outcome State Fault Refusal :=
  .next (settle (wakeComplete d.val (s.tick t)))

/-- THERMAL_TRIP (R429). -/
def execThermalTrip (x : Sensor) (milliC : Int) (s : State) : Host.Outcome State Fault Refusal :=
  .next (settle (thermalTrip x milliC s))

/-- COOLANT_INLET_SHUTDOWN (R432). -/
def execCoolantInletShutdown (inletMilliC : Int) (heldNs : Nat) (s : State) : Host.Outcome State Fault Refusal :=
  .next (settle (inletShutdown inletMilliC heldNs s))

/-- SHUTDOWN_DRAIN_TIMEOUT (R425). -/
def execShutdownDrainTimeout (t : Nat) (s : State) : Host.Outcome State Fault Refusal :=
  .next (settle (shutdownTimeout (s.tick t)))

/-! ## The function and registers -/

/-- FUNCTION_RESET (R364). -/
def execFunctionReset (k : FunctionResetKind) (s : State) : Host.Outcome State Fault Refusal :=
  .next (settle (functionReset k s))

/-- DIE_BLOCK_EN or DIE_CHAN_EN of a die takes one 32-bit half (R418). -/
def blockHalf (d : AllDieIx) (chan hi : Bool) (v : Word) (s : State) : State :=
  let old := Tbl.getD (if chan then s.power.chanEn else s.power.blockEn) d.val 0xFFFFFFFFFFFFFFFF
  blockWrite d chan (putHalf old hi v) s

/-- A 4-byte write of a configuration flash controller register: the W1C bits of CFL_STATUS and CFL_CAUSE (R5, R458). -/
def cflRegWrite (off : Nat) (v : Word) (s : State) : State :=
  if off = 0 then
    s.modCfl fun c => { c with seqError := c.seqError && !v.getLsbD 4, opError := c.opError && !v.getLsbD 5 }
  else if off = 4 then s.modCfl fun c => { c with causeValid := c.causeValid && !v.getLsbD 3 }
  else s

/-- A 4-byte write in the die control window of a die: block enables, the test port, and on M0 the configuration flash
controller; an offset that no table defines ignores it (R374, R418, R458). -/
def windowWord (d : AllDieIx) (off : Nat) (v : Word) (s : State) : State :=
  if off < 8 then blockHalf d false (decide (off = 4)) v s
  else if off < 16 then blockHalf d true (decide (off = 12)) v s
  else if 0x4000 ≤ off ∧ off < 0x4080 then portWrite d.val (off - 0x4000) v s
  else if d.val = 4 ∧ 0x8000 ≤ off ∧ off < 0x10000 then cflRegWrite (off - 0x8000) v s
  else s

/-- A write of 4 or 8 bytes in a die control window, naturally aligned; any other is discarded. -/
def windowWrite (d : AllDieIx) (off : Nat) (eight : Bool) (v : Dword) (s : State) : State :=
  let lo := BitVec.ofNat 32 v.toNat
  let hi := BitVec.ofNat 32 (v.toNat / 4294967296)
  if eight then
    (if off % 8 ≠ 0 then s
     else if off = 0 then blockWrite d false v s
     else if off = 8 then blockWrite d true v s
     else windowWord d (off + 4) hi (windowWord d off lo s))
  else if off % 4 ≠ 0 then s
  else windowWord d off lo s

/-- REGISTER_WRITE (R5, R335, R336, R374, R418, R458). -/
def execRegisterWrite (sp : RegSpace) (off : Nat) (eight : Bool) (v : Dword) (s : State) : Host.Outcome State Fault Refusal :=
  .next (settle (match sp with
    | .bar0 => bar0Access off eight v s
    | .bar4 => barWrite bar4Write off eight v s
    | .dieWindow d => windowWrite d off eight v s))

/-! ## The configuration flash -/

/-- A commit is over: the configuration commands that waited run, and a reset that was held for it, or that its options
ask for, starts (R443, R444, R462). -/
def commitOver (ask : Bool) (s : State) : State :=
  let s1 := runWaitingCfg s
  if s1.sys.heldReset then
    let w := s1.rcv.whole.getD (1, false)
    startModuleReset w.1 w.2 false Lc.resetEscalated s1
  else if ask then startModuleReset 3 false false Lc.fwCommitted s1
  else s1

/-- A step of a commit ends (R443). -/
def commitGoes (ok : Bool) (s : State) : State :=
  if s.sec.commitStep = 6 then commitOver (s.sec.commitOpts.testBit 1) (commitEnds s)
  else
    let s1 := commitStep ok s
    if s.sec.commitStep ≠ 0 ∧ s1.sec.commitStep = 0 then commitOver false s1 else s1

/-- CFL_OPERATION_COMPLETE: the window's program or erase ends, or a step of a commit (R443, R456). -/
def cflComplete (ok : Bool) (s : State) : State :=
  let c := s.sec.cfl
  if c.progAt.isSome || (c.eraseAt.isSome && !c.suspended) then flashDone ok s
  else if s.sec.commitStep ≠ 0 then commitGoes ok s
  else s

/-- CFL_OPERATION_COMPLETE (R456). -/
def execCflOperationComplete (ok : Bool) (s : State) : Host.Outcome State Fault Refusal :=
  .next (settle (cflComplete ok s))

end Sys2Proof.Machine
end

