-- ==== Sys2Proof/Machine/RowsStream.lean ====
section
/-! DEFINITION. Rows of streams, arrays, vector engines, movers and placement that may end a command, and so let others
go on (chapters 2 to 5, 7 and 14). -/

namespace Sys2Proof.Machine

/-! ## A slot that acts by itself -/

/-- A slot's operands lie in the scratchpad, or the stream traps (R40). -/
def inRange (d : Nat) (ok : Stream → Bool) (f : State → State) (s : State) : State :=
  match (s.die d).stream with
  | none => s
  | some x => if x.ended then s else if ok x then f s else trapStream d 0x03 St.computeFault s

/-- An array slot by itself: PASS and PASS_CHAIN (R40, R42). -/
def passRow (d i : Nat) (a : ArraySlot) (chain : Bool) (ecc : Ecc) (s : State) : State :=
  inRange d (fun x => (descOf (descBits (progImage s x.prog) i a.desc.toNat) (ixValue x.core.ix a.ix.toNat)).regions.all inPad)
    (passSlot d i a chain ecc [i]) s

/-- A vector slot with a memory operand by itself (R40, R44). -/
def vecMemRow (d j op : Nat) (v : VecSlot) (ecc : Ecc) (s : State) : State :=
  inRange d (fun x => inPad (vecAddr v x.core.ix, vecMemBytes op v)) (issueEcc d j v ecc (vecSlot d j op 0 v)) s

/-- A move slot by itself (R40, R45). -/
def moveRow (d k op : Nat) (a : MoveSlot) (s : State) : State :=
  inRange d (fun x =>
      let m := (moveOf op (moveDescBits (progImage s x.prog) a.mdesc.toNat) a (ixValue x.core.ix a.ix.toNat)).1
      (!m.srcPad || op == 2 || inPad (m.src, m.len)) && (!m.dstPad || op == 3 || inPad (m.dst, m.len)))
    (moveSlot d k op a) s

/-! ## Retirement of vector operations (R112, R114, R368) -/

/-- A residue mismatch: the operation's result is discarded, the engine is reset, and the stream that issued it stops and
is a suspect; the retirement of the engine follows its count (R112, R383). -/
def residueFails (d j : Nat) (o : VecOp) (s : State) : State :=
  let u := HwUnit.vector (dieIx d) (engIx j)
  let service := ((s.die d).engine j).chunk.isSome
  let s1 := addLog Lc.residueMismatch 0x50000000 (unitOf u) (ctxWord ((s.die d).stream.map fun x => x.ctx.toNat) none)
    [Config.freeNat s.free % 256, o.op, o.plan.toNat] { dropOp d j o s with free := s.free + 1 }
  let s2 := engineReset u false Lc.residueMismatch s1
  countMismatch d j (if service then requeueUpdate d j s2 else suspectStream d u s2)

/-- An operation's operand cannot be read: the stream stops, or the chunk's step is lost (R368). -/
def operandFails (d j : Nat) (o : VecOp) (s : State) : State :=
  match ((s.die d).engine j).chunk with
  | none => faultStream d St.computeFault (dropOp d j o s)
  | some (h, k) =>
    raiseAttention h.toNat k (dropChunk h.toNat k (s.modShard h.toNat fun y => y.modChunk k fun c =>
      { c with lost := true, damaged := true, running := none, updated := [] }))

/-- VECTOR_RETIRE: the engine's next operation retires (R112, R114, R368). -/
def vectorRetire (d j : Nat) (residueOk : Bool) (ecc : Ecc) (s : State) : State :=
  match nextRetire ((s.die d).engine j).flight with
  | none => s
  | some o =>
    readEcc ecc (.vector (dieIx d) (engIx j)) o.row ((s.die d).stream.map Stream.ctx)
      (if residueOk then retireOk d j o else residueFails d j o) (operandFails d j o) s

/-! ## Tier deadlines (R155) -/

/-- A move has waited on its pages past the deadline (R155). -/
def lateMove (d k : Nat) (s : State) : State :=
  match (s.die d).mover k, (s.die d).stream with
  | m :: _, some x =>
    let p := streamPart s x
    match m.waitSince with
    | none => s
    | some t0 =>
      if t0 + 1000000 * (s.part p).tierMs ≤ s.sys.time then
        let pg := (movePages m).1 ++ (movePages m).2
        let late := (pg.find? fun g => decide (((s.store p).page g).st = .flash ∨ ((s.store p).page g).st = .fetching)).getD (pg.headD 0)
        popMove d k (moveFailed d m St.lowerTierFailed
          (addLog Lc.lowerTierLate 0x50000000 noUnit (ctxWord (some x.ctx.toNat) (some p)) [p, late] s))
      else s
  | _, _ => s

/-- A command's wait on a page has passed the deadline. -/
def lateCommand (n : Nat) (s : State) : State :=
  match s.live? n with
  | none => s
  | some l =>
    let p := l.c.partition.toNat
    match l.waitSince with
    | none => s
    | some t0 =>
      if l.phase = .pages ∧ t0 + 1000000 * (s.part p).tierMs ≤ s.sys.time then
        abort n St.lowerTierFailed
          (addLog Lc.lowerTierLate 0x50000000 noUnit (ctxWord (some l.c.context.toNat) (some p))
            [p, l.c.offset.toNat / pageBytes] s)
      else s

/-- TIER_DEADLINE: a request whose deadline has passed ends; the fetch goes on. A copy of a program image reads pinned
frames and never waits (R67, R155). -/
def tierDeadline (w : Waiter) (s : State) : State :=
  match w with
  | .move d k => lateMove d.val k.val s
  | .command n => lateCommand n s
  | .chunk h k => chunkTierFailed h.toNat k s
  | .image _ => s

/-! ## Rows of the sequencer -/

/-- ROW_ISSUE (R36, R43, R50). -/
def execRowIssue (d : DieIx) (fetch desc : Ecc) (s : State) : Host.Outcome State Fault Refusal :=
  .next (settle (rowIssue d.val fetch desc s))
/-- STALL_RELEASE (R43, R45). -/
def execStallRelease (d : DieIx) (s : State) : Host.Outcome State Fault Refusal :=
  .next (settle (stallRelease d.val s))
/-- STITCH_OVERRUN (R63). -/
def execStitchOverrun (d : DieIx) (s : State) : Host.Outcome State Fault Refusal :=
  .next (settle (stitchOverrun d.val s))
/-- WAIT (R49 to R51). -/
def execWait (d : DieIx) (y : SyncSlot) (t : Nat) (s : State) : Host.Outcome State Fault Refusal :=
  .next (settle (waitSlot d.val y false (s.tick t)))
/-- WAIT_CLEAR (R49 to R51). -/
def execWaitClear (d : DieIx) (y : SyncSlot) (t : Nat) (s : State) : Host.Outcome State Fault Refusal :=
  .next (settle (waitSlot d.val y true (s.tick t)))
/-- WAIT_SATISFIED (R50, R51). -/
def execWaitSatisfied (d : DieIx) (s : State) : Host.Outcome State Fault Refusal :=
  .next (settle (waitFailed d.val (waitSatisfied d.val s)))
/-- WAIT_TIMEOUT (R51). -/
def execWaitTimeout (d : DieIx) (t : Nat) (s : State) : Host.Outcome State Fault Refusal :=
  .next (settle (waitTimeout d.val (s.tick t)))
/-- STREAM_COMPLETE (R57, R58). -/
def execStreamComplete (d : DieIx) (s : State) : Host.Outcome State Fault Refusal :=
  .next (settle (streamComplete d.val s))
/-- LOOP (R57). -/
def execLoop (d : DieIx) (k : CtlSlot) (s : State) : Host.Outcome State Fault Refusal :=
  .next (settle (ctlRow d.val 0x03 k s))
/-- TRAP (R57, R64). -/
def execTrap (d : DieIx) (k : CtlSlot) (s : State) : Host.Outcome State Fault Refusal :=
  .next (settle (ctlRow d.val 0x07 k s))

/-! ## Rows of arrays and the swatch -/

/-- PASS (R42). -/
def execPass (d : DieIx) (i : ClusterIx) (a : ArraySlot) (ecc : Ecc) (s : State) : Host.Outcome State Fault Refusal :=
  .next (settle (passRow d.val i.val a false ecc s))
/-- PASS_CHAIN (R42). -/
def execPassChain (d : DieIx) (i : ClusterIx) (a : ArraySlot) (ecc : Ecc) (s : State) : Host.Outcome State Fault Refusal :=
  .next (settle (passRow d.val i.val a true ecc s))
/-- ARRAY_RESULT_WRITE (R82, R86). -/
def execArrayResultWrite (d : DieIx) (c : ClusterIx) (primFault dupFault : List Byte) (ecc : Ecc) (s : State) :
    Host.Outcome State Fault Refusal :=
  .next (settle (resultWrite d.val c.val primFault dupFault ecc s))
/-- SWATCH_THIRD_EXECUTION (R384). -/
def execSwatchThirdExecution (d : DieIx) (s : State) : Host.Outcome State Fault Refusal :=
  .next (settle (thirdExecution d.val s))
/-- SWATCH_DECIDE (R385). -/
def execSwatchDecide (d : DieIx) (tFault : List Byte) (reached primScanFails dupScanFails : Bool) (s : State) :
    Host.Outcome State Fault Refusal :=
  .next (settle (dropUnplaceable (swatchDecide d.val tFault reached primScanFails dupScanFails s)))
/-- SWATCH_REPLAY (R384). -/
def execSwatchReplay (d : DieIx) (s : State) : Host.Outcome State Fault Refusal :=
  .next (settle (swatchReplay d.val s))

/-! ## Rows of vector engines -/

/-- LOAD (R116). -/
def execLoad (d : DieIx) (j : EngIx) (v : VecSlot) (ecc : Ecc) (s : State) : Host.Outcome State Fault Refusal :=
  .next (settle (vecMemRow d.val j.val 0x01 v ecc s))
/-- STORE (R116). -/
def execStore (d : DieIx) (j : EngIx) (v : VecSlot) (s : State) : Host.Outcome State Fault Refusal :=
  .next (settle (vecMemRow d.val j.val 0x02 v .clean s))
/-- LOADP (R116). -/
def execLoadp (d : DieIx) (j : EngIx) (v : VecSlot) (ecc : Ecc) (s : State) : Host.Outcome State Fault Refusal :=
  .next (settle (vecMemRow d.val j.val 0x03 v ecc s))
/-- STOREP (R116). -/
def execStorep (d : DieIx) (j : EngIx) (v : VecSlot) (s : State) : Host.Outcome State Fault Refusal :=
  .next (settle (vecMemRow d.val j.val 0x04 v .clean s))
/-- CONVERT (R105). -/
def execConvert (d : DieIx) (j : EngIx) (v : VecSlot) (s : State) : Host.Outcome State Fault Refusal :=
  .next (settle (vecMemRow d.val j.val 0x39 v .clean s))
/-- VECTOR_RETIRE (R114). -/
def execVectorRetire (d : DieIx) (j : EngIx) (residueOk : Bool) (ecc : Ecc) (s : State) :
    Host.Outcome State Fault Refusal :=
  .next (settle (vectorRetire d.val j.val residueOk ecc s))

/-! ## Rows of movers and tiers -/

/-- COPY (R45). -/
def execCopy (d : DieIx) (k : EngIx) (m : MoveSlot) (s : State) : Host.Outcome State Fault Refusal :=
  .next (settle (moveRow d.val k.val 1 m s))
/-- FILL (R45). -/
def execFill (d : DieIx) (k : EngIx) (m : MoveSlot) (s : State) : Host.Outcome State Fault Refusal :=
  .next (settle (moveRow d.val k.val 2 m s))
/-- PREFETCH (R45). -/
def execPrefetch (d : DieIx) (k : EngIx) (m : MoveSlot) (s : State) : Host.Outcome State Fault Refusal :=
  .next (settle (moveRow d.val k.val 3 m s))
/-- PAGE_FETCH_COMPLETE (R148). -/
def execPageFetchComplete (p : PartIx) (page : Nat) (readable : Bool) (t : Nat) (s : State) :
    Host.Outcome State Fault Refusal :=
  .next (settle (fetchEnd p.val page readable (s.tick t)))
/-- WRITEBACK_COMPLETE (R149). -/
def execWritebackComplete (p : PartIx) (page : Nat) (r : WritebackResult) (s : State) : Host.Outcome State Fault Refusal :=
  .next (settle (writebackEnd p.val page r s))
/-- TIER_DEADLINE (R155). -/
def execTierDeadline (w : Waiter) (t : Nat) (s : State) : Host.Outcome State Fault Refusal :=
  .next (settle (tierDeadline w (s.tick t)))

/-! ## Rows of placement -/

/-- PLACE_TASK (R172). -/
def execPlaceTask (kind : TaskKind) (p : PartIx) (s : State) : Host.Outcome State Fault Refusal :=
  .next (settle (placeTask kind p.val s))
/-- RESUME_STREAM (R179). -/
def execResumeStream (d : DieIx) (ecc : Ecc) (s : State) : Host.Outcome State Fault Refusal :=
  .next (settle (resumeStream d.val ecc s))
/-- BATCH_ASSEMBLE (R181). -/
def execBatchAssemble (endpoint : Nat) (s : State) : Host.Outcome State Fault Refusal :=
  .next (settle (batchAssemble endpoint s))
/-- SERVING_STEP_COMPLETE (R182, R183). -/
def execServingStepComplete (endpoint : Nat) (s : State) : Host.Outcome State Fault Refusal :=
  .next (settle (feedScans (servingStepComplete endpoint s)))

/-! ## Rows of the shard service -/

/-- CHUNK_STEP_COMPLETE (R133). -/
def execChunkStepComplete (shard : Word) (chunk : Nat) (s : State) : Host.Outcome State Fault Refusal :=
  .next (settle (chunkComplete shard.toNat chunk s))
/-- STEP_LATE (R131). -/
def execStepLate (shard : Word) (chunk : Nat) (t : Nat) (s : State) : Host.Outcome State Fault Refusal :=
  .next (settle (stepLate shard.toNat chunk (s.tick t)))

end Sys2Proof.Machine
end

