-- ==== Sys2Proof/Machine/Dispatch.lean ====
section
/-! DEFINITION. One arm per command: the meaning of each row of the table of operations and events. -/

namespace Sys2Proof.Machine

/-- The effect of a command on everything but the queue. -/
def exec (i : Instr) (s : State) : Host.Outcome State Fault Refusal :=
  match i with
  | .rowIssue d fetch desc => Sys2Proof.Machine.execRowIssue d fetch desc s
  | .stallRelease d => Sys2Proof.Machine.execStallRelease d s
  | .stitchOverrun d => Sys2Proof.Machine.execStitchOverrun d s
  | .pass d ix a ecc => Sys2Proof.Machine.execPass d ix a ecc s
  | .passChain d ix a ecc => Sys2Proof.Machine.execPassChain d ix a ecc s
  | .drain d ix a => Sys2Proof.Machine.execDrain d ix a s
  | .passFirstVectorEnters d c => Sys2Proof.Machine.execPassFirstVectorEnters d c s
  | .arrayResultWrite d c primFault dupFault ecc => Sys2Proof.Machine.execArrayResultWrite d c primFault dupFault ecc s
  | .passComplete d c => Sys2Proof.Machine.execPassComplete d c s
  | .swatchThirdExecution d => Sys2Proof.Machine.execSwatchThirdExecution d s
  | .swatchDecide d tFault reached primScanFails dupScanFails => Sys2Proof.Machine.execSwatchDecide d tFault reached primScanFails dupScanFails s
  | .swatchReplay d => Sys2Proof.Machine.execSwatchReplay d s
  | .load d j v ecc => Sys2Proof.Machine.execLoad d j v ecc s
  | .store d j v => Sys2Proof.Machine.execStore d j v s
  | .loadp d j v ecc => Sys2Proof.Machine.execLoadp d j v ecc s
  | .storep d j v => Sys2Proof.Machine.execStorep d j v s
  | .add d j v => Sys2Proof.Machine.execAdd d j v s
  | .sub d j v => Sys2Proof.Machine.execSub d j v s
  | .mul d j v => Sys2Proof.Machine.execMul d j v s
  | .fma d j v => Sys2Proof.Machine.execFma d j v s
  | .fnma d j v => Sys2Proof.Machine.execFnma d j v s
  | .max d j v => Sys2Proof.Machine.execMax d j v s
  | .min d j v => Sys2Proof.Machine.execMin d j v s
  | .abs d j v => Sys2Proof.Machine.execAbs d j v s
  | .sign d j v => Sys2Proof.Machine.execSign d j v s
  | .scale d j v => Sys2Proof.Machine.execScale d j v s
  | .div d j v => Sys2Proof.Machine.execDiv d j v s
  | .sqrt d j v => Sys2Proof.Machine.execSqrt d j v s
  | .bcast d j v => Sys2Proof.Machine.execBcast d j v s
  | .movi d j v => Sys2Proof.Machine.execMovi d j v s
  | .cmpLt d j v => Sys2Proof.Machine.execCmpLt d j v s
  | .cmpEq d j v => Sys2Proof.Machine.execCmpEq d j v s
  | .sel d j v => Sys2Proof.Machine.execSel d j v s
  | .rsum d j v => Sys2Proof.Machine.execRsum d j v s
  | .rmax d j v => Sys2Proof.Machine.execRmax d j v s
  | .survey d j v => Sys2Proof.Machine.execSurvey d j v s
  | .convert d j v => Sys2Proof.Machine.execConvert d j v s
  | .padd d j v => Sys2Proof.Machine.execPadd d j v s
  | .pmul d j v => Sys2Proof.Machine.execPmul d j v s
  | .pfma d j v => Sys2Proof.Machine.execPfma d j v s
  | .coef d j shard group t => Sys2Proof.Machine.execCoef d j shard group t s
  | .update d j shard chunk group ecc => Sys2Proof.Machine.execUpdate d j shard chunk group ecc s
  | .vectorRetire d j residueOk ecc => Sys2Proof.Machine.execVectorRetire d j residueOk ecc s
  | .copy d k m => Sys2Proof.Machine.execCopy d k m s
  | .fill d k m => Sys2Proof.Machine.execFill d k m s
  | .prefetch d k m => Sys2Proof.Machine.execPrefetch d k m s
  | .moveComplete d k ecc t => Sys2Proof.Machine.execMoveComplete d k ecc t s
  | .wait d y t => Sys2Proof.Machine.execWait d y t s
  | .waitClear d y t => Sys2Proof.Machine.execWaitClear d y t s
  | .clearOp d y => Sys2Proof.Machine.execClearOp d y s
  | .setOp d y => Sys2Proof.Machine.execSetOp d y s
  | .waitSatisfied d => Sys2Proof.Machine.execWaitSatisfied d s
  | .waitTimeout d t => Sys2Proof.Machine.execWaitTimeout d t s
  | .endStream d k => Sys2Proof.Machine.execEndStream d k s
  | .streamComplete d => Sys2Proof.Machine.execStreamComplete d s
  | .branch d k => Sys2Proof.Machine.execBranch d k s
  | .loop d k => Sys2Proof.Machine.execLoop d k s
  | .ixSet d k => Sys2Proof.Machine.execIxSet d k s
  | .ixAdd d k => Sys2Proof.Machine.execIxAdd d k s
  | .stitch d k => Sys2Proof.Machine.execStitch d k s
  | .markerSaveComplete d => Sys2Proof.Machine.execMarkerSaveComplete d s
  | .trap d k => Sys2Proof.Machine.execTrap d k s
  | .mark d k => Sys2Proof.Machine.execMark d k s
  | .flagClear d k => Sys2Proof.Machine.execFlagClear d k s
  | .placeTask kind p => Sys2Proof.Machine.execPlaceTask kind p s
  | .preemptRequest d => Sys2Proof.Machine.execPreemptRequest d s
  | .timeSliceExpiry d t => Sys2Proof.Machine.execTimeSliceExpiry d t s
  | .starvationLimit task t => Sys2Proof.Machine.execStarvationLimit task t s
  | .resumeStream d ecc => Sys2Proof.Machine.execResumeStream d ecc s
  | .stoMap c => Sys2Proof.Machine.execStoMap c s
  | .stoUnmap c => Sys2Proof.Machine.execStoUnmap c s
  | .stoPin c => Sys2Proof.Machine.execStoPin c s
  | .stoUnpin c => Sys2Proof.Machine.execStoUnpin c s
  | .stoRead c => Sys2Proof.Machine.execStoRead c s
  | .stoWrite c => Sys2Proof.Machine.execStoWrite c s
  | .stoDiscard c => Sys2Proof.Machine.execStoDiscard c s
  | .stoQuery c => Sys2Proof.Machine.execStoQuery c s
  | .stoSetPolicy c => Sys2Proof.Machine.execStoSetPolicy c s
  | .pageFetchStart p page => Sys2Proof.Machine.execPageFetchStart p page s
  | .pageFetchComplete p page readable t => Sys2Proof.Machine.execPageFetchComplete p page readable t s
  | .writebackComplete p page r => Sys2Proof.Machine.execWritebackComplete p page r s
  | .freeReserveEvict d => Sys2Proof.Machine.execFreeReserveEvict d s
  | .idleAgeExpiry p page t => Sys2Proof.Machine.execIdleAgeExpiry p page t s
  | .tierDeadline w t => Sys2Proof.Machine.execTierDeadline w t s
  | .prefetchLate d entry t => Sys2Proof.Machine.execPrefetchLate d entry t s
  | .prgLoad c => Sys2Proof.Machine.execPrgLoad c s
  | .prgRun c => Sys2Proof.Machine.execPrgRun c s
  | .prgUnload c => Sys2Proof.Machine.execPrgUnload c s
  | .shdCreate c => Sys2Proof.Machine.execShdCreate c s
  | .shdDelete c => Sys2Proof.Machine.execShdDelete c s
  | .shdSetGroups c => Sys2Proof.Machine.execShdSetGroups c s
  | .shdSetCurve c => Sys2Proof.Machine.execShdSetCurve c s
  | .shdImport c => Sys2Proof.Machine.execShdImport c s
  | .shdExport c => Sys2Proof.Machine.execShdExport c s
  | .shdPushGrad c => Sys2Proof.Machine.execShdPushGrad c s
  | .chunkStepComplete shard chunk => Sys2Proof.Machine.execChunkStepComplete shard chunk s
  | .stepLate shard chunk t => Sys2Proof.Machine.execStepLate shard chunk t s
  | .shdCloseStepAbandon c => Sys2Proof.Machine.execShdCloseStepAbandon c s
  | .shdCloseStepPartial c => Sys2Proof.Machine.execShdCloseStepPartial c s
  | .shdStepStatus c => Sys2Proof.Machine.execShdStepStatus c s
  | .shdReadWeights c => Sys2Proof.Machine.execShdReadWeights c s
  | .shdEventReply shard code status => Sys2Proof.Machine.execShdEventReply shard code status s
  | .shdEventTimeout shard code t => Sys2Proof.Machine.execShdEventTimeout shard code t s
  | .parCreate c => Sys2Proof.Machine.execParCreate c s
  | .parDelete c => Sys2Proof.Machine.execParDelete c s
  | .parSetShares c => Sys2Proof.Machine.execParSetShares c s
  | .parSetSwatch c => Sys2Proof.Machine.execParSetSwatch c s
  | .parQuery c => Sys2Proof.Machine.execParQuery c s
  | .ctxCreate c => Sys2Proof.Machine.execCtxCreate c s
  | .ctxDelete c => Sys2Proof.Machine.execCtxDelete c s
  | .ctxSet c => Sys2Proof.Machine.execCtxSet c s
  | .ctxCounters c => Sys2Proof.Machine.execCtxCounters c s
  | .ctxQuery c => Sys2Proof.Machine.execCtxQuery c s
  | .srvOpen c => Sys2Proof.Machine.execSrvOpen c s
  | .srvSubmit c => Sys2Proof.Machine.execSrvSubmit c s
  | .srvCancel c => Sys2Proof.Machine.execSrvCancel c s
  | .srvClose c => Sys2Proof.Machine.execSrvClose c s
  | .batchAssemble endpoint => Sys2Proof.Machine.execBatchAssemble endpoint s
  | .servingStepComplete endpoint => Sys2Proof.Machine.execServingStepComplete endpoint s
  | .colCreate c => Sys2Proof.Machine.execColCreate c s
  | .colDelete c => Sys2Proof.Machine.execColDelete c s
  | .colSetCodebook c => Sys2Proof.Machine.execColSetCodebook c s
  | .colSetParcels c => Sys2Proof.Machine.execColSetParcels c s
  | .colInsert c => Sys2Proof.Machine.execColInsert c s
  | .colRemove c => Sys2Proof.Machine.execColRemove c s
  | .colPublish c => Sys2Proof.Machine.execColPublish c s
  | .autoPublish col t => Sys2Proof.Machine.execAutoPublish col t s
  | .colQuery c => Sys2Proof.Machine.execColQuery c s
  | .parcelScanComplete query parcel readable => Sys2Proof.Machine.execParcelScanComplete query parcel readable s
  | .survivorEvaluate query readable => Sys2Proof.Machine.execSurvivorEvaluate query readable s
  | .colFetch c => Sys2Proof.Machine.execColFetch c s
  | .colCompact c => Sys2Proof.Machine.execColCompact c s
  | .graphLink col item => Sys2Proof.Machine.execGraphLink col item s
  | .colStatus c => Sys2Proof.Machine.execColStatus c s
  | .scnRun c => Sys2Proof.Machine.execScnRun c s
  | .scanPage scan span readable => Sys2Proof.Machine.execScanPage scan span readable s
  | .spanComplete scan span => Sys2Proof.Machine.execSpanComplete scan span s
  | .scanSequenceFinish scan seq out => Sys2Proof.Machine.execScanSequenceFinish scan seq out s
  | .scanComplete scan => Sys2Proof.Machine.execScanComplete scan s
  | .scnCancel c => Sys2Proof.Machine.execScnCancel c s
  | .scnStatus c => Sys2Proof.Machine.execScnStatus c s
  | .scnCredit c => Sys2Proof.Machine.execScnCredit c s
  | .volCreate c => Sys2Proof.Machine.execVolCreate c s
  | .volDelete c => Sys2Proof.Machine.execVolDelete c s
  | .volQuery c => Sys2Proof.Machine.execVolQuery c s
  | .volDiscard c => Sys2Proof.Machine.execVolDiscard c s
  | .volFlush c => Sys2Proof.Machine.execVolFlush c s
  | .volRead c => Sys2Proof.Machine.execVolRead c s
  | .volWrite c => Sys2Proof.Machine.execVolWrite c s
  | .absorbDestage vol => Sys2Proof.Machine.execAbsorbDestage vol s
  | .lseAcquire c => Sys2Proof.Machine.execLseAcquire c s
  | .lseRelease c => Sys2Proof.Machine.execLseRelease c s
  | .lseRead c => Sys2Proof.Machine.execLseRead c s
  | .lseRecallAck lease node status => Sys2Proof.Machine.execLseRecallAck lease node status s
  | .leaseRecallTimeout lease t => Sys2Proof.Machine.execLeaseRecallTimeout lease t s
  | .leaseExpiry lease t => Sys2Proof.Machine.execLeaseExpiry lease t s
  | .codewordDecode vol unit codeword r => Sys2Proof.Machine.execCodewordDecode vol unit codeword r s
  | .wordlineProgramComplete g slot ok => Sys2Proof.Machine.execWordlineProgramComplete g slot ok s
  | .blockEraseComplete g failed => Sys2Proof.Machine.execBlockEraseComplete g failed s
  | .gcStart g => Sys2Proof.Machine.execGcStart g s
  | .gcMoveCommit g => Sys2Proof.Machine.execGcMoveCommit g s
  | .wearLevel g => Sys2Proof.Machine.execWearLevel g s
  | .readThresholdRefresh g serial => Sys2Proof.Machine.execReadThresholdRefresh g serial s
  | .patrolRead g serial deepest rebuilt t => Sys2Proof.Machine.execPatrolRead g serial deepest rebuilt t s
  | .retentionRefresh g serial t => Sys2Proof.Machine.execRetentionRefresh g serial t s
  | .eraseSuspend g slot t => Sys2Proof.Machine.execEraseSuspend g slot t s
  | .eraseResume g slot t => Sys2Proof.Machine.execEraseResume g slot t s
  | .holdupMeasure millijoule t => Sys2Proof.Machine.execHoldupMeasure millijoule t s
  | .medWearLog c => Sys2Proof.Machine.execMedWearLog c s
  | .medSetPolicy c => Sys2Proof.Machine.execMedSetPolicy c s
  | .medFormat c => Sys2Proof.Machine.execMedFormat c s
  | .payloadFlitReceive l flit chk => Sys2Proof.Machine.execPayloadFlitReceive l flit chk s
  | .idleFlitReceive l header => Sys2Proof.Machine.execIdleFlitReceive l header s
  | .trainingFrameReceive l r => Sys2Proof.Machine.execTrainingFrameReceive l r s
  | .creditReturnReceive l slots => Sys2Proof.Machine.execCreditReturnReceive l slots s
  | .laneChange l mask firstSeq => Sys2Proof.Machine.execLaneChange l mask firstSeq s
  | .linkDownNotice l => Sys2Proof.Machine.execLinkDownNotice l s
  | .replayTimeout l t => Sys2Proof.Machine.execReplayTimeout l t s
  | .linkIdleTimeout l t => Sys2Proof.Machine.execLinkIdleTimeout l t s
  | .retrainTimer l t => Sys2Proof.Machine.execRetrainTimer l t s
  | .darkRetry l laser t => Sys2Proof.Machine.execDarkRetry l laser t s
  | .linkTraining l r t => Sys2Proof.Machine.execLinkTraining l r t s
  | .laserLoss l lam => Sys2Proof.Machine.execLaserLoss l lam s
  | .ringTrackTick l ring heaterUw => Sys2Proof.Machine.execRingTrackTick l ring heaterUw s
  | .ringHopComplete l ring locked => Sys2Proof.Machine.execRingHopComplete l ring locked s
  | .shedCheck l corrected carried weak t => Sys2Proof.Machine.execShedCheck l corrected carried weak t s
  | .wavelengthRestore l ix errors bytes t => Sys2Proof.Machine.execWavelengthRestore l ix errors bytes t s
  | .powerShedTick l usePercent => Sys2Proof.Machine.execPowerShedTick l usePercent s
  | .creditStallTimeout l cls level t => Sys2Proof.Machine.execCreditStallTimeout l cls level t s
  | .linkKeyExhausted l => Sys2Proof.Machine.execLinkKeyExhausted l s
  | .quarantineHoldExpiry l t => Sys2Proof.Machine.execQuarantineHoldExpiry l t s
  | .slotSend l => Sys2Proof.Machine.execSlotSend l s
  | .dataSegmentReceive l src tag position data t => Sys2Proof.Machine.execDataSegmentReceive l src tag position data t s
  | .rxGrant seq => Sys2Proof.Machine.execRxGrant seq s
  | .grantDataTimeout seq t => Sys2Proof.Machine.execGrantDataTimeout seq t s
  | .strayReplyReceive l tag => Sys2Proof.Machine.execStrayReplyReceive l tag s
  | .packageLinkFail n => Sys2Proof.Machine.execPackageLinkFail n s
  | .lnkQuery c => Sys2Proof.Machine.execLnkQuery c s
  | .lnkCounters c => Sys2Proof.Machine.execLnkCounters c s
  | .lnkSetPolicy c => Sys2Proof.Machine.execLnkSetPolicy c s
  | .lnkSetRoute c => Sys2Proof.Machine.execLnkSetRoute c s
  | .lnkSetKey c => Sys2Proof.Machine.execLnkSetKey c s
  | .lnkEnable c => Sys2Proof.Machine.execLnkEnable c s
  | .lnkDisable c => Sys2Proof.Machine.execLnkDisable c s
  | .lnkFastTraining c => Sys2Proof.Machine.execLnkFastTraining c s
  | .lnkFullTraining c => Sys2Proof.Machine.execLnkFullTraining c s
  | .lnkReleaseQuarantine c => Sys2Proof.Machine.execLnkReleaseQuarantine c s
  | .grpLookup c => Sys2Proof.Machine.execGrpLookup c s
  | .grpSet c => Sys2Proof.Machine.execGrpSet c s
  | .grpDump c => Sys2Proof.Machine.execGrpDump c s
  | .grpQuery c => Sys2Proof.Machine.execGrpQuery c s
  | .mgtIdentify c => Sys2Proof.Machine.execMgtIdentify c s
  | .mgtLogRead c => Sys2Proof.Machine.execMgtLogRead c s
  | .logBatchWrite t => Sys2Proof.Machine.execLogBatchWrite t s
  | .fwStage c => Sys2Proof.Machine.execFwStage c s
  | .fwCommit c => Sys2Proof.Machine.execFwCommit c s
  | .fwAbort c => Sys2Proof.Machine.execFwAbort c s
  | .fwQuery c => Sys2Proof.Machine.execFwQuery c s
  | .cfgRead c => Sys2Proof.Machine.execCfgRead c s
  | .cfgWrite c => Sys2Proof.Machine.execCfgWrite c s
  | .cfgSelect c => Sys2Proof.Machine.execCfgSelect c s
  | .cfgSetAccess c => Sys2Proof.Machine.execCfgSetAccess c s
  | .secOtpWrite c => Sys2Proof.Machine.execSecOtpWrite c s
  | .errQuery c => Sys2Proof.Machine.execErrQuery c s
  | .errInject c => Sys2Proof.Machine.execErrInject c s
  | .errSetPolicy c => Sys2Proof.Machine.execErrSetPolicy c s
  | .errReinstate c passes => Sys2Proof.Machine.execErrReinstate c passes s
  | .errScan c passes pattern => Sys2Proof.Machine.execErrScan c passes pattern s
  | .structuralScan u passes pattern => Sys2Proof.Machine.execStructuralScan u passes pattern s
  | .wordRemapped d sram addr u => Sys2Proof.Machine.execWordRemapped d sram addr u s
  | .frameRetire d p page => Sys2Proof.Machine.execFrameRetire d p page s
  | .eccReadRaw d r => Sys2Proof.Machine.execEccReadRaw d r s
  | .eccWriteSplit d r => Sys2Proof.Machine.execEccWriteSplit d r s
  | .eccWrite d r => Sys2Proof.Machine.execEccWrite d r s
  | .eccRead d r => Sys2Proof.Machine.execEccRead d r s
  | .watchdog u ns t => Sys2Proof.Machine.execWatchdog u ns t s
  | .engineReset u t => Sys2Proof.Machine.execEngineReset u t s
  | .engineReopen u t => Sys2Proof.Machine.execEngineReopen u t s
  | .suspectReplay u reproduced => Sys2Proof.Machine.execSuspectReplay u reproduced s
  | .escalationTimer r t => Sys2Proof.Machine.execEscalationTimer r t s
  | .partitionReset p t => Sys2Proof.Machine.execPartitionReset p t s
  | .bindOffDrainExpiry p unreadable t => Sys2Proof.Machine.execBindOffDrainExpiry p unreadable t s
  | .moduleReset unreadable t => Sys2Proof.Machine.execModuleReset unreadable t s
  | .contextReleaseTimeout ctx u t => Sys2Proof.Machine.execContextReleaseTimeout ctx u t s
  | .pwrCycleIgnored t => Sys2Proof.Machine.execPwrCycleIgnored t s
  | .rcvResetContext c => Sys2Proof.Machine.execRcvResetContext c s
  | .rcvResetEngine c => Sys2Proof.Machine.execRcvResetEngine c s
  | .rcvResetPartition c => Sys2Proof.Machine.execRcvResetPartition c s
  | .rcvResetModule c => Sys2Proof.Machine.execRcvResetModule c s
  | .rcvQuery c => Sys2Proof.Machine.execRcvQuery c s
  | .rcvRelease c => Sys2Proof.Machine.execRcvRelease c s
  | .rcvDump c unreadable => Sys2Proof.Machine.execRcvDump c unreadable s
  | .rcvDumpRead c => Sys2Proof.Machine.execRcvDumpRead c s
  | .auxPowerUp => Sys2Proof.Machine.execAuxPowerUp s
  | .auxPowerLoss => Sys2Proof.Machine.execAuxPowerLoss s
  | .mainPowerFail millivolt heldNs => Sys2Proof.Machine.execMainPowerFail millivolt heldNs s
  | .mainPowerReturn millivolt t => Sys2Proof.Machine.execMainPowerReturn millivolt t s
  | .supplyOvervoltage millivolt heldNs => Sys2Proof.Machine.execSupplyOvervoltage millivolt heldNs s
  | .supplyLow millivolt t => Sys2Proof.Machine.execSupplyLow millivolt t s
  | .supplyHigh millivolt t => Sys2Proof.Machine.execSupplyHigh millivolt t s
  | .castOn t => Sys2Proof.Machine.execCastOn t s
  | .castOnStepEnd found t => Sys2Proof.Machine.execCastOnStepEnd found t s
  | .refclkLost quietNs offPpm => Sys2Proof.Machine.execRefclkLost quietNs offPpm s
  | .refclkRestored stableNs => Sys2Proof.Machine.execRefclkRestored stableNs s
  | .refclkLock stableNs => Sys2Proof.Machine.execRefclkLock stableNs s
  | .gateTimer d t => Sys2Proof.Machine.execGateTimer d t s
  | .retainTimer d t => Sys2Proof.Machine.execRetainTimer d t s
  | .dieWake d t => Sys2Proof.Machine.execDieWake d t s
  | .dieWakeComplete d t => Sys2Proof.Machine.execDieWakeComplete d t s
  | .capLoopTick inputMw partMw t => Sys2Proof.Machine.execCapLoopTick inputMw partMw t s
  | .thermalLoopTick d milliC t => Sys2Proof.Machine.execThermalLoopTick d milliC t s
  | .thermalLimit x milliC => Sys2Proof.Machine.execThermalLimit x milliC s
  | .thermalTrip x milliC => Sys2Proof.Machine.execThermalTrip x milliC s
  | .coolantHot inletMilliC => Sys2Proof.Machine.execCoolantHot inletMilliC s
  | .coolantFlowLow mlPerMin inputMw heldNs => Sys2Proof.Machine.execCoolantFlowLow mlPerMin inputMw heldNs s
  | .pwrQuery c => Sys2Proof.Machine.execPwrQuery c s
  | .pwrSetPolicy c => Sys2Proof.Machine.execPwrSetPolicy c s
  | .pwrSetDieState c => Sys2Proof.Machine.execPwrSetDieState c s
  | .pwrSetStateOff c => Sys2Proof.Machine.execPwrSetStateOff c s
  | .pwrSetStateOn c => Sys2Proof.Machine.execPwrSetStateOn c s
  | .shutdownDrainTimeout t => Sys2Proof.Machine.execShutdownDrainTimeout t s
  | .dieBlockEnWrite d chan v => Sys2Proof.Machine.execDieBlockEnWrite d chan v s
  | .ctlqSqTail n v => Sys2Proof.Machine.execCtlqSqTail n v s
  | .ctlqCqHead n v => Sys2Proof.Machine.execCtlqCqHead n v s
  | .ctlqEnable n v => Sys2Proof.Machine.execCtlqEnable n v s
  | .ctlqDisable n v => Sys2Proof.Machine.execCtlqDisable n v s
  | .sqEntryTake n packet => Sys2Proof.Machine.execSqEntryTake n packet s
  | .sqFetchFail n write => Sys2Proof.Machine.execSqFetchFail n write s
  | .requestDataRead seq data t => Sys2Proof.Machine.execRequestDataRead seq data t s
  | .completionWrite n t => Sys2Proof.Machine.execCompletionWrite n t s
  | .cqEventWrite n => Sys2Proof.Machine.execCqEventWrite n s
  | .cqAggTimer n t => Sys2Proof.Machine.execCqAggTimer n t s
  | .rsltRelease v => Sys2Proof.Machine.execRsltRelease v s
  | .evtForce v => Sys2Proof.Machine.execEvtForce v s
  | .evtEnableWrite v => Sys2Proof.Machine.execEvtEnableWrite v s
  | .modTimeLowRead => Sys2Proof.Machine.execModTimeLowRead s
  | .modEpochOffsetWrite v => Sys2Proof.Machine.execModEpochOffsetWrite v s
  | .mbxHostWrite n v => Sys2Proof.Machine.execMbxHostWrite n v s
  | .mbxModuleWrite n v => Sys2Proof.Machine.execMbxModuleWrite n v s
  | .mbxTake n => Sys2Proof.Machine.execMbxTake n s
  | .mbxClrOverruns n => Sys2Proof.Machine.execMbxClrOverruns n s
  | .functionReset k => Sys2Proof.Machine.execFunctionReset k s
  | .registerWrite sp off eight v => Sys2Proof.Machine.execRegisterWrite sp off eight v s
  | .sectorProgram writes => Sys2Proof.Machine.execSectorProgram writes s
  | .blockErase writes => Sys2Proof.Machine.execBlockErase writes s
  | .cflEraseSuspend addr => Sys2Proof.Machine.execCflEraseSuspend addr s
  | .cflEraseResume addr => Sys2Proof.Machine.execCflEraseResume addr s
  | .otpEnter security writes => Sys2Proof.Machine.execOtpEnter security writes s
  | .otpExit security writes => Sys2Proof.Machine.execOtpExit security writes s
  | .cflReset addr => Sys2Proof.Machine.execCflReset addr s
  | .cflOperationComplete ok => Sys2Proof.Machine.execCflOperationComplete ok s
  | .cflFetchDuringErase addr t => Sys2Proof.Machine.execCflFetchDuringErase addr t s
  | .getVersion eid => Sys2Proof.Machine.execGetVersion eid s
  | .getCapabilities eid => Sys2Proof.Machine.execGetCapabilities eid s
  | .negotiateAlgorithms eid mlDsa65 shake256 mlKem768 => Sys2Proof.Machine.execNegotiateAlgorithms eid mlDsa65 shake256 mlKem768 s
  | .getDigests eid => Sys2Proof.Machine.execGetDigests eid s
  | .getCertificate eid slot offset length => Sys2Proof.Machine.execGetCertificate eid slot offset length s
  | .challenge eid slot nonce => Sys2Proof.Machine.execChallenge eid slot nonce s
  | .getMeasurements eid index nonce => Sys2Proof.Machine.execGetMeasurements eid index nonce s
  | .keyExchange eid key proof => Sys2Proof.Machine.execKeyExchange eid key proof s
  | .pldmSensorRead eid x => Sys2Proof.Machine.execPldmSensorRead eid x s
  | .pldmFirmwareUpdate eid image => Sys2Proof.Machine.execPldmFirmwareUpdate eid image s
  | .msixUnmask vec => Sys2Proof.Machine.execMsixUnmask vec s
  | .pcieLinkUp => Sys2Proof.Machine.execPcieLinkUp s
  | .d3hotTransition into => Sys2Proof.Machine.execD3hotTransition into s
  | .ackIntervalExpiry l t => Sys2Proof.Machine.execAckIntervalExpiry l t s
  | .shedHoldExpiry l ix t => Sys2Proof.Machine.execShedHoldExpiry l ix t s
  | .coolantFlowRestored mlPerMin heldNs => Sys2Proof.Machine.execCoolantFlowRestored mlPerMin heldNs s
  | .coolantInletShutdown inletMilliC heldNs => Sys2Proof.Machine.execCoolantInletShutdown inletMilliC heldNs s
  | .energyChargeTick unitUj t => Sys2Proof.Machine.execEnergyChargeTick unitUj t s
  | .scanPeriodExpiry u t => Sys2Proof.Machine.execScanPeriodExpiry u t s
  | .setEndpointId eid i3c => Sys2Proof.Machine.execSetEndpointId eid i3c s
  | .setdasa static dynamic => Sys2Proof.Machine.execSetdasa static dynamic s

end Sys2Proof.Machine
end

