-- ==== Sys2Proof/Machine/Idle.lean ====
section
/-! DEFINITION. What the module does when no command waits. -/

namespace Sys2Proof.Machine

/-- Nothing waits: one nanosecond of module time passes, which counts from auxiliary power-up (R337, R409).
DESIGN CHOICE (log 2): the table has no row for the passing of time. -/
def idle (s : State) : State :=
  if s.sys.aux then { s with sys := { s.sys with time := s.sys.time + 1 } } else s

end Sys2Proof.Machine
end

