-- ==== Sys2Proof/Safety.lean ====
section
/-! DEFINITION. The conditions that claims are stated in: what a good log, command table and identity row are, what every
step keeps, and when a command is taken up, in the words of the manual. -/

namespace Sys2Proof.Machine

/-! ## What holds of every state a step reaches from a good one -/

/-- The log ring holds consecutive sequence numbers from LOG_FIRST.seq up to LOG_NEXT.seq and at most 131,072 entries, its
copy buffer at most 128, and the lasting log at most 262,144 (R361, R463). -/
def LogRing.Ok (g : LogRing) : Prop :=
  g.entries.length ≤ 131072 ∧ g.first + g.entries.length = g.next ∧
  g.entries.map LogEntry.seq = List.range' g.first g.entries.length ∧
  g.buffer.length ≤ 128 ∧ g.lasting.length ≤ 262144

/-- The command table: each admission number at most once and below the next one, and at most 65,536 commands
(R169, R315). -/
def State.CmdsOk (s : State) : Prop :=
  Tbl.wf s.cmds = true ∧ (∀ e ∈ s.cmds, e.1 < s.nextCmd) ∧ s.cmds.length ≤ 65536

/-- The log and the command table are in order. -/
def State.Inv (s : State) : Prop := s.log.Ok ∧ s.CmdsOk

/-- No bit of an identity row that is 1 has become 0, in any of its copies (R436). -/
def OtpSets (a b : List Mem) : Prop :=
  b.length = a.length ∧ ∀ n k i, (Mem.read (a.getD n []) k).getLsbD i = true → (Mem.read (b.getD n []) k).getLsbD i = true

/-! ## When a command is taken up -/

/-- The entry of an admitted command as it takes effect: RUNNING, or waiting for its request data (R315, R318). -/
def Capsule.entry (op : Nat) (c : Capsule) (s : State) : Live :=
  { op := BitVec.ofNat 16 op, c := c, admitted := s.sys.time, phase := if c.dataLen = 0 then .running else .granting,
    granted := 0, grantAt := s.sys.time, grantBase := 0, landed := 0, segs := [], epoch := pinnedEpoch op c s, waitSince := none,
    discard := false, sent := 0, recalls := [], applied := false, detail := 0, streamEnds := [] }

/-- The state with a command in the table under the next number, about to take effect. -/
def State.entered (op : Nat) (c : Capsule) (s : State) : State :=
  (enterTable op c .ordered s).modLive s.nextCmd fun x => { x with phase := if c.dataLen = 0 then .running else .granting }

/-- The module takes up a command at once: nothing drops it, no check of R317 or R348 refuses it, and neither a power state
nor an earlier command holds it back (R315 to R317, R325, R328). -/
def accepted (op : Nat) (c : Capsule) (s : State) : Bool :=
  !dropped op c s && decide (refusal op c (checkOf op c) s = none) &&
    !mustWait s.nextCmd { Capsule.entry op c s with phase := .ordered } (enterTable op c .ordered s)

/-- No command waits for what `settle` looks for, no epoch is ready to be published and no shutdown is under way. -/
def State.quiet (s : State) : Bool :=
  s.cmds.all (fun e => !e.2.waits) && s.cols.all (fun e => e.2.closing.isEmpty) && !s.sys.offAsked

end Sys2Proof.Machine

namespace Sys2Proof

/-- The opcode and the capsule of a command's row; a row that is one form of an opcode sets the parameter that names the
form (R10). -/
def Instr.command : Instr → Option (Nat × Capsule)
  | .stoMap c => some (0x0140, c)
  | .stoUnmap c => some (0x0141, c)
  | .stoPin c => some (0x0142, c)
  | .stoUnpin c => some (0x0143, c)
  | .stoRead c => some (0x0144, c)
  | .stoWrite c => some (0x0145, c)
  | .stoDiscard c => some (0x0146, c)
  | .stoQuery c => some (0x0147, c)
  | .stoSetPolicy c => some (0x0148, c)
  | .prgLoad c => some (0x0501, c)
  | .prgRun c => some (0x0502, c)
  | .prgUnload c => some (0x0503, c)
  | .shdCreate c => some (0x0401, c)
  | .shdDelete c => some (0x0402, c)
  | .shdSetGroups c => some (0x0403, c)
  | .shdSetCurve c => some (0x0404, c)
  | .shdImport c => some (0x0405, c)
  | .shdExport c => some (0x0406, c)
  | .shdPushGrad c => some (0x0410, c)
  | .shdCloseStepAbandon c => some (0x0411, { c with p1 := 0 })
  | .shdCloseStepPartial c => some (0x0411, { c with p1 := 1 })
  | .shdStepStatus c => some (0x0412, c)
  | .shdReadWeights c => some (0x0420, c)
  | .parCreate c => some (0x0120, c)
  | .parDelete c => some (0x0121, c)
  | .parSetShares c => some (0x0122, c)
  | .parSetSwatch c => some (0x0123, c)
  | .parQuery c => some (0x0124, c)
  | .ctxCreate c => some (0x0130, c)
  | .ctxDelete c => some (0x0131, c)
  | .ctxSet c => some (0x0132, c)
  | .ctxCounters c => some (0x0133, c)
  | .ctxQuery c => some (0x0134, c)
  | .srvOpen c => some (0x0510, c)
  | .srvSubmit c => some (0x0511, c)
  | .srvCancel c => some (0x0512, c)
  | .srvClose c => some (0x0513, c)
  | .colCreate c => some (0x0301, c)
  | .colDelete c => some (0x0302, c)
  | .colSetCodebook c => some (0x0303, c)
  | .colSetParcels c => some (0x0304, c)
  | .colInsert c => some (0x0310, c)
  | .colRemove c => some (0x0311, c)
  | .colPublish c => some (0x0312, c)
  | .colQuery c => some (0x0320, c)
  | .colFetch c => some (0x0321, c)
  | .colCompact c => some (0x0330, c)
  | .colStatus c => some (0x0331, c)
  | .scnRun c => some (0x0520, c)
  | .scnCancel c => some (0x0521, c)
  | .scnStatus c => some (0x0522, c)
  | .scnCredit c => some (0x0523, c)
  | .volCreate c => some (0x0201, c)
  | .volDelete c => some (0x0202, c)
  | .volQuery c => some (0x0203, c)
  | .volDiscard c => some (0x0210, c)
  | .volFlush c => some (0x0211, c)
  | .volRead c => some (0x0220, c)
  | .volWrite c => some (0x0221, c)
  | .lseAcquire c => some (0x0740, c)
  | .lseRelease c => some (0x0741, c)
  | .lseRead c => some (0x0742, c)
  | .medWearLog c => some (0x0640, c)
  | .medSetPolicy c => some (0x0641, c)
  | .medFormat c => some (0x0642, c)
  | .lnkQuery c => some (0x0710, c)
  | .lnkCounters c => some (0x0711, c)
  | .lnkSetPolicy c => some (0x0712, c)
  | .lnkSetRoute c => some (0x0713, c)
  | .lnkSetKey c => some (0x0714, c)
  | .lnkEnable c => some (0x0715, { c with p1 := 0 })
  | .lnkDisable c => some (0x0715, { c with p1 := 1 })
  | .lnkFastTraining c => some (0x0715, { c with p1 := 2 })
  | .lnkFullTraining c => some (0x0715, { c with p1 := 3 })
  | .lnkReleaseQuarantine c => some (0x0715, { c with p1 := 4 })
  | .grpLookup c => some (0x0720, c)
  | .grpSet c => some (0x0721, c)
  | .grpDump c => some (0x0722, c)
  | .grpQuery c => some (0x0723, c)
  | .mgtIdentify c => some (0x0601, c)
  | .mgtLogRead c => some (0x0602, c)
  | .fwStage c => some (0x0610, c)
  | .fwCommit c => some (0x0611, c)
  | .fwAbort c => some (0x0612, c)
  | .fwQuery c => some (0x0613, c)
  | .cfgRead c => some (0x0620, c)
  | .cfgWrite c => some (0x0621, c)
  | .cfgSelect c => some (0x0622, c)
  | .cfgSetAccess c => some (0x0623, c)
  | .secOtpWrite c => some (0x0630, c)
  | .errQuery c => some (0x0650, c)
  | .errInject c => some (0x0651, c)
  | .errSetPolicy c => some (0x0652, c)
  | .rcvResetContext c => some (0x0660, { c with p0 := 0 })
  | .rcvResetEngine c => some (0x0660, { c with p0 := 1 })
  | .rcvResetPartition c => some (0x0660, { c with p0 := 2 })
  | .rcvResetModule c => some (0x0660, { c with p0 := 3 })
  | .rcvQuery c => some (0x0661, c)
  | .rcvRelease c => some (0x0662, c)
  | .rcvDumpRead c => some (0x0664, c)
  | .pwrQuery c => some (0x0670, c)
  | .pwrSetPolicy c => some (0x0671, c)
  | .pwrSetDieState c => some (0x0672, c)
  | .pwrSetStateOff c => some (0x0672, { c with p0 := 4, p1 := 1 })
  | .pwrSetStateOn c => some (0x0672, { c with p0 := 4, p1 := 0 })
  | _ => none

end Sys2Proof
end

