-- ==== Sys2Proof/Certificates/Slice0/Obligations.lean ====
section
/-! DEFINITION. The statements about the model. -/

open Sys2Proof Sys2Proof.Machine

/-! ## The step -/

/-- A step takes the command at the front of the queue and runs it with the queue's rest. -/
def Obligations.StepRunsTheFront : Prop :=
  ∀ (s : State) (i : Instr) (rest : List Instr),
    step { s with pending := i :: rest } = exec i { s with pending := rest }

/-- With no command waiting the module idles: one nanosecond of module time passes while auxiliary power is present, and
nothing else changes (the model's choice, log 2). -/
def Obligations.IdleOnlyPassesTime : Prop :=
  ∀ s : State, s.pending = [] →
    step s = .next (if s.sys.aux then { s with sys := { s.sys with time := s.sys.time + 1 } } else s)

/-- Right after reset nothing waits, the log and the command table are in order, cast-on has ended with MOD_CAUSE step 15,
`ready` alone is set in MOD_STATUS, the node id is 1, MOD_EPOCH_OFFSET is 0, no context, volume, collection, shard or program
exists, partition 0 owns every compute die, and no queue or result slot differs from its reset value. The stepping, the
temperatures and the other values that the manual leaves open are the model's choice (log 3) and not stated. -/
def Obligations.ResetState : Prop :=
  State.reset.Inv ∧ State.reset.pending = [] ∧ State.reset.sys.status = 1 ∧ State.reset.sys.castStep = 15 ∧
  State.reset.sys.node = 1 ∧ State.reset.sys.epochOffset = 0 ∧ State.reset.cmds = [] ∧ State.reset.ctxs = [] ∧
  State.reset.vols = [] ∧ State.reset.cols = [] ∧ State.reset.shards = [] ∧ State.reset.programs = [] ∧
  (State.reset.part 0).dies = 0xF ∧ (∀ p, p ≠ 0 → State.reset.part? p = none) ∧
  (∀ n, State.reset.queue n = CtlQ.fresh) ∧ (∀ k, (State.reset.slot k).state = 0)

/-- Every step from a state whose log and command table are in order gives such a state: the ring holds consecutive sequence
numbers from LOG_FIRST to LOG_NEXT and at most 131,072 entries, the lasting log at most 262,144, and the command table at
most 65,536 commands, each under a number of its own. -/
def Obligations.StepKeepsLogAndCommandTable : Prop :=
  ∀ s t : State, s.Inv → step s = .next t → t.Inv

/-- Module time does not run back in a step of a module whose auxiliary power is present. -/
def Obligations.ModuleTimeNeverRunsBack : Prop :=
  ∀ s t : State, s.sys.aux = true → step s = .next t → s.sys.time ≤ t.sys.time

/-- No step clears a bit of the identity row that is 1, in any of its copies, or takes back a cast-on, the stepping or the
slot straps. There are three copies, and each bit reads as their majority. A write that would clear a set bit fails with
ST_NOT_PERMITTED and changes nothing, and every write of the row is logged as OTP_WRITTEN. -/
def Obligations.IdentityRowOnlyGainsOnes : Prop :=
  (∀ s t : State, step s = .next t → OtpSets s.sec.otp t.sec.otp ∧ s.sys.castOns ≤ t.sys.castOns ∧
    t.sys.stepping = s.sys.stepping ∧ t.sys.slotId = s.sys.slotId) ∧
  State.reset.sec.otp.length = 3 ∧
  (∀ (s : State) (a : Nat) (i : Nat),
    let copy (n : Nat) : Nat := if (Mem.read (s.sec.otp.getD n []) a).getLsbD i then 1 else 0
    (otpByte s a).getLsbD i = decide (2 ≤ copy 0 + copy 1 + copy 2)) ∧
  (∀ (s : State) (n : Nat) (l : Live), s.live? n = some l →
    (List.zip (otpBytes s l.c.offset.toNat l.data.length) l.data).any (fun e => decide (e.1 &&& ~~~e.2 ≠ 0)) = true →
    landedOf 0x0630 n s = fail n 0x0104 0 s) ∧
  (∀ (o : Word) (a : Nat) (bs : List Byte) (s : State), ∃ otp,
    otpSet o a bs s = addLog 0x070B o noUnit 0 [a, bs.length] { s with sec := { s.sec with otp := otp } })

/-- Every row answers a next state, and leaves the queue of waiting commands as it is. -/
def Obligations.EveryRowRunsAndKeepsTheQueue : Prop :=
  ∀ (i : Instr) (s : State), ∃ t, exec i s = .next t ∧ t.pending = s.pending

/-- While no command waits, no closed epoch is to be published and no shutdown is under way, what follows every row changes
nothing. -/
def Obligations.QuietStateSettlesToItself : Prop :=
  ∀ s : State, s.quiet = true → settle s = s

/-! ## The table of commands -/

/-- A command of a queue, an endpoint, a session or firmware that a check refuses is answered with that check's status and
detail, and is not admitted. A command over a link that a check refuses is answered too, and is counted as a violation of the
link when the status is ST_PROTOCOL_VIOLATION. A capsule whose tag is live on its link, or whose link carries no commands, is
dropped: nothing answers it, and on a link that is UP it counts as a violation. -/
def Obligations.RefusedCommands : Prop :=
  (∀ (op : Nat) (i : Instr) (c : Capsule) (s : State) (v : Half × Nat),
    i.command = some (op, c) → fabricOf c.origin = none → refusal op c (checkOf op c) s = some v →
    exec i s = .next (settle (refuse op c v s))) ∧
  (∀ (op : Nat) (i : Instr) (c : Capsule) (s : State) (v : Half × Nat) (node : BitVec 20) (l : LinkIx),
    i.command = some (op, c) → c.origin = .fabric node l → dropped op c s = false →
    refusal op c (checkOf op c) s = some v →
    exec i s = .next (settle (if v.1 = 0x0103 then violation l.val 317 (refuse op c v s) else refuse op c v s))) ∧
  (∀ (op : Nat) (i : Instr) (c : Capsule) (s : State) (node : BitVec 20) (l : LinkIx),
    i.command = some (op, c) → c.origin = .fabric node l → dropped op c s = true →
    exec i s = .next (settle (if (s.link l.val).st = .up then violation l.val 315 s else s)))

/-- A command that passes every check and that neither a power state nor an earlier command holds back enters the table under
the next number, in RUNNING, or waiting for its request data, and starts. -/
def Obligations.AcceptedCommandStarts : Prop :=
  ∀ (op : Nat) (i : Instr) (c : Capsule) (s : State), i.command = some (op, c) → accepted op c s = true →
    exec i s = .next (settle (startOf op s.nextCmd (s.entered op c))) ∧
    (s.entered op c).live? s.nextCmd = some (Capsule.entry op c s)

/-! ## Partitions and contexts -/

/-- PAR_CREATE makes a partition of the dies and the swatch fraction it names, with the scan engines it names taken from the
others, or with all scan engines dealt again when it names none; PAR_DELETE frees its dies, its store space and its firmware
contexts; PAR_SET_SHARES changes the shares that are not 0 and holds the time slice to 100 µs to 1 s and the starvation limit
to 1 ms to 1 s, logging POLICY_CLIPPED where it clips; PAR_SET_SWATCH sets the fraction and ends the tasks that can no longer
be placed; PAR_QUERY answers four records of 64 bytes and the unattributed energy in mJ, and changes nothing else. Each is
logged PARTITION_CHANGED and answered ST_OK. CTX_CREATE makes a context under the lowest free id with the priority, mode
word, save capacity (8 MiB when 0), depth (256 when 0) and affinity it names, within its partition's dies, and pins its save
area on each of them; the answer's detail is the id. While no frames can be had it ends with ST_NO_RESOURCE, and while
write-backs may give them it waits. CTX_DELETE ends the context's commands and endpoints and frees its save areas; CTX_SET
changes its priority and its affinity, each unless all ones, within its partition's dies; both end the tasks that can no
longer be placed or that the context issued, and are logged. CTX_COUNTERS answers the counter record with its snapshot time
and, with the clear flag, zeroes it in the same instant. CTX_QUERY answers a record of 16 bytes for each context of the
partition from id p0 on, at most 64. -/
def Obligations.PartitionAndContextCommands : Prop :=
  (∀ (s : State) (c : Capsule),
    (accepted 0x0120 c s = true →
      exec (.parCreate c) s =
        let b := s.entered 0x0120 c
        let q : Part :=
          { Part.fresh with dies := BitVec.ofNat 4 (c.p0.toNat / 16), swatch := BitVec.ofNat 2 (c.p0.toNat / 256),
                            scan := BitVec.ofNat 16 c.p1.toNat }
        .next (settle (succeed s.nextCmd 0 [] (logPart c
          (if c.p0.getLsbD 10 then
            { b with parts := Tbl.set (c.p0.toNat % 4) q
                                (Tbl.mapVals (fun _ x => { x with scan := x.scan &&& ~~~q.scan }) b.parts) }
          else dealScan { b with parts := Tbl.set (c.p0.toNat % 4) q b.parts }))))) ∧
    (accepted 0x0121 c s = true →
      exec (.parDelete c) s =
        let b := s.entered 0x0121 c
        let p := c.p0.toNat % 4
        .next (settle (succeed s.nextCmd 0 [] (refreshFenced (logPart c (dealScan
          { b with
            parts := Tbl.erase p b.parts
            ctxs := Tbl.keep (fun _ x => decide (x.part.val ≠ p)) b.ctxs
            stores := Tbl.set p Store.fresh b.stores
            media := { b.media with
              mapped := b.media.mapped - ((b.store p).ranges.map Range.pages).sum * 2097152 } })))))) ∧
    (accepted 0x0122 c s = true →
      exec (.parSetShares c) s =
        let b := s.entered 0x0122 c
        let p := c.p0.toNat % 4
        let slice := if c.p4 = 0 then (b.part p).sliceUs else max 100 (min 1000000 c.p4.toNat)
        let starve := if c.p5 = 0 then (b.part p).starveUs else max 1000 (min 1000000 c.p5.toNat)
        let u := b.modPart p fun x =>
          { x with
            shareFlash := if c.p1 = 0 then x.shareFlash else c.p1.toNat
            shareLinks := if c.p2 = 0 then x.shareLinks else c.p2.toNat
            sharePool := if c.p3 = 0 then x.sharePool else c.p3.toNat
            prioPreempt := !c.p0.getLsbD 8
            sliceUs := slice
            starveUs := starve }
        let u1 := if c.p4 = 0 ∨ c.p4.toNat = slice then u
          else addLog 0x070E (originWord c.origin) noUnit (ctxWord none (some p)) [4, c.p4.toNat, slice] u
        let u2 := if c.p5 = 0 ∨ c.p5.toNat = starve then u1
          else addLog 0x070E (originWord c.origin) noUnit (ctxWord none (some p)) [5, c.p5.toNat, starve] u1
        .next (settle (succeed s.nextCmd 0 [] (logPart c u2)))) ∧
    (accepted 0x0123 c s = true →
      exec (.parSetSwatch c) s =
        .next (settle (succeed s.nextCmd 0 [] (dropUnplaceable (logPart c
          ((s.entered 0x0123 c).modPart (c.p0.toNat % 4) fun x => { x with swatch := BitVec.ofNat 2 c.p1.toNat })))))) ∧
    (accepted 0x0124 c s = true →
      exec (.parQuery c) s =
        let b := s.entered 0x0124 c
        .next (settle (succeed s.nextCmd 0
          [(0, ([0, 1, 2, 3].flatMap (parRecord b)) ++ leBytes 8 (b.power.unattributedUj / 1000))] b)))) ∧
  (∀ (s f : State) (c : Capsule) (r : Option Bool), accepted 0x0130 c s = true →
    let p := c.partition.toNat
    let cap := if c.p2 = 0 then 8 else c.p2.toNat
    pinSaves cap p (diesOf (s.entered 0x0130 c) p) (s.entered 0x0130 c) = (f, r) →
    (r = none → exec (.ctxCreate c) s = .next (settle (fail s.nextCmd 0x0300 0 f))) ∧
    (r = some false → exec (.ctxCreate c) s = .next (settle (waitOnPage s.nextCmd f))) ∧
    (∀ i, r = some true → freeCtx (s.entered 0x0130 c) = some i →
      exec (.ctxCreate c) s =
        let dies := ((s.entered 0x0130 c).part p).dies
        let a : BitVec 4 := BitVec.ofNat 4 (c.p0.toNat / 4)
        let x : Ctx :=
          { part := c.partition.toFin, prio := BitVec.ofNat 2 c.p0.toNat, affinity := a &&& dies, mode := c.p1,
            onPreempt := c.p0.getLsbD 6, saveMiB := cap, depth := if c.p3 = 0 then 256 else c.p3.toNat, held := false,
            shardDie := none, search := false, ctr := {} }
        let g := foldOver (diesOf (s.entered 0x0130 c) p)
          (fun d acc => acc.modDie d fun y => { y with saveFrames := y.saveFrames + cap }) f
        .next (settle (succeed s.nextCmd i []
          (logAffinity c.origin p i a (logCtx 0x0130 i c { g with ctxs := Tbl.set i x g.ctxs })))))) ∧
  (∀ (s : State) (c : Capsule),
    (accepted 0x0131 c s = true →
      exec (.ctxDelete c) s = .next (settle (succeed s.nextCmd 0 []
        (logCtx 0x0131 c.p0.toNat c (dropCtx c.p0.toNat (s.entered 0x0131 c)))))) ∧
    (accepted 0x0132 c s = true →
      exec (.ctxSet c) s =
        let b := s.entered 0x0132 c
        let p := c.partition.toNat
        let a : BitVec 4 := BitVec.ofNat 4 c.p2.toNat
        let u := b.modCtx c.p0.toNat fun x =>
          { x with prio := if c.p1 = 0xFFFFFFFF then x.prio else BitVec.ofNat 2 c.p1.toNat
                   affinity := if c.p2 = 0xFFFFFFFF then x.affinity else a &&& (b.part p).dies }
        .next (settle (succeed s.nextCmd 0 [] (dropUnplaceable (logCtx 0x0132 c.p0.toNat c
          (if c.p2 = 0xFFFFFFFF then u else logAffinity c.origin p c.p0.toNat a u)))))) ∧
    (∀ x, accepted 0x0133 c s = true → s.ctx? c.p0.toNat = some x →
      exec (.ctxCounters c) s =
        let b := s.entered 0x0133 c
        .next (settle (succeed s.nextCmd 0 [(0, counterRecord x.ctr s.sys.time)]
          (if c.p1.getLsbD 0 then
            { b with
              ctxs := Tbl.modify c.p0.toNat (fun y => { y with ctr := { energyUj := x.ctr.energyUj % 1000 } }) b.ctxs
              power := { b.power with chargedCtr := Tbl.erase c.p0.toNat b.power.chargedCtr } }
          else b)))) ∧
    (accepted 0x0134 c s = true →
      exec (.ctxQuery c) s =
        let b := s.entered 0x0134 c
        let xs := (b.ctxs.filter fun e => decide (e.2.part.val = c.partition.toNat ∧ c.p0.toNat ≤ e.1)).take 64
        .next (settle (succeed s.nextCmd 0 [(0, xs.flatMap fun e => ctxRecord b e.1 e.2)] b))))

/-! ## Serving -/

/-- SRV_OPEN opens an endpoint under the next number, with a chunk of 512 and a budget of 4,096 tokens where it gives 0;
SRV_SUBMIT adds a sequence under the endpoint's next id and runs until the sequence ends; SRV_CANCEL marks a sequence in the
running step and ends one outside it at once with ST_ABORTED_RESET and detail 1; SRV_CLOSE closes the endpoint. A batch is
assembled only for an endpoint that has no step running and has work: its header, entries and result words are written at the
step's page, and then its PRG_RUN enters the context's queue; while the page is being fetched nothing but the wait happens. A
step whose command has ended advances every sequence of its batch (status ST_OK), ends those that are finished, cancelled or
failed, and counts up; the scans that wait for sequences are told. Energy is charged at most once per ms to the contexts that
used each unit. -/
def Obligations.Serving : Prop :=
  (∀ (s : State) (c : Capsule),
    (accepted 0x0510 c s = true →
      exec (.srvOpen c) s =
        let b := s.entered 0x0510 c
        let e : Endpoint :=
          { part := c.partition.toFin, prog := c.object, entry := c.p0.toNat, ctx := c.context, region := c.offset.toNat,
            chunk := if c.p1 = 0 then 512 else c.p1.toNat, budget := if c.p2 = 0 then 4096 else c.p2.toNat,
            limit := c.p3.toNat, seqs := [], nextSeq := 0, step := 0, running := none, finished := none }
        .next (settle (succeed s.nextCmd b.nextEndpoint []
          { b with endpoints := Tbl.set b.nextEndpoint e b.endpoints, nextEndpoint := b.nextEndpoint + 1 }))) ∧
    (accepted 0x0511 c s = true →
      exec (.srvSubmit c) s =
        let b := (s.entered 0x0511 c).modLive s.nextCmd fun l => { l with phase := .running }
        let add (x : Endpoint) : Endpoint :=
          { x with
            seqs := x.seqs ++
              [{ id := x.nextSeq, cmd := some s.nextCmd, scan := none, prompt := capDword c 0, promptLen := c.p2.toNat,
                 out := capDword c 3, maxNew := c.p5.toNat, done := 0, made := 0, cancelled := false }]
            nextSeq := x.nextSeq + 1 }
        .next (settle { b with endpoints := Tbl.modify c.offset.toNat add b.endpoints })) ∧
    (∀ e, accepted 0x0512 c s = true → Tbl.get? s.endpoints c.offset.toNat = some e →
      exec (.srvCancel c) s =
        let b := s.entered 0x0512 c
        let id := c.p0.toNat
        let marked : Endpoint := { e with seqs := e.seqs.map fun q => if q.id = id then { q with cancelled := true } else q }
        let without : Endpoint := { e with seqs := e.seqs.filter fun q => decide (q.id ≠ id) }
        .next (settle (succeed s.nextCmd 0 []
          (if e.inStep id then { b with endpoints := Tbl.set c.offset.toNat marked b.endpoints }
          else
            endSeqs (e.seqs.filter fun q => decide (q.id = id)) 0x0701 1
              { b with endpoints := Tbl.set c.offset.toNat without b.endpoints })))) ∧
    (accepted 0x0513 c s = true →
      exec (.srvClose c) s =
        let b := s.entered 0x0513 c
        .next (settle (succeed s.nextCmd 0 [] { b with endpoints := Tbl.erase c.offset.toNat b.endpoints })))) ∧
  (∀ (s : State) (k : Nat),
    (∀ e, Tbl.get? s.endpoints k = some e → e.running = none → batchOf e ≠ [] →
      exec (.batchAssemble k) s =
        let bs := batchBytes e.step (batchOf e)
        let at_ := e.region + (e.step % 2) * 2097152
        let a := writeRange e.part.val at_ bs e.ctx (pagesOf at_ bs.length) 0 s
        .next (settle (batchWritten k e (batchOf e) a.2.2 a.1))) ∧
    (∀ e items cmd st, Tbl.get? s.endpoints k = some e → e.running = some (items, cmd) → e.finished = some st →
      exec (.servingStepComplete k) s =
        let bs := storeRead s e.part.val (e.region + (e.step % 2) * 2097152) (32 + 20 * items.length)
        let out := e.seqs.map fun q => (q, seqOutcome e st bs items q)
        let stay := (out.filter fun x => x.2.isNone).map fun x => if st = 0 then advanceSeq items x.1 else x.1
        let e1 : Endpoint := { e with seqs := stay, step := e.step + 1, running := none, finished := none }
        let u : State := { s with endpoints := Tbl.set k e1 s.endpoints }
        .next (settle (feedScans (foldOver out (fun x acc =>
          match x.2 with
          | some v => endSeqs [x.1] v.1 v.2 acc
          | none => acc) u)))) ∧
    (∀ (units : List (Nat × Nat)) (t : Nat), s.power.chargedAt + 1000000 ≤ (s.tick t).sys.time →
      exec (.energyChargeTick units t) s =
        let u := foldOver units (fun x acc => chargeSplit (unitWeights (s.tick t) x.1) x.2 acc) (s.tick t)
        .next { u with power := { u.power with chargedAt := u.sys.time,
                                               chargedCtr := u.ctxs.map fun e => (e.1, e.2.ctr) } }))

/-! ## Store space -/

/-- STO_MAP maps a range under its hint, and counts its backing against the reserve; STO_UNMAP frees the frames, the bytes,
the ranges and the backing of its pages; STO_UNPIN returns its pinned pages to the pool; STO_QUERY answers 8 bytes a page in
page order and changes nothing else; STO_SET_POLICY changes the policy words that are not all ones and logs POLICY_CHANGED.
Each is answered ST_OK. STO_READ answers the bytes of its range once every page of it can be read, and counts those that
frames hold as HBM reads; while a page waits for a fetch the command waits. STO_DISCARD waits for the accesses and fetches of
its range before it, then returns its pages to ZERO, and is answered once no other command on the range is still to land.
STO_PIN pins the pages of its range while the partition's pin limit allows, and otherwise ends with ST_NO_RESOURCE. STO_WRITE
waits for its data. -/
def Obligations.StoreSpace : Prop :=
  (∀ (s : State) (c : Capsule),
    let p := c.partition.toNat
    (accepted 0x0140 c s = true →
      exec (.stoMap c) s =
        let b := s.entered 0x0140 c
        let r : Range :=
          { base := c.offset.toNat / 2097152, pages := c.length.toNat / 2097152, hint := c.p0.toNat, die := c.p1.toNat % 4 }
        .next (settle (succeed s.nextCmd 0 []
          { b with
            stores := Tbl.set p { b.store p with ranges := (b.store p).ranges ++ [r] } b.stores
            media := { b.media with mapped := b.media.mapped + c.length.toNat } }))) ∧
    (∀ l, accepted 0x0141 c s = true → (s.entered 0x0141 c).live? s.nextCmd = some l →
      rangeBusy (s.entered 0x0141 c) s.nextCmd l = false → rangePinned (s.entered 0x0141 c) c = false →
      exec (.stoUnmap c) s =
        let b := s.entered 0x0141 c
        let lo := c.offset.toNat / 2097152
        let n := c.length.toNat / 2097152
        let t : Store :=
          { ranges := cutRanges lo (lo + n) (b.store p).ranges
            pages := Tbl.keep (fun k _ => decide (k < lo ∨ lo + n ≤ k)) (b.store p).pages
            mem := Mem.zeroRange (lo * 2097152) (n * 2097152) (b.store p).mem }
        .next (settle (succeed s.nextCmd 0 []
          { b with
            stores := Tbl.set p t b.stores
            media := { b.media with mapped := b.media.mapped - c.length.toNat } }))) ∧
    (accepted 0x0143 c s = true →
      exec (.stoUnpin c) s =
        .next (settle (succeed s.nextCmd 0 [] (unpinList p (pagesOf c.offset.toNat c.length.toNat) (s.entered 0x0143 c))))) ∧
    (accepted 0x0147 c s = true →
      exec (.stoQuery c) s =
        let b := s.entered 0x0147 c
        .next (settle (succeed s.nextCmd 0
          [(0, (pagesOf c.offset.toNat c.length.toNat).flatMap fun g => leBytes 8 (pageRecord b p g))] b))) ∧
    (accepted 0x0148 c s = true →
      exec (.stoSetPolicy c) s =
        let b := s.entered 0x0148 c
        let keep (w : Word) (old : Nat) : Nat := if w = 0xFFFFFFFF then old else w.toNat
        let u := b.modPart p fun x =>
          { x with floor := keep c.p0 x.floor, pinLimit := keep c.p1 x.pinLimit, tierMs := keep c.p2 x.tierMs,
                   prefetch := keep c.p3 x.prefetch, idleH := keep c.p4 x.idleH }
        .next (settle (succeed s.nextCmd 0 [] (addLog 0x0706 (originWord c.origin) noUnit (ctxWord none (some p))
          [c.p0.toNat, c.p1.toNat, c.p2.toNat, c.p3.toNat] u))))) ∧
  (∀ (s : State) (c : Capsule),
    let p := c.partition.toNat
    let pages := pagesOf c.offset.toNat c.length.toNat
    (∀ a, accepted 0x0144 c s = true → readRange p pages c.context (s.entered 0x0144 c) = (a, .ok) →
      exec (.stoRead c) s =
        .next (settle (succeed s.nextCmd 0 [(0, storeRead (s.entered 0x0144 c) p c.offset.toNat c.length.toNat)]
          ((chargeWait s.nextCmd a).count c.context.toNat fun k =>
            { k with hbmRead := k.hbmRead + framedBytes (s.entered 0x0144 c) p c.offset.toNat c.length.toNat })))) ∧
    (∀ a, accepted 0x0144 c s = true → readRange p pages c.context (s.entered 0x0144 c) = (a, .wait) →
      exec (.stoRead c) s = .next (settle (waitOnPage s.nextCmd a))) ∧
    (accepted 0x0146 c s = true →
      let b := s.entered 0x0146 c
      (∀ l, b.live? s.nextCmd = some l → rangeBusy b s.nextCmd l = true →
        exec (.stoDiscard c) s = .next (settle (b.modLive s.nextCmd fun x => { x with phase := .ordered }))) ∧
      (∀ l, b.live? s.nextCmd = some l → rangeBusy b s.nextCmd l = false → rangePinned b c = false →
        exec (.stoDiscard c) s = .next (settle (acknowledge s.nextCmd 0
          (dropPages p (c.offset.toNat / 2097152) (c.length.toNat / 2097152) false b))))) ∧
    (accepted 0x0142 c s = true →
      let b := s.entered 0x0142 c
      let want := (pages.filter fun g => !((b.store p).page g).pinned).length
      ((b.part p).pinLimit < pinnedPages b p + (b.part p).pinned + want →
        exec (.stoPin c) s = .next (settle (fail s.nextCmd 0x0300 0 b))) ∧
      (∀ a, pinnedPages b p + (b.part p).pinned + want ≤ (b.part p).pinLimit →
        pages.foldl (fun acc g => if acc.2 = .ok then pinPage s.nextCmd p g c.context acc.1 else acc) (b, PageAccess.ok) = (a, .ok) →
        exec (.stoPin c) s = .next (settle (succeed s.nextCmd 0 [] (chargeWait s.nextCmd a))))) ∧
    (accepted 0x0145 c s = true → c.dataLen ≠ 0 →
      exec (.stoWrite c) s = .next (settle (s.entered 0x0145 c))))

/-- A FLASH page takes a frame and its one fetch starts, while fewer than 256 are in flight on the die, or takes a frame with
no fetch where its schedule entry is written whole; a fetch ends with the page RESIDENT_CLEAN, or POISONED and logged
PAGE_POISONED when it cannot be read, and is counted for the context it was made for. A write-back ends with the page FLASH,
counted for its context; after a failed program the page stays RESIDENT_DIRTY, out of the candidates for eviction, and
WRITEBACK_FAILED is logged; after an HBM error it is POISONED. A die begins to evict below 256 free frames and stops at 512;
a pool page past its partition's idle age limit is evicted; a schedule entry of the window whose need time has passed with a
page not resident is counted once; a request whose deadline has passed ends with ST_LOWER_TIER_FAILED. -/
def Obligations.PageTransfers : Prop :=
  (∀ (s : State) (p : PartIx) (pg : Nat),
    let g := (s.store p.val).page pg
    (∀ f d, (s.store p.val).mapped pg = true → g.st = .flash → wholeEntry s p.val pg = false →
      findFrame p.val pg 0 s = (f, some d) → fetchesOn f d < 256 →
      exec (.pageFetchStart p pg) s =
        .next (setPage p.val pg
          { g with st := .fetching, die := d, lastCtx := ((windowOwner s p.val pg).map Prod.fst).getD g.lastCtx } f)) ∧
    (∀ f d, (s.store p.val).mapped pg = true → g.st = .flash → wholeEntry s p.val pg = true →
      findFrame p.val pg 256 s = (f, some d) →
      exec (.pageFetchStart p pg) s =
        .next (openPage p.val pg (setPage p.val pg { g with st := .dirty, die := d, stamp := s.sys.time / 1000000 } f))) ∧
    (∀ readable t, g.st = .fetching →
      exec (.pageFetchComplete p pg readable t) s =
        let u := (s.tick t).count g.lastCtx.toNat fun k =>
          { k with fetchPages := k.fetchPages + 1, flashRead := k.flashRead + 2097152 }
        .next (settle (
          if readable then
            setPage p.val pg { g with st := .clean, pinned := g.pinned || g.pinAfter, pinAfter := false,
                                      stamp := (s.tick t).sys.time / 1000000 } u
          else addLog 0x0209 0x50000000 noUnit (ctxWord none (some p.val)) [p.val, pg]
            (setPage p.val pg { Page.zero with st := .poisoned } u))))) ∧
  (∀ (s : State) (p : PartIx) (pg : Nat), ((s.store p.val).page pg).st = .writing →
    let g := (s.store p.val).page pg
    (exec (.writebackComplete p pg .held) s =
      .next (settle (setPage p.val pg { g with st := .flash, die := 0 } (s.count g.lastCtx.toNat fun k =>
        { k with writebackPages := k.writebackPages + 1, flashWrite := k.flashWrite + 2097152 })))) ∧
    (exec (.writebackComplete p pg .channelFailed) s =
      .next (settle (addLog 0x0205 0x50000000 noUnit (ctxWord none (some p.val)) [p.val, pg]
        (setPage p.val pg { g with st := .dirty, stuck := true } s)))) ∧
    (exec (.writebackComplete p pg .hbmError) s =
      .next (settle (eccUncorrectable (.tierDma (dieIx g.die)) pg none
        (setPage p.val pg { Page.zero with st := .poisoned } s))))) ∧
  (∀ (s : State) (t : Nat),
    (∀ d : DieIx, freeFrames s d.val < 256 →
      exec (.freeReserveEvict d) s = .next (evictAhead d.val 512 (s.modDie d.val fun x => { x with evicting := true }))) ∧
    (∀ d : DieIx, 512 ≤ freeFrames s d.val →
      exec (.freeReserveEvict d) s = .next (s.modDie d.val fun x => { x with evicting := false })) ∧
    (∀ (p : PartIx) (pg : Nat),
      let u := s.tick t
      let g := (u.store p.val).page pg
      evictable u p.val p.val g = true → (u.part p.val).idleH * 3600000 < u.sys.time / 1000000 - g.stamp →
      exec (.idleAgeExpiry p pg t) s = .next (evictPage (p.val, pg, g) p.val u)) ∧
    (∀ (d : DieIx) (entry : Nat) (x : Stream) (need : Nat),
      let u := s.tick t
      (u.die d.val).stream = some x → needTime u x entry = some need → need < u.sys.time →
      (∃ k, k < schedPages (progImage u x.prog) entry ∧
        (u.store (streamPart u x)).mapped (schedBase (progImage u x.prog) entry + k) = true ∧
        (((u.store (streamPart u x)).page (schedBase (progImage u x.prog) entry + k)).st = .flash ∨
         ((u.store (streamPart u x)).page (schedBase (progImage u x.prog) entry + k)).st = .fetching)) →
      exec (.prefetchLate d entry t) s =
        .next (u.count x.ctx.toNat fun k => { k with prefetchLate := min (k.prefetchLate + 1) 4294967295 })) ∧
    (∀ (n : Nat) (l : Live) (t0 : Nat),
      let u := s.tick t
      u.live? n = some l → l.waitSince = some t0 → l.phase = .pages →
      t0 + 1000000 * (u.part l.c.partition.toNat).tierMs ≤ u.sys.time →
      exec (.tierDeadline (.command n) t) s =
        .next (settle (abort n 0x0301 (addLog 0x0206 0x50000000 noUnit
          (ctxWord (some l.c.context.toNat) (some l.c.partition.toNat))
          [l.c.partition.toNat, l.c.offset.toNat / 2097152] u)))))

/-! ## Programs -/

/-- PRG_LOAD copies an image that passes every load check into pinned frames of its partition's lowest die; an image that
fails check k ends with ST_BAD_PARAM and detail k. PRG_RUN enters its task among those that wait for dies. PRG_UNLOAD frees
the program, its frames and its row memory. -/
def Obligations.ProgramCommands : Prop :=
  ∀ (s : State) (c : Capsule),
    (∀ a, accepted 0x0501 c s = true →
      let b := s.entered 0x0501 c
      let p := c.partition.toNat
      let img := storeRead b p c.offset.toNat c.length.toNat
      readRange p (pagesOf c.offset.toNat c.length.toNat) c.context b = (a, .ok) →
      (loadCheck img ≠ 0 → exec (.prgLoad c) s = .next (settle (fail s.nextCmd 0x0101 (loadCheck img) a))) ∧
      (∀ f, loadCheck img = 0 →
        let need := (img.length + 2097151) / 2097152
        pinFrames (lowestDie b p) need p a = (f, some true) →
        exec (.prgLoad c) s =
          let u := chargeWait s.nextCmd (f.modDie (lowestDie b p) fun x => { x with progFrames := x.progFrames + need })
          let g : Program :=
            { part := c.partition.toFin, image := img, frames := need, die := lowestDie b p, slots := vecSlotsUsed img,
              damaged := false }
          .next (settle (succeed s.nextCmd 0 [] { u with programs := Tbl.set c.object.toNat g u.programs })))) ∧
    (accepted 0x0502 c s = true →
      exec (.prgRun c) s =
        let b := (s.entered 0x0502 c).modLive s.nextCmd fun l => { l with phase := .running }
        let k : Task :=
          { id := b.nextTask, kind := .stream, part := partIx c.partition.toNat, ctx := c.context, service := false, cmd := s.nextCmd,
            admitted := s.sys.time, dies := (List.range 32).filter fun d => c.p5.getLsbD d, resumed := false, item := 0,
            starved := false }
        .next (settle (dropUnplaceable { b with tasks := b.tasks ++ [k], nextTask := b.nextTask + 1 }))) ∧
    (∀ g, accepted 0x0503 c s = true → Tbl.get? s.programs c.object.toNat = some g →
      exec (.prgUnload c) s =
        let b := (s.entered 0x0503 c).modDie g.die fun x => { x with progFrames := x.progFrames - g.frames }
        let u := foldOver [0, 1, 2, 3] (fun d acc =>
          acc.modDie d fun x => { x with rows := x.rows.filter fun r => decide (r.1 ≠ c.object) }) b
        .next (settle (succeed s.nextCmd 0 [] { u with programs := Tbl.erase c.object.toNat u.programs })))

/-! ## Shards -/

/-- SHD_CREATE pins the shard's frames, and the landing pool's on a die that has none, and starts the shard service where the
die has none; SHD_DELETE frees the frames, and ends the service of a die left without a shard. SHD_SET_GROUPS and
SHD_SET_CURVE take effect from the step after the newest that any chunk has begun, once their data has landed. -/
def Obligations.ShardSetup : Prop :=
  ∀ (s : State) (c : Capsule),
    (∀ f, accepted 0x0401 c s = true →
      let h := newShard c
      let d := h.die.val
      let land := if ((s.entered 0x0401 c).die d).landingFrames = 0 then 512 else 0
      pinFrames d (shardPins h + land) c.partition.toNat (s.entered 0x0401 c) = (f, some true) →
      exec (.shdCreate c) s =
        let u := f.modDie d fun x =>
          { x with shardFrames := x.shardFrames + shardPins h, landingFrames := x.landingFrames + land }
        let v : State := { u with shards := Tbl.set c.object.toNat { h with frames := shardPins h } u.shards }
        .next (settle (succeed s.nextCmd 0 [] (match serviceOf v d, freeCtx v with
          | none, some i => { v with ctxs := Tbl.set i (serviceCtx h.part (some d) false) v.ctxs }
          | _, _ => v)))) ∧
    (∀ h, accepted 0x0402 c s = true → s.shard? c.object.toNat = some h →
      exec (.shdDelete c) s =
        let u := (s.entered 0x0402 c).modDie h.die.val fun x => { x with shardFrames := x.shardFrames - h.frames }
        let v : State := { u with shards := Tbl.erase c.object.toNat u.shards }
        .next (settle (succeed s.nextCmd 0 []
          (if v.shards.any fun e => decide (e.2.die.val = h.die.val) then v
          else { v with ctxs := Tbl.keep (fun _ x => decide (x.shardDie ≠ some h.die.val)) v.ctxs })))) ∧
    (accepted 0x0403 c s = true → c.dataLen ≠ 0 →
      exec (.shdSetGroups c) s = .next (settle (s.entered 0x0403 c))) ∧
    (accepted 0x0404 c s = true → c.dataLen ≠ 0 →
      exec (.shdSetCurve c) s = .next (settle (s.entered 0x0404 c))) ∧
    (∀ n l h, s.live? n = some l → s.shard? l.c.object.toNat = some h →
      startsOk h (groupsOf l.data l.c.p0.toNat) = true →
      (∀ g ∈ groupsOf l.data l.c.p0.toNat, badEntry h g.entry = false) →
      landedOf 0x0403 n s = succeed n (h.begun + 1) [] (s.modShard l.c.object.toNat fun x =>
        newSettings x fun y => { y with groups := groupsOf l.data l.c.p0.toNat })) ∧
    (∀ n l, s.live? n = some l →
      let points := fieldAt l.data 0 4
      1 ≤ points → points ≤ 64 → fieldAt l.data 4 60 = 0 →
      (∀ q ∈ (curveOf l.data).zip ((curveOf l.data).drop 1), q.1.1 < q.2.1) →
      landedOf 0x0404 n s = succeed n 0 [] (s.modShard l.c.object.toNat fun x =>
        newSettings x fun y => { y with curves := Tbl.set l.c.p0.toNat (curveOf l.data) y.curves }))

/-- SHD_IMPORT copies weights and states in from store space and makes its chunks whole again; SHD_EXPORT copies them out at
its step; SHD_STEP_STATUS answers S and 8 bytes a chunk; SHD_READ_WEIGHTS answers the published values when every chunk of
its range has completed exactly its step, ends with ST_EPOCH_RETIRED when one has gone past it, and otherwise waits. -/
def Obligations.ShardData : Prop :=
  ∀ (s : State) (c : Capsule) (h : Shard), s.shard? c.object.toNat = some h →
    let p := c.partition.toNat
    let at_ := c.p0.toNat + 4294967296 * c.p1.toNat
    let lo := c.offset.toNat
    let len := c.length.toNat
    (∀ a, accepted 0x0405 c s = true →
      readRange p (pagesOf at_ (4 * len * (1 + h.states))) c.context (s.entered 0x0405 c) = (a, .ok) →
      exec (.shdImport c) s =
        let ws (i : Nat) : List Word := bytesWords (storeRead (s.entered 0x0405 c) p (at_ + 4 * len * i) (4 * len)) len
        .next (settle (succeed s.nextCmd 0 [] ((chargeWait s.nextCmd a).modShard c.object.toNat fun y =>
          let y1 : Shard :=
            { y with
              w := putElems lo (ws 0) y.w
              s1 := if 1 ≤ y.states then putElems lo (throughFormat y.stateFmt (ws 1)) y.s1 else y.s1
              s2 := if y.states = 2 then putElems lo (throughFormat y.stateFmt (ws 2)) y.s2 else y.s2 }
          (chunksIn c).foldl
            (fun y k => y.modChunk k fun x => { x with damaged := false, lost := false, nonfinite := false }) y1)))) ∧
    (∀ a n, accepted 0x0406 c s = true → stepMeets h c c.p2.toNat = some true →
      let bs := wordsBytes (elemsAt h.w lo len) ++ (if 1 ≤ h.states then wordsBytes (elemsAt h.s1 lo len) else []) ++
        (if h.states = 2 then wordsBytes (elemsAt h.s2 lo len) else [])
      writeRange p at_ bs c.context (pagesOf at_ bs.length) 0 (s.entered 0x0406 c) = (a, n, .ok) →
      exec (.shdExport c) s =
        .next (settle (succeed s.nextCmd 0 [] (chargeWait s.nextCmd
          ((a.modLive s.nextCmd fun x => { x with sent := n }).modLive s.nextCmd fun x => { x with sent := 0 }))))) ∧
    (accepted 0x0412 c s = true →
      exec (.shdStepStatus c) s =
        let one (k : Nat) : List Byte :=
          let x := h.chunk k
          leBytes 4 x.n ++ leBytes 2 x.bits.length ++
            leBytes 2 ((if x.late then 1 else 0) + (if x.nonfinite then 2 else 0) + (if x.lost then 4 else 0))
        .next (settle (succeed s.nextCmd 0
          [(0, leBytes 8 h.step ++ (List.range len).flatMap fun i => one (lo + i))] (s.entered 0x0412 c)))) ∧
    (accepted 0x0420 c s = true →
      exec (.shdReadWeights c) s = .next (settle (match stepMeets h c c.p0.toNat with
        | some true => succeed s.nextCmd 0 [(0, formatBytes h.pubFmt (elemsAt h.w lo len))] (s.entered 0x0420 c)
        | some false => fail s.nextCmd 0x0600 0 (s.entered 0x0420 c)
        | none => (s.entered 0x0420 c).modLive s.nextCmd fun x => { x with phase := .ordered })))

/-- SHD_PUSH_GRAD waits for its data; a contribution that has landed while its step is open is added element by element to
its chunk's sum, is answered ST_OK, and starts the step when it is the last of the shard's contributors; one whose step is
closed meanwhile is refused with ST_EPOCH_RETIRED. SHD_CLOSE_STEP acts on every chunk that has completed the step before and
does not run: its step is abandoned, or started with the contributions present. A step whose deadline has passed without
every contributor is logged STEP_LATE once, with the missing indices, and the reads held for it end with ST_PENDING. An event
of a shard is over with any reply, or 10 ms after it left, logged CQ_EVENT_LOST. -/
def Obligations.ShardSteps : Prop :=
  (∀ (s : State) (c : Capsule),
    (accepted 0x0410 c s = true → c.dataLen ≠ 0 →
      exec (.shdPushGrad c) s = .next (settle (s.entered 0x0410 c))) ∧
    (∀ n l h, s.live? n = some l → s.shard? l.c.object.toNat = some h →
      landedOf 0x0410 n s =
        let k := l.c.offset.toNat / 262144
        let ch := h.chunk k
        let v := contribution (l.c.p2.toNat % 16) (h.elems k) l.data
        let place := if ch.place = .none then takePlace s h.die.val else ch.place
        let u := succeed n 0 [] ((s.modShard l.c.object.toNat fun x => x.modChunk k fun y =>
          { Chunk.accept l.c.p1.toNat place s.sys.time y with
            sum := if y.sum.isEmpty then v else List.zipWith (fun a b => (f32Add a b).1) y.sum v
            added := y.added ++ [l.c.p1.toNat] }).modLive n fun x => { x with applied := true })
        if l.c.p0.toNat ≠ ch.n + 1 ∨ ch.running.isSome then fail n 0x0600 0 s
        else if ch.added.contains l.c.p1.toNat then fail n 0x0103 0 s
        else match (u.shard? l.c.object.toNat).map fun x => (x.chunk k, x.contributors) with
        | some (y, m) => if y.added.length = m ∧ y.running.isNone = true then startStep l.c.object.toNat k m u else u
        | none => u) ∧
    (∀ h, accepted 0x0411 { c with p1 := 0 } s = true → s.shard? c.object.toNat = some h →
      exec (.shdCloseStepAbandon c) s =
        let b := s.entered 0x0411 { c with p1 := 0 }
        let ks := (List.range h.count).filter fun k =>
          decide ((h.chunk k).n + 1 = c.p0.toNat) && (h.chunk k).running.isNone
        .next (settle (succeed s.nextCmd 0 [] (raiseStep c.object.toNat h.step
          (foldOver ks (fun k acc => acc.modShard c.object.toNat fun y => y.modChunk k (Chunk.advance c.p0.toNat)) b))))) ∧
    (∀ h, accepted 0x0411 { c with p1 := 1 } s = true → s.shard? c.object.toNat = some h →
      exec (.shdCloseStepPartial c) s =
        let b := s.entered 0x0411 { c with p1 := 1 }
        let ks := (List.range h.count).filter fun k =>
          decide ((h.chunk k).n + 1 = c.p0.toNat) && (h.chunk k).running.isNone
        .next (settle (succeed s.nextCmd 0 [] (raiseStep c.object.toNat h.step
          (foldOver ks (fun k acc =>
            if 0 < (h.chunk k).added.length then startStep c.object.toNat k (h.chunk k).added.length acc
            else acc.modShard c.object.toNat fun y => y.modChunk k (Chunk.advance c.p0.toNat)) b)))))) ∧
  (∀ (s : State) (shard : Word) (h : Shard) (t : Nat), (s.tick t).shard? shard.toNat = some h →
    (∀ k t0, (h.chunk k).firstAt = some t0 → h.deadline ≠ 0 → t0 + 1000000 * h.deadline ≤ (s.tick t).sys.time →
      (h.chunk k).running = none → (h.chunk k).late = false →
      exec (.stepLate shard k t) s =
        let missing := (List.range h.contributors).filter fun i => !(h.chunk k).bits.contains i
        let u := raiseAttention shard.toNat k (addLog 0x0401 0x50000000 noUnit (ctxWord none (some h.part.val))
          ([k, (h.chunk k).n + 1] ++ missing.take 6)
          ((s.tick t).modShard shard.toNat fun y => y.modChunk k fun c => { c with late := true }))
        let held := ((s.tick t).cmds.filter fun e =>
          decide (e.2.op = 0x0420 ∧ e.2.c.object.toNat = shard.toNat ∧ (h.chunk k).n < e.2.c.p0.toNat ∧
            e.2.c.offset.toNat / 262144 ≤ k ∧ k ≤ (e.2.c.offset.toNat + e.2.c.length.toNat - 1) / 262144)).map Prod.fst
        .next (settle (foldOver held (fun m acc => fail m 0x0001 0 acc) u))) ∧
    (∀ code t0 node l, (if code = 1#16 then h.stepSent else h.attnSent) = some t0 → h.creator = .fabric node l →
      t0 + 10000000 ≤ (s.tick t).sys.time →
      exec (.shdEventTimeout shard code t) s =
        .next (eventOver shard.toNat code.toNat
          (addLog 0x0307 0x50000000 noUnit (ctxWord none (some h.part.val)) [node.toNat] (s.tick t)))) ∧
    (∀ code status, s.shard? shard.toNat = some h → (if code = 1#16 then h.stepSent else h.attnSent) ≠ none →
      exec (.shdEventReply shard code status) s = .next (eventOver shard.toNat code.toNat s)))

/-- COEF evaluates a group's entry and curves at its step for the next UPDATE, which it reaches 40 cycles later; UPDATE
computes one group of 256 elements with the coefficients loaded for it and holds the result 48 cycles later; the chunk's step
is complete once every group is held: the new weights and states are written, n advances by one and the step event is raised.
-/
def Obligations.ShardUpdates : Prop :=
  ∀ (s : State) (j : EngIx) (shard : Word) (h : Shard), s.shard? shard.toNat = some h →
    (∀ (group : Nat) (t : Word) (x : Settings) (g : Group), settingsAt h t.toNat = some x → x.groups[group]? = some g →
      exec (.coef h.die j shard group t) s =
        let e := g.entry.toNat
        let curve (k : Nat) : Word := curveAt (Tbl.getD x.curves k []) t.toNat
        let k : Coef :=
          { eta := (f32Mul (coefWord g.entry 9) (curve (bits e 336 12))).1,
            b1 := if bit e 324 then curve (bits e 348 12) else 0x3F800000,
            b2 := if bit e 324 ∧ bits e 322 2 = 0 then curve (bits e 360 12) else 0x3F800000,
            shard := shard, group := group, t := t }
        .next (s.modDie h.die.val fun y => y.modEngine j.val fun v =>
          let op : VecOp :=
            { retireAt := (v.flight.foldl (fun m o => max m o.retireAt) 0) + 40, eff := .coef k, token := none, flag := none,
              sats := 0, nans := 0, row := 0, plan := 0, op := 0x50 }
          { v with flight := v.flight ++ [op] })) ∧
    (∀ (chunk q r : Nat) (k : Coef) (x : Settings),
      ((s.die h.die.val).engine j.val).coef = some k → settingsAt h ((h.chunk chunk).n + 1) = some x →
      (h.chunk chunk).running = some r → k.shard = shard → k.t.toNat = (h.chunk chunk).n + 1 → 256 * q < h.elems chunk →
      groupIndex x.groups (chunk * 262144 + 256 * q) = some k.group →
      ((s.die h.die.val).engine j.val).chunk = some (shard, chunk) →
      exec (.update h.die j shard chunk q .clean) s =
        let u := updateGroup h x k chunk q r
        let b := s.modDie h.die.val fun y => y.modEngine j.val fun v =>
          let op : VecOp :=
            { retireAt := (v.flight.foldl (fun m o => max m o.retireAt) 0) + 48,
              eff := .group shard (chunk * 262144 + 256 * q) u.1 u.2.1 u.2.2.1, token := none, flag := none,
              sats := u.2.2.2, nans := 0, row := 0, plan := 0, op := 0x51 }
          { v with flight := v.flight ++ [op] }
        .next (b.modShard shard.toNat fun y => y.modChunk chunk fun z => { z with waitSince := none })) ∧
    (∀ (k : Nat), (h.chunk k).running.isSome = true → (h.chunk k).updated.length = (h.elems k + 255) / 256 →
      exec (.chunkStepComplete shard k) s =
        let put (sel : List Word × List Word × List Word → List Word) (t : Tbl Word) : Tbl Word :=
          (h.chunk k).updated.foldl (fun t g => putElems (k * 262144 + 256 * g.1) (sel g.2) t) t
        .next (settle (raiseStep shard.toNat h.step (dropChunk shard.toNat k (s.modShard shard.toNat fun y =>
          { y.modChunk k (Chunk.advance ((h.chunk k).n + 1)) with
            w := put (fun g => g.1) y.w
            s1 := put (fun g => g.2.1) y.s1
            s2 := put (fun g => g.2.2) y.s2 })))))

/-! ## The sequencer -/

/-- The control operations of a stream that runs. END ends issue. BRANCH goes to its target when its condition holds and else
changes nothing. IX_SET and IX_ADD write an index register, ix0 excepted, modulo 2^32. FLAG_CLEAR clears one flag. LOOP with
a count of zero goes past its last row; with a count it pushes a level, and on a full stack of eight it traps with cause 4.
STITCH saves, or only records the marker of an ON_PREEMPT context without a request. TRAP traps with cause 8 and its code.
MARK writes its immediate to the trace. A taken target costs three cycles. -/
def Obligations.ControlRows : Prop :=
  ∀ (s : State) (d : DieIx) (k : CtlSlot) (x : Stream), (s.die d.val).stream = some x → x.ended = false →
    let core (f : Core → Core) (u : State) : State :=
      u.modDie d.val (Die.modStream fun y => { y with core := f y.core })
    let jump (row : Nat) (u : State) : State :=
      u.modDie d.val (Die.modStream fun y =>
        { y with core := { y.core with pc := row }, cycle := y.cycle + 3, since := y.since + 3 })
    let n := loopCount x.core k
    exec (.endStream d k) s = .next (s.modDie d.val (Die.modStream fun y => { y with ended := true })) ∧
    (branchTaken x.core k = true → exec (.branch d k) s = .next (jump k.target.toNat (core (fun _ => x.core) s))) ∧
    (branchTaken x.core k = false → exec (.branch d k) s = .next (core (fun _ => x.core) s)) ∧
    exec (.ixSet d k) s =
      .next (core (fun _ => if k.fa = 0 then x.core else { x.core with ix := x.core.ix.set k.fa.toNat k.imm }) s) ∧
    exec (.ixAdd d k) s =
      .next (core (fun _ => if k.fa = 0 then x.core else
        { x.core with ix := x.core.ix.set k.fa.toNat ((if k.fb = 0 then 0 else x.core.ix.getD k.fb.toNat 0) + k.imm) }) s) ∧
    exec (.flagClear d k) s =
      .next (core (fun _ => { x.core with flags := putFlag x.core.flags k.flag.toNat false }) s) ∧
    (n = 0 →
      exec (.loop d k) s = .next (settle (jump
        (k.target.toNat + ((rowAt (progImage s x.prog) k.target.toNat).map Row.size).getD 0) (core (fun _ => x.core) s)))) ∧
    (n ≠ 0 → x.core.loops.length < 8 →
      exec (.loop d k) s = .next (settle (core (fun _ =>
        { x.core with loops := { remaining := n, start := x.core.pc, stop := k.target.toNat } :: x.core.loops }) s))) ∧
    (n ≠ 0 → 8 ≤ x.core.loops.length →
      exec (.loop d k) s = .next (settle (trapStream d.val 4 0x0500 s))) ∧
    exec (.trap d k) s = .next (settle (trapWith d.val 8 [k.imm.toNat % 65536] 0x0500 s)) ∧
    exec (.mark d k) s =
      .next (s.modDie d.val fun y => { y with trace := y.trace ++ [(k.imm, x.plan, s.sys.time)] }) ∧
    (∀ q, s.ctx? x.ctx.toNat = some q → q.onPreempt = true → x.preempt = false →
      exec (.stitch d k) s = .next (s.modDie d.val (Die.modStream fun y => { y with since := 0, passes := [] }))) ∧
    (∀ q, s.ctx? x.ctx.toNat = some q → (q.onPreempt = false ∨ x.preempt = true) →
      exec (.stitch d k) s =
        let e := drainCycle (s.die d.val) x.cycle
        .next ((s.modDie d.val (Die.modStream fun y =>
          { y with cycle := e, stall := some (.marker (k.imm.toNat % 256) x.row x.plan) })).count x.ctx.toNat fun z =>
            { z with marker := z.marker + (e - x.cycle) }))

/-- SET and CLEAR act on every named token. A wait that is satisfied lets the stream go on, WAIT_CLEAR clearing the SET
tokens it names; on a FAILED token it traps with cause 7; else issue is held from now. A held wait ends when its tokens
allow, its cycles counted, and traps with cause 6 once its limit has passed. -/
def Obligations.SyncAndWaits : Prop :=
  ∀ (s : State) (d : DieIx) (y : SyncSlot) (x : Stream) (t : Nat), (s.die d.val).stream = some x → x.ended = false →
    let u := s.tick t
    let core (f : Core → Core) (u : State) : State :=
      u.modDie d.val (Die.modStream fun z => { z with core := f z.core })
    let held (h : Stall) (u : State) : State := u.modDie d.val (Die.modStream fun z => { z with stall := some h })
    exec (.setOp d y) s = .next (core (actAll .set y) s) ∧
    exec (.clearOp d y) s = .next (core (actAll .clear y) s) ∧
    (waitFor x.core y = .ok →
      exec (.wait d y t) s = .next (settle u) ∧ exec (.waitClear d y t) s = .next (settle (core (clearSet y) u))) ∧
    (waitFor x.core y = .held →
      exec (.wait d y t) s = .next (settle (held (.wait y false u.sys.time) u)) ∧
      exec (.waitClear d y t) s = .next (settle (held (.wait y true u.sys.time) u))) ∧
    (∀ k, waitFor x.core y = .failed k →
      exec (.wait d y t) s = .next (settle (trapStream d.val 7 (Tbl.getD x.core.failSt k 0x0500) u)) ∧
      exec (.waitClear d y t) s = .next (settle (trapStream d.val 7 (Tbl.getD x.core.failSt k 0x0500) u))) ∧
    (∀ clear since, x.stall = some (.wait y clear since) → waitFor x.core y = .ok →
      rowAt (progImage s x.prog) x.core.pc = none →
      exec (.waitSatisfied d) s =
        let n := cyclesIn (s.die d.val) (s.sys.time - since)
        let v := (s.modDie d.val (Die.modStream fun z => { z with stall := none, cycle := z.cycle + n })).count x.ctx.toNat
          fun k => { k with waitStall := k.waitStall + n }
        .next (settle (waitFailed d.val (if clear then core (clearSet y) v else v)))) ∧
    (∀ clear since, x.stall = some (.wait y clear since) → y.timeout ≠ 0 →
      since + 1000 * y.timeout.toNat ≤ u.sys.time →
      exec (.waitTimeout d t) s = .next (settle (trapStream d.val 6 0x0500 u)))

/-- A row whose operands lie in range, whose wait is satisfied and which nothing blocks issues all its slots; a full waiting
place or mover holds it, and issue goes on once there is room. After 65,536 cycles without a marker the stream traps with
cause 5. A stream that has ended and whose work has finished leaves its die, and its command completes with the last stream
of its launch. -/
def Obligations.RowIssueAndStalls : Prop :=
  ∀ (s : State) (d : DieIx) (x : Stream), (s.die d.val).stream = some x → x.swatch = none →
    (∀ r, x.ended = false → x.stall = none → x.since < 65536 →
      rowAt (progImage s x.prog) x.core.pc = some r →
      (∀ y, rowWait r = some y → waitFor x.core y.2 = .ok) →
      (rowBlocked (s.die d.val) x r = none → rowInRange (progImage s x.prog) x.core.ix r = true →
        exec (.rowIssue d .clean .clean) s = .next (settle (issueSlots d.val x r s))) ∧
      (∀ b, rowBlocked (s.die d.val) x r = some b →
        exec (.rowIssue d .clean .clean) s = .next (settle (stallOn d.val (.structural b.1 b.2 s.sys.time)
          (s.modDie d.val (Die.modStream fun y => { y with row := x.core.pc, plan := r.plan })))))) ∧
    (x.ended = false → x.stall = none → x.since < 65536 → rowAt (progImage s x.prog) x.core.pc = none →
      exec (.rowIssue d .clean .clean) s = .next (settle (trapStream d.val 10 0x0500 s))) ∧
    (∀ c m since, x.stall = some (.structural (some c) m since) → ((s.die d.val).cluster c).waiting.isNone = true →
      (∀ k, m = some k → ((s.die d.val).mover k).length < 4) →
      exec (.stallRelease d) s =
        let n := (((((s.die d.val).cluster c).flight.getLast?).map Pass.first).getD x.cycle) - x.cycle
        .next (settle (rowIssue d.val .clean .clean
          ((s.modDie d.val (Die.modStream fun z => { z with stall := none, cycle := z.cycle + n })).count x.ctx.toNat
            fun k => { k with structStall := k.structStall + n })))) ∧
    (65536 ≤ x.since → exec (.stitchOverrun d) s = .next (settle (trapStream d.val 5 0x0500 s))) ∧
    (x.ended = true → (s.die d.val).drained = true →
      exec (.streamComplete d) s =
        let e := (x.core.firstFailed.map fun f => (x.core.failedAt, f.2), x.fault)
        let u := vacate d.val (s.modLive x.cmd fun l => { l with streamEnds := l.streamEnds ++ [e] })
        .next (settle (if launchLives u x.cmd then u
          else fail x.cmd (launchStatus (((u.live? x.cmd).map Live.streamEnds).getD [])) 0 u)))

/-! ## Placement -/

/-- The placement engine gives the first placeable stream task its dies, an update task the first vector engine with no
chunk, and a scan task the first scan engine that takes it, each wait counted for its context. A stream in RETAIN or GATE
dies is woken first. A request for pre-emption stands on the stream of its die; an expired time slice makes one when a task
of at least the stream's priority waits for the die, and a starved task makes one on the first die that can host it and goes
before the others. A finished marker save lets the stream go on with a new image, or has it leave its die; a stream that
waits for its die returns to it. -/
def Obligations.PlacementAndPreemption : Prop :=
  (∀ (s : State) (p : PartIx),
    (∀ k ds, choosePlace s (orderedTasks s .stream p.val) [] = some (k, ds) →
      (∀ d ∈ ds, (s.die d).pstate = .run) →
      exec (.placeTask .stream p) s =
        .next (settle (foldOver ds (placeStream k.cmd)
          (({ s with tasks := s.tasks.filter fun u => decide (u.id ≠ k.id) }).count k.ctx.toNat fun q =>
            { q with queueWait := q.queueWait + (s.sys.time - k.admitted) })))) ∧
    (∀ k r j, orderedTasks s .update p.val = k :: r →
      (List.range 4).find? (fun j =>
        s.inService (.vector (dieIx (k.dies.headD 0)) (engIx j)) && ((s.die (k.dies.headD 0)).engine j).chunk.isNone) = some j →
      exec (.placeTask .update p) s =
        .next (settle { s.modDie (k.dies.headD 0) (fun x => x.modEngine j fun e =>
            { e with chunk := some (BitVec.ofNat 32 k.cmd, k.item) }) with
          tasks := s.tasks.filter fun u => decide (u.id ≠ k.id) })) ∧
    (∀ k e, ((orderedTasks s .scan p.val).findSome? fun t =>
        ((List.range 16).find? fun e => engineTakes s p.val e t).map fun e => (t, e)) = some (k, e) →
      exec (.placeTask .scan p) s =
        let wait := if firstPlacement s k.cmd then s.sys.time - k.admitted else 0
        .next (settle { s.count k.ctx.toNat (fun q => { q with queueWait := q.queueWait + wait }) with
          scanHeld := s.scanHeld ++ [(e, { k with admitted := s.sys.time })]
          tasks := s.tasks.filter fun u => decide (u.id ≠ k.id)
          scans := Tbl.modify k.cmd (fun q =>
            { q with spans := Tbl.modify k.item (fun z => { z with placed := true }) q.spans }) s.scans }))) ∧
  (∀ (s : State) (d : DieIx),
    ((s.die d.val).replaying = false →
      exec (.preemptRequest d) s = .next (s.modDie d.val (Die.modStream fun x => { x with preempt := true }))) ∧
    (∀ x t, (s.die d.val).stream = some x → (s.die d.val).replaying = false →
      let u := s.tick t
      x.placedAt + 1000 * (u.part (streamPart u x)).sliceUs ≤ u.sys.time →
      waitsFor u d.val (((u.ctx? x.ctx.toNat).map fun c => c.prio.toNat).getD 3) = true →
      exec (.timeSliceExpiry d t) s = .next (u.modDie d.val (Die.modStream fun x => { x with preempt := true }))) ∧
    (∀ id k t e,
      let u := s.tick t
      u.tasks.find? (fun k => decide (k.id = id)) = some k → k.kind = .stream →
      (taskDies u k).find? (fun d => k.resumed || hostable u d (cmdProg u k.cmd)) = some e →
      k.admitted + 1000 * (u.part k.part.val).starveUs ≤ u.sys.time →
      exec (.starvationLimit id t) s =
        .next (preemptRequest e { u with tasks := u.tasks.map fun q => if q.id = id then { q with starved := true } else q })) ∧
    (∀ x list row plan, (s.die d.val).stream = some x → x.stall = some (.marker list row plan) → (s.die d.val).drained = true →
      exec (.markerSaveComplete d) s =
        let n := (saveBytes s x list * 3 + 1999) / 2000
        let y : Stream :=
          { x with stall := none, since := 0, passes := [], image := some (takeImage s d.val x list row plan),
                   older := x.image, cycle := x.cycle + n }
        let u := (s.modDie d.val fun z => { z with stream := some y }).count x.ctx.toNat fun k =>
          { k with marker := k.marker + n }
        .next (if x.preempt then leaveDie d.val y u else u)) ∧
    (∀ k r x g y, (orderedTasks s .stream ((ownerOf s d.val).getD 4)).filter (fun t => t.resumed && decide (t.dies = [d.val])) = k :: r →
      (s.die d.val).parked.find? (fun z => decide (z.cmd = k.cmd)) = some x →
      (s.die d.val).stream = none → (s.die d.val).replaying = false → moverBusy s d.val = false → (s.die d.val).pstate = .run →
      (∀ c ∈ x.map, HwUnit.cluster d (clusterIx c) ∉ s.errs.retired) →
      (∀ j : EngIx, HwUnit.vector d j ∉ s.errs.retired) → x.image = some g →
      let u : State :=
        { s.modDie d.val (fun z => { z with parked := z.parked.filter fun q => decide (q.cmd ≠ k.cmd) }) with
          tasks := s.tasks.filter fun q => decide (q.id ≠ k.id) }
      makeResident (u.die d.val) x.prog (rowSegments (progImage u x.prog)) s.sys.time = some y →
      exec (.resumeStream d .clean) s =
        .next (settle ((restoreOn d.val { x with placedAt := s.sys.time } (u.setDie d.val y)).modDie d.val fun z =>
          { z with idleAt := none }))))

/-! ## Array passes -/

/-- A pass whose regions lie in the scratchpad starts on its cluster: it casts on at once, or waits while the newest pass
still has vectors to enter, and is mirrored when a swatch cluster is free for it. A region outside the scratchpad traps with
cause 3. DRAIN sets its token once the passes before it are complete. -/
def Obligations.PassesStart : Prop :=
  ∀ (s : State) (d : DieIx) (i : ClusterIx) (a : ArraySlot) (x : Stream) (chain : Bool),
    (s.die d.val).stream = some x → x.ended = false →
    let row : Instr := if chain then .passChain d i a .clean else .pass d i a .clean
    let ds := descOf (descBits (progImage s x.prog) i.val a.desc.toNat) (ixValue x.core.ix a.ix.toNat)
    let c := (s.die d.val).cluster (x.phys i.val)
    (ds.regions.all inPad = false → exec row s = .next (settle (trapStream d.val 3 0x0500 s))) ∧
    (ds.regions.all inPad = true → x.phys i.val < 16 → c.waiting = none →
      let m := chooseMirror s d.val x [i.val] i.val x.cycle
      let p := buildPass s d.val x i.val a chain m
      let u := s.modDie d.val fun y =>
        (y.modCluster (x.phys i.val) fun c =>
          if c.newest.any (fun q => decide (x.cycle ≤ q.lastEntry)) then { c with waiting := some p }
          else { c with flight := c.flight ++ [p] }).modStream fun z =>
            { z with passes := Tbl.set i.val (Tbl.getD x.passes i.val 0 + 1) z.passes }
      (m = none → exec row s = .next (settle u)) ∧
      (∀ sw, m = some sw →
        exec row s = .next (settle (u.modDie d.val fun y => y.modCluster sw fun k =>
          { k with sampledUntil := p.lastEntry + 1, sampledLast := i.val })))) ∧
    (a.tokenEn = true → c.flight = [] → c.waiting = none →
      exec (.drain d i a) s = .next (s.modDie d.val (Die.modStream fun y =>
        { y with core := y.core.setTok a.token.toNat .set }))) ∧
    (a.tokenEn = true → c.flight ≠ [] →
      exec (.drain d i a) s = .next (s.modDie d.val fun y => y.modCluster (x.phys i.val) fun k =>
        { k with drains := k.drains ++ [(a.token.toNat, c.flight.length + (if c.waiting.isSome then 1 else 0))] }))

/-- The first vector of the oldest pass not yet started enters, or of the waiting pass, which takes its place; the oldest
pass writes its next result vector, counted for its context; after its last it leaves, its token and the drains it ends are
set, and its cluster-cycles are charged. -/
def Obligations.PassesRun : Prop :=
  ∀ (s : State) (d : DieIx) (c : ClusterIx),
    let x := s.die d.val
    let k := x.cluster c.val
    (∀ p, k.flight.any (fun p => !p.started) = false → k.waiting = some p →
      exec (.passFirstVectorEnters d c) s =
        let q := if p.chained then p else p.recast x c.val
        .next (s.setDie d.val (x.modCluster c.val fun k =>
          { k with flight := k.flight.map (Pass.allEntered x c.val) ++ [q.enters x c.val], waiting := none }))) ∧
    (k.flight.any (fun p => !p.started) = true →
      exec (.passFirstVectorEnters d c) s = .next (s.setDie d.val (x.modCluster c.val fun k =>
        { k with flight := k.flight.map fun p => if p.started then p else p.enters x c.val
                 waiting := k.waiting.map fun p => if p.chained then p.recast x c.val else p }))) ∧
    (∀ p r, k.flight = p :: r → p.started = true → p.next < p.d.results → (p.d.output = true ∨ p.entered ≠ []) →
      (resultVector x c.val p p.next).bad = false → p.mirror = none →
      exec (.arrayResultWrite d c [] [] .clean) s =
        let v := resultVector x c.val p p.next
        .next (settle ((s.setDie d.val
          ((x.padWrite (padKey c.val (p.d.outAddr + (p.next * p.d.outStride : Nat))) (flipped v.bytes [])).modCluster c.val fun k =>
            { k with flight := p.advanced x c.val :: r })).count
              ((x.stream.map Stream.ctx).getD 0).toNat fun n =>
                { n with saturations := n.saturations + v.conv.sats, nanToInt := n.nanToInt + v.conv.nans }))) ∧
    (∀ p r f, k.flight = p :: r → p.started = true → p.next < p.d.results → (p.d.output = true ∨ p.entered ≠ []) →
      (resultVector x c.val p p.next).bad = true →
      exec (.arrayResultWrite d c f f .clean) s = .next (settle (trapStream d.val 9 0x0500 s))) ∧
    (∀ p r, k.flight = p :: r → p.started = true → p.d.results ≤ p.next →
      exec (.passComplete d c) s =
        let drains := k.drains.map fun q => (q.1, q.2 - 1)
        let u := s.setDie d.val (x.modCluster c.val fun k =>
          { k with flight := r, drains := drains.filter fun q => decide (0 < q.2) })
        .next ((foldOver (drains.filter fun q => decide (q.2 = 0)) (fun q => produceToken d.val (some q.1))
          (produceToken d.val p.token u)).count ((x.stream.map Stream.ctx).getD 0).toNat fun n =>
            { n with arrayCycles := n.arrayCycles + p.span
                     swatchCycles := n.swatchCycles + (if p.mirror.isSome then p.span else 0) }))

/-- A mirrored result that differs is logged SWATCH_MISMATCH, takes both clusters out of service and holds the stream; the
procedure then runs the stream again with the primary's logical cluster on a third cluster, retires the cluster whose version
the third does not confirm, and replays the stream on the die's clusters as they stand. -/
def Obligations.SwatchProcedure : Prop :=
  ∀ (s : State) (d : DieIx) (x : Stream), (s.die d.val).stream = some x →
    (∀ c p prim dup sw, x.mismatches = 0 →
      swatchMismatch d.val c sw p prim dup s =
        let u := takeOut (.cluster d (clusterIx sw)) (takeOut (.cluster d (clusterIx c))
          (addLog 0x010B 0x50000000 (unitWord d.val 1 c) (ctxWord (some x.ctx.toNat) none) [c, sw, p.plan.toNat, p.next] s))
        let w : Swatch :=
          { prim := c, dup := sw, primBytes := prim, dupBytes := dup, logical := p.logical, ordinal := p.ordinal,
            vec := p.next, step := 1, third := none }
        u.modDie d.val fun y => { y.abandon with stream := some { x with swatch := some w, mismatches := x.mismatches + 1 } }) ∧
    (∀ w t r, x.swatch = some w → w.step = 1 →
      (inServiceClusters s d.val).filter (fun c => decide (w.prim < c)) ++ inServiceClusters s d.val = t :: r →
      let others := (List.range 16).filter fun c => ((inServiceClusters s d.val).contains c || c == w.dup) && c != t
      x.map.length ≤ others.length + 1 →
      exec (.swatchThirdExecution d) s =
        let m := (List.range x.map.length).map fun i =>
          if i = w.logical then t else others.getD (if i < w.logical then i else i - 1) 16
        .next (settle (replayOn d.val { x with map := m, swatch := some { w with step := 2, third := some t } } s))) ∧
    (∀ w bs f, x.swatch = some w → w.step = 2 → thirdVector s d.val w (w.third.getD 16) = some bs →
      exec (.swatchDecide d f true false false) s =
        .next (settle (dropUnplaceable (
          if flipped bs f = w.primBytes ∧ flipped bs f ≠ w.dupBytes then retirePair d.val w.dup w.prim x w s
          else retirePair d.val w.prim w.dup x w s)))) ∧
    (∀ w m, x.swatch = some w → w.step = 4 → clusterMap s d.val x.map.length false = some m →
      exec (.swatchReplay d) s = .next (settle (replayOn d.val { x with map := m, swatch := none } s)))

/-! ## Vector operations -/

/-- Each register operation of a vector engine reads its operands at issue and enters the pipeline with the operation's value
for every lane, to retire its latency later; its engine-cycles are counted for its context, and nothing else changes. A
vector operation with a memory operand inside the scratchpad enters the pipeline with what it loads or stores, and one
outside it traps with cause 3. At retirement an operation whose residue agrees writes its register or its bytes, its flag and
its token, and its counts are added; an operation whose residue disagrees is discarded, and its engine is reset. -/
def Obligations.VectorOperations : Prop :=
  (∀ (s : State) (d : DieIx) (j : EngIx) (v : VecSlot) (x : Stream), (s.die d.val).stream = some x → x.ended = false →
    let i := vecIn s d.val j.val x v 0
    let busy := ((s.die d.val).engine j.val).flight.foldl (fun m o => max m o.retireAt) x.cycle
    let issued (op lat : Nat) (r : VecResult) : Host.Outcome State Fault Refusal :=
      let o : VecOp :=
        { retireAt := x.cycle + lat, eff := r.eff, token := if v.tokenEn then some v.token.toNat else none,
          flag := if v.flagEn then some (v.flag.toNat, r.flag) else none, sats := r.sats, nans := r.nans, row := x.row,
          plan := x.plan, op := op }
      .next ((s.modDie d.val fun y => y.modEngine j.val fun e => { e with flight := e.flight ++ [o] }).count x.ctx.toNat fun n =>
        { n with vectorCycles := n.vectorCycles + (x.cycle + lat - busy) })
    let dst := v.dst.toNat
    let reg (l : List Word) (flag : Bool) : VecResult := { eff := .reg dst l, flag := flag, sats := 0, nans := 0 }
    exec (.add d j v) s = issued 0x10 4 (lanesResult dst (lanes2 f32Add i.a i.b)) ∧
    exec (.sub d j v) s = issued 0x11 4 (lanesResult dst (lanes2 f32Sub i.a i.b)) ∧
    exec (.mul d j v) s = issued 0x12 4 (lanesResult dst (lanes2 f32Mul i.a i.b)) ∧
    exec (.fma d j v) s = issued 0x13 6 (lanesResult dst (lanes3 f32Fma i.a i.b i.c)) ∧
    exec (.fnma d j v) s = issued 0x14 6 (lanesResult dst (lanes3 f32Fnma i.a i.b i.c)) ∧
    exec (.max d j v) s = issued 0x15 2 (lanesResult dst (lanes2 f32Max i.a i.b)) ∧
    exec (.min d j v) s = issued 0x16 2 (lanesResult dst (lanes2 f32Min i.a i.b)) ∧
    exec (.abs d j v) s = issued 0x17 2 (lanesResult dst (i.a.map f32Abs)) ∧
    exec (.sign d j v) s = issued 0x18 2 (lanesResult dst (i.a.map f32Sign)) ∧
    exec (.scale d j v) s = issued 0x19 2 (lanesResult dst (i.a.map fun w => f32Scale w v.imm.toInt)) ∧
    exec (.div d j v) s = issued 0x1A 24 (lanesResult dst (lanes2 f32Div i.a i.b)) ∧
    exec (.sqrt d j v) s = issued 0x1B 24 (lanesResult dst (i.a.map f32Sqrt)) ∧
    exec (.bcast d j v) s = issued 0x1C 2 (reg (List.replicate 256 (i.a.getD (v.imm.toNat % 256) 0)) false) ∧
    exec (.movi d j v) s = issued 0x1D 1 (reg (List.replicate 256 (readElem 1 v.imm.toNat).1) false) ∧
    (let l := List.zipWith (fun a b => boolLane (Num.lt (f32 a) (f32 b))) i.a i.b
     exec (.cmpLt d j v) s = issued 0x20 2 (reg l (anyOne l))) ∧
    (let l := List.zipWith (fun a b => boolLane (Num.eqv (f32 a) (f32 b))) i.a i.b
     exec (.cmpEq d j v) s = issued 0x21 2 (reg l (anyOne l))) ∧
    exec (.sel d j v) s =
      issued 0x22 2 (lanesResult dst (lanes3 (fun a b c => (if (f32 c).isZero then b else a, false)) i.a i.b i.c)) ∧
    (let r := sumTree 8 (i.a, 0)
     exec (.rsum d j v) s = issued 0x30 18 { eff := .reg dst (laneZero r.1), flag := laneZeroSet [r.1], sats := r.2, nans := 0 }) ∧
    exec (.rmax d j v) s = issued 0x31 10 (reg (laneZero (maxLane i.a)) (laneZeroSet [maxLane i.a])) ∧
    exec (.survey d j v) s =
      issued 0x38 4 (reg (((chunksOf 32 8 i.a).map fun b => BitVec.ofInt 32 (survey b)) ++ List.replicate 248 0) false) ∧
    exec (.padd d j v) s = issued 0x40 4 (packedResult dst (packed2 Machine.Num.add i.a i.b)) ∧
    exec (.pmul d j v) s = issued 0x41 4 (packedResult dst (packed2 Machine.Num.mul i.a i.b)) ∧
    exec (.pfma d j v) s = issued 0x42 6 (packedResult dst (packed3 (fun a b c => Machine.Num.add (Machine.Num.mul a b) c) i.a i.b i.c))) ∧
  (∀ (s : State) (d : DieIx) (j : EngIx) (v : VecSlot) (x : Stream), (s.die d.val).stream = some x → x.ended = false →
    let i (n : Nat) := vecIn s d.val j.val x v n
    let busy := ((s.die d.val).engine j.val).flight.foldl (fun m o => max m o.retireAt) x.cycle
    let issued (op lat : Nat) (r : VecResult) : Host.Outcome State Fault Refusal :=
      let o : VecOp :=
        { retireAt := x.cycle + lat, eff := r.eff, token := if v.tokenEn then some v.token.toNat else none,
          flag := if v.flagEn then some (v.flag.toNat, r.flag) else none, sats := r.sats, nans := r.nans, row := x.row,
          plan := x.plan, op := op }
      .next (settle ((s.modDie d.val fun y => y.modEngine j.val fun e => { e with flight := e.flight ++ [o] }).count x.ctx.toNat fun n =>
        { n with vectorCycles := n.vectorCycles + (x.cycle + lat - busy) }))
    let dst := v.dst.toNat
    let inside (op : Nat) : Bool := inPad (vecAddr v x.core.ix, vecMemBytes op v)
    (inside 1 = true →
      exec (.load d j v .clean) s = issued 0x01 12 (lanesResult dst (readOperand v.fmt.toNat (i (operandBytes v.fmt.toNat)).bytes))) ∧
    (inside 2 = true →
      exec (.store d j v) s =
        let r := storeOperand v.fmt.toNat (i 0).a
        issued 0x02 12 { eff := .mem (i 0).key r.1, flag := false, sats := r.2.sats, nans := r.2.nans }) ∧
    (inside 3 = true →
      exec (.loadp d j v .clean) s =
        issued 0x03 12 { eff := .reg dst (packedLanes (i 1024).bytes), flag := false, sats := 0, nans := 0 }) ∧
    (inside 4 = true →
      exec (.storep d j v) s =
        issued 0x04 12 { eff := .mem (i 0).key ((i 0).a.flatMap fun w => leBytes 4 w.toNat), flag := false, sats := 0, nans := 0 }) ∧
    (inside 0x39 = true →
      exec (.convert d j v) s =
        let r := convertRecord v.fmt.toNat (i 0).inf5 (i 0).a (i 0).b
        issued 0x39 10 { eff := .mem (i 0).key r.1, flag := false, sats := r.2, nans := 0 }) ∧
    (inside 1 = false → exec (.load d j v .clean) s = .next (settle (trapStream d.val 3 0x0500 s))) ∧
    (inside 2 = false → exec (.store d j v) s = .next (settle (trapStream d.val 3 0x0500 s))) ∧
    (∀ o, nextRetire ((s.die d.val).engine j.val).flight = some o →
      exec (.vectorRetire d j true .clean) s = .next (settle (retireOk d.val j.val o s)) ∧
      exec (.vectorRetire d j false .clean) s = .next (settle (residueFails d.val j.val o s))))

/-! ## Moves -/

/-- A move slot queues its move on a mover with room, and a move whose scratchpad side lies outside the scratchpad traps with
cause 3. A move whose pages are ready carries its data, sets its token and its remote notify, counts its bytes and lets the
next begin; while a page is fetched it waits; from an unmapped or a poisoned page it fails its token. -/
def Obligations.Moves : Prop :=
  ∀ (s : State) (d : DieIx) (k : EngIx) (a : MoveSlot) (x : Stream), (s.die d.val).stream = some x → x.ended = false →
    let of (op : Nat) := moveOf op (moveDescBits (progImage s x.prog) a.mdesc.toNat) a (ixValue x.core.ix a.ix.toNat)
    let inside (op : Nat) : Bool :=
      (!(of op).1.srcPad || op == 2 || inPad ((of op).1.src, (of op).1.len)) &&
        (!(of op).1.dstPad || op == 3 || inPad ((of op).1.dst, (of op).1.len))
    let q := (s.die d.val).mover k.val
    let queued (op : Nat) : State :=
      let r := of op
      let m : Move :=
        { r.1 with src := if r.1.srcPad then (padKey (x.phys r.2.1) r.1.src : Nat) else r.1.src
                   dst := if r.1.dstPad then (padKey (x.phys r.2.2) r.1.dst : Nat) else r.1.dst
                   queuedAt := s.sys.time }
      s.modDie d.val fun y => y.setMover k.val (q ++ [m])
    (x.halted.contains k.val = false → q ≠ [] → q.length < 4 →
      (inside 1 = true → exec (.copy d k a) s = .next (settle (queued 1))) ∧
      (inside 2 = true → exec (.fill d k a) s = .next (settle (queued 2))) ∧
      (inside 3 = true → exec (.prefetch d k a) s = .next (settle (queued 3)))) ∧
    (x.halted.contains k.val = false → q = [] →
      (inside 1 = true → exec (.copy d k a) s = .next (settle (headMove d.val k.val (queued 1)))) ∧
      (inside 2 = true → exec (.fill d k a) s = .next (settle (headMove d.val k.val (queued 2)))) ∧
      (inside 3 = true → exec (.prefetch d k a) s = .next (settle (headMove d.val k.val (queued 3))))) ∧
    (inside 1 = false → exec (.copy d k a) s = .next (settle (trapStream d.val 3 0x0500 s))) ∧
    (∀ m r t, q = m :: r →
      let u := s.tick t
      let p := streamPart u x
      (moveInSpace m = false →
        exec (.moveComplete d k .clean t) s = .next (popMove d.val k.val (moveFailed d.val m 0x0101 u))) ∧
      (∀ v, moveInSpace m = true → movePerform d.val p x.ctx m u = (v, .ok) →
        exec (.moveComplete d k .clean t) s =
          .next (popMove d.val k.val (moveDone d.val x m (v.count x.ctx.toNat fun n =>
            { n with hbmRead := n.hbmRead + (if m.op = 1 && !m.srcPad then framedBytes u p m.src.toNat m.len else 0)
                     hbmWrite := n.hbmWrite + (if m.op ≠ 3 && !m.dstPad then m.len else 0)
                     tierWait := n.tierWait + (match m.waitSince with
                       | some t0 => u.sys.time - t0
                       | none => 0) })))) ∧
      (∀ v, moveInSpace m = true → movePerform d.val p x.ctx m u = (v, .wait) →
        exec (.moveComplete d k .clean t) s =
          .next (v.modDie d.val fun y =>
            match y.mover k.val with
            | h :: r => y.setMover k.val ({ h with waitSince := some (h.waitSince.getD u.sys.time) } :: r)
            | [] => y)) ∧
      (∀ v, moveInSpace m = true → movePerform d.val p x.ctx m u = (v, .unmapped) →
        exec (.moveComplete d k .clean t) s = .next (popMove d.val k.val (moveFailed d.val m 0x0101 v))) ∧
      (∀ v, moveInSpace m = true → movePerform d.val p x.ctx m u = (v, .poisoned) →
        exec (.moveComplete d k .clean t) s = .next (popMove d.val k.val (moveFailed d.val m 0x0301 v))))

/-! ## Collections and search -/

/-- A command that carries request data and waits for all of it enters the table, and nothing else happens at its start. -/
def Obligations.CommandsAwaitTheirData : Prop :=
  ∀ (c : Capsule) (s : State),
    ∀ x ∈ [(0x0145, Instr.stoWrite c), (0x0201, .volCreate c), (0x0303, .colSetCodebook c), (0x0304, .colSetParcels c), (0x0310,
      .colInsert c), (0x0311, .colRemove c), (0x0320, .colQuery c), (0x0321, .colFetch c), (0x0403, .shdSetGroups c),
      (0x0404, .shdSetCurve c), (0x0410, .shdPushGrad c), (0x0520, .scnRun c), (0x0621, .cfgWrite c), (0x0623, .cfgSetAccess
      c), (0x0630, .secOtpWrite c), (0x0641, .medSetPolicy c), (0x0651, .errInject c), (0x0671, .pwrSetPolicy c), (0x0712,
      .lnkSetPolicy c), (0x0713, .lnkSetRoute c), (0x0714, .lnkSetKey c), (0x0721, .grpSet c)],
      c.dataLen ≠ 0 → accepted x.1 c s = true → exec x.2 s = .next (settle (s.entered x.1 c))

/-- COL_CREATE reserves its flash space, pins its frames and starts its partition's search service; COL_DELETE returns them,
and ends the service with the last collection. COL_PUBLISH closes the pending epoch and opens the next; COL_COMPACT takes out
every item that ended at or before the floor; COL_STATUS answers the counts and changes nothing else. -/
def Obligations.CollectionCommands : Prop :=
  ∀ (s : State) (c : Capsule),
    let p := c.partition.toNat
    let o := c.object.toNat
    (∀ f k, accepted 0x0301 c s = true → newCol c = k →
      let d := lowestDie (s.entered 0x0301 c) p
      pinFrames d k.frames p (s.entered 0x0301 c) = (f, some true) →
      exec (.colCreate c) s =
        let u := (f.modDie d fun x => { x with otherFrames := x.otherFrames + k.frames }).modPart p fun x =>
          { x with pinned := x.pinned + k.frames }
        let v : State :=
          { u with
            cols := Tbl.set o { k with publishAt := s.sys.time } u.cols
            media := { u.media with colReserved := u.media.colReserved + k.reserved } }
        .next (settle (succeed s.nextCmd 0 [] (chargeWait s.nextCmd (openSearch k.part v))))) ∧
    (∀ k, accepted 0x0302 c s = true → s.col? o = some k →
      exec (.colDelete c) s =
        let b := s.entered 0x0302 c
        let u := (b.modDie (lowestDie b k.part.val) fun x => { x with otherFrames := x.otherFrames - k.frames }).modPart k.part.val
          fun x => { x with pinned := x.pinned - k.frames }
        let v : State :=
          { u with
            cols := Tbl.erase o u.cols
            media := { u.media with colReserved := u.media.colReserved - k.reserved } }
        .next (settle (succeed s.nextCmd 0 []
          (if v.cols.any fun e => decide (e.2.part.val = k.part.val) then v
          else { v with ctxs := Tbl.keep (fun _ x => !(x.search && decide (x.part.val = k.part.val))) v.ctxs })))) ∧
    (accepted 0x0312 c s = true →
      exec (.colPublish c) s =
        .next (settle (publishReady (((s.entered 0x0312 c).modCol o fun k =>
          { k with closing := k.closing ++ [(k.pending, some s.nextCmd)], pending := k.pending + 1, mutated := false }).modLive s.nextCmd fun x =>
            { x with phase := .running })))) ∧
    (accepted 0x0330 c s = true → s.statusBit 2 = false →
      exec (.colCompact c) s =
        let b := s.entered 0x0330 c
        .next (settle (succeed s.nextCmd 0 [] (b.modCol o fun k => compactTo (compactFloor b c.object k) k)))) ∧
    (∀ k, accepted 0x0331 c s = true → s.col? o = some k →
      exec (.colStatus c) s =
        let b := s.entered 0x0331 c
        let dead := (k.items.filter fun e => decide (e.2.del ≤ k.epoch)).length
        let busy (ops : List Half) : Nat :=
          (b.cmds.filter fun e => decide (e.2.op ∈ ops ∧ e.2.c.object = c.object) && e.2.open).length
        .next (settle (succeed s.nextCmd 0
          [(0, leBytes 8 k.items.length ++ leBytes 8 (k.items.length - dead) ++ leBytes 4 k.epoch ++ leBytes 4 k.pending ++
            leBytes 4 k.floor ++ leBytes 4 (if k.items.isEmpty then 0 else 100 * dead / k.items.length) ++
            leBytes 8 k.unlinked.length ++ leBytes 4 k.entries.length ++ leBytes 4 (busy [0x0320, 0x0321]) ++
            leBytes 4 (busy [0x0310, 0x0311]) ++ leBytes 4 0)] b)))

/-- What the data of a collection command does once it has landed: the codebook and the centroids are set unless they hold a
NaN or an infinity; every entry of COL_INSERT is inserted at the mutation's epoch, or none when one is bad or the item limit
would be passed; COL_REMOVE ends each live item it names and counts the others; COL_FETCH answers the records visible at its
epoch, and for any other id the id with 56 bytes of ones. At each publish interval a pending epoch that holds a mutation is
closed. An inserted item is linked to the nearest items that a traverse finds, and they to it. -/
def Obligations.CollectionData : Prop :=
  (∀ (s : State) (n : Nat) (l : Live) (k : Col), s.live? n = some l → s.col? l.c.object.toNat = some k →
    let o := l.c.object.toNat
    let ws := bytesWords l.data (l.c.dataLen.toNat / 4)
    let ids := (List.range (l.c.dataLen.toNat / 8)).map fun i => fieldAt l.data (8 * i) 8
    (anyNonfinite ws = true → landedOf 0x0303 n s = fail n 0x0101 0 s ∧ landedOf 0x0304 n s = fail n 0x0101 0 s) ∧
    (anyNonfinite ws = false → k.items = [] →
      landedOf 0x0303 n s = succeed n 0 [] (s.modCol o fun x => { x with codebook := some ws }) ∧
      landedOf 0x0304 n s = succeed n 0 [] (s.modCol o fun x => { x with centroids := some ws })) ∧
    (∀ es, 0 < k.entryBytes → readEntries k (l.c.dataLen.toNat / k.entryBytes) 0 l.data = .ok es →
      let cnt := l.c.dataLen.toNat / k.entryBytes
      (cnt ≤ k.limit - k.items.length →
        landedOf 0x0310 n s = succeed n 0 [] ((s.modCol o fun x => { insertItems l.epoch.toNat es x with mutated := true }).count l.c.context.toNat fun x =>
          { x with flashWrite := x.flashWrite + cnt * (k.fullBytes + k.codeBytes) })) ∧
      (k.limit - k.items.length < cnt → landedOf 0x0310 n s = fail n 0x0101 (k.limit - k.items.length) s)) ∧
    (∀ j, 0 < k.entryBytes → readEntries k (l.c.dataLen.toNat / k.entryBytes) 0 l.data = .error j →
      landedOf 0x0310 n s = fail n 0x0101 (min j (k.limit - k.items.length)) s) ∧
    (landedOf 0x0311 n s =
      let isLive (x : Col) (id : Nat) : Bool := x.items.any fun e => decide (e.2.id = id) && e.2.live
      let ends (x : Col) (id : Nat) : Col :=
        { x with items := Tbl.mapVals (fun _ y => if y.id = id ∧ y.live = true then { y with del := l.epoch.toNat } else y) x.items }
      let r := ids.foldl (fun a id => if isLive a.1 id then (ends a.1 id, a.2) else (a.1, a.2 + 1)) (k, 0)
      succeed n r.2 [] (s.modCol o fun _ => { r.1 with mutated := true })) ∧
    (landedOf 0x0321 n s =
      let e := if l.c.p0 = 0xFFFFFFFF then l.epoch.toNat else l.c.p0.toNat
      succeed n 0 [(0, ids.flatMap fun id =>
        match List.find? (fun x : Nat × Item => decide (x.2.id = id) && x.2.visible e) k.items with
        | some x => fullRecord k x.2
        | none => leBytes 8 id ++ List.replicate 56 0xFF)] (s.count l.c.context.toNat fun x =>
          { x with flashRead := x.flashRead +
              (ids.filter fun id => k.items.any fun y => decide (y.2.id = id) && y.2.visible e).length * k.recordRead }))) ∧
  (∀ (s : State) (o : Word) (k : Col) (t : Nat), s.col? o.toNat = some k →
    (let u := s.tick t
     k.publishMs ≠ 0 → k.publishAt + k.publishMs * 1000000 ≤ u.sys.time → k.pending < 0xFFFFFFFF →
      let v := u.modCol o.toNat fun x => { x with publishAt := u.sys.time }
      ((k.mutated || epochBusy u o.toNat k.pending) = true →
        exec (.autoPublish o t) s =
          .next (settle (publishReady (v.modCol o.toNat fun x =>
            { x with closing := x.closing ++ [(x.pending, none)], pending := x.pending + 1, mutated := false })))) ∧
      ((k.mutated || epochBusy u o.toNat k.pending) = false →
        exec (.autoPublish o t) s = .next (settle v))) ∧
    (∀ item it, Tbl.get? k.items item = some it → item ∈ k.unlinked →
      exec (.graphLink o item) s =
        let near := (((walk k (k.words it.vec) 256).filter fun e => decide (e.2 ≠ item)).take k.degree).map Prod.snd
        let back (es : Tbl (List Nat)) (n : Nat) : Tbl (List Nat) :=
          let old := Tbl.getD es n []
          match Tbl.get? k.items n with
          | none => es
          | some b =>
            let ordered := (evaluateNodes k (k.words b.vec) (old.length + 1) old []).map Prod.snd
            if item ∈ old then es else Tbl.set n ((if k.degree ≤ old.length then ordered.take (k.degree - 1) else old) ++ [item]) es
        .next (s.modCol o.toNat fun x =>
          { x with
            unlinked := x.unlinked.filter fun n => decide (n ≠ item)
            edges := near.foldl back (Tbl.set item near x.edges) })))

/-- A query whose data has landed is refused with ST_EPOCH_RETIRED below the floor, and else takes its traverse's items into
its heap and starts its parcels in the order of their bounds. A parcel that was read leaves its engine, and the records that
are visible, pass the filter and have no bound above the k-th distance wait to be evaluated; the oldest of them is evaluated
and offered to the heap. What cannot be read ends the query with ST_MEDIA_UNCORRECTABLE and its parcel. -/
def Obligations.Queries : Prop :=
  ∀ (s : State) (n : Nat) (l : Live) (k : Col), s.live? n = some l →
    (s.col? l.c.object.toNat = some k → queryLegal k l.c.origin l.data l.c.dataLen.toNat = true →
      let asked := fieldAt l.data 4 4
      let e := if asked = 0xFFFFFFFF then l.epoch.toNat else asked
      (k.epoch < e → landedOf 0x0320 n s = fail n 0x0101 0 s) ∧
      (e ≤ k.epoch → e < k.floor → landedOf 0x0320 n s = fail n 0x0600 0 s) ∧
      (e ≤ k.epoch → k.floor ≤ e →
        landedOf 0x0320 n s =
          let nt := fieldAt l.data 11 1
          let raw := (List.range k.dim).map fun i =>
            (readElem (fieldAt l.data 10 1) (elemCode (fieldAt l.data 10 1) (l.data.drop (queryVecAt nt)) i)).1
          let v := if k.dist = 1 then normalised raw else raw
          let bud := orDefault (fieldAt l.data 12 2) 0xFFFF k.budget
          let w := if k.degree = 0 ∨ bud = 0 then ([], 0) else walkAll k v bud
          let nodes := w.1
          let q : Query :=
            { cmd := n, col := l.c.object, k := fieldAt l.data 0 4, epoch := e,
              terms := (List.range nt).map fun i => (readTerm (l.data.drop (64 + 24 * i))).1, q := v, flags := fieldAt l.data 14 2,
              heap := [], order := parcelOrder k v, started := [], survivors := [], scanned := 0, nodes := nodes.length,
              bounded := 0, evaluated := nodes.length }
          let seeded := nodes.foldl (fun q x =>
            match Tbl.get? k.items x.2 with
            | some it => if it.visible e && it.passes q.terms then q.offer x.1 it.id x.2 else q
            | none => q) q
          let u := s.count ((searchOf s k.part.val).getD 256) fun x => { x with flashRead := x.flashRead + k.walkRead w }
          queryGo n ({ u with queries := Tbl.set n seeded u.queries }.modLive n fun x =>
            { x with phase := .running, epoch := BitVec.ofNat 32 e, segs := [] }))) ∧
    (∀ q p, Tbl.get? s.queries n = some q → s.col? q.col.toNat = some k →
      s.scanHeld.any (fun h => decide (h.2.cmd = n ∧ h.2.item = p)) = true → enginePaused n p s = false →
      exec (.parcelScanComplete n p false) s =
        .next (settle (fail n 0x0200 p (stopWork n (releaseScan n p s)))) ∧
      exec (.parcelScanComplete n p true) s =
        let recs := k.items.filter fun e => decide (e.2.parcel = p)
        let seen := recs.filter fun e => e.2.visible q.epoch && e.2.passes q.terms
        let keep := seen.filter fun e => !Num.lt (f32 q.tau) (f32 (itemBound k q.q e.2))
        let q1 : Query :=
          { q with started := q.started.filter fun x => decide (x ≠ p), survivors := q.survivors ++ keep.map Prod.fst,
                   scanned := q.scanned + 1, bounded := q.bounded + seen.length }
        let u := (releaseScan n p s).count l.c.context.toNat fun x => { x with flashRead := x.flashRead + recs.length * k.codeBytes }
        .next (settle (queryGo n { u with queries := Tbl.set n q1 u.queries }))) ∧
    (∀ q i r it, Tbl.get? s.queries n = some q → s.col? q.col.toNat = some k → q.survivors = i :: r →
      Tbl.get? k.items i = some it →
      exec (.survivorEvaluate n false) s = .next (settle (fail n 0x0200 it.parcel (stopWork n s))) ∧
      exec (.survivorEvaluate n true) s =
        let q1 := { q with survivors := r, evaluated := q.evaluated + 1 }.offer (evaluate k.dist q.q (k.words it.vec)) it.id i
        let u := s.count ((searchOf s k.part.val).getD 256) fun x => { x with flashRead := x.flashRead + k.recordRead }
        .next (settle (queryGo n { u with queries := Tbl.set n q1 u.queries })))

/-! ## Scans -/

/-- SCN_CANCEL stops the scan that its tag names, with ST_ABORTED_RESET and detail 1; SCN_STATUS answers the summary as it
stands; SCN_CREDIT returns segments, and an excess is a violation of the sender's link. A scan whose data has landed pins its
staging and adds a task for every span. -/
def Obligations.ScanCommands : Prop :=
  ∀ (s : State) (c : Capsule),
    (∀ k, accepted 0x0521 c s = true → scanNamed (s.entered 0x0521 c) c.origin c.p0 = some k →
      exec (.scnCancel c) s = .next (settle (succeed s.nextCmd 0 [] (stopScan k 0x0701 1 (s.entered 0x0521 c))))) ∧
    (∀ k q, accepted 0x0522 c s = true → scanNamed (s.entered 0x0522 c) c.origin c.p0 = some k →
      Tbl.get? (s.entered 0x0522 c).scans k = some q →
      exec (.scnStatus c) s = .next (settle (succeed s.nextCmd 0 [(0, summaryBytes q)] (s.entered 0x0522 c)))) ∧
    (∀ k q, accepted 0x0523 c s = true → scanNamed (s.entered 0x0523 c) c.origin c.p0 = some k →
      Tbl.get? (s.entered 0x0523 c).scans k = some q →
      let b := s.entered 0x0523 c
      let u := succeed s.nextCmd 0 [] (flushScan k false
        { b with scans := Tbl.modify k (fun q => { q with unreturned := q.unreturned - c.p1.toNat }) b.scans })
      (c.p1.toNat ≤ q.unreturned → exec (.scnCredit c) s = .next (settle u)) ∧
      (∀ node l, q.unreturned < c.p1.toNat → c.origin = .fabric node l →
        exec (.scnCredit c) s = .next (settle (violation l.val 246 u)))) ∧
    (∀ n l, s.live? n = some l →
      (readScan n l.c l.data = none → landedOf 0x0520 n s = fail n 0x0101 0 s) ∧
      (∀ q v, readScan n l.c l.data = some q → scanTargets s l.c q = some v → landedOf 0x0520 n s = fail n v.1 v.2 s) ∧
      (∀ q, readScan n l.c l.data = some q → scanTargets s l.c q = none → q.sink < 3 →
        let p := l.c.partition.toNat
        let d := endpointDie s q.endpoint
        landedOf 0x0520 n s =
          let u := ((s.modDie d fun x => { x with otherFrames := x.otherFrames + 0 }).modPart p fun x =>
            { x with pinned := x.pinned + 0 }).modLive n fun x => { x with phase := .running, segs := [] }
          foldOver (q.spans.map Prod.fst) (fun i acc => addTask (mkTask .scan p l.c.context false n l.admitted [] i) acc)
            { u with scans := Tbl.set n { q with frames := 0 } u.scans }))

/-- SCAN_PAGE takes the next page of a span that an engine holds: an empty page and a page of records are counted, its
records go to the sink, and the span moves on; a bad page is counted and ends its span, or stops a scan that asked for that;
an unreadable one stops the scan with ST_MEDIA_UNCORRECTABLE unless it is to be skipped. A span at its end, or of a scan that
stops, leaves its engine and releases its output. A finished sequence hands its outputs over: an item into the collection, a
score to the output, a class to the summary, or a failure. A scan that has ended sends its last output and answers its
summary, or, when it was stopped, its status. -/
def Obligations.ScanRuns : Prop :=
  (∀ (s0 : State) (n span : Nat) (q : Scan) (l : Live) (z : Span) (v : Vol),
    let s := feedScan n 65536 (flushScan n false s0)
    enginePaused n span s0 = false → Tbl.get? s.scans n = some q → s.live? n = some l → Tbl.get? q.spans span = some z →
    s.vol? q.vol.toNat = some v → s.scanHeld.any (fun h => decide (h.2.cmd = n ∧ h.2.item = span)) = true →
    z.done = false → q.stop = none → scanPaused q = false → z.pos < min q.len ((span + 1) * 67108864) →
    (q.sink = 3 → s.statusBit 2 = false) →
    let put (q : Scan) (s : State) : State :=
      feedScan n 65536 (flushScan n false { s with scans := Tbl.set n (releaseSpans q q.spans.length 0) s.scans })
    let det := z.pos / 4096 % 4294967296
    (exec (.scanPage n span false) s0 =
      .next (settle (if bit q.flags 2 then put (badPage span z.pos q) s else stopScan n 0x0200 det s))) ∧
    (v.unreadable (q.base + z.pos) 4096 = false → pageFound v q z.pos = .empty →
      exec (.scanPage n span true) s0 =
        .next (settle (put { q with
          spans := Tbl.set span { z with pos := z.pos + 4096 } q.spans
          sum := { q.sum with empty := q.sum.empty + 1, flash := q.sum.flash + 4096 } } s))) ∧
    (v.unreadable (q.base + z.pos) 4096 = false → pageFound v q z.pos = .bad →
      exec (.scanPage n span true) s0 =
        .next (settle (if bit q.flags 0 then stopScan n 0x0101 det s else put (badPage span z.pos q) s))) ∧
    (∀ stored dec recs, v.unreadable (q.base + z.pos) 4096 = false → pageFound v q z.pos = .page stored dec recs →
      v.unreadable (q.base + z.pos) (alignUp (32 + stored) 4096) = false →
      exec (.scanPage n span true) s0 =
        let step := alignUp (32 + stored) 4096
        let q1 : Scan :=
          { q with
            spans := Tbl.set span { z with pos := z.pos + step } q.spans
            sum := { q.sum with pages := q.sum.pages + 1, flash := q.sum.flash + step, decoded := q.sum.decoded + dec } }
        let q2 := (recs.mapIdx fun i r => (i, r)).foldl (takeRecord span (q.base + z.pos)) q1
        let u := foldOver (unitsOf (q.base + z.pos) step) (fun u acc => countRead (v.entry u) acc) s
        .next (settle (put q2 (u.count l.c.context.toNat fun k => { k with flashRead := k.flashRead + step }))))) ∧
  (∀ (s : State) (n : Nat) (q : Scan), Tbl.get? s.scans n = some q →
    (∀ span z, Tbl.get? q.spans span = some z → z.done = false →
      s.scanHeld.any (fun h => decide (h.2.cmd = n ∧ h.2.item = span)) = true →
      (q.stop ≠ none ∨ min q.len ((span + 1) * 67108864) ≤ z.pos) →
      exec (.spanComplete n span) s =
        let q1 : Scan := { q with spans := Tbl.set span { z with done := true } q.spans }
        .next (settle (flushScan n false (releaseScan n span
          { s with scans := Tbl.set n (releaseSpans q1 q1.spans.length 0) s.scans })))) ∧
    (∀ i z st out, Tbl.get? q.seqs i = some z → z.ended = some st → ¬ (q.sink = 3 ∧ s.statusBit 2 = true) →
      exec (.scanSequenceFinish n i out) s =
        let q0 : Scan := { q with seqs := Tbl.erase i q.seqs }
        let r : Scan × State :=
          if st = 0 then takeResult z out q0 s
          else
            ({ q0 with sum := { q0.sum with failed := q0.sum.failed + 1, status := if q0.sum.status = 0 then st else q0.sum.status } }, s)
        let q1 : Scan := { r.1 with stop := ((Tbl.get? r.2.scans n).map Scan.stop).getD none }
        .next (settle (feedScan n 65536 (flushScan n false
          { r.2 with scans := Tbl.set n (releaseSpans q1 q1.spans.length 0) r.2.scans })))) ∧
    (∀ l, s.live? n = some l → scanEnded s n q = true →
      (∀ st d, q.stop = some (st, d) → exec (.scanComplete n) s = .next (settle (fail n st d (stopWork n s)))) ∧
      (∀ q2, q.stop = none →
        let q1 := (q.top.map TopRec.bytes).foldl acceptOut { q with top := [] }
        let u := flushScan n true { s with scans := Tbl.set n q1 s.scans }
        Tbl.get? u.scans n = some q2 → q2.segment = [] → q2.stop = none →
        exec (.scanComplete n) s =
          .next (settle (succeed n 0
            [(if q2.sink = 1 ∧ isCtlq l.c.origin = false then q2.written else 0, summaryBytes q2)] (stopWork n u))))))

/-! ## Volumes and leases -/

/-- VOL_CREATE without an absorb buffer makes a volume of its size and mode under a new key; VOL_QUERY answers its size,
mode, absorb sequence and watermark; VOL_FLUSH is answered once the watermark reaches the newest absorbed write; VOL_DELETE
frees the volume's units and key once no lease of it is held, and waits for their recall while one is. -/
def Obligations.VolumeCommands : Prop :=
  ∀ (s : State) (c : Capsule),
    let o := c.object.toNat
    (accepted 0x0201 c s = true → c.dataLen = 0 → c.p1 = 0 →
      exec (.volCreate c) s =
        let b := s.entered 0x0201 c
        let v : Vol :=
          { part := c.partition.toFin, size := c.length.toNat, mode := BitVec.ofNat 2 c.p0.toNat, absorbMiB := 0,
            absorbPin := none, keySource := c.p0.getLsbD 2, keyId := b.sec.nextKey, keyLost := false, mem := [], plat := [],
            absorbNext := 1, watermark := 0, absorbed := [] }
        let u : State :=
          { b with
            free := b.free + 1
            vols := Tbl.set o v b.vols
            sec := { b.sec with
              keys := Tbl.set b.sec.nextKey (c.object, leBytes 64 (Config.freeNat b.free)) b.sec.keys
              nextKey := b.sec.nextKey + 1 } }
        .next (settle (succeed s.nextCmd 0 []
          (addLog 0x0704 (originWord c.origin) noUnit (ctxWord none (some c.partition.toNat)) [o] u)))) ∧
    (∀ v, accepted 0x0203 c s = true → s.vol? o = some v →
      exec (.volQuery c) s =
        let held := ((s.entered 0x0203 c).leases.filter fun e => decide (e.2.vol = c.object ∧ e.2.st ≠ 3)).length
        .next (settle (succeed s.nextCmd 0 [(0, leBytes 8 v.size ++ leBytes 4 v.mode.toNat ++ leBytes 4 v.absorbMiB ++
          leBytes 8 (v.absorbNext - 1) ++ leBytes 8 v.watermark ++ leBytes 4 held ++ leBytes 4 0)] (s.entered 0x0203 c)))) ∧
    (∀ v, accepted 0x0211 c s = true → s.vol? o = some v →
      exec (.volFlush c) s =
        .next (settle (flushReady o ((s.entered 0x0211 c).modLive s.nextCmd fun x =>
          { x with detail := v.absorbNext - 1, phase := .running })))) ∧
    (∀ v, accepted 0x0202 c s = true → s.vol? o = some v →
      let b := recallRange s.nextCmd c.object 0 v.size (s.entered 0x0202 c)
      ((heldLeases b c.object 0 v.size).isEmpty = false →
        exec (.volDelete c) s = .next (settle (b.modLive s.nextCmd fun x => { x with phase := .recalling }))) ∧
      ((heldLeases b c.object 0 v.size).isEmpty = true →
        exec (.volDelete c) s =
          let u := freeAbsorb v (foldOver (v.plat.map Prod.snd) dropValid b)
          .next (settle (succeed s.nextCmd 0 []
            (addLog 0x0704 (originWord c.origin) noUnit (ctxWord none (some v.part.val)) [o]
              { u with vols := Tbl.erase o u.vols, sec := { u.sec with keys := Tbl.erase v.keyId u.sec.keys } })))))

/-- VOL_READ answers the bytes of its range, what the absorb buffer holds over what the media hold, and counts them; where a
sector cannot be read it ends with ST_MEDIA_UNCORRECTABLE and the first such offset. A VOL_WRITE recalls the leases of its
range as it starts; once its data has landed it waits for the recall of leases and for earlier writes, then is absorbed under
the next sequence number or programmed at new places. VOL_DISCARD makes whole units ZERO and writes zeros into the parts of
others. ABSORB_DESTAGE commits the oldest absorbed write and moves the watermark to it. -/
def Obligations.VolumeData : Prop :=
  ∀ (s : State) (c : Capsule) (v : Vol), s.vol? c.object.toNat = some v →
    let o := c.object.toNat
    let off := c.offset.toNat
    let len := c.length.toNat
    (accepted 0x0220 c s = true →
      let b := s.entered 0x0220 c
      let u := foldOver (unitsOf off len) (fun u acc => countRead (v.entry u) acc) b
      (v.unreadable off len = false →
        exec (.volRead c) s =
          .next (settle (succeed s.nextCmd 0 [(0, v.bytes off len)]
            (u.count c.context.toNat fun k => { k with flashRead := k.flashRead + len })))) ∧
      (v.unreadable off len = true →
        exec (.volRead c) s =
          .next (settle (finish s.nextCmd 0x0200 (v.firstBad off len)
            (if (fabricOf c.origin).isSome then v.readable off len else []) u)))) ∧
    (accepted 0x0221 c s = true → c.dataLen ≠ 0 →
      let b := s.entered 0x0221 c
      b.vol? o = some v → absorbedWrite b (Capsule.entry 0x0221 c s) = false →
      exec (.volWrite c) s = .next (settle (recallRange s.nextCmd c.object off len b))) ∧
    (accepted 0x0210 c s = true →
      let b := recallRange s.nextCmd c.object off len (s.entered 0x0210 c)
      (heldLeases b c.object off len).isEmpty = true → mustYield s.nextCmd (Capsule.entry 0x0210 c s) b = false →
      b.vol? o = some v → b.statusBit 2 = false → lostMerge v off len = none →
      exec (.volDiscard c) s =
        let whole := ((coverage off len).filter fun u => u.2).map Prod.fst
        let parts := ((coverage off len).filter fun u => !u.2).map fun u => partOf off len u.1
        let gone := whole.map (fun u => (u * 16384, 16384)) ++ parts
        let u := foldOver parts (fun p acc => writeMedia o p.1 (List.replicate p.2 0) acc) (zeroUnits o whole b)
        .next (settle (ackMedia s.nextCmd 0 (u.modVol o fun x =>
          { x with absorbed := gone.foldl (fun a p => trimAbsorbed p.1 p.2 a) x.absorbed })))) ∧
    (∀ n l, s.live? n = some l → l.c = c →
      let bs := l.data
      (recallsOpen s l = true → landedOf 0x0221 n s = s.modLive n fun x => { x with phase := .recalling }) ∧
      (recallsOpen s l = false → mustYield n l s = true → landedOf 0x0221 n s = s.modLive n fun x => { x with phase := .ordered }) ∧
      (recallsOpen s l = false → mustYield n l s = false → absorbedWrite s l = true →
        landedOf 0x0221 n s = ackMedia n (v.absorbNext % 4294967296) (s.modVol o fun x =>
          { x with absorbed := trimAbsorbed off bs.length x.absorbed ++ [{ seq := v.absorbNext, off := off, data := bs }]
                   absorbNext := x.absorbNext + 1 })) ∧
      (recallsOpen s l = false → mustYield n l s = false → absorbedWrite s l = false → lostMerge v off bs.length = none →
        landedOf 0x0221 n s = ackMedia n 0 (((writeMedia o off bs (freeLanding l s)).modVol o fun x =>
          { x with absorbed := trimAbsorbed off bs.length x.absorbed }).count c.context.toNat fun k =>
            { k with flashWrite := k.flashWrite + bs.length }))) ∧
    (v.watermark + 1 ≠ v.absorbNext →
      exec (.absorbDestage c.object) s =
        let q := v.watermark + 1
        let mine := (v.absorbed.filter fun a => decide (a.seq = q)).filter fun a => (lostMerge v a.off a.data.length).isNone
        let u := foldOver mine (fun a acc => writeMedia o a.off a.data acc) s
        .next (settle (flushReady o (u.modVol o fun x =>
          { x with absorbed := x.absorbed.filter fun a => decide (a.seq ≠ q), watermark := q }))))

/-- LSE_ACQUIRE takes the lowest free slot for its holder and answers the plat entries of its sheets, waiting while a write
holds the range; LSE_RELEASE ends the lease; LSE_READ answers the unit's data, or the status that the first failing check
gives. A recall that is acknowledged ends the lease; a recall not answered in time ends it and counts against the link; a
lease whose time is over ends. -/
def Obligations.Leases : Prop :=
  ∀ (s : State) (c : Capsule),
    (∀ v node link k, accepted 0x0740 c s = true → c.origin = .fabric node link → s.vol? c.object.toNat = some v →
      let b := s.entered 0x0740 c
      rangeHeld b s.nextCmd c.object c.offset.toNat c.length.toNat = false →
      (List.range 65536).find? (fun k => !Tbl.has b.leases k) = some k →
      exec (.lseAcquire c) s =
        let x : Lease :=
          { inc := incarnation b, st := 1, vol := c.object, first := c.offset.toNat / 8388608, count := c.length.toNat / 8388608,
            holder := node, link := link, expiry := b.sys.time + (if c.p0 = 0 then 60 else c.p0.toNat) * 1000000000, recallAt := 0 }
        .next (settle (succeed s.nextCmd (k + 65536 * x.inc) [(0, sheetBytes v x.first x.count)]
          { b with leases := Tbl.set k x b.leases }))) ∧
    (accepted 0x0740 c s = true →
      rangeHeld (s.entered 0x0740 c) s.nextCmd c.object c.offset.toNat c.length.toNat = true →
      exec (.lseAcquire c) s =
        .next (settle ((s.entered 0x0740 c).modLive s.nextCmd fun x => { x with phase := .recalling }))) ∧
    (accepted 0x0741 c s = true →
      exec (.lseRelease c) s =
        .next (settle (succeed s.nextCmd 0 [] (revokeSlot (c.p0.toNat % 65536) (s.entered 0x0741 c))))) ∧
    (∀ v, accepted 0x0742 c s = true → (lseVerdict c (s.entered 0x0742 c)).1 = none → s.vol? c.object.toNat = some v →
      v.keyLost = false →
      exec (.lseRead c) s =
        .next (settle (succeed s.nextCmd 0 [(0, Mem.readBytes v.mem c.offset.toNat c.length.toNat)]
          ((countRead (readEntryOf c) (s.entered 0x0742 c)).count c.context.toNat fun k =>
            { k with flashRead := k.flashRead + c.length.toNat })))) ∧
    (∀ v bad node link, accepted 0x0742 c s = true → lseVerdict c (s.entered 0x0742 c) = (some v, bad) →
      c.origin = .fabric node link →
      exec (.lseRead c) s =
        let u := fail s.nextCmd v.1 v.2 (s.entered 0x0742 c)
        .next (settle (if bad then violation link.val 266 u else u))) ∧
    (∀ (k : Half) x status, Tbl.get? s.leases k.toNat = some x → x.st = 2 →
      exec (.lseRecallAck k x.holder status) s = .next (settle (revokeSlot k.toNat s))) ∧
    (∀ (k : Half) x t, Tbl.get? (s.tick t).leases k.toNat = some x → x.st = 2 →
      x.recallAt + (s.tick t).media.pol.recallUs * 1000 ≤ (s.tick t).sys.time →
      exec (.leaseRecallTimeout k t) s =
        .next (settle (violation x.link 267 (revokeSlot k.toNat
          (addLog 0x0207 0x50000000 noUnit 0 [x.holder.toNat, k.toNat] (s.tick t)))))) ∧
    (∀ (k : Half) x t, Tbl.get? (s.tick t).leases k.toNat = some x → x.st ≠ 3 → x.expiry ≤ (s.tick t).sys.time →
      exec (.leaseExpiry k t) s = .next (settle (revokeSlot k.toNat (s.tick t))))

/-! ## Media -/

/-- MED_WEAR_LOG answers its record and changes nothing else; MED_SET_POLICY holds its eight values to their ranges and logs
that it did; MED_FORMAT erases every volume, collection, key and group and adds up the capacity again. -/
def Obligations.MediaCommands : Prop :=
  ∀ (s : State) (c : Capsule),
    (accepted 0x0640 c s = true →
      exec (.medWearLog c) s =
        .next (settle (succeed s.nextCmd 0 [(0, wearRecord (s.entered 0x0640 c))] (s.entered 0x0640 c)))) ∧
    (∀ n l, s.live? n = some l →
      landedOf 0x0641 n s =
        let p := medPolicyOf l.data
        let o := originWord l.c.origin
        let u := addLog (if p.1 = p.2 then 0x0707 else 0x070E) o noUnit 0 [0x0641] { s with media := { s.media with pol := p.2 } }
        succeed n 0 [] (addLog 0x0706 o noUnit 0 [0x0641] u)) ∧
    (accepted 0x0642 c s = true →
      exec (.medFormat c) s =
        let b := s.entered 0x0642 c
        let s1 := foldOver (b.stores.flatMap fun e => e.2.pages.map fun g => (e.1, g.1)) (fun x acc => formatPage x.1 x.2 acc) b
        let s2 := foldOver (s1.vols.map Prod.snd) freeAbsorb s1
        let s3 := foldOver (s2.cols.map Prod.snd) (fun k acc =>
          (acc.modDie (lowestDie acc k.part.val) fun x => { x with otherFrames := x.otherFrames - k.frames }).modPart k.part.val
            fun x => { x with pinned := x.pinned - k.frames }) s2
        let s4 := revokeLeases (fun _ _ => true) s3
        let s5 : State :=
          { s4 with
            vols := [], cols := [], ctxs := Tbl.keep (fun _ c => !c.search) s4.ctxs
            media := { s4.media with groups := Tbl.mapVals (fun _ g => formatGroup g) s4.media.groups, colReserved := 0 }
            sec := { s4.sec with keys := [] } }
        .next (settle (succeed s.nextCmd 0 [] (checkCapacity (setStatus 2 false s5)))))

/-- A codeword of a mapped unit counts its read depth; one that had to be rebuilt queues its superblock for refresh, and one
that could not be makes the unit LOST. A wordline that programs is closed; one that fails closes its superblock, retires its
block and programs its units elsewhere. A weak hold-up store slows the acknowledgement of DURABLE writes and degrades the
module. Collection of a parity group: the victim is the superblock queued for refresh, or below the marks the one of highest
score; up to 64 of its live units move at a time; with none left every block's generation advances and the erase begins, and
an erase with a valid unit is refused; an erased superblock's blocks are free, those that failed or are worn out retired. -/
def Obligations.MediaWrites : Prop :=
  (∀ (s : State),
    (∀ (vol : Word) unit v k,
      s.vol? vol.toNat = some v → platState (v.entry unit) = 1 →
      let counted (d : Nat) : State := { s with media := { s.media with depths := bumpHour s 8 d s.media.depths } }
      let p := platPlace (v.entry unit)
      (∀ d : Fin 8, exec (.codewordDecode vol unit k (.decoded d)) s = .next (wearCheck (counted d.val))) ∧
      exec (.codewordDecode vol unit k .rebuilt) s = .next (wearCheck (rebuildAt (v.entry unit) (counted 7))) ∧
      exec (.codewordDecode vol unit k .uncorrectable) s =
        .next (wearCheck ((dropValid (v.entry unit)
          (eccUncorrectable (.channel (channelOf p.group p.slot)) ((v.entry unit).toNat % 2 ^ 52) none (counted 7))).modVol vol.toNat
            fun x => { x with plat := Tbl.set unit platLost x.plat }))) ∧
    (∀ (g : GroupIx) (slot : Fin 16) serial sb w,
      Tbl.find? (fun _ x => x.isOpen && (nextWordline x slot.val).isSome) (s.pgroup g.val).supers = some (serial, sb) →
      nextWordline sb slot.val = some w →
      (exec (.wordlineProgramComplete g slot true) s =
        let done : Super := { sb with closedWl := sb.closedWl ||| (1 <<< (384 * slot.val + w)), lastProg := s.sys.time }
        let u := ({ s with media := { s.media with programmed := s.media.programmed + 196608 } }).modGroup g.val fun g =>
          { g with supers := Tbl.set serial done g.supers }
        .next (settle (if done.closedWl + 1 = 1 <<< 6144 then closeSuper g.val serial u else u))) ∧
      exec (.wordlineProgramComplete g slot false) s =
        .next (settle (reprogram g.val serial sb (wordlineUnits g.val serial sb slot.val w)
          (retireBlock g.val slot.val (sb.blocks.getD slot.val 0) (closeSuper g.val serial s))))) ∧
    (∀ mj t,
      let u : State :=
        { s.tick t with media :=
          { (s.tick t).media with
            holdupMj := mj, holdupAt := (s.tick t).sys.time, slowAck := decide (mj < 16000) || stagingShort (s.tick t) } }
      (mj < 16000 → exec (.holdupMeasure mj t) s = .next (settle (degrade .holdup (addLog 0x0202 0x50000000 noUnit 0 [mj] u)))) ∧
      (16000 ≤ mj → exec (.holdupMeasure mj t) s = .next (settle (undegrade .holdup u))))) ∧
  (∀ (s : State) (g : GroupIx),
    let x := s.pgroup g.val
    let free := freeSupers x
    let on := decide (free < s.media.pol.low) || (x.collecting && decide (free < s.media.pol.high))
    let cands := x.supers.filter fun e => e.2.closed
    (∀ e, x.victim = none → List.find? (fun q : Nat × Super => q.2.refresh) cands = some e →
      exec (.gcStart g) s = .next (s.modGroup g.val fun y => { y with victim := some e.1, collecting := on })) ∧
    (∀ e, x.victim = none → List.find? (fun q : Nat × Super => q.2.refresh) cands = none → on = true →
      bestOf (fun a b : Nat × Super => scoreLt (gcScore s x b.2) (gcScore s x a.2)) cands = some e →
      exec (.gcStart g) s = .next (s.modGroup g.val fun y => { y with victim := some e.1, collecting := true })) ∧
    (x.victim = none → List.find? (fun q : Nat × Super => q.2.refresh) cands = none → on = false →
      exec (.gcStart g) s = .next (s.modGroup g.val fun y => { y with collecting := false })) ∧
    (∀ serial sb, x.victim = some serial → Tbl.get? x.supers serial = some sb → sb.erasing = false →
      let u := foldOver ((liveUnits s g.val serial sb).take 64) (moveUnit g.val serial sb) s
      exec (.gcMoveCommit g) s =
        .next (if (liveUnits u g.val serial sb).isEmpty then eraseIntent g.val serial u else u)) ∧
    (∀ serial sb, Tbl.get? x.supers serial = some sb →
      (0 < superValid x sb →
        eraseIntent g.val serial s = addLog 0x0208 0x50000000 noUnit 0 [g.val, serial] s) ∧
      (superValid x sb = 0 →
        eraseIntent g.val serial s = s.modGroup g.val fun y =>
          let z := (sb.blocks.mapIdx fun i b => (i, b)).foldl (fun y e =>
            y.modBlock e.1 e.2 fun b => if b.st = 4 then b else { b with st := 3, erases := b.erases + 1 }) y
          { z with supers := Tbl.set serial { sb with erasing := true } z.supers })) ∧
    (∀ serial sb failed, Tbl.find? (fun _ q => q.erasing && decide (q.suspended = 0)) x.supers = some (serial, sb) →
      exec (.blockEraseComplete g failed) s =
        let bs := sb.blocks.mapIdx fun i b => (i, b)
        let out := bs.filter fun e => decide (e.1 ∈ failed.map Fin.val ∨ 20000 ≤ (x.block e.1 e.2).erases)
        let s1 := s.modGroup g.val fun y =>
          let z := bs.foldl (fun y e => y.modBlock e.1 e.2 fun b =>
            if b.st = 4 then b else { b with st := 0, reads := 0, valid := 0, rebuilds := 0 }) y
          { z with
            supers := Tbl.erase serial z.supers
            victim := if z.victim = some serial then none else z.victim }
        let s2 := foldOver out (fun e acc => retireBlock g.val e.1 e.2 acc) s1
        .next (settle (s2.modGroup g.val fun y => { y with collecting := y.collecting && decide (freeSupers y < s.media.pol.high) }))))

/-- The upkeep of a parity group: the least worn superblock is moved when the spread of erase counts is too wide; a
superblock is refreshed when a block of it was read too often, when its patrol read was deep, or 90 days after it closed; an
erase is suspended for a read at most 16 times per slot, 500 µs apart, and resumes. -/
def Obligations.MediaUpkeep : Prop :=
  ∀ (s : State) (g : GroupIx) (t : Nat),
    let u := s.tick t
    let x := s.pgroup g.val
    (∀ e, s.media.pol.wear < eraseSpread x → x.victim = none →
      bestOf (fun a b : Nat × Super => decide (superErases x a.2 < superErases x b.2 ∨
        (superErases x a.2 = superErases x b.2 ∧ a.2.lastProg < b.2.lastProg))) (x.supers.filter fun e => e.2.closed) = some e →
      exec (.wearLevel g) s = .next (s.modGroup g.val fun y => { y with victim := some e.1 })) ∧
    (eraseSpread x ≤ s.media.pol.wear → exec (.wearLevel g) s = .next s) ∧
    (∀ serial sb, Tbl.get? x.supers serial = some sb →
      ((sb.blocks.mapIdx fun i b => (x.block i b).reads).any (fun r => decide (s.media.pol.readThr ≤ r)) = true →
        exec (.readThresholdRefresh g serial) s = .next (startRefresh g.val serial s)) ∧
      (sb.closed = true → sb.patrolAt + u.media.pol.patrolDays * 86400000000000 ≤ u.sys.time →
        ∀ (d : Fin 8) (rebuilt : Bool),
        exec (.patrolRead g serial d rebuilt t) s =
          let v := u.modGroup g.val fun y => { y with supers := Tbl.set serial { sb with patrolAt := u.sys.time } y.supers }
          .next (if 4 ≤ d.val ∨ rebuilt then startRefresh g.val serial v else v)) ∧
      (sb.closed = true → sb.closedAt + 7776000000000000 ≤ u.sys.time →
        exec (.retentionRefresh g serial t) s = .next (startRefresh g.val serial u))) ∧
    (∀ serial sb (slot : Fin 16), erasingSuper u g.val = some (serial, sb) →
      (sb.suspended.getLsbD slot.val = false → Tbl.getD sb.suspends slot.val 0 < 16 →
        (∀ at_, Tbl.get? sb.resumedAt slot.val = some at_ → at_ + 500000 ≤ u.sys.time) →
        exec (.eraseSuspend g slot t) s =
          let held : Super :=
            { sb with
              suspended := sb.suspended ||| (1#16 <<< slot.val)
              suspends := Tbl.set slot.val (Tbl.getD sb.suspends slot.val 0 + 1) sb.suspends }
          .next (u.modGroup g.val fun y => { y with supers := Tbl.set serial held y.supers })) ∧
      (16 ≤ Tbl.getD sb.suspends slot.val 0 → exec (.eraseSuspend g slot t) s = .next u) ∧
      (sb.suspended.getLsbD slot.val = true →
        exec (.eraseResume g slot t) s =
          let goes : Super :=
            { sb with
              suspended := sb.suspended &&& ~~~(1#16 <<< slot.val)
              resumedAt := Tbl.set slot.val u.sys.time sb.resumedAt }
          .next (u.modGroup g.val fun y => { y with supers := Tbl.set serial goes y.supers })))

/-! ## Links -/

/-- LNK_QUERY and LNK_COUNTERS answer the records of the links of their mask, and counters are cleared only when p1 is 1.
LNK_CONTROL acts on each link of the mask by its op. Policies in range are taken, min_width never below 8; routes are
written; keys wait for the fast training that follows. A directory answers the entry that holds an offset, a range of entries
and its role, and applies a set of changes all at once or not at all. -/
def Obligations.LinkAndGroupCommands : Prop :=
  ∀ (s : State) (c : Capsule),
    (accepted 0x0710 c s = true →
      exec (.lnkQuery c) s = .next (settle (succeed s.nextCmd 0
        (oneSegment ((maskLinks c).flatMap fun i => linkStatus i (s.entered 0x0710 c))) (s.entered 0x0710 c)))) ∧
    (accepted 0x0711 c s = true →
      exec (.lnkCounters c) s =
        let b := s.entered 0x0711 c
        let u := if c.p1 = 1 then foldOver (maskLinks c) (fun i acc => countLink i (fun _ => {}) acc) b else b
        .next (settle (succeed s.nextCmd 0 (oneSegment ((maskLinks c).flatMap fun i => linkCounters i b)) u))) ∧
    (accepted 0x0715 { c with p1 := 0 } s = true →
      exec (.lnkEnable c) s = .next (settle (succeed s.nextCmd 0 []
        (foldOver (maskLinks c) linkEnable (s.entered 0x0715 { c with p1 := 0 }))))) ∧
    (accepted 0x0715 { c with p1 := 1 } s = true →
      exec (.lnkDisable c) s = .next (settle (succeed s.nextCmd 0 []
        (foldOver (maskLinks c) linkDisable (s.entered 0x0715 { c with p1 := 1 }))))) ∧
    (accepted 0x0715 { c with p1 := 2 } s = true →
      exec (.lnkFastTraining c) s = .next (settle (succeed s.nextCmd 0 []
        (foldOver (maskLinks c) (linkRetrain false) (s.entered 0x0715 { c with p1 := 2 }))))) ∧
    (accepted 0x0715 { c with p1 := 3 } s = true →
      exec (.lnkFullTraining c) s = .next (settle (succeed s.nextCmd 0 []
        (foldOver (maskLinks c) (linkRetrain true) (s.entered 0x0715 { c with p1 := 3 }))))) ∧
    (accepted 0x0715 { c with p1 := 4 } s = true →
      exec (.lnkReleaseQuarantine c) s = .next (settle (succeed s.nextCmd 0 []
        (foldOver (maskLinks c) releaseQuarantine (s.entered 0x0715 { c with p1 := 4 }))))) ∧
    (∀ n l, s.live? n = some l →
      let g (i : Nat) : Nat := (lnkValues l.data).getD i 0
      let o := originWord l.c.origin
      (lnkPolicyOk (lnkValues l.data) = true → 8 ≤ g 0 → g 0 < g 1 →
        landedOf 0x0712 n s = succeed n 0 [] (addLog 0x0706 o noUnit 0 [0x0712, l.c.p0.toNat]
          (foldOver (maskLinks l.c) (fun i acc => acc.modLink i fun x =>
            { x with minWidth := max 8 (g 0), maxWidth := g 1, powerShed := decide (g 2 = 1), shedOneIn := g 3, qCount := g 4,
                     qWindow := g 5, qHold := g 6, stallUs := g 7 }) s))) ∧
      (lnkPolicyOk (lnkValues l.data) = false → landedOf 0x0712 n s = fail n 0x0101 0 s) ∧
      (let es := (List.range (l.c.dataLen.toNat / 4)).map fun i => fieldAt l.data (4 * i) 4
       (∀ e ∈ es, e < 2 ^ 26 ∧ bits e 20 5 < 24) →
        landedOf 0x0713 n s =
          let routes := es.foldl (fun t e => Tbl.put 0 (e % 2 ^ 20) (BitVec.ofNat 8 (bits e 20 6)) t) s.fabric.routes
          succeed n 0 [] { s with fabric := { s.fabric with routes := routes } }) ∧
      (landedOf 0x0714 n s =
        let i := l.c.p0.toNat
        let u := addLog 0x0704 o (unitWord (6 + i / 12) 5 i) 0 [] (s.modLink i fun x =>
          { x with newKeys := some (sliceBytes l.data 0 32, sliceBytes l.data 36 32, BitVec.ofNat 32 (fieldAt l.data 32 4),
              BitVec.ofNat 32 (fieldAt l.data 68 4)) })
        succeed n 0 [] ((linkDown i 7 u).modLink i fun x => { x with nextFull := !x.ringsLocked })) ∧
      (let dir := (grpChanges (s.fabric.dirGen + 1) l.data).foldl dirApply s.fabric.dir
       let zeros := (List.range (l.data.length / 32)).all fun i =>
         decide (fieldAt l.data (32 * i + 4) 4 = 0 ∧ fieldAt l.data (32 * i + 24) 4 < 2 ^ 20)
       (zeros = false → landedOf 0x0721 n s = fail n 0x0103 0 s) ∧
       (zeros = true → (dirOverlaps dir = true ∨ dir.any (fun e => decide (e.stop ≤ e.first)) = true ∨ 1048576 < dir.length) →
         landedOf 0x0721 n s = fail n 0x0101 0 s) ∧
       (zeros = true → dirOverlaps dir = false → dir.any (fun e => decide (e.stop ≤ e.first)) = false → dir.length ≤ 1048576 →
         landedOf 0x0721 n s = succeed n (s.fabric.dirGen + 1) [] (addLog 0x0701 o noUnit 0 [0x0721, s.fabric.dirGen + 1]
           { s with fabric := { s.fabric with dir := dir, dirGen := s.fabric.dirGen + 1 } })))) ∧
    (∀ e, accepted 0x0720 c s = true → dirFind (s.entered 0x0720 c) c.object c.offset.toNat = some e →
      exec (.grpLookup c) s = .next (settle (succeed s.nextCmd 0 [(0, e.toBytes)] (s.entered 0x0720 c)))) ∧
    (accepted 0x0722 c s = true →
      exec (.grpDump c) s = .next (settle (succeed s.nextCmd 0 (oneSegment
        ((((s.entered 0x0722 c).fabric.dir.drop c.offset.toNat).take c.length.toNat).flatMap DirEntry.toBytes)) (s.entered 0x0722 c)))) ∧
    (accepted 0x0723 c s = true →
      exec (.grpQuery c) s =
        let f := (s.entered 0x0723 c).fabric
        .next (settle (succeed s.nextCmd 0 [(0, leBytes 2 f.groupId.toNat ++ leBytes 2 (if f.manager then 0 else 1) ++
          leBytes 4 f.managerNode.toNat ++ leBytes 4 (if f.manager then grpMembers (s.entered 0x0723 c) else 0) ++
          leBytes 4 (if f.manager then f.dirGen else 0))] (s.entered 0x0723 c))))

/-- A flit on a link that is UP whose parity, CRC or sequence number fails is counted and nacked, and one in sequence is
accepted and its units are taken in order. An IDLE flit's header and a credit return act. Acknowledgements leave 50 ns after
the last, and flits unacknowledged for 2 µs are sent again. One slot leaves at a time. A grant follows the decision of the
command; segments land, and the last of them lets the command go on; a grant with no data for 100 ms ends its command. Units
that have waited too long on an output without credit are discarded. -/
def Obligations.LinkTraffic : Prop :=
  ∀ (s : State) (l : LinkIx) (t : Nat),
    let k := s.link l.val
    let u := s.tick t
    (∀ flit chk, k.st = .up →
      let h := fieldAt flit 0 16
      let s1 := countLink l.val (fun x =>
        let per := chk.correctedBy.foldl (fun t e => Tbl.put 0 e.1.val (sat32 (Tbl.getD t e.1.val 0) e.2) t) x.perLambda
        { x with corrected := x.corrected + (chk.correctedBy.map Prod.snd).sum, perLambda := per }) s
      let crcOk := decide ((crc32c (sliceBytes flit 0 240)).toNat = fieldAt flit 240 4)
      (chk.fecOk = false → exec (.payloadFlitReceive l flit chk) s =
        .next (settle (nackFlit l.val (countLink l.val (fun x => { x with uncorrectable := x.uncorrectable + 1 }) s1)))) ∧
      (chk.fecOk = true → crcOk = false → exec (.payloadFlitReceive l flit chk) s =
        .next (settle (nackFlit l.val (countLink l.val (fun x =>
          { x with uncorrectable := x.uncorrectable + 1, crcFail := sat32 x.crcFail 1 }) s1)))) ∧
      (chk.fecOk = true → crcOk = true → bits h 0 4 = 1 → k.encrypted = false → BitVec.ofNat 12 (bits h 4 12) ≠ k.rxSeq + 1 →
        exec (.payloadFlitReceive l flit chk) s = .next (settle (nackFlit l.val s1))) ∧
      (chk.fecOk = true → crcOk = true → bits h 0 4 = 1 → k.encrypted = false → BitVec.ofNat 12 (bits h 4 12) = k.rxSeq + 1 →
        (List.range 7).any (fun i => decide ((slotDesc h i).1 = 1) && decide (32 * i < (flitSlots k flit).length) &&
          decide (fieldAt (flitSlots k flit) (32 * i + 7) 1 ≠ 0)) = false →
        exec (.payloadFlitReceive l flit chk) s =
          let a := acceptFlit l.val h (flitSlots k flit) s1
          .next (settle (foldOver a.2 (takeUnit l) a.1)))) ∧
    (∀ header, k.st = .up → bits header.toNat 0 4 = 2 →
      exec (.idleFlitReceive l header) s =
        .next (settle (takeHeader l.val header.toNat (s.modLink l.val fun x => { x with flitAt := s.sys.time })))) ∧
    (∀ slots, k.st = .up →
      exec (.creditReturnReceive l slots) s =
        .next (addCredits l.val (slots.map fun n => n % 65536) (s.modLink l.val fun x => { x with flitAt := s.sys.time }))) ∧
    (k.st = .up → 0 < k.unacked → k.ackSentAt + 50 ≤ u.sys.time →
      exec (.ackIntervalExpiry l t) s = .next (sendAck l.val false u)) ∧
    (k.st = .up → k.ackAt + 2000 ≤ u.sys.time → k.replay ≠ [] → k.replayFails < 8 →
      exec (.replayTimeout l t) s = .next (settle (u.modLink l.val fun x =>
        { x with resend := true, replayFails := x.replayFails + 1, ackAt := u.sys.time,
                 ctr := { x.ctr with replays := sat32 x.ctr.replays 1 } }))) ∧
    (k.st = .up → k.replay.length < 2047 → pickSlot k = none → k.filling = [] → exec (.slotSend l) s = .next s) ∧
    (k.st = .up → k.replay.length < 2047 → pickSlot k = none → k.filling ≠ [] →
      exec (.slotSend l) s = .next (closeFlit l.val s)) ∧
    (∀ c h x, k.st = .up → k.replay.length < 2047 → pickSlot k = some (c, h, x) → x.inLink = none → x.cmd = none →
      exec (.slotSend l) s =
        let rest := Tbl.getD k.credits (4 * c + h) 0 - 1
        let at_ := k.waiting.findIdx fun v => decide (v = x)
        let v := s.modLink l.val fun y =>
          { y with
            waiting := if decide (x.sent + 1 = x.slots) then y.waiting.eraseIdx at_ else y.waiting.set at_ { x with sent := x.sent + 1 }
            credits := Tbl.put 0 (4 * c + h) rest y.credits
            stalled := if rest = 0 then Tbl.set (4 * c + h) s.sys.time y.stalled else y.stalled
            lastIn := if x.sent = 0 then Tbl.set (4 * c + h) 24 y.lastIn else y.lastIn
            sinceC0 := if c = 0 then 0 else y.sinceC0 + 1
            filling := y.filling ++ [((slotOf x).1 + 4 * c + 16 * h, (slotOf x).2)]
            ctr := { y.ctr with localTx := y.ctr.localTx + 32 } }
        .next (if (if (v.link l.val).encrypted then 6 else 7) ≤ (v.link l.val).filling.length ∨ (pickSlot (v.link l.val)).isNone
          then closeFlit l.val v else v)) ∧
    (∀ n x, s.live? n = some x → x.awaits = true →
      (grantDecision n x s = .held → exec (.rxGrant n) s = .next (settle s)) ∧
      (∀ st, grantDecision n x s = .refused st → exec (.rxGrant n) s = .next (settle (refuseGrant n x st s))) ∧
      (∀ v, grantDecision n x s = .ok v → exec (.rxGrant n) s = .next (settle (recordGrant n v)))) ∧
    (∀ src tag pos data n x, findTag u (.fabric src l) tag = some n → u.live? n = some x → x.phase = .collecting →
      data ≠ [] → pos + data.length ≤ x.granted → x.hasLanded pos data.length = false →
      let v := u.modLive n fun y => { y with segs := y.segs ++ [(pos, data)], landed := y.landed + data.length }
      findTag v (.fabric src l) tag = some n →
      (∀ y, v.live? n = some y → y.phase = .collecting → y.full = true →
        exec (.dataSegmentReceive l src tag pos data t) s = .next (settle (landedOf y.op.toNat n v))) ∧
      (∀ y, v.live? n = some y → y.full = false → exec (.dataSegmentReceive l src tag pos data t) s = .next (settle v))) ∧
    (∀ n x, u.live? n = some x → x.phase = .collecting → x.landed < x.granted → x.landed = x.grantBase →
      x.grantAt + 100000000 ≤ u.sys.time →
      exec (.grantDataTimeout n t) s = .next (settle (blame x.c 319 (abort n 0x0103 u)))) ∧
    (∀ tag, s.fabric.issued.any (fun i => decide (i.tag = tag)) = false →
      exec (.strayReplyReceive l tag) s = .next (settle (violation l.val 321 s))) ∧
    (∀ cls level : Fin 4,
      let us := k.waiting.filter fun x => decide (x.cls = cls.val ∧ x.level = level.val)
      (k.st ≠ .up ∨ 0 < Tbl.getD k.credits (4 * cls.val + level.val) 0 ∨
        us.any (fun x => decide (x.since + k.stallUs * 1000 ≤ u.sys.time)) = false) →
      exec (.creditStallTimeout l cls level t) s = .next (settle u)) ∧
    (∀ (cls level : Fin 4) z,
      let us := k.waiting.filter fun x => decide (x.cls = cls.val ∧ x.level = level.val)
      k.st = .up → Tbl.getD k.credits (4 * cls.val + level.val) 0 = 0 →
      Tbl.get? k.stalled (4 * cls.val + level.val) = some z → z + k.stallUs * 1000 ≤ u.sys.time →
      us.any (fun x => decide (x.since + k.stallUs * 1000 ≤ u.sys.time)) = true →
      (∀ x ∈ us, x.inLink = none ∧ x.kind = 1 ∧ x.cmd = none) →
      exec (.creditStallTimeout l cls level t) s =
        .next (settle (violation l.val 299 (u.modLink l.val fun x =>
          { x with waiting := x.waiting.filter fun y => !decide (y.cls = cls.val ∧ y.level = level.val)
                   ctr := { x.ctr with creditStall := sat32 x.ctr.creditStall 1 } }))))

/-- A link that carries flits goes down on a notice of the peer, after 1 µs without a flit, or when its key is spent. A
training attempt begins when its time has come, or when a DARK link sees light; a bad frame ends it, and an attempt that ends
well brings the link up with its peer, its masks, fresh sequence numbers and full credits. The wavelengths of a link. A
heater in range follows its ring, and one that would leave its range makes the ring hop and sheds its wavelength; a hop ends
locked or not. Errors above the threshold shed receive wavelengths, light lost at the laser input sheds them on all lanes or
leaves the link dark, and a use below 30 % sheds the highest above min_width; a hold of 60 s that is over is cleared. A lane
change of the peer is answered and followed. -/
def Obligations.LinkStates : Prop :=
  (∀ (s : State) (l : LinkIx) (t : Nat),
    let k := s.link l.val
    let u := s.tick t
    exec (.linkDownNotice l) s = .next (settle (linkDown l.val 4 s)) ∧
    (k.flitAt + 1000 ≤ u.sys.time → exec (.linkIdleTimeout l t) s = .next (settle (linkDown l.val 3 u))) ∧
    (k.encrypted = true → k.st = .up → 281474976710656 ≤ k.flitCtr →
      exec (.linkKeyExhausted l) s =
        .next (settle (linkDown l.val 6 (addLog 0x030B 0x50000000 (unitWord (6 + l.val / 12) 5 l.val) 0 [k.peer.toNat] s)))) ∧
    (k.st = .training → k.trying = false → k.nextTry ≤ u.sys.time →
      exec (.retrainTimer l t) s = .next (startTraining l.val k.nextFull u)) ∧
    (∀ laser, k.st = .dark → k.nextTry ≤ u.sys.time →
      let v := u.modLink l.val fun x => { x with laser := laser, nextTry := u.sys.time + 100000000 }
      exec (.darkRetry l laser t) s = .next (if laser = 0 then v else startTraining l.val true v)) ∧
    (∀ r, k.trying = true → k.st = .training →
      (trainFault k r r.txUsable r.rxUsable = none →
        exec (.trainingFrameReceive l r) s =
          .next (setLinkSt l.val .training (s.modLink l.val fun x => { x with peer := r.peer }))) ∧
      (∀ why, trainFault k r r.txUsable r.rxUsable = some why → why ≠ 0 →
        exec (.trainingFrameReceive l r) s = .next (trainFails l.val why s)) ∧
      (k.nextFull = false →
        let now := u.sys.time
        let tx := maskTake k.maxWidth (r.txUsable &&& laserMask k.laser &&& ~~~(k.barred now 0))
        let rx := maskTake k.maxWidth (r.rxUsable &&& ~~~(k.barred now 32))
        k.laser ≠ 0 → r.rxUsable ≠ 0 → trainFault k { r with full := false } tx rx = none → k.newKeys = none →
        exec (.linkTraining l r t) s =
          .next (undegrade (.link l.val) (setLinkSt l.val (if k.quarantinedAt.isSome then .quarantined else .up)
            (u.modLink l.val fun x =>
              { x with
                txMask := tx, rxMask := rx, peer := r.peer, encrypted := x.keys.isSome, newKeys := none,
                txSeq := 0, rxSeq := 0xFFF, nacked := false, replay := [], resend := false, replayFails := 0, ackAt := now,
                unacked := 0, ackSentAt := now, credits := fullCredits, owed := [], stalled := [], openRx := [],
                filling := [], trying := false, fails := 0, flitAt := now,
                sheds := Tbl.mapVals (fun _ y => if y.until_ ≤ now then { y with out := false, power := false } else y) x.sheds }))))) ∧
    (k.qHold ≠ 0 → k.quarantinedAt.any (fun q => decide (q + k.qHold * 1000000000 ≤ u.sys.time)) = true →
      exec (.quarantineHoldExpiry l t) s = .next (releaseQuarantine l.val u)) ∧
    (∀ n : Fin 22, s.fabric.pkgDown.getLsbD n.val = false →
      exec (.packageLinkFail n) s =
        let f : Fabric :=
          { s.fabric with
            pkgDown := s.fabric.pkgDown ||| (1#22 <<< n.val)
            pkgAlt := s.fabric.pkgAlt ++ [(n.val, (Config.pkgAlternate n.val).getD [])] }
        let v := degrade (.packageLink n.val) { s with fabric := f }
        .next (settle (addLog 0x0302 0x50000000 noUnit 0 [256 + n.val] v))) ∧
    (∀ n : Fin 22, s.fabric.pkgDown.getLsbD n.val = true → exec (.packageLinkFail n) s = .next (settle s))) ∧
  (∀ (s : State) (l : LinkIx) (t : Nat),
    let k := s.link l.val
    let u := s.tick t
    (∀ (ring : Fin 64) p, k.st = .up → (k.ring ring.val).failed = false → (k.ring ring.val).hopping = false →
      (0 ≤ p → p ≤ 8000 →
        exec (.ringTrackTick l ring p) s = .next (settle (s.modLink l.val (Link.modRing ring.val fun y => { y with heater := p })))) ∧
      (p < 0 ∨ 8000 < p →
        exec (.ringTrackTick l ring p) s =
          let v := { s with free := s.free + 1 }.modLink l.val fun x =>
            { Link.modRing ring.val (fun y =>
                { y with heater := ((Config.freeNat s.free % 8001 : Nat) : Int),
                         order := if p < 0 then y.order + 1 else y.order - 1, hopping := true, locked := false }) x with
              ctr := { x.ctr with hops := sat32 x.ctr.hops 1 } }
          .next (settle (shedMask l.val (ring.val / 32 * 32) (1#32 <<< (ring.val % 32)) v)))) ∧
    (∀ (ring : Fin 64) locked, (k.ring ring.val).hopping = true →
      exec (.ringHopComplete l ring locked) s = .next (s.modLink l.val fun x =>
        let y := Link.modRing ring.val (fun r => { r with hopping := false, locked := locked }) x
        { y with sheds := Tbl.modify ring.val (fun z => { z with clearAt := s.sys.time }) y.sheds })) ∧
    (∀ corrected carried weak,
      exec (.shedCheck l corrected carried weak t) s =
        .next (settle (shedMask l.val 32 (shedFound (u.link l.val) corrected carried weak) u))) ∧
    (∀ lam : Fin 8, k.st = .up →
      let v := s.modLink l.val fun x => { x with laser := x.laser &&& ~~~(1#8 <<< lam.val) }
      exec (.laserLoss l lam) s = .next (settle (if (v.link l.val).st = .up then
        (if (v.link l.val).laser = 0 then linkDown l.val 2 v
         else shedMask l.val 0 ((List.range 4).foldl (fun m a => m ||| (1#32 <<< (8 * a + lam.val))) 0) v) else v))) ∧
    (∀ (i : Fin 32) errors bytes,
      exec (.wavelengthRestore l i errors bytes t) s =
        .next (restoreOne l.val 32 i.val errors bytes (restoreOne l.val 0 i.val errors bytes u))) ∧
    (∀ use i, k.st = .up → lightLimited s l.val = false → use < 30 → k.powerShed = true →
      (List.range 32).reverse.find? (fun i => k.txMask.getLsbD i) = some i → k.minWidth < maskWidth k.txMask →
      exec (.powerShedTick l use) s =
        .next (setMasks l.val (k.txMask &&& ~~~(1#32 <<< i)) k.rxMask (s.modLink l.val fun x =>
          { x with sheds := Tbl.set i { x.shed i with power := true } x.sheds,
                   ctr := { x.ctr with sheds := sat32 x.ctr.sheds 1 } }))) ∧
    (∀ use, 30 ≤ use → use ≤ 70 → exec (.powerShedTick l use) s = .next s) ∧
    (∀ i : Fin 32,
      exec (.shedHoldExpiry l i t) s =
        let one (side : Nat) (x : Link) : Link :=
          let cleared (z : Shed) : Shed :=
            if z.until_ ≠ 0 ∧ z.until_ ≤ u.sys.time then { z with until_ := 0, times := [], clearAt := u.sys.time } else z
          { x with sheds := Tbl.modify (side + i.val) cleared x.sheds }
        .next (u.modLink l.val fun x => one 32 (one 0 x))) ∧
    (∀ mask seq, k.st = .up → k.laneAsk ≠ some mask →
      exec (.laneChange l mask seq) s =
        .next (settle (setMasks l.val mask k.rxMask (s.modLink l.val fun x =>
          { x with controlOut := x.controlOut ++ [.laneAnswer mask x.txSeq] })))))

/-! ## Errors -/

/-- An operation of the ECC test port sets CTL and ADDR, and does nothing more when the target's block is not enabled. It is
refused with cause 1 when the caller may not name the target, 3 outside the memory, and 2 while other work depends on the
word or the injection list of 16 is full. Else WRITE and WRITE_SPLIT store the words, take the word off the injection list or
put it on it, READ_RAW returns what is stored, and READ returns what the checker finds. -/
def Obligations.TestPort : Prop :=
  ∀ (s : State) (d : AllDieIx) (r : EccReq),
    let at_ (op : Nat) : State :=
      { s with errs :=
        { s.errs with portCtl := Tbl.set d.val (BitVec.ofNat 32 (2 * op + 8 * targetCode r.target + 128 * r.unit.toNat)) s.errs.portCtl
                      portAddr := Tbl.set d.val r.addr s.errs.portAddr } }
    (∀ x ∈ [(0, Instr.eccReadRaw d r), (1, .eccWriteSplit d r), (2, .eccWrite d r), (3, .eccRead d r)],
      (∀ u, eccUnit d.val r = some u → (at_ x.1).enabled u = false →
        exec x.2 s = .next (if r.futis.isSome then at_ x.1 else logUnit 0x0609 u [] (at_ x.1))) ∧
      ((∀ u, eccUnit d.val r = some u → (at_ x.1).enabled u = true) →
        (eccPermitted d.val r (at_ x.1) = false →
          exec x.2 s = .next (setPort d.val (eccStat 0 true 1 0x7F) r.chk r.data (at_ x.1))) ∧
        (eccPermitted d.val r (at_ x.1) = true → eccInRange r = false →
          exec x.2 s = .next (setPort d.val (eccStat 0 true 3 0x7F) r.chk r.data (at_ x.1))) ∧
        (eccPermitted d.val r (at_ x.1) = true → eccInRange r = true → eccBusy d.val r (at_ x.1) = true →
          exec x.2 s = .next (setPort d.val (eccStat 0 true 2 0x7F) r.chk r.data (at_ x.1))))) ∧
    ((∀ op u, eccUnit d.val r = some u → (at_ op).enabled u = true) →
     (∀ op, eccPermitted d.val r (at_ op) = true ∧ eccBusy d.val r (at_ op) = false) → eccInRange r = true →
      let ws := (r.data ++ List.replicate 8 0).take (eccWords r.target)
      let off (t : State) : State := { t with errs := { t.errs with injected := t.errs.injected.filter fun e => !e.names d.val r } }
      (16 ≤ (s.errs.injected.filter fun e => decide (e.die = d.val)).length → s.errs.injected.any (fun e => e.names d.val r) = false →
        exec (.eccWriteSplit d r) s = .next (setPort d.val (eccStat 0 true 2 0x7F) r.chk r.data (at_ 1))) ∧
      ((s.errs.injected.filter fun e => decide (e.die = d.val)).length < 16 →
        exec (.eccWriteSplit d r) s =
          let e : Injected :=
            { die := d.val, target := targetCode r.target, unit := r.unit.toNat, addr := r.addr.toNat, data := ws,
              chk := if r.target = .hbm then r.chk else r.chk &&& 0xFF }
          let t := off (eccPut d.val r ws (at_ 1))
          .next (setPort d.val (eccStat 0 false 0 0x7F) r.chk r.data { t with errs := { t.errs with injected := t.errs.injected ++ [e] } })) ∧
      exec (.eccWrite d r) s = .next (setPort d.val (eccStat 0 false 0 0x7F) r.chk r.data (off (eccPut d.val r ws (at_ 2)))) ∧
      (exec (.eccReadRaw d r) s =
        let q := eccData d.val r (at_ 0)
        let chk := match eccListed d.val r q.2 (at_ 0) with
          | some e => e.chk
          | none => eccChk r.target q.2
        .next (setPort d.val (eccStat 0 false 0 0x7F) chk q.2 q.1)) ∧
      (r.target ≠ .hbm → eccListed d.val r (eccData d.val r (at_ 3)).2 (at_ 3) = none →
        exec (.eccRead d r) s =
          let q := eccData d.val r (at_ 3)
          let chk := eccChk r.target q.2
          let f := checkWord (q.2.headD 0) chk
          .next (setPort d.val (eccStat f.1 false 0 f.2.1) (if f.1 = 1 then eccChk r.target [f.2.2] else chk) [f.2.2] q.1)) ∧
      (r.target = .hbm →
        exec (.eccRead d r) s =
          let q := eccStored d.val r (at_ 3)
          let f := checkLine q.2.1 q.2.2
          .next (setPort d.val (eccStat f.1 false 0 f.2.1) (if f.1 = 1 then eccChk .hbm f.2.2 else q.2.2) f.2.2 q.1)))

/-- ERR_QUERY answers a die's record from the offset on; ERR_SET_POLICY takes each value into its range, or keeps it when the
word is all ones; ERR_INJECT makes one operation of the test port, which one with reserved bits or a reserved target refuses
with cause 4. ERR_REINSTATE returns a retired unit, or one retired frame, to service when its tests pass, and ERR_SCAN runs
the scan of a unit that is out of service or on an idle die. RCV_RESET answers and starts the reset it names; RCV_QUERY,
RCV_DUMP_READ and RCV_DUMP answer the report, the bytes of a dump, and take one; RCV_RELEASE returns a HELD context to EMPTY.
-/
def Obligations.ErrorCommands : Prop :=
  (∀ (s : State) (c : Capsule),
    (accepted 0x0650 c s = true →
      exec (.errQuery c) s = .next (settle (succeed s.nextCmd 0
        (oneSegment (((errRecord (c.p0.toNat % 8) (s.entered 0x0650 c)).drop c.offset.toNat).take 1024)) (s.entered 0x0650 c)))) ∧
    (accepted 0x0651 c s = true → c.dataLen ≠ 0 → exec (.errInject c) s = .next (settle (s.entered 0x0651 c))) ∧
    (∀ n l, s.live? n = some l →
      let d := l.c.p0.toNat % 8
      let answer (t : State) : State :=
        let ws := (Tbl.getD t.errs.portData d [] ++ List.replicate 8 0).take 8
        succeed n 0 (oneSegment (leBytes 4 (Tbl.getD t.errs.portStat d 0x1FC0).toNat ++ leBytes 4 0 ++
          leBytes 8 (Tbl.getD t.errs.portChk d 0).toNat ++ ws.flatMap fun w => leBytes 8 w.toNat)) t
      (∀ r, injectReq l.c l.data = some r →
        landedOf 0x0651 n s = answer (portRuns (bits l.c.p1.toNat 1 2) d r s)) ∧
      (injectReq l.c l.data = none →
        landedOf 0x0651 n s = answer (setPort d (eccStat 0 true 4 0x7F) (BitVec.ofNat 64 (capDword l.c 4)) [] s))) ∧
    (accepted 0x0652 c s = true →
      exec (.errSetPolicy c) s =
        let b := s.entered 0x0652 c
        let v1 := clampTo 1 1440 (kept c.p0 (b.errs.swatchPeriod / 60))
        let v2 := clampTo 1 720 (kept c.p1 (b.errs.idlePeriod / 3600))
        let v3 := clampTo 1 4 (kept c.p2 b.errs.residueLimit)
        let t : State := { b with errs := { b.errs with swatchPeriod := 60 * v1, idlePeriod := 3600 * v2, residueLimit := v3 } }
        .next (settle (succeed s.nextCmd 0 [] (addLog 0x0706 (originWord c.origin) noUnit 0 [0x0652]
          (logLoop c.origin c.p2 2 v3 (logLoop c.origin c.p1 1 v2 (logLoop c.origin c.p0 0 v1 t))))))) ∧
    (accepted 0x0653 c s = true →
      let b := s.entered 0x0653 c
      (∀ passes, reinstated c.p0 b = none → exec (.errReinstate c passes) s = .next (settle (fail s.nextCmd 0x0104 0 b))) ∧
      (exec (.errReinstate c false) s = .next (settle (fail s.nextCmd 0x0104 0 b))) ∧
      (∀ u, reinstated c.p0 b = some (.inl u) →
        exec (.errReinstate c true) s =
          let e : Errs :=
            { b.errs with retired := b.errs.retired.filter fun y => decide (y ≠ u)
                          repair := (b.errs.repair.1, b.errs.repair.2.filter fun y => decide (y ≠ u)) }
          let chans := b.media.deadChannels.filter fun ch => decide (unitOf u ≠ unitWord (4 + ch / 64) 4 ch)
          .next (settle (succeed s.nextCmd 0 []
            (undegrade (.unit u) { b with errs := e, media := { b.media with deadChannels := chans } })))) ∧
      (∀ d, reinstated c.p0 b = some (.inr d) → (b.die d).retired ≤ 1024 →
        exec (.errReinstate c true) s = .next (settle (succeed s.nextCmd 0 []
          (undegrade (.frames d) (b.modDie d fun x => { x with retired := (b.die d).retired - 1 })))))) ∧
    (accepted 0x0654 c s = true →
      let b := s.entered 0x0654 c
      (∀ passes pattern u, unitOfWord c.p0 = some u → scannable b u = true →
        exec (.errScan c passes pattern) s = .next (settle (succeed s.nextCmd 0 [] (scanResult u passes pattern b)))) ∧
      (∀ passes pattern u, unitOfWord c.p0 = some u → scannable b u = false →
        exec (.errScan c passes pattern) s = .next (settle (fail s.nextCmd 0x0104 0 b))) ∧
      (∀ passes pattern, unitOfWord c.p0 = none →
        exec (.errScan c passes pattern) s = .next (settle (fail s.nextCmd 0x0101 0 b))))) ∧
  (∀ (s : State) (c : Capsule),
    (accepted 0x0660 { c with p0 := 0 } s = true →
      exec (.rcvResetContext c) s = .next (settle (contextReset c.p1.toNat
        (succeed s.nextCmd 0 [] (s.entered 0x0660 { c with p0 := 0 }))))) ∧
    (∀ u, accepted 0x0660 { c with p0 := 1 } s = true → unitOfWord c.p1 = some u →
      exec (.rcvResetEngine c) s = .next (settle (engineReset u false 0x0501
        (succeed s.nextCmd 0 [] (s.entered 0x0660 { c with p0 := 1 }))))) ∧
    (accepted 0x0660 { c with p0 := 2 } s = true →
      exec (.rcvResetPartition c) s = .next (settle (partitionReset c.p1.toNat 0x0505
        (succeed s.nextCmd 0 [] (s.entered 0x0660 { c with p0 := 2 }))))) ∧
    (accepted 0x0660 { c with p0 := 3 } s = true →
      exec (.rcvResetModule c) s = .next (settle (startModuleReset 3 (c.p2.getLsbD 0) false 0x0501
        (succeed s.nextCmd 0 [] (s.entered 0x0660 { c with p0 := 3 }))))) ∧
    (∀ id : Nat, id < 256 →
      let b : Byte := BitVec.ofNat 8 id
      let s1 := abortAll (ctxCommand b) 0x0701 (dropSuspects (fun x => decide (x.ctx = b)) s)
      let s2 := foldOver ((s1.endpoints.filter fun e => decide (e.2.ctx = b)).map Prod.snd)
        (fun e acc => endSeqs e.seqs 0x0701 0 acc) s1
      let s3 : State :=
        { s2 with endpoints := Tbl.mapVals (fun _ e => if e.ctx = b then { e with seqs := [] } else e) s2.endpoints }
      let s4 := s3.modCtx b.toNat fun x => { x with held := false }
      let r : Reset := { target := .context b, deadline := s4.sys.time + 10000000, started := s4.sys.time, hang := false, cause := 0x0501 }
      contextReset id s =
        { s4 with rcv := { s4.rcv with resets := (s4.rcv.resets.filter fun x => decide (x.target ≠ .context b)) ++ [r] } }) ∧
    (accepted 0x0661 c s = true →
      exec (.rcvQuery c) s = .next (settle (succeed s.nextCmd 0
        (oneSegment (((rcvRecord (s.entered 0x0661 c)).drop c.offset.toNat).take 1024)) (s.entered 0x0661 c)))) ∧
    (accepted 0x0662 c s = true →
      exec (.rcvRelease c) s = .next (settle (succeed s.nextCmd 0 []
        ((s.entered 0x0662 c).modCtx (c.p0.toNat % 256) fun x => { x with held := false })))) ∧
    (∀ us, accepted 0x0663 c s = true →
      exec (.rcvDump c us) s =
        let b := s.entered 0x0663 c
        let named := ((List.range c.p0.toNat).map fun i => unitOfWord (capWord c (i + 1))).filterMap id
        let d : Dump :=
          { seq := b.rcv.nextDump, time := b.sys.time, trigger := 2, part := 0, cause := 0, units := named,
            unreadable := us.filter fun u => decide (u ∈ named), flags := 2 }
        .next (settle (succeed s.nextCmd 0 [] (logHw 0x0503 [d.seq]
          { b with rcv :=
            { b.rcv with
              summaries := (b.rcv.summaries ++ [d]).drop (b.rcv.summaries.length - 15)
              area := (b.rcv.area ++ [d]).drop (b.rcv.area.length - 1)
              nextDump := d.seq + 1 } })))) ∧
    (∀ bs, accepted 0x0664 c s = true → dumpSource c (s.entered 0x0664 c) = some bs →
      exec (.rcvDumpRead c) s = .next (settle (succeed s.nextCmd 0
        (oneSegment ((bs.drop c.offset.toNat).take c.length.toNat)) (s.entered 0x0664 c)))))

/-- A failing word gets a remap entry of its macro, which the repair record keeps, once; a ninth address of a macro retires
the cluster or engine that it serves. A frame whose page is poisoned leaves its die without a copy, as does one whose page
finds a free frame. A scanned unit that passes is in service again, and one that fails is retired with its pattern logged;
nothing is scanned that is in use or retired. A swatch cluster or a unit of an idle die whose period is over is taken out for
its scan. -/
def Obligations.HardFaultsAndScans : Prop :=
  ∀ s : State,
    (∀ (d : AllDieIx) sram addr u, (d.val, sram, addr) ∈ s.errs.remaps → exec (.wordRemapped d sram addr u) s = .next (settle s)) ∧
    (∀ (d : AllDieIx) sram addr u, (d.val, sram, addr) ∉ s.errs.remaps →
      (s.errs.remaps.filter fun e => decide (e.1 = d.val ∧ e.2.1 = sram)).length < 8 →
      exec (.wordRemapped d sram addr u) s =
        let e := (d.val, sram, addr)
        .next (settle (logUnit 0x0102 u [d.val, sram, addr]
          { s with errs := { s.errs with remaps := s.errs.remaps ++ [e], repair := (s.errs.repair.1 ++ [e], s.errs.repair.2) } }))) ∧
    (∀ (d : AllDieIx) sram addr (k : DieIx), (d.val, sram, addr) ∉ s.errs.remaps →
      8 ≤ (s.errs.remaps.filter fun e => decide (e.1 = d.val ∧ e.2.1 = sram)).length →
      (∀ i, exec (.wordRemapped d sram addr (.cluster k i)) s =
        .next (settle (dropUnplaceable (retireUnit (.cluster k i)
          (addLog 0x0104 0x50000000 (unitOf (.cluster k i)) 0 [d.val, sram] s))))) ∧
      (∀ i, exec (.wordRemapped d sram addr (.vector k i)) s =
        .next (settle (dropUnplaceable (retireUnit (.vector k i)
          (addLog 0x0104 0x50000000 (unitOf (.vector k i)) 0 [d.val, sram] s)))))) ∧
    (∀ (d : DieIx) (p : PartIx) pg,
      let out (t : State) : State :=
        let n := (t.die d.val).retired + 1
        let v := addLog 0x0105 0x50000000 (unitWord d.val 0 0) (ctxWord none (some p.val)) [pg]
          (t.modDie d.val fun x => { x with retired := n })
        if 1024 ≤ n then degrade (.frames d.val) v else v
      (Tbl.get? (s.store p.val).pages pg = none → exec (.frameRetire d p pg) s = .next (settle s)) ∧
      (∀ g, Tbl.get? (s.store p.val).pages pg = some g → g.st = .poisoned →
        exec (.frameRetire d p pg) s = .next (settle (out s))) ∧
      (∀ g, Tbl.get? (s.store p.val).pages pg = some g → g.st ≠ .poisoned → g.framed = true → g.die = d.val →
        0 < freeFrames s d.val → exec (.frameRetire d p pg) s = .next (settle (out s)))) ∧
    (∀ u passes pattern,
      let e : State :=
        { s with errs := { s.errs with scannedAt := (s.errs.scannedAt.filter fun e => decide (e.1 ≠ u)) ++ [(u, s.sys.time)] } }
      (scannable s u = false ∨ u ∈ s.errs.retired → exec (.structuralScan u passes pattern) s = .next (settle s)) ∧
      (scannable s u = true → u ∉ s.errs.retired →
        exec (.structuralScan u true pattern) s =
          .next (settle { e with errs := { e.errs with out := e.errs.out.filter fun x => decide (x ≠ u) } }) ∧
        exec (.structuralScan u false pattern) s = .next (settle (retireFor u (logUnit 0x010A u [pattern] e))))) ∧
    (∀ u t,
      let v := s.tick t
      let out : State := { v with errs := { v.errs with out := if u ∈ v.errs.out then v.errs.out else v.errs.out ++ [u] } }
      let due (sec : Nat) : Prop := scannedAt v u + 1000000000 * sec ≤ v.sys.time
      let idle (d : DieIx) : Prop := (v.die d.val).stream = none ∧ (v.die d.val).parked = []
      (v.inService u = false → exec (.scanPeriodExpiry u t) s = .next v) ∧
      (∀ d j, u = .vector d j → v.inService u = true → idle d → due v.errs.idlePeriod →
        exec (.scanPeriodExpiry u t) s = .next out) ∧
      (∀ d j, u = .vector d j → ¬ idle d ∨ ¬ due v.errs.idlePeriod → exec (.scanPeriodExpiry u t) s = .next v) ∧
      (∀ d i, u = .cluster d i → v.inService u = true → idle d → due v.errs.idlePeriod →
        exec (.scanPeriodExpiry u t) s = .next out) ∧
      (∀ d i, u = .cluster d i → v.inService u = true → (swatchClusters v d.val).contains i.val = true → due v.errs.swatchPeriod →
        (v.die d.val).clusters.any (fun k => k.2.flight.any fun p => decide (p.mirror = some i.val)) = false →
        exec (.scanPeriodExpiry u t) s = .next out))

/-! ## Hangs and resets -/

/-- An engine reset starts unless a larger one or its own is under way or the engine was reset within 100 µs: the timer of 10
ms runs, the generation advances, and the work in flight is abandoned as the engine's kind says. At its end the engine
reopens and is logged; a hang waits for its suspects, or is charged at once. A watchdog resets what has made no progress for
its limit and logs the action. A suspect is replayed with its engine alone: it reproduces the fault and is held, or is
released. -/
def Obligations.EngineResets : Prop :=
  ∀ (s : State) (u : HwUnit) (t : Nat),
    let v := s.tick t
    let k := unitKey u
    let merged := (resetOf v .whole).isSome || v.resetting u ||
      (unitOwner v u).any fun p => (resetOf v (.partition (partIx p))).isSome
    let soon := (Tbl.get? v.rcv.resetAt k).any fun z => decide (v.sys.time < z + 100000)
    let starts (hang : Bool) (cause : Half) (w : State) : State :=
      let e : Reset := { target := .engine u, deadline := w.sys.time + 10000000, started := w.sys.time, hang := hang, cause := cause }
      { w with rcv :=
        { w.rcv with
          resets := (w.rcv.resets.filter fun x => decide (x.target ≠ .engine u)) ++ [e]
          gens := Tbl.put 0 k (Tbl.getD w.rcv.gens k 0 + 1) w.rcv.gens
          resetAt := Tbl.set k w.sys.time w.rcv.resetAt } }
    (isEngine u = false ∨ merged = true ∨ soon = true → exec (.engineReset u t) s = .next (settle v)) ∧
    (isEngine u = true → merged = false → soon = false →
      exec (.engineReset u t) s = .next (settle (abandonWork u (starts false 0x0501 v)))) ∧
    (∀ w : State,
      (∀ l, u = .link l → abandonWork u w = linkRetrain false l.val w) ∧
      (∀ m e, u = .scan m e → abandonWork u w = stopScans (8 * m.val + e.val) u w) ∧
      (∀ d i x, u = .cluster d i → (w.die d.val).stream = some x → abandonWork u w =
        addSuspect { ctx := x.ctx, cmd := x.cmd, unit := u, pos := x.row } ((vacate d.val w).modDie d.val fun y =>
          { y with parked := y.parked ++ [{ x with stall := none, preempt := false, swatch := none }], replaying := true })) ∧
      (∀ d i x, u = .mover d i → (w.die d.val).stream = some x → abandonWork u w =
        addSuspect { ctx := x.ctx, cmd := x.cmd, unit := u, pos := x.row } ((vacate d.val w).modDie d.val fun y =>
          { y with parked := y.parked ++ [{ x with stall := none, preempt := false, swatch := none }], replaying := true })) ∧
      (∀ d i x, u = .futisCompute d i false → (w.die d.val).stream = some x → abandonWork u w = abort x.cmd 0x0500 w)) ∧
    (resetOf v (.engine u) = none → exec (.engineReopen u t) s = .next (settle v)) ∧
    (∀ r, resetOf v (.engine u) = some r →
      let w := logUnit 0x0501 u [r.cause.toNat, (v.sys.time - r.started) / 1000] (clearEngine u (clearReset (.engine u) v))
      let suspected := v.rcv.suspects.any fun x => decide (x.unit = u)
      (r.hang = false → exec (.engineReopen u t) s = .next (settle w)) ∧
      (r.hang = true → suspected = false → exec (.engineReopen u t) s = .next (settle (chargeEngine u w))) ∧
      (r.hang = true → suspected = true →
        exec (.engineReopen u t) s = .next (settle { w with rcv := { w.rcv with charge := w.rcv.charge ++ [(u, false)] } }))) ∧
    (∀ ns,
      (ns < hangLimit u ∨ mayHang v u = false → exec (.watchdog u ns t) s = .next (settle v)) ∧
      (isEngine u = true → hangLimit u ≤ ns → mayHang v u = true →
        exec (.watchdog u ns t) s = .next (settle (engineReset u true 0x0504 (logUnit 0x0504 u [0] v)))) ∧
      (∀ d p, u = .sequencer d → 10000000 ≤ ns → mayHang v u = true → ownerOf v d.val = some p →
        exec (.watchdog u ns t) s = .next (settle (partitionReset p 0x0504 (logUnit 0x0504 u [1] v)))) ∧
      (∀ d, u = .dieManager d → 10000000 ≤ ns → ns < 11000000 →
        exec (.watchdog u ns t) s = .next (settle (logUnit 0x0504 u [2] v))) ∧
      (∀ d, u = .dieManager d → 11000000 ≤ ns →
        exec (.watchdog u ns t) s = .next (settle (startModuleReset 1 false false 0x0504 (logUnit 0x0504 u [3] v)))) ∧
      (u = .mgmtCore → 100000000 ≤ ns →
        exec (.watchdog u ns t) s = .next (settle (startModuleReset 1 false false 0x0504 (logUnit 0x0504 u [3] v))))) ∧
    (∀ d e m f l c, hangLimit (.cluster d c) = 10000 ∧ hangLimit (.vector d e) = 1000 ∧ hangLimit (.mover d e) = 100000 ∧
      hangLimit (.scan m f) = 1000000 ∧ hangLimit (.channel l) = 50000000) ∧
    (∀ reproduced, s.rcv.suspects.find? (fun x => decide (x.unit = u)) = none →
      exec (.suspectReplay u reproduced) s = .next (settle s)) ∧
    (∀ x, s.rcv.suspects.find? (fun x => decide (x.unit = u)) = some x →
      let free := (s.resetting u || (streamDie u).any fun d => (s.die d).stream.isSome) = false
      let w : State := { s with rcv := { s.rcv with suspects := s.rcv.suspects.erase x } }
      (∀ reproduced, ¬ free → exec (.suspectReplay u reproduced) s = .next (settle s)) ∧
      (free →
        exec (.suspectReplay u true) s =
          let w2 : State := { w with rcv := { w.rcv with charge := w.rcv.charge.map fun e => if e.1 = u then (e.1, true) else e } }
          .next (settle (suspectsOver u (recurred u (holdContext x.ctx true
            (addLog 0x0403 0x50000000 (unitOf u) (ctxWord (some x.ctx.toNat) none) [x.pos] (abort x.cmd 0x0500 w2))))))) ∧
      (∀ d, free → streamDie u = some d → w.rcv.suspects.any (fun y => decide (y.ctx = x.ctx)) = false →
        exec (.suspectReplay u false) s =
          .next (settle (suspectsOver u (releaseStream d x.cmd (holdContext x.ctx false w))))))

/-- A partition reset fences the partition and asks its streams to leave; 10 ms later what is left of its work ends, its
engines and dies are reset, and its fence is lifted. A module reset is held while a commit writes the flash, merges into one
under way, and takes away all work. A reset past its deadline gives way to the next level, and a module reset past its own
asks for a power cycle, which fences the data domains. -/
def Obligations.DomainResets : Prop :=
  ∀ (s : State) (t : Nat),
    let v := s.tick t
    (∀ (p : PartIx) x, v.part? p.val = some x →
      ((resetOf v .whole).isSome = true ∨ (resetOf v (.partition (partIx p.val))).isSome = true →
        exec (.partitionReset p t) s = .next (settle v)) ∧
      (resetOf v .whole = none → resetOf v (.partition (partIx p.val)) = none →
        let e : Reset := { target := .partition (partIx p.val), deadline := v.sys.time + 200000000, started := v.sys.time, hang := false,
                           cause := 0x0505 }
        let w : State := { v with rcv := { v.rcv with resets := (v.rcv.resets.filter fun y => decide (y.target ≠ .partition (partIx p.val))) ++ [e] } }
        (x.fencedAt.isSome = true → exec (.partitionReset p t) s = .next (settle w)) ∧
        (x.fencedAt = none → (∀ d, d < 4 → (v.die d).stream = none) →
          exec (.partitionReset p t) s =
            .next (settle (refreshFenced (w.modPart p.val fun y => { y with fencedAt := some v.sys.time })))))) ∧
    (∀ (p : PartIx), v.part? p.val = none →
      exec (.partitionReset p t) s = .next (settle v) ∧ ∀ us, exec (.bindOffDrainExpiry p us t) s = .next (settle v)) ∧
    (∀ (p : PartIx) x t0 us, v.part? p.val = some x → x.fencedAt = some t0 →
      (v.sys.time < t0 + 10000000 → exec (.bindOffDrainExpiry p us t) s = .next (settle v)) ∧
      (t0 + 10000000 ≤ v.sys.time → resetOf v (.partition (partIx p.val)) = none →
        exec (.bindOffDrainExpiry p us t) s = .next (settle (endPartition p.val v))) ∧
      (∀ r, t0 + 10000000 ≤ v.sys.time → resetOf v (.partition (partIx p.val)) = some r →
        exec (.bindOffDrainExpiry p us t) s =
          let w := resetPartDies p.val (takeDump 1 p.val r.cause (partUnits v p.val) us (endPartition p.val v))
          .next (settle (addLog 0x0505 0x50000000 noUnit (ctxWord none (some p.val)) [(v.sys.time - r.started) / 1000000]
            (refreshFenced ((clearReset (.partition (partIx p.val)) w).modPart p.val fun y => { y with fencedAt := none })))))) ∧
    (v.sys.heldReset = true → v.sec.commitStep ≠ 0 → ∀ us, exec (.moduleReset us t) s = .next (settle v)) ∧
    (∀ us, v.sys.heldReset = false → resetOf v .whole = none → v.rcv.whole = none → v.sec.commitStep ≠ 0 →
      exec (.moduleReset us t) s =
        .next (settle { v with rcv := { v.rcv with whole := some (1, false) }, sys := { v.sys with heldReset := true } })) ∧
    (∀ us r, v.sys.heldReset = false → resetOf v .whole = some r → v.rcv.whole = none → exec (.moduleReset us t) s = .next (settle v)) ∧
    (∀ us r code, v.sys.heldReset = false → resetOf v .whole = some r → v.rcv.whole = some (code, true) → v.sys.thermalOff = false →
      exec (.moduleReset us t) s =
        let w := loseWork (flushStaging v)
        let x : State :=
          { w with
            host := { w.host with mbx := Tbl.mapVals (fun _ m => { Mbx.fresh with bind := m.bind }) w.host.mbx }
            links := Tbl.mapVals (fun _ x => cutLink false x) w.links
            rcv := { w.rcv with whole := none }
            sec := { w.sec with commitStep := 0, waitingCfg := [] }
            sys := { w.sys with
              lastReset := code, thermalOff := false, tripLatched := false, faultPin := false, dataOn := w.sys.main,
              dataFenced := false, heldReset := false, offAsked := false, shutdownAt := none, pwrCycleReq := none } }
        .next (settle (refreshFenced (castFrom 1 x)))) ∧
    (∀ r, resetOf v r = none → exec (.escalationTimer r t) s = .next (settle v)) ∧
    (∀ r e, resetOf v r = some e → v.sys.time < e.deadline → exec (.escalationTimer r t) s = .next (settle v)) ∧
    (∀ r e, resetOf v r = some e → e.deadline ≤ v.sys.time →
      (∀ c, r = .context c → exec (.escalationTimer r t) s = .next (settle (clearReset r (logHw 0x0506 [1] v)))) ∧
      (∀ u p, r = .engine u → unitOwner v u = some p →
        exec (.escalationTimer r t) s = .next (settle (partitionReset p 0x0506 (logUnit 0x0506 u [2] v)))) ∧
      (∀ u, r = .engine u → unitOwner v u = none →
        exec (.escalationTimer r t) s =
          .next (settle (startModuleReset 1 false true 0x0506 (clearReset r (logUnit 0x0506 u [2] v))))) ∧
      (∀ p, r = .partition p →
        exec (.escalationTimer r t) s = .next (settle (startModuleReset 1 false true 0x0506
          (addLog 0x0506 0x50000000 noUnit (ctxWord none (some p.val)) [3] v)))) ∧
      (r = .whole → v.sys.pwrCycleReq = none →
        exec (.escalationTimer r t) s =
          let w := logHw 0x0506 [4] v
          let x := logHw 0x0507 [] { w with sys := { w.sys with pwrCycleReq := some w.sys.time, dataFenced := true } }
          .next (settle (allLinksDown downControl false (refreshFenced x))))) ∧
    (∀ (c : Byte) u,
      (resetOf v (.context c) = none → exec (.contextReleaseTimeout c u t) s = .next (settle v)) ∧
      (∀ r, resetOf v (.context c) = some r → v.sys.time < r.deadline →
        exec (.contextReleaseTimeout c u t) s = .next (settle v)) ∧
      (∀ r, resetOf v (.context c) = some r → r.deadline ≤ v.sys.time →
        exec (.contextReleaseTimeout c u t) s = .next (settle (dropSuspects (fun x => decide (x.ctx = c))
          (engineReset u false 0x0506 (logUnit 0x0506 u [1] (clearReset (.context c) v))))))) ∧
    (v.sys.pwrCycleReq = none → exec (.pwrCycleIgnored t) s = .next (settle v)) ∧
    (∀ t0, v.sys.pwrCycleReq = some t0 → v.sys.main = false ∨ v.sys.time < t0 + 10000000000 →
      exec (.pwrCycleIgnored t) s = .next (settle v)) ∧
    (∀ t0, v.sys.pwrCycleReq = some t0 → v.sys.main = true → t0 + 10000000000 ≤ v.sys.time →
      exec (.pwrCycleIgnored t) s = .next (settle (allLinksDown downControl false (refreshFenced
        (logHw 0x0508 [] { v with sys := { v.sys with dataFenced := true } })))))

/-! ## Supplies, cast-on, power and cooling -/

/-- Without auxiliary power no supply event is logged. AUX_POWER_UP starts module time and log numbers afresh on the
oscillator; AUX_POWER_LOSS flushes staging while 48 V holds and takes everything else away. 48 V below 36 V for 2 µs, or
above 66 V for 10 µs, is lost: the log entry, the flush, and cast-on waits at step 2; its return lets cast-on go on. A supply
that is low degrades the module and is logged once a minute, as one that is high is. Cast-on begins once REFCLK is locked.
Step 1 enters recovery when no bundle boots; a fatal finding stops cast-on with FAULT#; the last step sets ready and lifts
the fences. The loss of REFCLK fences the data domains, takes links down and resets the function; REFCLK stable for 100 ms
starts a module reset. -/
def Obligations.SuppliesAndCastOn : Prop :=
  (∀ (s : State) (mv held t : Nat),
    let v := s.tick t
    (s.sys.aux = true → exec .auxPowerUp s = .next (settle s)) ∧
    (s.sys.aux = false →
      exec .auxPowerUp s =
        let r := State.reset
        .next (settle
          { s with
            sys := { r.sys with
              main := s.sys.main, refclk := s.sys.refclk, status := 0x10, castStep := 0, castOns := s.sys.castOns,
              stepping := s.sys.stepping, dataOn := false, pcieUp := false, slotId := s.sys.slotId,
              flushed := s.sys.flushed, cleanMark := s.sys.cleanMark, node := s.sys.node }
            log := { r.log with lasting := s.log.lasting }
            host := r.host
            rcv := { r.rcv with summaries := s.rcv.summaries, region := s.rcv.region, nextDump := s.rcv.nextDump }
            sec := { s.sec with commitStep := 0, waitingCfg := [], staging := none, spdm := [], replies := [] } })) ∧
    (s.sys.aux = false → exec .auxPowerLoss s = .next (settle s)) ∧
    (s.sys.aux = true →
      exec .auxPowerLoss s =
        let w := loseWork (if s.sys.main && s.sys.dataOn then { s with sys := { s.sys with flushed := true } } else s)
        .next (settle
          { w with
            links := Tbl.mapVals (fun _ x => cutLink false x) w.links
            sys := { w.sys with
              aux := false, dataOn := false, status := 0, degraded := [], castStep := 0, stepFailed := false, faultPin := false,
              pwrCycleReq := none, pcieUp := false, off := false, offAsked := false, shutdownAt := none, thermalOff := false,
              tripLatched := false, cycled := false, i3cAddr := none } })) ∧
    (36000 ≤ mv ∨ held < 2000 ∨ s.sys.main = false → exec (.mainPowerFail mv held) s = .next (settle s)) ∧
    (mv ≤ 66000 ∨ held < 10000 ∨ s.sys.main = false → exec (.supplyOvervoltage mv held) s = .next (settle s)) ∧
    (∀ i, (i = .mainPowerFail mv held ∧ mv < 36000 ∧ 2000 ≤ held) ∨ (i = .supplyOvervoltage mv held ∧ 66000 < mv ∧ 10000 ≤ held) →
      s.sys.main = true →
      (s.sys.aux = false → exec i s = .next (settle { s with sys := { s.sys with main := false } })) ∧
      (s.sys.aux = true →
        let a := logHw 0x0605 [] (undegrade .supplyLow { s with sys := { s.sys with main := false } })
        let b := if s.sys.dataOn then diesOff { a with sys := { a.sys with flushed := true } } else a
        let c : State :=
          { b with
            sys := { b.sys with pwrCycleReq := none, cycled := b.sys.cycled || s.sys.pwrCycleReq.isSome }
            rcv := { b.rcv with whole := none } }
        (s.sys.castStep.toNat < 2 ∨ s.sys.thermalOff = true ∨ s.statusBit 5 = true → exec i s = .next (settle c)) ∧
        (2 ≤ s.sys.castStep.toNat → s.sys.thermalOff = false → s.statusBit 5 = false →
          exec i s = .next (settle (castFrom 2 c))))) ∧
    (mv < 36000 ∨ 66000 < mv → exec (.mainPowerReturn mv t) s = .next (settle v)) ∧
    (36000 ≤ mv → mv ≤ 66000 →
      let m : State := { v with sys := { v.sys with main := true } }
      (v.sys.main = false → v.sys.aux = false → exec (.mainPowerReturn mv t) s = .next (settle m)) ∧
      (v.sys.main = false → v.sys.aux = true → v.sys.cycled = false → v.sys.thermalOff = true ∨ v.statusBit 5 = true →
        exec (.mainPowerReturn mv t) s = .next (settle m)) ∧
      (v.sys.main = false → v.sys.aux = true → v.sys.cycled = false → v.sys.thermalOff = false → v.statusBit 5 = false →
        exec (.mainPowerReturn mv t) s =
          .next (settle { m with sys := { m.sys with dataOn := true, castAt := v.sys.time } })) ∧
      (v.sys.main = false → v.sys.aux = true → v.sys.cycled = true →
        exec (.mainPowerReturn mv t) s =
          .next (settle (refreshFenced (afterCycle { m with sys := { m.sys with dataOn := true } })))) ∧
      (v.sys.main = true → v.sys.aux = true → 40000 ≤ mv →
        exec (.mainPowerReturn mv t) s = .next (settle (undegrade .supplyLow v)))) ∧
    (v.sys.aux = false ∨ v.sys.main = false ∨ mv < 36000 ∨ 40000 ≤ mv → exec (.supplyLow mv t) s = .next v) ∧
    (v.sys.aux = true → v.sys.main = true → 36000 ≤ mv → mv < 40000 →
      let w := degrade .supplyLow v
      (∀ z, v.sys.lowLogged = some z → v.sys.time < z + 60000000000 → exec (.supplyLow mv t) s = .next w) ∧
      ((∀ z, v.sys.lowLogged = some z → z + 60000000000 ≤ v.sys.time) →
        exec (.supplyLow mv t) s = .next (logHw 0x0603 [mv] { w with sys := { w.sys with lowLogged := some v.sys.time } }))) ∧
    (v.sys.aux = false ∨ v.sys.main = false ∨ mv ≤ 60000 ∨ 66000 < mv → exec (.supplyHigh mv t) s = .next v) ∧
    (v.sys.aux = true → v.sys.main = true → 60000 < mv → mv ≤ 66000 →
      (∀ z, v.sys.highLogged = some z → v.sys.time < z + 60000000000 → exec (.supplyHigh mv t) s = .next v) ∧
      ((∀ z, v.sys.highLogged = some z → z + 60000000000 ≤ v.sys.time) →
        exec (.supplyHigh mv t) s =
          .next (logHw 0x0604 [mv] { v with sys := { v.sys with highLogged := some v.sys.time } })))) ∧
  (∀ (s : State) (found : List StepResult) (a b t : Nat),
    let v := s.tick t
    let k := v.sys.castStep.toNat
    (v.sys.aux = true → v.sys.refclk = true → v.statusBit 4 = false → v.sys.castStep = 0 →
      exec (.castOn t) s = .next
        (setStatus 7 true (setStatus 0 false
          { v with sys := { v.sys with castStep := 1, stepFailed := false, castAt := v.sys.time, castOns := v.sys.castOns + 1,
                                       off := false, offAsked := false, faultPin := v.sys.tripLatched } }))) ∧
    (v.sys.aux = false ∨ v.sys.refclk = false ∨ v.statusBit 4 = true ∨ v.sys.castStep ≠ 0 → exec (.castOn t) s = .next v) ∧
    (v.statusBit 7 = false ∨ v.sys.stepFailed = true ∨ k = 0 ∨ 8 < k ∨ (k ≠ 1 ∧ v.sys.dataOn = false) →
      exec (.castOnStepEnd found t) s = .next (settle v)) ∧
    (v.statusBit 7 = true → v.sys.stepFailed = false →
      (k = 1 → (v.sec.committed = none ∨ StepResult.imageFailed ∈ found) →
        exec (.castOnStepEnd found t) s = .next (settle (enterRecovery v))) ∧
      (∀ bundle, k = 1 → v.sec.committed = some bundle → StepResult.imageFailed ∉ found →
        exec (.castOnStepEnd found t) s =
          let kept := v.sys.degraded.filter lasting
          let w : State :=
            { v with
              sec := { v.sec with running := bundle }
              sys := { v.sys with castStep := 2, degraded := kept, dataOn := v.sys.main }
              dies := Tbl.mapVals (fun _ x => { x with dead := false }) v.dies }
          .next (settle (castConfig (setStatus 1 (!kept.isEmpty) (setStatus 5 false w))))) ∧
      (2 ≤ k → k ≤ 8 → v.sys.dataOn = true → stepStops k found = true →
        exec (.castOnStepEnd found t) s =
          let w := setStatus 7 false
            (addLog 0x060B 0x50000000 noUnit 0 [k] { v with sys := { v.sys with stepFailed := true } })
          .next (settle { w with sys := { w.sys with faultPin := w.sys.aux && (w.sys.stepFailed || w.sys.tripLatched) } })) ∧
      (2 ≤ k → k ≤ 7 → v.sys.dataOn = true → stepStops k found = false →
        exec (.castOnStepEnd found t) s =
          let w := stepWork k (foldOver found stepFinding v)
          .next (settle { w with sys := { w.sys with castStep := BitVec.ofNat 4 (k + 1) } })) ∧
      (k = 8 → v.sys.dataOn = true → stepStops 8 found = false → found = [] →
        exec (.castOnStepEnd found t) s =
          let w : State :=
            { v with
              sys := { v.sys with castStep := 0xF, cleanMark := false, flushed := false }
              parts := Tbl.mapVals (fun _ p => { p with fencedAt := none }) v.parts
              dies := (List.range 4).foldl (fun z d =>
                Tbl.set d { v.die d with idleAt := some v.sys.time, pstate := .run, wakingAt := none } z) v.dies
              cmds := Tbl.mapVals (fun _ l =>
                { l with admitted := if l.open then v.sys.time else l.admitted, grantAt := v.sys.time }) v.cmds }
          .next (settle (setStatus 0 true (setStatus 7 false (refreshFenced w)))))) ∧
    (s.sys.aux = true → s.sys.refclk = true → s.sys.castStep ≠ 0 → 40 ≤ a ∨ 20000 < b →
      exec (.refclkLost a b) s =
        let w := logHw 0x060A [] { s with sys := { s.sys with refclk := false, dataFenced := true } }
        let x := resetFunction 4 true (allLinksDown downControl false (setStatus 4 true w))
        let y := if s.sys.dataOn then loseWork { x with sys := { x.sys with flushed := true } } else x
        .next (settle (refreshFenced { y with links := Tbl.mapVals (fun _ z => cutLink true z) y.links }))) ∧
    (s.sys.aux = false ∨ s.sys.refclk = false ∨ s.sys.castStep = 0 ∨ (a < 40 ∧ b ≤ 20000) →
      exec (.refclkLost a b) s = .next (settle s)) ∧
    (s.sys.aux = true → s.statusBit 4 = true →
      (s.sys.castStep ≠ 0 → 100000000 ≤ a →
        exec (.refclkRestored a) s = .next (settle (startModuleReset 4 false false 0x0602
          (logHw 0x0602 [] (setStatus 4 false { s with sys := { s.sys with refclk := true } }))))) ∧
      (s.sys.castStep = 0 → 10000000 ≤ a →
        exec (.refclkLock a) s = .next (setStatus 4 false { s with sys := { s.sys with refclk := true } })) ∧
      (a < 100000000 → exec (.refclkRestored a) s = .next (settle s)) ∧ (a < 10000000 → exec (.refclkLock a) s = .next s)) ∧
    (s.statusBit 4 = false → exec (.refclkRestored a) s = .next (settle s) ∧ exec (.refclkLock a) s = .next s))

/-- The cap loop cuts every die to step 8 above 2,400 W of input, lowers one die of what is over its cap, and raises one
after 1 ms below every cap. The thermal loop lowers a die above its target and raises it 3 K below. Hardware limits cut a
compute die, shed a light die's links and throttle the rest while they last, and a trip stops NAND programs or the module.
Hot coolant lowers the cap by 100 W for each kelvin, and low flow limits it. A compute die without work goes to GATE and then
to RETAIN, whose scratchpads and vector registers are lost, and wakes again. -/
def Obligations.PowerLoopsAndStates : Prop :=
  ∀ (s : State) (d : DieIx) (t : Nat),
    let v := s.tick t
    let x := v.die d.val
    (∀ mw parts,
      let w : State := { v with power := { v.power with inputMw := mw } }
      let since (o : Option Nat) (z : State) : State := { z with power := { z.power with belowSince := o } }
      (2400000 < mw →
        exec (.capLoopTick mw parts t) s = .next (settleSteps (logHw 0x0606 [mw] (since none
          (foldOver [0, 1, 2, 3] (fun d acc => acc.modDie d fun x => { x with capK := 8 }) w))))) ∧
      (∀ e, mw ≤ 2400000 → moduleCap w * 1000 < mw →
        bestDie (fun a b => decide (b < a)) (fun d => decide (8 < (w.die d).k)) [0, 1, 2, 3] w = some e →
        exec (.capLoopTick mw parts t) s =
          .next (settleSteps (since none (w.modDie e fun x => { x with capK := x.k - 1 })))) ∧
      (∀ e z, mw ≤ moduleCap w * 1000 → mw ≤ 2400000 → overParts parts w = [] → wellBelow mw parts w = true →
        v.power.belowSince = some z → z + 1000000 ≤ v.sys.time →
        bestDie (fun a b => decide (a < b)) (fun d => decide ((w.die d).capK < (w.die d).kmax)) [0, 1, 2, 3] w = some e →
        exec (.capLoopTick mw parts t) s =
          .next (settleSteps ((since (some z) w).modDie e fun x => { x with capK := x.capK + 1 }))) ∧
      (mw ≤ moduleCap w * 1000 → mw ≤ 2400000 → overParts parts w = [] → wellBelow mw parts w = false →
        exec (.capLoopTick mw parts t) s = .next (since none w)) ∧
      (mw ≤ moduleCap w * 1000 → mw ≤ 2400000 → overParts parts w = [] → wellBelow mw parts w = true →
        v.power.belowSince = none → exec (.capLoopTick mw parts t) s = .next (since (some v.sys.time) w))) ∧
    (∀ mc : Int,
      let w := v.modDie d.val fun y => { y with milliC := mc }
      let target : Int := 1000 * (v.power.targetC : Int)
      (target < mc →
        exec (.thermalLoopTick d mc t) s = .next (settleSteps (w.modDie d.val fun y => { y with thermK := max 8 (y.k - 1) }))) ∧
      (mc ≤ target - 3000 →
        exec (.thermalLoopTick d mc t) s =
          .next (settleSteps (w.modDie d.val fun y => { y with thermK := min 16 (y.thermK + 1) }))) ∧
      (target - 3000 < mc → mc ≤ target → exec (.thermalLoopTick d mc t) s = .next w)) ∧
    (∀ (mc : Int) sensor,
      let w := setTemp sensor mc s
      let rest := w.power.limited.filter fun y => decide (y ≠ sensor)
      let on : State := { w with power := { w.power with limited := rest ++ [sensor] } }
      (mc < hardLimit sensor → exec (.thermalLimit sensor mc) s = .next { w with power := { w.power with limited := rest } }) ∧
      (∀ i, sensor = .compute i → 105000 ≤ mc →
        exec (.thermalLimit sensor mc) s = .next (settleSteps (w.modDie i.val fun y => { y with thermK := 8 }))) ∧
      (∀ l, sensor = .light l → 95000 ≤ mc →
        exec (.thermalLimit sensor mc) s = .next (foldOver ((List.range 12).map fun i => 12 * l.val + i) shedToEight on)) ∧
      (∀ g, sensor = .nand g → 70000 ≤ mc → exec (.thermalLimit sensor mc) s = .next on) ∧
      ((∀ g, sensor ≠ .nand g) → mc < tripLimit sensor → exec (.thermalTrip sensor mc) s = .next (settle w)) ∧
      ((∀ g, sensor ≠ .nand g) → tripLimit sensor ≤ mc → w.sys.thermalOff = true →
        exec (.thermalTrip sensor mc) s = .next (settle w)) ∧
      ((∀ g, sensor ≠ .nand g) → tripLimit sensor ≤ mc → w.sys.thermalOff = false →
        exec (.thermalTrip sensor mc) s =
          let l := logHw 0x060C (sensorWords sensor ++ [mc.toNat]) w
          let z := diesOff { l with sys := { l.sys with flushed := true } }
          .next (settle { z with sys := { z.sys with thermalOff := true, tripLatched := true, faultPin := z.sys.aux } })) ∧
      (∀ g, sensor = .nand g →
        exec (.thermalTrip sensor mc) s =
          let hot := w.power.temps.any fun e => match e.1 with
            | .nand _ => decide (80000 ≤ e.2)
            | _ => false
          .next (settle { w with media := { w.media with nandStopped := hot } }))) ∧
    (∀ mc : Int,
      let w : State := { s with power := { s.power with inletMc := mc, hotW := ((mc - 40000).toNat + 9) / 10 } }
      (mc ≤ 40000 → exec (.coolantHot mc) s = .next w) ∧
      (40000 < mc → exec (.coolantHot mc) s = .next (logHw 0x0607 [mc.toNat] w)) ∧
      (∀ held, mc ≤ 45000 ∨ held < 1000000000 → exec (.coolantInletShutdown mc held) s = .next (settle w)) ∧
      (∀ held, 45000 < mc → 1000000000 ≤ held →
        exec (.coolantInletShutdown mc held) s = .next (settle (thermalShutdown [5, 0, mc.toNat] w)))) ∧
    (∀ flow mw held,
      let w : State := { s with power := { s.power with flow := flow, inputMw := mw } }
      let z : State := { s with power := { s.power with flow := flow } }
      (flow < 3600 → 600000 < mw → 1000000000 ≤ held →
        exec (.coolantFlowLow flow mw held) s =
          .next (logHw 0x0608 [flow] (degrade .flow { w with power := { w.power with lowFlow := true } }))) ∧
      (3600 ≤ flow ∨ mw ≤ 600000 ∨ held < 1000000000 → exec (.coolantFlowLow flow mw held) s = .next w) ∧
      (s.power.lowFlow = true → 4000 < flow → 10000000000 ≤ held →
        exec (.coolantFlowRestored flow held) s = .next (undegrade .flow { z with power := { z.power with lowFlow := false } })) ∧
      (s.power.lowFlow = false ∨ flow ≤ 4000 ∨ held < 10000000000 → exec (.coolantFlowRestored flow held) s = .next z)) ∧
    (v.sys.dataOn = true → x.pstate = .run → x.wakingAt = none → dieIdle v d.val = true →
      (idleSince v d.val + v.power.gateUs * 1000 ≤ v.sys.time →
        exec (.gateTimer d t) s = .next (v.modDie d.val fun y => { y with pstate := .gate, enteredAt := v.sys.time })) ∧
      (v.sys.time < idleSince v d.val + v.power.gateUs * 1000 → exec (.gateTimer d t) s = .next v)) ∧
    (v.sys.dataOn = false ∨ x.pstate ≠ .run ∨ x.wakingAt.isSome = true ∨ dieIdle v d.val = false → exec (.gateTimer d t) s = .next v) ∧
    (v.power.retainMs = none ∨ x.pstate ≠ .gate ∨ x.wakingAt.isSome = true → exec (.retainTimer d t) s = .next v) ∧
    (∀ r, v.power.retainMs = some r → x.pstate = .gate → x.wakingAt = none →
      (idleSince v d.val + r * 1000000 ≤ v.sys.time →
        exec (.retainTimer d t) s =
          .next (v.modDie d.val fun y => { y with pstate := .retain, enteredAt := v.sys.time, pad := [], regs := [], undef := 0 })) ∧
      (v.sys.time < idleSince v d.val + r * 1000000 → exec (.retainTimer d t) s = .next v)) ∧
    exec (.dieWake d t) s = .next (wakeDie d.val v) ∧
    (x.wakingAt = none → exec (.dieWakeComplete d t) s = .next (settle v)) ∧
    (∀ z, x.wakingAt = some z →
      (v.sys.time < z → exec (.dieWakeComplete d t) s = .next (settle v)) ∧
      (z ≤ v.sys.time →
        exec (.dieWakeComplete d t) s =
          .next (settle (v.modDie d.val fun y => { y with pstate := .run, wakingAt := none, idleAt := some v.sys.time }))))

/-- PWR_QUERY answers its record. PWR_SET_POLICY takes values in their ranges, with windows and the module cap clipped, or
fails. PWR_SET_STATE forces a compute die, asks for a clean shutdown, which fences the partitions, or starts cast-on from
OFF. A shutdown whose destaging lasts longer than 60 s ends without a clean mark. A write of block enables keeps retired
units off and busy ones on. -/
def Obligations.PowerCommands : Prop :=
  ∀ (s : State) (c : Capsule),
    (accepted 0x0670 c s = true →
      exec (.pwrQuery c) s =
        let b := s.entered 0x0670 c
        .next (settle (succeed s.nextCmd 0 (oneSegment (((pwrRecord b).drop c.offset.toNat).take 1024)) { b with free := b.free + 16 }))) ∧
    (accepted 0x0671 c s = true → c.dataLen ≠ 0 → exec (.pwrSetPolicy c) s = .next (settle (s.entered 0x0671 c))) ∧
    (∀ n l, s.live? n = some l →
      let vs := (List.range 20).map fun i => fieldAt l.data (4 * i) 4
      let o := originWord l.c.origin
      (pwrOk vs = false → landedOf 0x0671 n s = fail n 0x0101 0 s) ∧
      (pwrOk vs = true →
        landedOf 0x0671 n s = succeed n 0 [] (addLog 0x0706 o noUnit 0 [0x0671]
          (addLog (if pwrClips vs then 0x070E else 0x0707) o noUnit 0 [0x0671] (pwrApply vs s))))) ∧
    (accepted 0x0672 c s = true → c.p0.toNat < 4 →
      let b := s.entered 0x0672 c
      let d := c.p0.toNat
      let o := originWord c.origin
      (c.p1 = 0 → exec (.pwrSetDieState c) s =
        .next (settle (succeed s.nextCmd 0 [] (addLog 0x0706 o (unitWord d 0 0) 0 [0x0672, 0] (wakeDie d b))))) ∧
      (c.p1 = 1 → exec (.pwrSetDieState c) s =
        .next (settle (succeed s.nextCmd 0 [] (addLog 0x0706 o (unitWord d 0 0) 0 [0x0672, 1]
          ((b.modDie d fun x => { x with wakingAt := none }).modDie d fun x => { x with pstate := .gate, enteredAt := b.sys.time })))))) ∧
    (accepted 0x0672 { c with p0 := 4, p1 := 1 } s = true →
      let c1 : Capsule := { c with p0 := 4, p1 := 1 }
      let b := succeed s.nextCmd 0 [] (addLog 0x0706 (originWord c.origin) noUnit 0 [0x0672, 4, 1] (s.entered 0x0672 c1))
      let e := (s.entered 0x0672 c1).sys
      (e.off = true ∨ e.offAsked = true → exec (.pwrSetStateOff c) s = .next (settle b)) ∧
      (e.off = false → e.offAsked = false →
        exec (.pwrSetStateOff c) s =
          .next (settle (foldOver (b.parts.map Prod.fst) bindOff { b with sys := { b.sys with offAsked := true } })))) ∧
    (accepted 0x0672 { c with p0 := 4, p1 := 0 } s = true →
      let c1 : Capsule := { c with p0 := 4, p1 := 0 }
      let e := (s.entered 0x0672 c1).sys
      let b := succeed s.nextCmd 0 [] (addLog 0x0706 (originWord c.origin) noUnit 0 [0x0672, 4, 0] (s.entered 0x0672 c1))
      (e.off = false → exec (.pwrSetStateOn c) s = .next (settle b)) ∧
      (e.off = true → exec (.pwrSetStateOn c) s =
        .next (settle { castFrom 2 b with sys := { (castFrom 2 b).sys with dataOn := e.main } }))) ∧
    (∀ t,
      let v := s.tick t
      (v.sys.shutdownAt = none → exec (.shutdownDrainTimeout t) s = .next (settle v)) ∧
      (∀ z, v.sys.shutdownAt = some z →
        (v.sys.time < z + 60000000000 → exec (.shutdownDrainTimeout t) s = .next (settle v)) ∧
        (z + 60000000000 ≤ v.sys.time →
          exec (.shutdownDrainTimeout t) s =
            let w := diesOff { v with sys := { v.sys with flushed := true } }
            .next (settle { w with sys := { w.sys with off := true, offAsked := false, shutdownAt := none, cleanMark := false } })))) ∧
    (∀ (d : AllDieIx) (w : Dword),
      let old := Tbl.getD s.power.blockEn d.val 0xFFFFFFFFFFFFFFFF
      let keeps (b : Nat) : Bool :=
        match bitUnit d false b with
        | none => w.getLsbD b
        | some u => if w.getLsbD b then decide (u ∉ s.errs.retired) else old.getLsbD b && unitBusy s u
      let n := if d.val < 4 then 35 else if d.val < 6 then 15 else 14
      let bits := ((List.range n).filter keeps).foldl (fun m b => m ||| (1#64 <<< b)) (0#64)
      exec (.dieBlockEnWrite d false w) s =
        .next { s with power := { s.power with blockEn := Tbl.set d.val bits s.power.blockEn } } ∧
      (¬ (4 ≤ d.val ∧ d.val < 6) → exec (.dieBlockEnWrite d true w) s = .next s))

/-! ## The control function -/

/-- Nothing reaches the function while its PCIe link is down. A doorbell moves an index of a served queue, and one beyond its
range stops the queue with cause 3; entries up to a completion doorbell are consumed. A write of CTLQ_CFG that raises enable
serves the queue from index 0 unless it drains or stands stopped; one that clears it ends an error when nothing is
outstanding. An entry is taken only of a served queue with room, and its capsule is refused when the packet's type is wrong.
The oldest answer goes to its slot and the completion queue, and is discarded when that queue is dead. An event entry needs
room. The aggregation timer signals 4 µs times agg_time after the first entry. A failing access stops a served queue. Request
data that was granted is read whole or ends the command with detail 4. -/
def Obligations.ControlQueues : Prop :=
  ∀ (s : State) (n : QueueIx) (v : Word) (t : Nat),
    let q := s.queue n.val
    let at_ (f : CtlQ → CtlQ) (z : State) : State := z.modQueue n.val f
    let stop (cause : BitVec 4) (z : State) : State := setFlag 12 (at_ (fun x => { x with error := true, cause := cause }) z)
    (s.sys.pcieUp = false → ∀ i ∈ [Instr.ctlqSqTail n v, .ctlqCqHead n v, .ctlqEnable n v, .ctlqDisable n v], exec i s = .next s) ∧
    (s.sys.pcieUp = true →
      (q.served = false → exec (.ctlqSqTail n v) s = .next s ∧ exec (.ctlqCqHead n v) s = .next s) ∧
      (q.served = true →
        (q.depth ≤ v.toNat % 4096 → exec (.ctlqSqTail n v) s = .next (stop 3 s)) ∧
        (v.toNat % 4096 < q.depth → exec (.ctlqSqTail n v) s = .next (at_ (fun x => { x with tail := v.toNat % 4096 }) s)) ∧
        (q.depth + 64 ≤ v.toNat % 8192 → exec (.ctlqCqHead n v) s = .next (stop 3 s)) ∧
        (v.toNat % 8192 < q.depth + 64 →
          exec (.ctlqCqHead n v) s = .next (at_ (fun x =>
            { x with cqHead := v.toNat % 8192,
                     written := x.written.drop ((v.toNat % 8192 + x.cqSize - x.cqHead) % x.cqSize) }) s))) ∧
      (q.enable = false → q.error = false → q.outstanding = 0 →
        exec (.ctlqEnable n v) s = .next (at_ (fun x =>
          { x with cfg := v ||| 1#32, sqHead := 0, tail := 0, cqHead := 0, cqTail := 0, phase := true, written := [],
                   unsignalled := 0, cqDead := false }) s)) ∧
      (q.enable = false → q.error = true ∨ 0 < q.outstanding →
        exec (.ctlqEnable n v) s = .next (at_ (fun x =>
          { x with cfg := (((v ||| 1#32) &&& ~~~0x1FFE#32) ||| (q.cfg &&& 0x1FFE#32)) &&& ~~~1#32 }) s)) ∧
      (q.enable = true →
        exec (.ctlqDisable n v) s = .next (at_ (fun x =>
          let cfg : Word :=
            if q.open' then v &&& ~~~1#32 else ((v &&& ~~~1#32) &&& ~~~0x1FFE#32) ||| (q.cfg &&& 0x1FFE#32)
          if !cfg.getLsbD 0 && decide (x.outstanding = 0) then { x with cfg := cfg, error := false, cause := 0 }
          else { x with cfg := cfg }) s))) ∧
    (∀ packet,
      (mayTake n.val s = false → exec (.sqEntryTake n packet) s = .next (settle s)) ∧
      (mayTake n.val s = true →
        let w := at_ (fun x => { x with sqHead := (x.sqHead + 1) % x.depth }) s
        let c := capsuleOf (.ctlq n) packet
        let op := opcodeOf packet
        (fieldAt packet 8 1 ≠ 1 → exec (.sqEntryTake n packet) s = .next (settle (refuse op c (0x0103, 0) w))) ∧
        (fieldAt packet 8 1 = 1 → exec (.sqEntryTake n packet) s = .next (settle (deliver op c w))))) ∧
    (q.served = false → ∀ w, exec (.sqFetchFail n w) s = .next s) ∧
    (q.served = true →
      exec (.sqFetchFail n false) s = .next (stop 1 (at_ (fun x => { x with cqDead := x.cqDead || false }) s)) ∧
      exec (.sqFetchFail n true) s = .next (stop 2 (at_ (fun x => { x with cqDead := x.cqDead || true }) s))) ∧
    (let u := s.tick t
     let p := u.queue n.val
     let rest (z : State) : State :=
       at_ (fun x => if !x.enable && decide (x.outstanding = 0) then { x with error := false, cause := 0 } else x) z
     (p.done = [] → exec (.completionWrite n t) s = .next u) ∧
     (u.sys.d3hot = true ∨ u.sys.pcieUp = false → exec (.completionWrite n t) s = .next u) ∧
     (∀ d more, p.done = d :: more → u.sys.d3hot = false → u.sys.pcieUp = true → d.wasLive = true →
       let w := at_ (fun x => { x with done := more, outstanding := x.outstanding - 1 }) u
       let y : State := { w with cmds := Tbl.erase d.seq w.cmds }
       let ix := 64 * n.val + d.slot.toNat
       (p.cqDead = true → d.slotEn = true →
         exec (.completionWrite n t) s = .next (rest (y.modSlot ix fun x => { x with state := 0, status := 0 }))) ∧
       (p.cqDead = false → d.slotEn = true →
         exec (.completionWrite n t) s = .next (rest (writeEntry n.val
           { sqHead := 0, phase := false, slot := d.slot, slotUsed := true, kind := 1, opcode := d.opcode, tag := d.tag,
             status := d.status, detail := d.detail, count := BitVec.ofNat 32 (d.data.take 4096).length }
           (y.modSlot ix fun x =>
             { state := 2, status := d.status, length := (d.data.take 4096).length, tag := d.tag, opcode := d.opcode,
               seq := x.seq + 1, payload := d.data.take 4096 })))) ∧
       (p.cqDead = false → d.slotEn = false →
         exec (.completionWrite n t) s = .next (rest (writeEntry n.val
           { sqHead := 0, phase := false, slot := d.slot, slotUsed := false, kind := 1, opcode := d.opcode, tag := d.tag,
             status := d.status, detail := d.detail, count := 0 } y)))) ∧
     (p.irqEn = false ∨ p.unsignalled = 0 ∨ p.aggTime = 0 ∨ u.sys.time < p.firstAt + 4000 * p.aggTime →
       exec (.cqAggTimer n t) s = .next u) ∧
     (p.irqEn = true → 0 < p.unsignalled → 0 < p.aggTime → p.firstAt + 4000 * p.aggTime ≤ u.sys.time →
       exec (.cqAggTimer n t) s = .next (signalVector p.vector (at_ (fun x => { x with unsignalled := 0 }) u)))) ∧
    (q.events = [] ∨ s.sys.d3hot = true → exec (.cqEventWrite n) s = .next s) ∧
    (∀ code value object more, q.events = (code, value, object) :: more → s.sys.d3hot = false →
      let w := at_ (fun x => { x with events := more }) s
      (q.load + 1 ≤ q.cqSize → q.enable = true → q.cqDead = false → s.sys.pcieUp = true →
        exec (.cqEventWrite n) s = .next (writeEntry n.val
          { sqHead := 0, phase := false, slot := 0, slotUsed := false, kind := 4, opcode := code, tag := 0, status := 0,
            detail := value, count := object } w)) ∧
      (q.cqSize < q.load + 1 ∨ q.enable = false ∨ q.cqDead = true ∨ s.sys.pcieUp = false →
        exec (.cqEventWrite n) s =
          .next (addLog 0x0307 (0x10000000#32 + BitVec.ofNat 32 n.val) noUnit 0 [n.val] (setFlag 13 w)))) ∧
    (∀ k data,
      let u := s.tick t
      (u.live? k = none → exec (.requestDataRead k data t) s = .next (settle u)) ∧
      (∀ l, u.live? k = some l → fabricOf l.c.origin = none → l.awaits = true →
        (data = none → exec (.requestDataRead k data t) s = .next (settle (fail k 0x0103 4 (stopWork k u)))) ∧
        (∀ bs, data = some bs → bs.length ≠ l.c.dataLen.toNat → exec (.requestDataRead k data t) s = .next (settle u)) ∧
        (∀ bs, data = some bs → bs.length = l.c.dataLen.toNat → grantDecision k l u = .held →
          exec (.requestDataRead k data t) s = .next (settle u)) ∧
        (∀ bs st, data = some bs → bs.length = l.c.dataLen.toNat → grantDecision k l u = .refused st →
          exec (.requestDataRead k data t) s = .next (settle (abort k st u))) ∧
        (∀ bs w, data = some bs → bs.length = l.c.dataLen.toNat → grantDecision k l u = .ok w →
          exec (.requestDataRead k data t) s = .next (settle (landIfFull k (w.modLive k fun x =>
            { x with granted := bs.length, landed := bs.length, segs := [(0, bs)], grantAt := u.sys.time, phase := .collecting }))))))

/-- A write of s to RSLT_RELEASE makes a DONE slot FREE: its header reads state FREE with status 0, and its payload reads
zeros, until the slot is taken again. A release that names a FREE or PENDING slot changes nothing of it, but sets
bad_release, records the slot and raises release_error. -/
def Obligations.ReleaseOfASlot : Prop :=
  ∀ (s : State) (v : Word), s.sys.pcieUp = true →
    let i := v.toNat % 4096
    ((s.slot i).state = 2 →
      ∃ t, exec (.rsltRelease v) s = .next t ∧
        t = (s.modSlot i fun x => { x with state := 0, status := 0, length := 0, payload := [] }) ∧
        (t.slot i).state = 0 ∧ (t.slot i).status = 0 ∧ (∀ pos, slotPayload t i pos = 0) ∧
        bar0Read (0x30000 + 16 * i) t = 0 ∧ (∀ j < 1024, bar0Read (0x1000000 + 4096 * i + 4 * j) t = 0) ∧
        ∀ k, k ≠ i → t.slot k = s.slot k) ∧
    ((s.slot i).state ≠ 2 →
      ∃ t, exec (.rsltRelease v) s = .next t ∧
        t = setFlag 16 { s with host := { s.host with badRelease := true, badSlot := BitVec.ofNat 12 i } } ∧
        (∀ k, t.slot k = s.slot k) ∧ t.host.badRelease = true ∧ t.host.badSlot = BitVec.ofNat 12 i ∧
        t.host.evt.flags.getLsbD 16 = true)

/-- A read of MOD_TIME's low half latches the high half, which the next read of the high half returns; a read of the high
half with no earlier read of the low half returns the live one, and an 8-byte read is the whole time. A write of
MOD_EPOCH_OFFSET changes no time that the module keeps, and is logged with the old and the new value. -/
def Obligations.TimeRegisters : Prop :=
  ∀ (s : State) (v : Dword), s.sys.pcieUp = true →
    (∃ t, exec .modTimeLowRead s = .next t ∧
      t = { s with sys := { s.sys with timeLatch := some (BitVec.ofNat 32 (s.sys.time / 4294967296)) } } ∧
      ∀ u : State, u.sys.timeLatch = t.sys.timeLatch → bar0Read 0x014 u = BitVec.ofNat 32 (s.sys.time / 4294967296)) ∧
    bar0Read 0x010 s = BitVec.ofNat 32 s.sys.time ∧
    (s.sys.timeLatch = none → bar0Read 0x014 s = BitVec.ofNat 32 (s.sys.time / 4294967296)) ∧
    modTime s = BitVec.ofNat 64 s.sys.time ∧
    (∃ t, exec (.modEpochOffsetWrite v) s = .next t ∧ t.sys = { s.sys with epochOffset := v } ∧
      t = addLog 0x0708 0x10000000 noUnit 0
        [s.sys.epochOffset.toNat % 4294967296, s.sys.epochOffset.toNat / 4294967296, v.toNat % 4294967296, v.toNat / 4294967296]
        { s with sys := { s.sys with epochOffset := v } })

/-- A release frees a slot that is DONE, and any other is recorded as bad. EVT_FORCE sets flags as the hardware does,
EVT_ENABLE signals the flags that stand, and an unmasked vector that is pending sends its message. MOD_TIME_LOW latches the
high half, and MOD_EPOCH_OFFSET is written and logged. A word for a mailbox is stored with its flag, or counted as an overrun
while the mailbox is full, and taking it clears full. A function reset stands queues, events, vectors, the offset and the log
window at reset; MSI-X messages wait through D3hot. A register write must be naturally aligned, and one of BAR0 or BAR4 needs
the PCIe link; any other is discarded. A write of 4 bytes acts on the register of its offset, and an offset that no table
defines ignores it; a write of 8 bytes acts on both halves, but MOD_EPOCH_OFFSET, DIE_BLOCK_EN and DIE_CHAN_EN take it as
one. -/
def Obligations.FunctionRegisters : Prop :=
  (∀ (s : State) (v : Word) (w : Dword) (n : MbxIx) (vec : BitVec 6),
    let flush (z : State) : State :=
      let m := z.host.msix
      let vs := (List.range 64).filter fun i => m.pending.getLsbD i && m.unmasked.getLsbD i
      { z with host := { z.host with msix :=
        { m with pending := m.pending &&& ~~~m.unmasked, sent := m.sent ++ vs.map fun i => BitVec.ofNat 6 i } } }
    (s.sys.pcieUp = false →
      ∀ i ∈ [Instr.rsltRelease v, .evtForce v, .evtEnableWrite v, .msixUnmask vec, .modTimeLowRead, .modEpochOffsetWrite w, .mbxHostWrite n v],
        exec i s = .next s) ∧
    (s.sys.pcieUp = true →
      ((s.slot (v.toNat % 4096)).state = 2 →
        exec (.rsltRelease v) s = .next (s.modSlot (v.toNat % 4096) fun x => { x with state := 0, status := 0, length := 0, payload := [] })) ∧
      ((s.slot (v.toNat % 4096)).state ≠ 2 →
        exec (.rsltRelease v) s =
          .next (setFlag 16 { s with host := { s.host with badRelease := true, badSlot := BitVec.ofNat 12 (v.toNat % 4096) } })) ∧
      exec (.evtForce v) s = .next (foldOver ((List.range 32).filter fun k => v.getLsbD k) setFlag s) ∧
      (exec (.evtEnableWrite v) s =
        let z : State := { s with host := { s.host with evt := { s.host.evt with enable := v } } }
        .next (foldOver ((List.range 32).filter fun k => v.getLsbD k && s.host.evt.flags.getLsbD k)
          (fun k acc => signalVector (Tbl.getD acc.host.evt.vectors k 0) acc) z)) ∧
      (let z : State := { s with host := { s.host with msix :=
         { s.host.msix with unmasked := s.host.msix.unmasked ||| (1#64 <<< vec.toNat) } } }
       exec (.msixUnmask vec) s = .next (if s.sys.d3hot then z else flush z)) ∧
      exec .modTimeLowRead s =
        .next { s with sys := { s.sys with timeLatch := some (BitVec.ofNat 32 (s.sys.time / 4294967296)) } } ∧
      (exec (.modEpochOffsetWrite w) s =
        let o := s.sys.epochOffset
        .next (addLog 0x0708 0x10000000 noUnit 0
          [o.toNat % 4294967296, o.toNat / 4294967296, w.toNat % 4294967296, w.toNat / 4294967296]
          { s with sys := { s.sys with epochOffset := w } })) ∧
      (16 ≤ n.val → exec (.mbxHostWrite n v) s = .next s) ∧
      (∀ into,
        let z : State := { s with sys := { s.sys with d3hot := into } }
        exec (.d3hotTransition into) s = .next (if into then z else flush z))) ∧
    (∀ into, s.sys.pcieUp = false → exec (.d3hotTransition into) s = .next s) ∧
    (s.sys.aux = true → exec .pcieLinkUp s = .next { s with sys := { s.sys with pcieUp := true } }) ∧
    (s.sys.aux = false → exec .pcieLinkUp s = .next s) ∧
    (∀ i, (i = .mbxHostWrite n v ∧ n.val < 16 ∧ s.sys.pcieUp = true) ∨ (i = .mbxModuleWrite n v ∧ 16 ≤ n.val) →
      ((s.mailbox n.val).full = true →
        exec i s = .next (s.modMailbox n.val fun x =>
          { x with overruns := if x.overruns = 0xFFFF then x.overruns else x.overruns + 1 })) ∧
      ((s.mailbox n.val).full = false →
        exec i s =
          let z := s.modMailbox n.val fun x => { x with word := v, full := true }
          .next (if 16 ≤ n.val then setFlag 10 z else z))) ∧
    (n.val < 16 → exec (.mbxModuleWrite n v) s = .next s) ∧
    ((s.mailbox n.val).full = false → exec (.mbxTake n) s = .next s) ∧
    ((s.mailbox n.val).full = true →
      exec (.mbxTake n) s =
        let z := s.modMailbox n.val fun x => { x with full := false }
        .next (if n.val < 16 then setFlag 11 z else z)) ∧
    exec (.mbxClrOverruns n) s = .next (s.modMailbox n.val fun x => { x with overruns := 0 }) ∧
    (∀ k,
      let z := discardQueued s
      let busy (i : Nat) : Bool := z.cmds.any fun e => isCtlq e.2.c.origin && e.2.c.slotEn && decide (slotIndex e.2.c = i)
      let down := decide (k = .perst ∨ k = .linkDown)
      exec (.functionReset k) s = .next (settle (logHw 0x0308 [resetKindCode k]
        { z with
          host := { z.host with
            queues := []
            slots := Tbl.mapVals (fun i x => if busy i then x else { Slot.fresh with seq := x.seq }) z.host.slots
            evt := { z.host.evt with enable := 0, vectors := [] }
            msix := { z.host.msix with table := [], unmasked := 0, pending := 0 } }
          sys := { z.sys with epochOffset := 0, d3hot := false, timeLatch := none, pcieUp := z.sys.pcieUp && !down }
          log := { z.log with window := 0, notify := 1 } })))) ∧
  (∀ (s : State) (off : Nat) (v : Dword) (d : AllDieIx),
    let lo := BitVec.ofNat 32 v.toNat
    let hi := BitVec.ofNat 32 (v.toNat / 4294967296)
    (s.sys.pcieUp = false → ∀ eight, exec (.registerWrite .bar0 off eight v) s = .next (settle s) ∧
      exec (.registerWrite .bar4 off eight v) s = .next (settle s)) ∧
    (∀ sp, off % 4 ≠ 0 → exec (.registerWrite sp off false v) s = .next (settle s)) ∧
    (∀ sp, off % 8 ≠ 0 → exec (.registerWrite sp off true v) s = .next (settle s)) ∧
    (s.sys.pcieUp = true → off % 4 = 0 →
      exec (.registerWrite .bar0 off false v) s = .next (settle (bar0Write off lo s)) ∧
      exec (.registerWrite .bar4 off false v) s = .next (settle (bar4Write off lo s))) ∧
    (s.sys.pcieUp = true → off % 8 = 0 → off ≠ 0x18 →
      exec (.registerWrite .bar0 off true v) s = .next (settle (bar0Write (off + 4) hi (bar0Write off lo s)))) ∧
    (s.sys.pcieUp = true → exec (.registerWrite .bar0 0x18 true v) s = .next (settle (writeEpoch v s))) ∧
    bar0Write 0x1000 lo s = { s with host := { s.host with evt := { s.host.evt with flags := s.host.evt.flags &&& ~~~lo } } } ∧
    (∀ k : Fin 32, bar0Write (0x1200 + 4 * k.val) lo s =
      { s with host := { s.host with evt :=
        { s.host.evt with vectors := Tbl.put 0 k.val (BitVec.ofNat 6 (lo.toNat % 64)) s.host.evt.vectors } } }) ∧
    bar0Write 0x80018 lo s = { s with log := { s.log with notify := BitVec.ofNat 16 lo.toNat } } ∧
    (0x1280 ≤ off → off < 0x2000 → bar0Write off lo s = s) ∧ (0x80018 < off → bar0Write off lo s = s) ∧
    (off % 4 = 0 → exec (.registerWrite (.dieWindow d) off false v) s = .next (settle (windowWord d off lo s))) ∧
    exec (.registerWrite (.dieWindow d) 0 true v) s = .next (settle (blockWrite d false v s)) ∧
    exec (.registerWrite (.dieWindow d) 8 true v) s = .next (settle (blockWrite d true v s)) ∧
    (off % 8 = 0 → 16 ≤ off → exec (.registerWrite (.dieWindow d) off true v) s =
      .next (settle (windowWord d (off + 4) hi (windowWord d off lo s)))))

/-! ## Management, configuration and trust -/

/-- A sequence that breaks the rules of the configuration flash is ignored and flagged; a right one starts a program of 1,024
bytes, or an erase of 64 KiB that is counted, when no operation is active. An erase is suspended and resumed, and a fetch of
the management core suspends it for 100 µs from the last fetch; a fetch of the suspended block is a bus error. A program
clears bits and an erase sets them; one whose verify fails sets op_error. Only the security core sees the identity row, where
a program sets bits in every copy and is refused where it would clear one. -/
def Obligations.ConfigurationFlash : Prop :=
  ∀ (s : State) (w : List (BitVec 28 × Byte)) (a : BitVec 28) (t : Nat),
    let v := cflNow s
    let c := v.sec.cfl
    let bad := v.modCfl fun x => { x with seqError := true }
    (s.sec.cfl.fetchAt = none → v = s) ∧
    (∀ z, s.sec.cfl.fetchAt = some z →
      v = if z + 100000 ≤ s.sys.time then s.modCfl fun x => { x with suspended := false, fetchAt := none } else s) ∧
    (programAt w = none → exec (.sectorProgram w) s = .next bad) ∧
    (∀ base, programAt w = some base →
      (c.active = true → exec (.sectorProgram w) s = .next bad) ∧
      (c.otp = false → 0x4100000 ≤ base → base < 0x4200000 → exec (.sectorProgram w) s = .next bad) ∧
      (∀ b, c.eraseAt = some b → b ≤ base → base < b + 65536 → exec (.sectorProgram w) s = .next bad) ∧
      (c.active = false → (0x4100000 ≤ base → 0x4200000 ≤ base) → (∀ b, c.eraseAt = some b → b ≤ base → b + 65536 ≤ base) →
        exec (.sectorProgram w) s =
          .next (v.modCfl fun x => { x with progAt := some base, data := ((w.drop 3).take 1024).map Prod.snd }))) ∧
    (eraseAtOf w = none → exec (.blockErase w) s = .next bad) ∧
    (∀ base, eraseAtOf w = some base →
      (c.active = true ∨ c.eraseAt.isSome = true ∨ cflProtected base = true → exec (.blockErase w) s = .next bad) ∧
      (c.active = false → c.eraseAt = none → cflProtected base = false →
        exec (.blockErase w) s =
          let x := v.modCfl fun x => { x with eraseAt := some base, suspended := false, fetchAt := none }
          let n := Tbl.getD x.sec.cfl.ecnt (base / 65536) 0 + 1
          let y := x.modCfl fun x => { x with ecnt := Tbl.set (base / 65536) n x.ecnt }
          .next (if n = 90001 then logHw 0x0711 [base / 65536, n] y else y))) ∧
    (c.eraseAt.isSome = true → c.suspended = false →
      exec (.cflEraseSuspend a) s = .next (v.modCfl fun x => { x with suspended := true, fetchAt := none })) ∧
    (c.eraseAt = none ∨ c.suspended = true → exec (.cflEraseSuspend a) s = .next bad) ∧
    (c.eraseAt.isSome = true → c.suspended = true → c.progAt = none →
      exec (.cflEraseResume a) s = .next (v.modCfl fun x => { x with suspended := false, fetchAt := none })) ∧
    (c.eraseAt = none ∨ c.suspended = false ∨ c.progAt.isSome = true → exec (.cflEraseResume a) s = .next bad) ∧
    (c.active = false → exec (.otpEnter true (unlock 0x88)) s = .next (v.modCfl fun x => { x with otp := true })) ∧
    (c.active = false → exec (.otpExit true (unlock 0x90 ++ [(a, 0)])) s = .next (v.modCfl fun x => { x with otp := false })) ∧
    exec (.otpEnter false w) s = .next bad ∧ exec (.otpExit false w) s = .next bad ∧
    (w ≠ unlock 0x88 → exec (.otpEnter true w) s = .next bad) ∧
    exec (.cflReset a) s = .next v ∧
    (let u := cflNow (s.tick t)
     let k := u.sec.cfl
     (k.eraseAt = none → exec (.cflFetchDuringErase a t) s = .next u) ∧
     (∀ base, k.eraseAt = some base →
       (k.suspended = false → exec (.cflFetchDuringErase a t) s =
         .next (u.modCfl fun x => { x with suspended := true, fetchAt := some u.sys.time })) ∧
       (k.suspended = true → base ≤ a.toNat → a.toNat < base + 65536 → exec (.cflFetchDuringErase a t) s =
         .next (u.modCfl fun x => { x with cause := 2, causeValid := true, causeAddr := a })))) ∧
    (let x := s.sec.cfl
     let y := cflNow s
     let z := y.sec.cfl
     (x.progAt = none → x.eraseAt = none → s.sec.commitStep = 0 → ∀ ok, exec (.cflOperationComplete ok) s = .next (settle s)) ∧
     (∀ base, x.progAt = some base → z.progAt = some base → z.otp = false →
       let old := cflBytes y base 1024
       exec (.cflOperationComplete true) s = .next (settle (y.modCfl fun x =>
         { x with progAt := none, data := [],
                  opError := x.opError || (List.zip old z.data).any fun e => decide (e.2 &&& ~~~e.1 ≠ 0)
                  mem := cflPut base (List.zipWith (fun a b => a &&& b) old z.data) x.mem }))) ∧
     (∀ base, x.progAt = some base → z.progAt = some base → z.otp = true → base < 4096 →
       let clear := (List.zip (otpBytes y base 1024) z.data).any fun e => decide (e.1 &&& ~~~e.2 ≠ 0)
       (clear = false → exec (.cflOperationComplete true) s = .next (settle (otpSet 0x50000000 base z.data
         (y.modCfl fun x => { x with progAt := none, data := [], opError := x.opError || false || false })))) ∧
       (clear = true → exec (.cflOperationComplete true) s =
         .next (settle (y.modCfl fun x => { x with progAt := none, data := [], opError := x.opError || false || true })))) ∧
     (∀ base, x.progAt = none → x.eraseAt = some base → x.suspended = false → z = x →
       exec (.cflOperationComplete true) s =
         .next (settle (y.modCfl fun x => { x with eraseAt := none, mem := cflErased base 65536 x.mem }))))

/-- MGT_IDENTIFY and MGT_LOG_READ answer the identity row with the versions, and the lasting log; LOG_BATCH_WRITE writes 16
waiting copies, or the oldest after 1 s. FW_STAGE takes the staging area and stores its data; FW_COMMIT refuses a bundle that
fails a check, or begins at step C2, and each step that ends gives the next; FW_ABORT frees the area and FW_QUERY answers.
CFG_READ answers an image or the running values. CFG_WRITE fails with a malformed image or a missing signature, else puts the
image in the older slot of its pair and applies what takes effect now; CFG_SELECT does so for a set of overlays, and
CFG_SET_ACCESS replaces the access table, which must keep an administrator. All three wait while a commit runs. SEC_OTP_WRITE
sets bits of the identity row, never clears one, and ends the session that claims ownership. -/
def Obligations.ConfigurationCommands : Prop :=
  (∀ (s : State) (c : Capsule),
    (accepted 0x0601 c s = true →
      exec (.mgtIdentify c) s =
        let b := s.entered 0x0601 c
        let bs := otpBytes b 0 4096 ++ leBytes 4 b.sys.node.toNat ++ leBytes 4 b.sec.running.version.toNat ++
          leBytes 4 ((b.sec.committed.map fun x => x.version.toNat).getD 0)
        .next (settle (succeed s.nextCmd 0 (oneSegment ((bs.drop c.offset.toNat).take c.length.toNat)) b))) ∧
    (accepted 0x0602 c s = true →
      exec (.mgtLogRead c) s =
        let b := s.entered 0x0602 c
        let es := (b.log.lasting.filter fun e => decide (c.offset.toNat ≤ e.seq)).take (c.length.toNat / 64)
        .next (settle (succeed s.nextCmd 0 (oneSegment (es.flatMap LogEntry.toBytes)) b))) ∧
    (∀ t,
      let v := s.tick t
      (v.log.buffer = [] → exec (.logBatchWrite t) s = .next v) ∧
      (∀ e rest, v.log.buffer = e :: rest →
        (16 ≤ v.log.buffer.length ∨ e.time + 1000000000 ≤ v.sys.time →
          exec (.logBatchWrite t) s =
            let all := v.log.lasting ++ v.log.buffer
            .next { v with log := { v.log with lasting := all.drop (all.length - 262144), buffer := [] } }) ∧
        (v.log.buffer.length < 16 → v.sys.time < e.time + 1000000000 → exec (.logBatchWrite t) s = .next v))) ∧
    (accepted 0x0610 c s = true → c.dataLen ≠ 0 →
      exec (.fwStage c) s = .next (settle (takeStaging c.origin (s.entered 0x0610 c)))) ∧
    (∀ o, s.sec.staging = none → s.statusBit 5 = false →
      takeStaging o s =
        { s.modDie 0 (fun x => { x with moduleFrames := x.moduleFrames + 32 }) with sec := { s.sec with staging := some (o, [], 0) } }) ∧
    (∀ o, s.sec.staging.isSome = true → takeStaging o s = s) ∧
    (∀ n l, s.live? n = some l →
      let o := originWord l.c.origin
      (s.sec.staging = none ∨ s.sec.commitStep ≠ 0 → landedOf 0x0610 n s = fail n 0x0104 0 s) ∧
      (∀ g, s.sec.staging = some g → s.sec.commitStep = 0 → s.statusBit 5 = false →
        landedOf 0x0610 n s =
          let area := (g.1, Mem.writeBytes l.c.offset.toNat l.data g.2.1, g.2.2 + l.data.length)
          let u : State := { s with sec := { s.sec with staging := some area } }
          succeed n 0 [] (addLog 0x0709 o noUnit 0 [l.c.offset.toNat, l.c.dataLen.toNat] u))) ∧
    (accepted 0x0611 c s = true → (s.entered 0x0611 c).statusBit 5 = false →
      let b := s.entered 0x0611 c
      let u : State := { b with sec := { b.sec with commitFor := .inl s.nextCmd, commitOpts := c.p0.toNat, commitAgain := false } }
      (∀ k st, bundleCheck (stagedBytes b) b = some (k, st) →
        exec (.fwCommit c) s = .next (settle (commitAnswer st k (logHw 0x070F [k] u)))) ∧
      (bundleCheck (stagedBytes b) b = none →
        exec (.fwCommit c) s = .next (settle { u with sec := { u.sec with commitStep := 2 } }))) ∧
    (s.sec.cfl.progAt = none → s.sec.cfl.eraseAt = none →
      (s.sec.commitStep = 2 →
        ∀ ok, exec (.cflOperationComplete ok) s =
          let u := s.modCfl fun c => { c with mem := cflErased 0x4000000 65536 c.mem }
          let v := countErase 1024 { u with sec := { u.sec with committed := none } }
          .next (settle { v with sec := { v.sec with commitStep := 3 } })) ∧
      (s.sec.commitStep = 4 →
        ∀ ok, exec (.cflOperationComplete ok) s =
          let u := s.modCfl fun c => { c with mem := cflPut 0 (stagedBytes s 0 (bundleLen (stagedBytes s))) c.mem }
          .next (settle { u with sec := { u.sec with commitStep := 5 } })) ∧
      (s.sec.commitStep = 5 →
        exec (.cflOperationComplete true) s = .next (settle { s with sec := { s.sec with commitStep := 6 } }) ∧
        (s.sec.commitAgain = false → exec (.cflOperationComplete false) s =
          .next (settle { s with sec := { s.sec with commitStep := 3, commitAgain := true } })))) ∧
    (accepted 0x0612 c s = true →
      (s.sec.staging.isSome = true → (s.entered 0x0612 c).statusBit 5 = false → (s.entered 0x0612 c).sec = s.sec →
        exec (.fwAbort c) s =
          let b := (s.entered 0x0612 c).modDie 0 fun x => { x with moduleFrames := x.moduleFrames - 32 }
          .next (settle (succeed s.nextCmd 0 [] { b with sec := { s.sec with staging := none } }))) ∧
      exec (.fwAbort c) s = .next (settle (succeed s.nextCmd 0 [] (freeStaging (s.entered 0x0612 c))))) ∧
    (accepted 0x0613 c s = true →
      exec (.fwQuery c) s =
        let b := s.entered 0x0613 c
        let staged := b.sec.staging.map fun _ => bundleOf (stagedBytes b)
        .next (settle (succeed s.nextCmd 0 (oneSegment (bundleRecord (some b.sec.running) ++ bundleRecord b.sec.committed ++
          bundleRecord staged ++ leBytes 4 ((b.sec.staging.map fun g => (originWord g.1).toNat).getD 0) ++
          leBytes 4 ((b.sec.staging.map fun g => g.2.2).getD 0) ++ leBytes 4 b.sec.commitStep ++ leBytes 4 0)) b)))) ∧
  (∀ (s : State) (c : Capsule),
    (accepted 0x0620 c s = true →
      exec (.cfgRead c) s =
        let b := s.entered 0x0620 c
        let k := c.p0.toNat
        let bs := if k = 17 then runningItems b
          else ((newestImage (if k = 0 then b.sec.base else Tbl.getD b.sec.overlays (k - 1) [])).map imageBytes).getD []
        .next (settle (succeed s.nextCmd 0 (oneSegment ((bs.drop c.offset.toNat).take c.length.toNat)) b))) ∧
    (accepted 0x0621 c s = true → c.dataLen ≠ 0 → exec (.cfgWrite c) s = .next (settle (s.entered 0x0621 c))) ∧
    (accepted 0x0623 c s = true → c.dataLen ≠ 0 → exec (.cfgSetAccess c) s = .next (settle (s.entered 0x0623 c))) ∧
    (accepted 0x0630 c s = true → c.dataLen ≠ 0 → exec (.secOtpWrite c) s = .next (settle (s.entered 0x0630 c))) ∧
    (∀ n l, s.live? n = some l →
      let o := originWord l.c.origin
      let k := l.c.p0.toNat
      let a := l.c.offset.toNat
      let late : State := s.modLive n fun x => { x with phase := .running }
      (∀ op ∈ [0x0621, 0x0623], s.sec.commitStep ≠ 0 →
        landedOf op n s = { late with sec := { late.sec with waitingCfg := late.sec.waitingCfg ++ [n] } }) ∧
      (s.sec.commitStep = 0 →
        (imageItems k l.data = none → landedOf 0x0621 n s = fail n 0x0101 0 s) ∧
        (∀ items, imageItems k l.data = some items → imageSigned l.data s = false → landedOf 0x0621 n s = fail n 0x0401 0 s) ∧
        (∀ items, imageItems k l.data = some items → imageSigned l.data s = true →
          let find (xs : List (Nat × List Byte)) (id : Nat) : Option (List Byte) := (xs.find? fun e => decide (e.1 = id)).map Prod.snd
          (k = 0 → landedOf 0x0621 n s =
            let u : State := { s with sec := { s.sec with base := pushImage items l.data s.sec.base } }
            succeed n 0 [] (changeNow (effItem s s.sec.active) (addLog 0x0701 o noUnit 0
              (0 :: changedIds (find (itemsOf s.sec.base)) (find items)) u))) ∧
          (k ≠ 0 → landedOf 0x0621 n s =
            let old := Tbl.getD s.sec.overlays (k - 1) []
            let u : State := { s with sec := { s.sec with overlays := Tbl.set (k - 1) (pushImage items l.data old) s.sec.overlays } }
            succeed n 0 [] (changeNow (effItem s s.sec.active) (addLog 0x0702 o noUnit 0
              (k :: changedIds (find (itemsOf old)) (find items)) u)))) ∧
        (accessShape l.data = false → landedOf 0x0623 n s = fail n 0x0103 0 s) ∧
        (accessShape l.data = true → accessKeeps (accessTable l.data) = false → landedOf 0x0623 n s = fail n 0x0104 0 s) ∧
        (accessShape l.data = true → accessKeeps (accessTable l.data) = true →
          landedOf 0x0623 n s = succeed n 0 [] (addLog 0x0703 o noUnit 0 [l.data.length / 16]
            { s with sec := { s.sec with access := accessTable l.data } }))) ∧
      (let clear := (List.zip (otpBytes s a l.data.length) l.data).any fun e => decide (e.1 &&& ~~~e.2 ≠ 0)
       (clear = true → landedOf 0x0630 n s = fail n 0x0104 0 s) ∧
       (clear = false → a = 0xA0 → 8 ≤ leNat l.data → landedOf 0x0630 n s = fail n 0x0103 0 s) ∧
       (clear = false → a = 0xA0 → leNat l.data < 8 → landedOf 0x0630 n s = succeed n 0 [] (otpSet o a l.data s)) ∧
       (clear = false → a = 0x60 →
         landedOf 0x0630 n s =
           let u := succeed n 0 [] (otpSet o a l.data s)
           let closed (x : Spdm) : Spdm := if x.session = some (0, true) then { x with session := none } else x
           { u with sec := { u.sec with spdm := Tbl.mapVals (fun _ x => closed x) u.sec.spdm } }))) ∧
    (accepted 0x0622 c s = true →
      let b := s.entered 0x0622 c
      let m : BitVec 16 := BitVec.ofNat 16 c.p0.toNat
      let unsigned := ((List.range 16).filter fun i => m.getLsbD i).any fun i =>
        (newestImage (Tbl.getD b.sec.overlays i [])).any fun x => !imageSigned x.raw b
      (b.sec.commitStep = 0 → unsigned = true → exec (.cfgSelect c) s = .next (settle (fail s.nextCmd 0x0401 0 b))) ∧
      (b.sec.commitStep = 0 → unsigned = false →
        exec (.cfgSelect c) s =
          let before := effItem b b.sec.active
          let u : State := { b with sec := { b.sec with active := m } }
          .next (settle (succeed s.nextCmd 0 [] (changeNow before (addLog 0x0702 (originWord c.origin) noUnit 0
            (m.toNat :: changedIds before (effItem b m)) u)))))))

/-- The attestation flow of an endpoint goes in order, and a request out of order is answered with an error. A challenge and
the measurements are signed, and a challenge is logged. A session opens for a requester whose key the module knows and who
proves it, or to claim a module with no owner. A PLDM sensor reads its value; a PLDM update is staged and committed as
FW_STAGE and FW_COMMIT do, or refused while staging is not to be had. SET_ENDPOINT_ID and SETDASA set the module's addresses.
-/
def Obligations.TrustAndSideband : Prop :=
  ∀ (s : State) (eid : Byte) (slot : BitVec 4) (nonce : List Byte),
    let k := (s.conn eid).step
    let say (code : Nat) (data : List Byte) (z : State) : State :=
      { z with sec := { z.sec with replies := z.sec.replies ++ [(eid, code, data)] } }
    let conn (x : Spdm) (z : State) : State := { z with sec := { z.sec with spdm := Tbl.set eid.toNat x z.sec.spdm } }
    exec (.getVersion eid) s = .next (say 0x04 [0x00, 0x12] (conn { step := 1, session := none } s)) ∧
    (k = 0 → exec (.getCapabilities eid) s = .next (say 0x7F [4] s)) ∧
    (1 ≤ k → exec (.getCapabilities eid) s = .next (say 0x61 (leBytes 4 0x3D6) (conn { s.conn eid with step := 2 } s))) ∧
    (∀ kem,
      (∀ dsa shake, k < 2 → exec (.negotiateAlgorithms eid dsa shake kem) s = .next (say 0x7F [4] s)) ∧
      (2 ≤ k →
        exec (.negotiateAlgorithms eid true true kem) s =
          .next (say 0x63 [if kem then 1 else 0] (conn { s.conn eid with step := if kem then 4 else 3 } s)) ∧
        (∀ dsa, exec (.negotiateAlgorithms eid dsa false kem) s = .next (say 0x7F [7] s)) ∧
        (∀ shake, exec (.negotiateAlgorithms eid false shake kem) s = .next (say 0x7F [7] s)))) ∧
    (k < 3 → ∀ i ∈ [Instr.getDigests eid, .getCertificate eid slot 0 0, .challenge eid slot nonce, .getMeasurements eid 0 nonce],
      exec i s = .next (say 0x7F [4] s)) ∧
    (3 ≤ k →
      exec (.getDigests eid) s = .next (say 0x01 (shake256 (chain s) 64) s) ∧
      (∀ off len, exec (.getCertificate eid 0 off len) s = .next (say 0x02 (((chain s).drop off.toNat).take len.toNat) s)) ∧
      (∀ off len, slot ≠ 0 → exec (.getCertificate eid slot off len) s = .next (say 0x7F [1] s)) ∧
      (slot ≠ 0 → exec (.challenge eid slot nonce) s = .next (say 0x7F [1] s)) ∧
      (let body := shake256 (chain s) 64 ++ nonce
       exec (.challenge eid 0 nonce) s = .next (addLog 0x070C (0x20000000#32 + eid.zeroExtend 32) noUnit 0 []
         (say 0x03 (body ++ Config.mlDsaSign body s.free) { s with free := s.free + 1 }))) ∧
      (∀ index : Byte,
        (6 < index.toNat → index.toNat ≠ 255 → exec (.getMeasurements eid index nonce) s = .next (say 0x7F [1] s)) ∧
        (1 ≤ index.toNat → index.toNat ≤ 6 →
          let body := measurement s index.toNat ++ nonce
          exec (.getMeasurements eid index nonce) s =
            .next (say 0x60 (body ++ Config.mlDsaSign body s.free) { s with free := s.free + 1 })))) ∧
    (∀ key proof,
      let who : Word := 0x20000000#32 + eid.zeroExtend 32
      let opens (i : BitVec 4) (claim : Bool) : State :=
        addLog 0x070D who noUnit 0 [i.toNat] (say 0x64 (leBytes 1 i.toNat) (conn { s.conn eid with session := some (i, claim) } s))
      let bad : State := addLog 0x0710 who noUnit 0 [] (say 0x7F (leBytes 2 0x0400) s)
      (k < 4 → exec (.keyExchange eid key proof) s = .next (say 0x7F [4] s)) ∧
      (4 ≤ k →
        (owned s = true → exec (.keyExchange eid none proof) s = .next bad) ∧
        (owned s = false → exec (.keyExchange eid none proof) s = .next (opens 0 true)) ∧
        (∀ x, key = some x → keyIndex (shake256 x 64) s = none → exec (.keyExchange eid key proof) s = .next bad) ∧
        (∀ x i, key = some x → keyIndex (shake256 x 64) s = some i → Config.requesterGenuine (shake256 x 64) proof = false →
          exec (.keyExchange eid key proof) s = .next bad) ∧
        (∀ x i, key = some x → keyIndex (shake256 x 64) s = some i → Config.requesterGenuine (shake256 x 64) proof = true →
          exec (.keyExchange eid key proof) s = .next (opens (BitVec.ofNat 4 i) false)))) ∧
    (∀ x, exec (.pldmSensorRead eid x) s = .next (say 0x11 (leBytes 4 (BitVec.ofInt 32 (sensorValue s x)).toNat) s)) ∧
    (∀ image,
      (s.sec.commitStep ≠ 0 ∨ 67108864 < image.length →
        exec (.pldmFirmwareUpdate eid image) s = .next (say 0x18 (leBytes 2 0x0300) s)) ∧
      (s.sec.commitStep = 0 → image.length ≤ 67108864 → s.statusBit 5 = false → s.sec.staging = none → 32 ≤ freeFrames s 0 →
        exec (.pldmFirmwareUpdate eid image) s =
          let o : Origin := .mctp eid false
          let a := takeStaging o s
          .next (commitBegins (.inr eid) 0 (addLog 0x0709 (originWord o) noUnit 0 [0, image.length]
            (putStaged 0 image { a with sec := { a.sec with recoveryNext := 0 } }))))) ∧
    (eid = 0 ∨ eid = 255 → ∀ b, exec (.setEndpointId eid b) s = .next s) ∧
    (eid ≠ 0 → eid ≠ 255 →
      exec (.setEndpointId eid true) s = .next { s with sys := { s.sys with eidI3c := eid } } ∧
      exec (.setEndpointId eid false) s = .next { s with sys := { s.sys with eidPcie := eid } }) ∧
    (∀ a d : BitVec 7,
      (a.toNat = 0x30 + s.sys.slotId.toNat → exec (.setdasa a d) s = .next { s with sys := { s.sys with i3cAddr := some d } }) ∧
      (a.toNat ≠ 0x30 + s.sys.slotId.toNat → exec (.setdasa a d) s = .next s))

/-! ## Numbers and memories -/

/-- Every code of a floating-point format but a NaN is the code of its own value, under every rounding: encoding what a code
decodes to gives the code back, and nothing saturates. -/
def Obligations.FloatCodesAreTheirValues : Prop :=
  ∀ (k c : Nat) (r : Rnd),
    let f := floatFmt k
    c < 2 ^ f.width → f.decode c ≠ .nan → f.encode r (f.decode c) = (c, false)

/-- Bytes written to a memory are read back from where they were written, every other byte reads as before, and the memory
keeps its one form: addresses rising, no entry that reads as an unlisted byte. A little-endian field reads as the number it
was written from. -/
def Obligations.BytesReadBack : Prop :=
  ∀ (bs : List Byte) (a : Nat) (m : Mem), Mem.wf m = true →
    Mem.wf (Mem.writeBytes a bs m) = true ∧
    Mem.readBytes (Mem.writeBytes a bs m) a bs.length = bs ∧
    (∀ k, k < a ∨ a + bs.length ≤ k → Mem.read (Mem.writeBytes a bs m) k = Mem.read m k) ∧
    (∀ n v, leNat (leBytes n v) = v % 256 ^ n) ∧
    (∀ n v k, k < a ∨ a + n ≤ k → Mem.read (Mem.zeroRange a n (Mem.write k v m)) k = v)
end

