-- ==== Sys2Proof/Laws/Table.lean ====
section
/-! SUPPORT. What the table and memory operations do: a read after a write, and that every operation keeps the canonical
form. -/

namespace Sys2Proof.Machine

variable {α β : Type}

/-! ## Keys -/

/-- The keys of a table. -/
def Tbl.keys (t : Tbl α) : List Nat := t.map Prod.fst

@[simp] theorem Tbl.keys_mapVals (f : Nat → α → β) (t : Tbl α) : Tbl.keys (Tbl.mapVals f t) = Tbl.keys t := by
  induction t with
  | nil => rfl
  | cons e t ih => simpa [Tbl.keys, Tbl.mapVals] using ih

@[simp] theorem Tbl.keys_modify (k : Nat) (f : α → α) (t : Tbl α) : Tbl.keys (Tbl.modify k f t) = Tbl.keys t := by
  induction t with
  | nil => rfl
  | cons e t ih =>
    simp only [Tbl.modify]
    split <;> simpa [Tbl.keys] using ih

theorem Tbl.keys_keep_sublist (f : Nat → α → Bool) (t : Tbl α) : (Tbl.keys (Tbl.keep f t)).Sublist (Tbl.keys t) := by
  induction t with
  | nil => exact List.Sublist.refl _
  | cons e t ih =>
    simp only [Tbl.keep]
    split
    · exact ih.cons_cons e.1
    · exact ih.cons e.1

theorem Tbl.keys_erase_sublist (k : Nat) (t : Tbl α) : (Tbl.keys (Tbl.erase k t)).Sublist (Tbl.keys t) := by
  induction t with
  | nil => exact List.Sublist.refl _
  | cons e t ih =>
    simp only [Tbl.erase]
    split
    · exact ih.cons e.1
    · exact ih.cons_cons e.1

theorem Tbl.keys_modify_sublist (k : Nat) (f : α → α) (t : Tbl α) :
    (Tbl.keys (Tbl.modify k f t)).Sublist (Tbl.keys t) := by exact (Tbl.keys_modify k f t) ▸ List.Sublist.refl _

theorem Tbl.keys_mapVals_sublist (f : Nat → α → β) (t : Tbl α) :
    (Tbl.keys (Tbl.mapVals f t)).Sublist (Tbl.keys t) := by exact (Tbl.keys_mapVals f t) ▸ List.Sublist.refl _

theorem Tbl.mem_keys_set {k j : Nat} {v : α} {t : Tbl α} (h : j ∈ Tbl.keys (Tbl.set k v t)) : j = k ∨ j ∈ Tbl.keys t := by
  induction t with
  | nil => left; simpa [Tbl.keys, Tbl.set] using h
  | cons e t ih =>
    simp only [Tbl.set] at h
    split at h
    · simpa [Tbl.keys] using h
    · split at h
      · rename_i hk
        rcases List.mem_cons.mp h with h | h
        · exact Or.inl h
        · exact Or.inr (List.mem_cons_of_mem _ h)
      · rcases List.mem_cons.mp h with h | h
        · exact Or.inr (by rw [h]; exact List.mem_cons_self ..)
        · rcases ih h with h | h
          · exact Or.inl h
          · exact Or.inr (List.mem_cons_of_mem _ h)

theorem Tbl.length_set_le (k : Nat) (v : α) (t : Tbl α) : (Tbl.set k v t).length ≤ t.length + 1 := by
  induction t with
  | nil => simp [Tbl.set]
  | cons e t ih =>
    simp only [Tbl.set]
    split
    · simp
    · split <;> simp <;> omega

/-! ## The canonical form: keys strictly rising -/

theorem Tbl.risingFrom_iff (lo : Nat) (t : Tbl α) :
    Tbl.risingFrom lo t = true ↔ (Tbl.keys t).Pairwise (· < ·) ∧ ∀ k ∈ Tbl.keys t, lo ≤ k := by
  induction t generalizing lo with
  | nil => simp [Tbl.risingFrom, Tbl.keys]
  | cons e t ih =>
    obtain ⟨k, v⟩ := e
    rw [Tbl.risingFrom, Bool.and_eq_true, ih, decide_eq_true_iff]
    simp only [Tbl.keys, List.map_cons, List.pairwise_cons, List.mem_cons, forall_eq_or_imp]
    constructor
    · rintro ⟨h1, h2, h3⟩
      exact ⟨⟨fun a ha => by have := h3 a ha; omega, h2⟩, h1, fun a ha => by have := h3 a ha; omega⟩
    · rintro ⟨⟨h1, h2⟩, h3, _⟩
      exact ⟨h3, h2, fun a ha => by have := h1 a ha; omega⟩

theorem Tbl.wf_iff (t : Tbl α) : Tbl.wf t = true ↔ (Tbl.keys t).Pairwise (· < ·) := by
  simp [Tbl.wf, Tbl.risingFrom_iff]

theorem Tbl.wf_mapVals {f : Nat → α → β} {t : Tbl α} (h : Tbl.wf t = true) : Tbl.wf (Tbl.mapVals f t) = true := by
  rw [Tbl.wf_iff] at *; simpa using h

theorem Tbl.wf_modify {k : Nat} {f : α → α} {t : Tbl α} (h : Tbl.wf t = true) : Tbl.wf (Tbl.modify k f t) = true := by
  rw [Tbl.wf_iff] at *; simpa using h

theorem Tbl.wf_keep {f : Nat → α → Bool} {t : Tbl α} (h : Tbl.wf t = true) : Tbl.wf (Tbl.keep f t) = true := by
  rw [Tbl.wf_iff] at *; exact h.sublist (Tbl.keys_keep_sublist f t)

theorem Tbl.wf_erase {k : Nat} {t : Tbl α} (h : Tbl.wf t = true) : Tbl.wf (Tbl.erase k t) = true := by
  rw [Tbl.wf_iff] at *; exact h.sublist (Tbl.keys_erase_sublist k t)

theorem Tbl.wf_set {k : Nat} {v : α} {t : Tbl α} (h : Tbl.wf t = true) : Tbl.wf (Tbl.set k v t) = true := by
  rw [Tbl.wf_iff] at *
  induction t with
  | nil => simp [Tbl.keys, Tbl.set]
  | cons e t ih =>
    obtain ⟨k', v'⟩ := e
    have h' := List.pairwise_cons.mp h
    simp only [Tbl.set]
    split
    · rename_i hk
      exact List.pairwise_cons.mpr ⟨fun a ha => by
        rcases List.mem_cons.mp ha with ha | ha
        · omega
        · have := h'.1 a ha; omega, h⟩
    · split
      · rename_i hk
        exact List.pairwise_cons.mpr ⟨fun a ha => by have := h'.1 a ha; omega, h'.2⟩
      · exact List.pairwise_cons.mpr ⟨fun a ha => by
          rcases Tbl.mem_keys_set ha with ha | ha
          · omega
          · exact h'.1 a ha, ih h'.2⟩

/-! ## A read after a write -/

theorem Tbl.get?_of_not_mem {k : Nat} {t : Tbl α} (h : k ∉ Tbl.keys t) : Tbl.get? t k = none := by
  induction t with
  | nil => rfl
  | cons e t ih =>
    simp only [Tbl.keys, List.map_cons, List.mem_cons, not_or] at h
    simp only [Tbl.get?, if_neg h.1]
    exact ih h.2

theorem Tbl.get?_set (k j : Nat) (v : α) (t : Tbl α) :
    Tbl.get? (Tbl.set k v t) j = if j = k then some v else Tbl.get? t j := by
  induction t with
  | nil => by_cases hj : j = k <;> simp [Tbl.set, Tbl.get?, hj]
  | cons e t ih =>
    obtain ⟨k', v'⟩ := e
    simp only [Tbl.set]
    split
    · by_cases hj : j = k <;> simp [Tbl.get?, hj]
    · split
      · rename_i hk
        subst hk
        by_cases hj : j = k <;> simp [Tbl.get?, hj]
      · rename_i hk
        simp only [Tbl.get?, ih]
        by_cases hj : j = k' <;> by_cases hk' : j = k <;> simp_all

theorem Tbl.get?_erase (k j : Nat) (t : Tbl α) :
    Tbl.get? (Tbl.erase k t) j = if j = k then none else Tbl.get? t j := by
  induction t with
  | nil => simp [Tbl.erase, Tbl.get?]
  | cons e t ih =>
    obtain ⟨k', v'⟩ := e
    simp only [Tbl.erase]
    by_cases hj : j = k <;> by_cases hk : k = k' <;> simp_all [Tbl.get?]

theorem Tbl.get?_modify (k j : Nat) (f : α → α) (t : Tbl α) :
    Tbl.get? (Tbl.modify k f t) j = if j = k then (Tbl.get? t j).map f else Tbl.get? t j := by
  induction t with
  | nil => simp [Tbl.modify, Tbl.get?]
  | cons e t ih =>
    obtain ⟨k', v'⟩ := e
    simp only [Tbl.modify]
    by_cases hj : j = k <;> by_cases hk : k = k' <;> simp_all [Tbl.get?]

theorem Tbl.getD_set (k j : Nat) (v d : α) (t : Tbl α) :
    Tbl.getD (Tbl.set k v t) j d = if j = k then v else Tbl.getD t j d := by
  simp only [Tbl.getD, Tbl.get?_set k j v t]; split <;> rfl

theorem Tbl.getD_put [DecidableEq α] (k j : Nat) (v d : α) (t : Tbl α) :
    Tbl.getD (Tbl.put d k v t) j d = if j = k then v else Tbl.getD t j d := by
  simp only [Tbl.put]
  split
  · rename_i hv
    subst hv
    simp only [Tbl.getD, Tbl.get?_erase]
    split <;> rfl
  · exact Tbl.getD_set k j v d t

/-! ## Banks and memories -/

theorem Tbl.mem_set {k : Nat} {v : α} {t : Tbl α} {e : Nat × α} (h : e ∈ Tbl.set k v t) : e = (k, v) ∨ e ∈ t := by
  induction t with
  | nil => left; simpa [Tbl.set] using h
  | cons x t ih =>
    simp only [Tbl.set] at h
    split at h
    · simpa using h
    · split at h
      · rcases List.mem_cons.mp h with h | h
        · exact Or.inl h
        · exact Or.inr (List.mem_cons_of_mem _ h)
      · rcases List.mem_cons.mp h with h | h
        · exact Or.inr (by rw [h]; exact List.mem_cons_self ..)
        · rcases ih h with h | h
          · exact Or.inl h
          · exact Or.inr (List.mem_cons_of_mem _ h)

theorem Tbl.erase_sublist (k : Nat) (t : Tbl α) : (Tbl.erase k t).Sublist t := by
  induction t with
  | nil => exact List.Sublist.refl _
  | cons e t ih =>
    simp only [Tbl.erase]
    split
    · exact ih.cons _
    · exact ih.cons_cons _

theorem Tbl.keep_sublist (f : Nat → α → Bool) (t : Tbl α) : (Tbl.keep f t).Sublist t := by
  induction t with
  | nil => exact List.Sublist.refl _
  | cons e t ih =>
    simp only [Tbl.keep]
    split
    · exact ih.cons_cons _
    · exact ih.cons _

/-- Writing a bank keeps its canonical form. -/
theorem Tbl.bankWf_put [DecidableEq α] {d : α} {k : Nat} {v : α} {t : Tbl α} (h : Tbl.bankWf d t = true) :
    Tbl.bankWf d (Tbl.put d k v t) = true := by
  simp only [Tbl.bankWf, Bool.and_eq_true, List.all_eq_true, decide_eq_true_eq] at *
  simp only [Tbl.put]
  split
  · exact ⟨Tbl.wf_erase h.1, fun e he => h.2 e ((Tbl.erase_sublist k t).mem he)⟩
  · rename_i hv
    refine ⟨Tbl.wf_set h.1, fun e he => ?_⟩
    rcases Tbl.mem_set he with he | he
    · rw [he]; exact hv
    · exact h.2 e he

/-- Writing a byte keeps a memory's canonical form. -/
theorem Mem.wf_write {a : Nat} {v : Byte} {m : Mem} (h : Mem.wf m = true) : Mem.wf (Mem.write a v m) = true :=
  Tbl.bankWf_put h

/-- Writing a run of bytes keeps a memory's canonical form. -/
theorem Mem.wf_writeBytes {bs : List Byte} : ∀ {a : Nat} {m : Mem}, Mem.wf m = true → Mem.wf (Mem.writeBytes a bs m) = true := by
  induction bs with
  | nil => intro a m h; exact h
  | cons b bs ih => intro a m h; exact ih (Mem.wf_write h)

/-- Zeroing a range keeps a memory's canonical form. -/
theorem Mem.wf_zeroRange {a n : Nat} {m : Mem} (h : Mem.wf m = true) : Mem.wf (Mem.zeroRange a n m) = true := by
  simp only [Mem.wf, Tbl.bankWf, Mem.zeroRange, Bool.and_eq_true, List.all_eq_true] at *
  exact ⟨Tbl.wf_keep h.1, fun e he => h.2 e ((Tbl.keep_sublist _ m).mem he)⟩

/-- A byte reads as written, and every other byte as before. -/
theorem Mem.read_write (a b : Nat) (v : Byte) (m : Mem) :
    Mem.read (Mem.write a v m) b = if b = a then v else Mem.read m b :=
  Tbl.getD_put a b v 0 m

theorem Mem.length_readBytes (m : Mem) (a n : Nat) : (Mem.readBytes m a n).length = n := by
  induction n generalizing a with
  | zero => rfl
  | succ n ih => simp [Mem.readBytes, ih]

theorem length_leBytes (n v : Nat) : (leBytes n v).length = n := by
  induction n generalizing v with
  | zero => rfl
  | succ n ih => simp [leBytes, ih]

end Sys2Proof.Machine
end

