-- ==== Sys2Proof/Laws/Commands.lean ====
section
/-! SUPPORT. A command that is taken up at once: what its row does, and what the table then holds (R315 to R317). -/

namespace Sys2Proof.Machine

theorem enterTable_live (op : Nat) (c : Capsule) (s : State) :
    (enterTable op c .ordered s).live? s.nextCmd = some { Capsule.entry op c s with phase := .ordered } := by
  unfold enterTable State.live?
  simp only
  split
  · split <;> simp only [State.modSlot, State.modQueue, Tbl.get?_set, if_pos] <;> rfl
  · simp only [Tbl.get?_set, if_pos]; rfl

/-- The entry of a command that has just been taken up. -/
theorem entered_live (op : Nat) (c : Capsule) (s : State) :
    (s.entered op c).live? s.nextCmd = some (Capsule.entry op c s) := by
  have h := enterTable_live op c s
  unfold State.live? at h
  simp only [State.entered, State.live?, State.modLive, Tbl.get?_modify, if_pos, h, Option.map]
  rfl

/-- A command taken up at once acts on the state that holds it. -/
theorem command_accepted {op : Nat} {c : Capsule} {s : State} (start : Nat → State → State) (h : accepted op c s = true) :
    command op c (checkOf op c) start s = start s.nextCmd (s.entered op c) := by
  unfold accepted at h
  simp only [Bool.and_eq_true, decide_eq_true_eq] at h
  have hd : dropped op c s = false := by simpa using h.1.1
  have hw : mustWait s.nextCmd { Capsule.entry op c s with phase := .ordered } (enterTable op c .ordered s) = false := by
    simpa using h.2
  unfold command
  simp only [hd, h.1.2, enterTable_live, hw]
  rfl

theorem deliver_accepted {op : Nat} {c : Capsule} {s : State} (h : accepted op c s = true) :
    deliver op c s = startOf op s.nextCmd (s.entered op c) := command_accepted _ h

end Sys2Proof.Machine
end

