-- ==== Sys2Proof/Laws/Keeps.lean ====
section
/-! SUPPORT. What every change of state keeps: the queue, the order of the log and of the command table, the direction of
module time, the count of cast-ons, the stepping, the slot straps, and the set bits of the identity row. -/

namespace Sys2Proof.Machine

/-- What every change of state but auxiliary power-up keeps. -/
structure Keeps (s t : State) : Prop where
  /-- The queue stands. -/
  queue : t.pending = s.pending
  /-- A log in order stays in order. -/
  log : s.log.Ok → t.log.Ok
  /-- A command table in order stays in order. -/
  cmds : s.CmdsOk → t.CmdsOk
  /-- Module time does not run back. -/
  time : s.sys.time ≤ t.sys.time
  /-- Cast-ons are counted up. -/
  casts : s.sys.castOns ≤ t.sys.castOns
  /-- The stepping and the slot straps stand. -/
  straps : t.sys.stepping = s.sys.stepping ∧ t.sys.slotId = s.sys.slotId
  /-- Bits of the identity row are only set. -/
  otp : OtpSets s.sec.otp t.sec.otp

theorem OtpSets.refl (a : List Mem) : OtpSets a a := ⟨rfl, fun _ _ _ h => h⟩

theorem OtpSets.trans {a b c : List Mem} (h : OtpSets a b) (g : OtpSets b c) : OtpSets a c :=
  ⟨g.1.trans h.1, fun n k i x => g.2 n k i (h.2 n k i x)⟩

theorem Keeps.refl (s : State) : Keeps s s :=
  ⟨rfl, id, id, Nat.le_refl _, Nat.le_refl _, ⟨rfl, rfl⟩, OtpSets.refl _⟩

variable {s0 s t : State}

theorem Keeps.trans (h : Keeps s0 s) (g : Keeps s t) : Keeps s0 t :=
  ⟨g.queue.trans h.queue, g.log ∘ h.log, g.cmds ∘ h.cmds, Nat.le_trans h.time g.time, Nat.le_trans h.casts g.casts,
    ⟨g.straps.1.trans h.straps.1, g.straps.2.trans h.straps.2⟩, h.otp.trans g.otp⟩

/-- A change that leaves the fields which `Keeps` is about as they are. -/
theorem Keeps.frame (h : Keeps s0 s) (e1 : t.pending = s.pending) (e2 : t.log = s.log) (e3 : t.cmds = s.cmds)
    (e4 : t.nextCmd = s.nextCmd) (e5 : t.sys.time = s.sys.time) (e6 : t.sys.castOns = s.sys.castOns)
    (e7 : t.sys.stepping = s.sys.stepping) (e8 : t.sys.slotId = s.sys.slotId) (e9 : t.sec.otp = s.sec.otp) : Keeps s0 t :=
  h.trans ⟨e1, fun x => e2 ▸ x, fun x => by unfold State.CmdsOk at *; rw [e3, e4]; exact x, Nat.le_of_eq e5.symm,
    Nat.le_of_eq e6.symm, ⟨e7, e8⟩, e9 ▸ OtpSets.refl _⟩

/-- A change of the command table alone that adds no key. -/
theorem Keeps.table (h : Keeps s0 s) (e1 : t.pending = s.pending) (e2 : t.log = s.log)
    (e3 : (Tbl.keys t.cmds).Sublist (Tbl.keys s.cmds)) (e4 : t.nextCmd = s.nextCmd) (e5 : t.sys.time = s.sys.time)
    (e6 : t.sys.castOns = s.sys.castOns) (e7 : t.sys.stepping = s.sys.stepping) (e8 : t.sys.slotId = s.sys.slotId)
    (e9 : t.sec.otp = s.sec.otp) : Keeps s0 t :=
  h.trans ⟨e1, fun x => e2 ▸ x, fun x => by
    refine ⟨(Tbl.wf_iff _).mpr (((Tbl.wf_iff _).mp x.1).sublist e3), fun e he => ?_, ?_⟩
    · have : e.1 ∈ Tbl.keys s.cmds := e3.mem (List.mem_map.mpr ⟨e, he, rfl⟩)
      obtain ⟨y, hy, hk⟩ := List.mem_map.mp this
      rw [e4, ← hk]; exact x.2.1 y hy
    · have := e3.length_le; simp only [Tbl.keys, List.length_map] at this
      exact Nat.le_trans this x.2.2, Nat.le_of_eq e5.symm,
    Nat.le_of_eq e6.symm, ⟨e7, e8⟩, e9 ▸ OtpSets.refl _⟩

theorem Keeps.erase {n : Nat} (h : Keeps s0 s) (e1 : t.pending = s.pending) (e2 : t.log = s.log)
    (e3 : t.cmds = Tbl.erase n s.cmds) (e4 : t.nextCmd = s.nextCmd) (e5 : t.sys.time = s.sys.time)
    (e6 : t.sys.castOns = s.sys.castOns) (e7 : t.sys.stepping = s.sys.stepping) (e8 : t.sys.slotId = s.sys.slotId)
    (e9 : t.sec.otp = s.sec.otp) : Keeps s0 t :=
  h.table e1 e2 (by rw [e3]; exact Tbl.keys_erase_sublist _ _) e4 e5 e6 e7 e8 e9

theorem Keeps.keep {f : Nat → Live → Bool} (h : Keeps s0 s) (e1 : t.pending = s.pending) (e2 : t.log = s.log)
    (e3 : t.cmds = Tbl.keep f s.cmds) (e4 : t.nextCmd = s.nextCmd) (e5 : t.sys.time = s.sys.time)
    (e6 : t.sys.castOns = s.sys.castOns) (e7 : t.sys.stepping = s.sys.stepping) (e8 : t.sys.slotId = s.sys.slotId)
    (e9 : t.sec.otp = s.sec.otp) : Keeps s0 t :=
  h.table e1 e2 (by rw [e3]; exact Tbl.keys_keep_sublist _ _) e4 e5 e6 e7 e8 e9

theorem Keeps.modify {n : Nat} {f : Live → Live} (h : Keeps s0 s) (e1 : t.pending = s.pending) (e2 : t.log = s.log)
    (e3 : t.cmds = Tbl.modify n f s.cmds) (e4 : t.nextCmd = s.nextCmd) (e5 : t.sys.time = s.sys.time)
    (e6 : t.sys.castOns = s.sys.castOns) (e7 : t.sys.stepping = s.sys.stepping) (e8 : t.sys.slotId = s.sys.slotId)
    (e9 : t.sec.otp = s.sec.otp) : Keeps s0 t :=
  h.table e1 e2 (by rw [e3]; exact Tbl.keys_modify_sublist _ _ _) e4 e5 e6 e7 e8 e9

theorem Keeps.mapVals {f : Nat → Live → Live} (h : Keeps s0 s) (e1 : t.pending = s.pending) (e2 : t.log = s.log)
    (e3 : t.cmds = Tbl.mapVals f s.cmds) (e4 : t.nextCmd = s.nextCmd) (e5 : t.sys.time = s.sys.time)
    (e6 : t.sys.castOns = s.sys.castOns) (e7 : t.sys.stepping = s.sys.stepping) (e8 : t.sys.slotId = s.sys.slotId)
    (e9 : t.sec.otp = s.sec.otp) : Keeps s0 t :=
  h.table e1 e2 (by rw [e3]; exact Tbl.keys_mapVals_sublist _ _) e4 e5 e6 e7 e8 e9

theorem keeps_ite {c : Prop} [Decidable c] {a b : State} (ha : Keeps s0 a) (hb : Keeps s0 b) :
    Keeps s0 (if c then a else b) := by split <;> assumption

theorem keeps_itef {c : Prop} [Decidable c] {f g : State → State} (ha : Keeps s0 (f s)) (hb : Keeps s0 (g s)) :
    Keeps s0 ((if c then f else g) s) := by split <;> assumption

theorem keeps_fst {β : Type} {a : State} {b : β} (h : Keeps s0 a) : Keeps s0 (a, b).1 := h

theorem keeps_fst_of {β : Type} {x y : State × β} (h : Keeps s0 x.1) (e : y = x) : Keeps s0 y.1 := e ▸ h

theorem keeps_ite1 {β : Type} {c : Prop} [Decidable c] {a b : State × β} (ha : Keeps s0 a.1) (hb : Keeps s0 b.1) :
    Keeps s0 (if c then a else b).1 := by split <;> assumption

/-- A fold keeps what each of its steps keeps. -/
theorem foldOver_keeps {α : Type} {xs : List α} {f : α → State → State} (hf : ∀ a s, Keeps s0 s → Keeps s0 (f a s))
    (h : Keeps s0 s) : Keeps s0 (foldOver xs f s) := by
  unfold foldOver
  induction xs generalizing s with
  | nil => exact h
  | cons x xs ih => exact ih (hf x s h)

theorem foldl_keeps {α : Type} {xs : List α} {f : State → α → State} (hf : ∀ a s, Keeps s0 s → Keeps s0 (f s a))
    (h : Keeps s0 s) : Keeps s0 (xs.foldl f s) := by
  induction xs generalizing s with
  | nil => exact h
  | cons x xs ih => exact ih (hf x s h)

theorem foldlp_keeps {α β : Type} {xs : List α} {f : State × β → α → State × β} {a : State × β}
    (hf : ∀ a x, Keeps s0 a.1 → Keeps s0 (f a x).1) (h : Keeps s0 a.1) : Keeps s0 (xs.foldl f a).1 := by
  induction xs generalizing a with
  | nil => exact h
  | cons x xs ih => exact ih (hf a x h)

theorem LogRing.Ok.add {g : LogRing} {e : LogEntry} (h : g.Ok) (he : e.seq = g.next) : (LogRing.add e g).Ok := by
  obtain ⟨h1, h2, h3, h4, h5⟩ := h
  unfold LogRing.add LogRing.Ok
  simp only [logCapacity]
  by_cases hf : 131072 ≤ g.entries.length
  · simp only [hf, decide_true, if_true, List.length_append, List.length_drop, List.length_singleton, List.map_append,
      List.map_drop, List.map_cons, List.map_nil, he, h3]
    refine ⟨by omega, by omega, ?_, ?_, h5⟩
    · rw [show g.entries.length = (g.entries.length - 1) + 1 by omega, List.range'_succ]
      simp only [List.drop_succ_cons, List.drop_zero, Nat.add_sub_cancel]
      rw [List.range'_concat, show g.first + 1 + 1 * (g.entries.length - 1) = g.next by omega]
    · split
      · simp_all <;> omega
      · exact h4
  · simp only [hf, decide_false, List.length_append, List.length_singleton, List.map_append, List.map_cons, List.map_nil,
      he, h3, Bool.false_eq_true, if_false]
    refine ⟨by omega, by omega, ?_, ?_, h5⟩
    · rw [List.range'_concat, show g.first + 1 * g.entries.length = g.next by omega]
    · split
      · simp_all <;> omega
      · exact h4

end Sys2Proof.Machine
end

