-- ==== Sys2Proof/Laws/KeepsOps.lean ====
section
/-! SUPPORT. What every change of state keeps (`Keeps`), for the shared operations, the command protocol, error checks, streams and arrays. -/

namespace Sys2Proof.Machine

variable {s0 s : State}

theorem State.setDie_keeps {a1 a2 a3} (h3 : Keeps s0 a3) :
    Keeps s0 (State.setDie a1 a2 a3) := by
  unfold State.setDie
  exact Keeps.frame h3 rfl rfl rfl rfl rfl rfl rfl rfl rfl

theorem State.modDie_keeps {a1 a2 a3} (h3 : Keeps s0 a3) :
    Keeps s0 (State.modDie a1 a2 a3) := by
  unfold State.modDie
  exact State.setDie_keeps h3

theorem State.setLink_keeps {a1 a2 a3} (h3 : Keeps s0 a3) :
    Keeps s0 (State.setLink a1 a2 a3) := by
  unfold State.setLink
  exact Keeps.frame h3 rfl rfl rfl rfl rfl rfl rfl rfl rfl

theorem State.modLink_keeps {a1 a2 a3} (h3 : Keeps s0 a3) :
    Keeps s0 (State.modLink a1 a2 a3) := by
  unfold State.modLink
  exact State.setLink_keeps h3

theorem State.modPart_keeps {a1 a2 a3} (h3 : Keeps s0 a3) :
    Keeps s0 (State.modPart a1 a2 a3) := by
  unfold State.modPart
  exact Keeps.frame h3 rfl rfl rfl rfl rfl rfl rfl rfl rfl

theorem State.modCtx_keeps {a1 a2 a3} (h3 : Keeps s0 a3) :
    Keeps s0 (State.modCtx a1 a2 a3) := by
  unfold State.modCtx
  exact Keeps.frame h3 rfl rfl rfl rfl rfl rfl rfl rfl rfl

theorem State.count_keeps {a1 a2 a3} (h3 : Keeps s0 a3) :
    Keeps s0 (State.count a1 a2 a3) := by
  unfold State.count
  exact State.modCtx_keeps h3

theorem State.modQueue_keeps {a1 a2 a3} (h3 : Keeps s0 a3) :
    Keeps s0 (State.modQueue a1 a2 a3) := by
  unfold State.modQueue
  exact Keeps.frame h3 rfl rfl rfl rfl rfl rfl rfl rfl rfl

theorem State.modSlot_keeps {a1 a2 a3} (h3 : Keeps s0 a3) :
    Keeps s0 (State.modSlot a1 a2 a3) := by
  unfold State.modSlot
  exact Keeps.frame h3 rfl rfl rfl rfl rfl rfl rfl rfl rfl

theorem State.modMailbox_keeps {a1 a2 a3} (h3 : Keeps s0 a3) :
    Keeps s0 (State.modMailbox a1 a2 a3) := by
  unfold State.modMailbox
  exact Keeps.frame h3 rfl rfl rfl rfl rfl rfl rfl rfl rfl

theorem State.modStore_keeps {a1 a2 a3} (h3 : Keeps s0 a3) :
    Keeps s0 (State.modStore a1 a2 a3) := by
  unfold State.modStore
  exact Keeps.frame h3 rfl rfl rfl rfl rfl rfl rfl rfl rfl

theorem State.modLive_keeps {a1 a2 a3} (h3 : Keeps s0 a3) :
    Keeps s0 (State.modLive a1 a2 a3) := by
  unfold State.modLive
  exact Keeps.modify h3 rfl rfl rfl rfl rfl rfl rfl rfl rfl

theorem State.modGroup_keeps {a1 a2 a3} (h3 : Keeps s0 a3) :
    Keeps s0 (State.modGroup a1 a2 a3) := by
  unfold State.modGroup
  exact Keeps.frame h3 rfl rfl rfl rfl rfl rfl rfl rfl rfl

theorem State.tick_keeps {a1 a2} (h2 : Keeps s0 a2) : Keeps s0 (State.tick a1 a2) := by
  unfold State.tick
  split
  · exact h2.trans ⟨rfl, id, id, Nat.le_max_left _ _, Nat.le_refl _, ⟨rfl, rfl⟩, OtpSets.refl _⟩
  · exact h2

theorem signalVector_keeps {a1 a2} (h2 : Keeps s0 a2) :
    Keeps s0 (signalVector a1 a2) := by
  unfold signalVector
  extract_lets +onlyGivenNames -merge -underBinder x1
  exact keeps_ite (Keeps.frame h2 rfl rfl rfl rfl rfl rfl rfl rfl rfl) (Keeps.frame h2 rfl rfl rfl rfl rfl rfl rfl
      rfl rfl)

theorem setFlag_keeps {a1 a2} (h2 : Keeps s0 a2) :
    Keeps s0 (setFlag a1 a2) := by
  unfold setFlag
  extract_lets +onlyGivenNames -merge -underBinder x2 _ x3
  have h4 : Keeps s0 x3 := Keeps.frame h2 rfl rfl rfl rfl rfl rfl rfl rfl rfl
  exact keeps_ite (signalVector_keeps h4) h4

theorem platformEvent_keeps {a1 a2} (h2 : Keeps s0 a2) :
    Keeps s0 (platformEvent a1 a2) := by
  unfold platformEvent
  exact Keeps.frame h2 rfl rfl rfl rfl rfl rfl rfl rfl rfl

theorem logRing_keeps {g : LogRing} (h : Keeps s0 s) (hg : s.log.Ok → g.Ok) : Keeps s0 { s with log := g } :=
  h.trans ⟨rfl, hg, id, Nat.le_refl _, Nat.le_refl _, ⟨rfl, rfl⟩, OtpSets.refl _⟩

theorem addLog_keeps {a1 a2 a3 a4 a5 a6} (h6 : Keeps s0 a6) :
    Keeps s0 (addLog a1 a2 a3 a4 a5 a6) := by
  unfold addLog
  extract_lets +onlyGivenNames -merge g e lost since hit _ s1 s2 s3
  have h1 : Keeps s0 s1 := logRing_keeps h6 fun h => (LogRing.Ok.add h (e := e) rfl)
  have h2 : Keeps s0 s2 := keeps_ite (setFlag_keeps h1) h1
  have h3 : Keeps s0 s3 := keeps_ite (setFlag_keeps h2) h2
  exact keeps_ite (platformEvent_keeps h3) h3

theorem logUnit_keeps {a1 a2 a3 a4} (h4 : Keeps s0 a4) :
    Keeps s0 (logUnit a1 a2 a3 a4) := by
  unfold logUnit
  exact addLog_keeps h4

theorem logHw_keeps {a1 a2 a3} (h3 : Keeps s0 a3) :
    Keeps s0 (logHw a1 a2 a3) := by
  unfold logHw
  exact addLog_keeps h3

theorem setStatus_keeps {a1 a2 a3} (h3 : Keeps s0 a3) :
    Keeps s0 (setStatus a1 a2 a3) := by
  unfold setStatus
  refine keeps_ite ?_ ?_
  · exact h3
  · extract_lets +onlyGivenNames -merge -underBinder x16
    exact platformEvent_keeps (setFlag_keeps (Keeps.frame h3 rfl rfl rfl rfl rfl rfl rfl rfl rfl))

theorem degrade_keeps {a1 a2} (h2 : Keeps s0 a2) :
    Keeps s0 (degrade a1 a2) := by
  unfold degrade
  extract_lets +onlyGivenNames -merge -underBinder x17
  exact setStatus_keeps (Keeps.frame h2 rfl rfl rfl rfl rfl rfl rfl rfl rfl)

theorem undegrade_keeps {a1 a2} (h2 : Keeps s0 a2) :
    Keeps s0 (undegrade a1 a2) := by
  unfold undegrade
  extract_lets +onlyGivenNames -merge -underBinder x18
  exact setStatus_keeps (Keeps.frame h2 rfl rfl rfl rfl rfl rfl rfl rfl rfl)

theorem refreshFenced_keeps {a1} (h1 : Keeps s0 a1) :
    Keeps s0 (refreshFenced a1) := by
  unfold refreshFenced
  exact setStatus_keeps h1

theorem advanceGen_keeps {a1 a2} (h2 : Keeps s0 a2) :
    Keeps s0 (advanceGen a1 a2) := by
  unfold advanceGen
  extract_lets +onlyGivenNames -merge -underBinder x20
  exact Keeps.frame h2 rfl rfl rfl rfl rfl rfl rfl rfl rfl

theorem armReset_keeps {a1 a2 a3 a4} (h4 : Keeps s0 a4) :
    Keeps s0 (armReset a1 a2 a3 a4) := by
  unfold armReset
  extract_lets +onlyGivenNames -merge -underBinder x21
  exact Keeps.frame h4 rfl rfl rfl rfl rfl rfl rfl rfl rfl

theorem resetMover_keeps {a1 a2 a3} (h3 : Keeps s0 a3) :
    Keeps s0 (resetMover a1 a2 a3) := by
  unfold resetMover
  extract_lets +onlyGivenNames -merge -underBinder x22
  refine keeps_ite ?_ ?_
  · exact h3
  · extract_lets +onlyGivenNames -merge -underBinder x23
    have h24 : Keeps s0 x23 := advanceGen_keeps (armReset_keeps h3)
    exact Keeps.frame h24 rfl rfl rfl rfl rfl rfl rfl rfl rfl

theorem queueUnit_keeps {a1 a2 a3} (h3 : Keeps s0 a3) :
    Keeps s0 (queueUnit a1 a2 a3) := by
  unfold queueUnit
  exact State.modLink_keeps h3

theorem sendUnit_keeps {a1 a2} (h2 : Keeps s0 a2) :
    Keeps s0 (sendUnit a1 a2) := by
  unfold sendUnit
  split
  · exact queueUnit_keeps h2
  · exact h2

theorem eraseCmd_keeps {n : Nat} (h : Keeps s0 s) : Keeps s0 { s with cmds := Tbl.erase n s.cmds } :=
  h.erase rfl rfl rfl rfl rfl rfl rfl rfl rfl

theorem answer_keeps {a1 a2 a3 a4 a5 a6 a7} (h7 : Keeps s0 a7) : Keeps s0 (answer a1 a2 a3 a4 a5 a6 a7) := by
  unfold answer
  generalize a2.origin = o
  have out (a : MctpAnswer) : Keeps s0 (let s1 : State := { a7 with host := { a7.host with mctpOut := a7.host.mctpOut ++ [a] } }
      match a3 with
      | some n => { s1 with cmds := Tbl.erase n s1.cmds }
      | none => s1) := by
    extract_lets +onlyGivenNames -merge _ s1
    have h1 : Keeps s0 s1 := h7.frame rfl rfl rfl rfl rfl rfl rfl rfl rfl
    split
    · exact eraseCmd_keeps h1
    · exact h1
  cases o
  · exact State.modQueue_keeps h7
  · exact out _
  · dsimp only
    split
    · split
      · exact eraseCmd_keeps h7
      · exact h7
    · exact foldOver_keeps (fun _ _ h => queueUnit_keeps h) h7
  · exact out _
  · dsimp only
    split
    · exact eraseCmd_keeps h7
    · exact h7
  · exact out _

theorem refuse_keeps {a1 a2 a3 a4} (h4 : Keeps s0 a4) :
    Keeps s0 (refuse a1 a2 a3 a4) := by
  unfold refuse
  exact answer_keeps h4

/-- A command is entered while the table has room (R169). -/
theorem enterTable_keeps {a1 a2 a3 a4} (hr : a4.cmds.length < 65536) (h4 : Keeps s0 a4) :
    Keeps s0 (enterTable a1 a2 a3 a4) := by
  unfold enterTable
  extract_lets +onlyGivenNames -merge l s1
  have h1 : Keeps s0 s1 := h4.trans ⟨rfl, id, fun h => by
    refine ⟨Tbl.wf_set h.1, fun e he => ?_, ?_⟩
    · rcases Tbl.mem_set he with he | he
      · rw [he]; exact Nat.lt_succ_self _
      · exact Nat.lt_succ_of_lt (h.2.1 e he)
    · exact Nat.le_trans (Tbl.length_set_le _ _ _) hr, Nat.le_refl _, Nat.le_refl _, ⟨rfl, rfl⟩, OtpSets.refl _⟩
  split
  · extract_lets +onlyGivenNames -merge s2
    have h2 : Keeps s0 s2 := State.modQueue_keeps h1
    exact keeps_ite (State.modSlot_keeps h2) h2
  · exact h1

theorem releaseHolds_keeps {a1 a2} (h2 : Keeps s0 a2) :
    Keeps s0 (releaseHolds a1 a2) := by
  unfold releaseHolds
  extract_lets +onlyGivenNames -merge -underBinder _ x37
  have h38 : Keeps s0 x37 := keeps_ite (Keeps.frame h2 rfl rfl rfl rfl rfl rfl rfl rfl rfl) h2
  exact keeps_ite (Keeps.frame h38 rfl rfl rfl rfl rfl rfl rfl rfl rfl) h38

theorem finish_keeps {a1 a2 a3 a4 a5} (h5 : Keeps s0 a5) :
    Keeps s0 (finish a1 a2 a3 a4 a5) := by
  unfold finish
  split
  · exact h5
  · refine keeps_ite ?_ ?_
    · extract_lets +onlyGivenNames -merge -underBinder x39 x41 x43
      have h40 : Keeps s0 x39 := releaseHolds_keeps (State.modLive_keeps h5)
      have h42 : Keeps s0 x41 := Keeps.frame h40 rfl rfl rfl rfl rfl rfl rfl rfl rfl
      have h44 : Keeps s0 x43 := keeps_ite (State.count_keeps h42) h42
      refine keeps_ite ?_ ?_
      · split
        · extract_lets +onlyGivenNames -merge -underBinder x45 x47
          have h46 : Keeps s0 x45 := Keeps.erase h44 rfl rfl rfl rfl rfl rfl rfl rfl rfl
          have h48 : Keeps s0 x47 := State.modQueue_keeps h46
          exact keeps_ite (State.modSlot_keeps h48) h48
        · exact Keeps.erase h44 rfl rfl rfl rfl rfl rfl rfl rfl rfl
      · exact answer_keeps h44
    · exact h5

theorem fail_keeps {a1 a2 a3 a4} (h4 : Keeps s0 a4) :
    Keeps s0 (fail a1 a2 a3 a4) := by
  unfold fail
  exact finish_keeps h4

theorem succeed_keeps {a1 a2 a3 a4} (h4 : Keeps s0 a4) :
    Keeps s0 (succeed a1 a2 a3 a4) := by
  unfold succeed
  exact finish_keeps h4

theorem vacate_keeps {a1 a2} (h2 : Keeps s0 a2) :
    Keeps s0 (vacate a1 a2) := by
  unfold vacate
  split
  · exact h2
  · exact foldOver_keeps (fun _ _ h49 => resetMover_keeps h49) (State.count_keeps (State.modDie_keeps h2))

theorem dropScan_keeps {a1 a2} (h2 : Keeps s0 a2) :
    Keeps s0 (dropScan a1 a2) := by
  unfold dropScan
  split
  · exact h2
  · extract_lets +onlyGivenNames -merge -underBinder x50 x51 x52
    have h53 : Keeps s0 x52 := State.modPart_keeps (State.modDie_keeps h2)
    exact Keeps.frame h53 rfl rfl rfl rfl rfl rfl rfl rfl rfl

theorem stopWork_keeps {a1 a2} (h2 : Keeps s0 a2) :
    Keeps s0 (stopWork a1 a2) := by
  unfold stopWork
  extract_lets +onlyGivenNames -merge -underBinder x54 x56
  have h55 : Keeps s0 x54 := dropScan_keeps h2
  have h57 : Keeps s0 x56 := Keeps.frame h55 rfl rfl rfl rfl rfl rfl rfl rfl rfl
  refine foldOver_keeps ?_ ?_
  · intro _ _ h58
    extract_lets +onlyGivenNames -merge -underBinder x59
    have h60 : Keeps s0 x59 := State.modDie_keeps h58
    exact keeps_ite (vacate_keeps h60) h60
  · exact h57

theorem abort_keeps {a1 a2 a3} (h3 : Keeps s0 a3) :
    Keeps s0 (abort a1 a2 a3) := by
  unfold abort
  exact fail_keeps (stopWork_keeps h3)

theorem abortAll_keeps {a1 a2 a3} (h3 : Keeps s0 a3) :
    Keeps s0 (abortAll a1 a2 a3) := by
  unfold abortAll
  exact foldOver_keeps (fun _ _ h61 => abort_keeps h61) h3

theorem revokeLeases_keeps {a1 a2} (h2 : Keeps s0 a2) :
    Keeps s0 (revokeLeases a1 a2) := by
  unfold revokeLeases
  extract_lets +onlyGivenNames -merge -underBinder x62 x63
  exact Keeps.frame h2 rfl rfl rfl rfl rfl rfl rfl rfl rfl

theorem linkCut_keeps {a1 a2} (h2 : Keeps s0 a2) :
    Keeps s0 (linkCut a1 a2) := by
  unfold linkCut
  extract_lets +onlyGivenNames -merge -underBinder x64
  have h65 : Keeps s0 x64 := abortAll_keeps h2
  exact revokeLeases_keeps h65

theorem logLink_keeps {a1 a2 a3 a4} (h4 : Keeps s0 a4) :
    Keeps s0 (logLink a1 a2 a3 a4) := by
  unfold logLink
  exact addLog_keeps h4

theorem setLinkSt_keeps {a1 a2 a3} (h3 : Keeps s0 a3) :
    Keeps s0 (setLinkSt a1 a2 a3) := by
  unfold setLinkSt
  exact keeps_ite h3 (setFlag_keeps (State.modLink_keeps h3))

theorem freeSlots_keeps {a1 a2 a3 a4} (h4 : Keeps s0 a4) :
    Keeps s0 (freeSlots a1 a2 a3 a4) := by
  unfold freeSlots
  exact keeps_ite h4 (State.modLink_keeps h4)

theorem abortOnward_keeps {a1 a2 a3 a4} (h4 : Keeps s0 a4) :
    Keeps s0 (abortOnward a1 a2 a3 a4) := by
  unfold abortOnward
  split
  · exact h4
  · exact State.modLink_keeps h4

theorem dropRelay_keeps {a1 a2} (h2 : Keeps s0 a2) :
    Keeps s0 (dropRelay a1 a2) := by
  unfold dropRelay
  split
  · exact h2
  · extract_lets +onlyGivenNames -merge -underBinder x66
    exact State.modLink_keeps (freeSlots_keeps h2)

theorem abortInputs_keeps {a1 a2} (h2 : Keeps s0 a2) :
    Keeps s0 (abortInputs a1 a2) := by
  unfold abortInputs
  exact State.modLink_keeps (foldOver_keeps (fun _ _ h67 => abortOnward_keeps h67) h2)

theorem answerDropped_keeps {a1 a2 a3 a4 a5} (h5 : Keeps s0 a5) :
    Keeps s0 (answerDropped a1 a2 a3 a4 a5) := by
  unfold answerDropped
  exact sendUnit_keeps h5

theorem quarantineLink_keeps {a1 a2} (h2 : Keeps s0 a2) : Keeps s0 (quarantineLink a1 a2) := by
  unfold quarantineLink
  extract_lets +onlyGivenNames -merge -underBinder k s1 s2 gone s3
  have h1 : Keeps s0 s1 := abortInputs_keeps (linkCut_keeps (logLink_keeps h2))
  clear_value s1
  have hs : Keeps s0 s2 := Keeps.mapVals h1 rfl rfl rfl rfl rfl rfl rfl rfl rfl
  clear_value s2 gone
  have h3 : Keeps s0 s3 := by
    refine foldOver_keeps (fun u s h => ?_) hs
    split
    · exact Keeps.erase h rfl rfl rfl rfl rfl rfl rfl rfl rfl
    · exact dropRelay_keeps h
  exact setLinkSt_keeps (State.modLink_keeps h3)

theorem violationBy_keeps {a0 a1 a2 a3} (h3 : Keeps s0 a3) :
    Keeps s0 (violationBy a0 a1 a2 a3) := by
  unfold violationBy
  extract_lets +onlyGivenNames -merge -underBinder x77 x78 x79 x80 x81 x82 x84
  have h83 : Keeps s0 x82 := State.modLink_keeps h3
  have h85 : Keeps s0 x84 := keeps_ite (logLink_keeps h83) h83
  exact keeps_ite (quarantineLink_keeps h85) h85

theorem violation_keeps {a1 a2 a3} (h3 : Keeps s0 a3) : Keeps s0 (violation a1 a2 a3) := violationBy_keeps h3

theorem acknowledge_keeps {a1 a2 a3} (h3 : Keeps s0 a3) :
    Keeps s0 (acknowledge a1 a2 a3) := by
  unfold acknowledge
  split
  · exact h3
  · extract_lets +onlyGivenNames -merge -underBinder x86
    have h87 : Keeps s0 x86 := State.modLive_keeps h3
    exact keeps_ite h87 (succeed_keeps h87)

theorem firstBad_cons {x : Verdict} {r : List Verdict} (h : firstBad (x :: r) = none) : x = none ∧ firstBad r = none := by
  cases x with
  | none => exact ⟨rfl, h⟩
  | some v => exact absurd h (by simp [firstBad])

/-- A command is admitted only while the command table has room (R169). -/
theorem refusal_room {op : Nat} {c : Capsule} {check : State → Verdict} {s : State} (h : refusal op c check s = none) :
    s.cmds.length < 65536 := by
  unfold refusal at h
  have h7 := (firstBad_cons (firstBad_cons (firstBad_cons (firstBad_cons (firstBad_cons (firstBad_cons
    (firstBad_cons h).2).2).2).2).2).2).1
  unfold check7 at h7
  have h8 := (firstBad_cons (firstBad_cons h7).2).1
  unfold must at h8
  split at h8
  · rename_i hr
    exact of_decide_eq_true hr
  · exact absurd h8 (by simp)

theorem command_keeps {a1 a2 a3 a4 a5} (h4 : ∀ x0 s, Keeps s0 s → Keeps s0 (a4 x0 s)) (h5 : Keeps s0 a5) :
    Keeps s0 (command a1 a2 a3 a4 a5) := by
  unfold command
  split
  · split
    · exact keeps_ite (violation_keeps h5) h5
    · exact h5
  · split
    · split
      · exact keeps_ite (violation_keeps (refuse_keeps h5)) (refuse_keeps h5)
      · exact refuse_keeps h5
    · rename_i hr
      extract_lets +onlyGivenNames -merge n s1
      have h1 : Keeps s0 s1 := enterTable_keeps (refusal_room hr) h5
      split
      · exact h1
      · exact keeps_ite h1 (h4 _ _ (State.modLive_keeps h1))

theorem eccCorrected_keeps {a1 a2 a3} (h3 : Keeps s0 a3) :
    Keeps s0 (eccCorrected a1 a2 a3) := by
  unfold eccCorrected
  extract_lets +onlyGivenNames -merge -underBinder x91 x92 x93 x94 _ x95
  have h96 : Keeps s0 x95 := Keeps.frame h3 rfl rfl rfl rfl rfl rfl rfl rfl rfl
  exact keeps_ite (logUnit_keeps h96) h96

theorem eccUncorrectable_keeps {a1 a2 a3 a4} (h4 : Keeps s0 a4) :
    Keeps s0 (eccUncorrectable a1 a2 a3 a4) := by
  unfold eccUncorrectable
  extract_lets +onlyGivenNames -merge -underBinder x97 _ x98
  have h99 : Keeps s0 x98 := Keeps.frame h4 rfl rfl rfl rfl rfl rfl rfl rfl rfl
  exact addLog_keeps h99

theorem readEcc_keeps {a1 a2 a3 a4 a5 a6 a7} (h5 : ∀ s, Keeps s0 s → Keeps s0 (a5 s)) (h6 : ∀ s, Keeps s0 s → Keeps s0 (a6 s)) (h7 : Keeps s0 a7) :
    Keeps s0 (readEcc a1 a2 a3 a4 a5 a6 a7) := by
  unfold readEcc
  split
  · exact h5 _ h7
  · exact h5 _ (eccCorrected_keeps h7)
  · exact h6 _ (eccUncorrectable_keeps h7)

theorem retireUnit_keeps {a1 a2} (h2 : Keeps s0 a2) :
    Keeps s0 (retireUnit a1 a2) := by
  unfold retireUnit
  extract_lets +onlyGivenNames -merge -underBinder _ x100 x102
  have h101 : Keeps s0 x100 := Keeps.frame h2 rfl rfl rfl rfl rfl rfl rfl rfl rfl
  exact degrade_keeps (logUnit_keeps h101)

theorem takeOut_keeps {a1 a2} (h2 : Keeps s0 a2) :
    Keeps s0 (takeOut a1 a2) := by
  unfold takeOut
  exact Keeps.frame h2 rfl rfl rfl rfl rfl rfl rfl rfl rfl

theorem putBack_keeps {a1 a2} (h2 : Keeps s0 a2) :
    Keeps s0 (putBack a1 a2) := by
  unfold putBack
  exact Keeps.frame h2 rfl rfl rfl rfl rfl rfl rfl rfl rfl

theorem produceToken_keeps {a1 a2 a3} (h3 : Keeps s0 a3) :
    Keeps s0 (produceToken a1 a2 a3) := by
  unfold produceToken
  split
  · exact State.modDie_keeps h3
  · exact h3

theorem notifyToken_keeps {a1 a2 a3} (h3 : Keeps s0 a3) :
    Keeps s0 (notifyToken a1 a2 a3) := by
  unfold notifyToken
  split
  · exact h3
  · extract_lets +onlyGivenNames -merge -underBinder x103
    exact State.modDie_keeps h3

theorem undefine_keeps {a1 a2} (h2 : Keeps s0 a2) :
    Keeps s0 (undefine a1 a2) := by
  unfold undefine
  extract_lets +onlyGivenNames -merge -underBinder x104
  have h105 : Keeps s0 x104 := State.modDie_keeps h2
  exact Keeps.frame h105 rfl rfl rfl rfl rfl rfl rfl rfl rfl

theorem stopLaunch_keeps {a1 a2 a3} (h3 : Keeps s0 a3) :
    Keeps s0 (stopLaunch a1 a2 a3) := by
  unfold stopLaunch
  exact abort_keeps h3

theorem trapWith_keeps {a1 a2 a3 a4 a5} (h5 : Keeps s0 a5) :
    Keeps s0 (trapWith a1 a2 a3 a4 a5) := by
  unfold trapWith
  split
  · exact h5
  · extract_lets +onlyGivenNames -merge -underBinder x106
    have h107 : Keeps s0 x106 := addLog_keeps h5
    exact stopLaunch_keeps h107

theorem trapStream_keeps {a1 a2 a3 a4} (h4 : Keeps s0 a4) :
    Keeps s0 (trapStream a1 a2 a3 a4) := by
  unfold trapStream
  exact trapWith_keeps h4

theorem faultStream_keeps {a1 a2 a3} (h3 : Keeps s0 a3) :
    Keeps s0 (faultStream a1 a2 a3) := by
  unfold faultStream
  split
  · exact h3
  · exact stopLaunch_keeps h3

theorem restoreOn_keeps {a1 a2 a3} (h3 : Keeps s0 a3) :
    Keeps s0 (restoreOn a1 a2 a3) := by
  unfold restoreOn
  extract_lets +onlyGivenNames -merge -underBinder x108
  have h109 : Keeps s0 x108 := undefine_keeps h3
  split
  · exact State.modDie_keeps h109
  · exact State.modDie_keeps h109

theorem replayOn_keeps {a1 a2 a3} (h3 : Keeps s0 a3) :
    Keeps s0 (replayOn a1 a2 a3) := by
  unfold replayOn
  exact restoreOn_keeps h3

theorem holdContext_keeps {a1 a2 a3} (h3 : Keeps s0 a3) :
    Keeps s0 (holdContext a1 a2 a3) := by
  unfold holdContext
  exact State.modCtx_keeps h3

theorem startPass_keeps {a1 a2 a3 a4 a5 a6} (h6 : Keeps s0 a6) :
    Keeps s0 (startPass a1 a2 a3 a4 a5 a6) := by
  unfold startPass
  split
  · exact h6
  · extract_lets +onlyGivenNames -merge -underBinder x110 x111
    refine keeps_ite ?_ ?_
    · exact h6
    · extract_lets +onlyGivenNames -merge -underBinder x112 x113 x114 x115
      have h116 : Keeps s0 x115 := State.modDie_keeps h6
      clear_value x112
      split
      · exact h116
      · exact State.modDie_keeps h116

theorem passSlot_keeps {a1 a2 a3 a4 a5 a6 a7} (h7 : Keeps s0 a7) :
    Keeps s0 (passSlot a1 a2 a3 a4 a5 a6 a7) := by
  unfold passSlot
  split
  · exact h7
  · extract_lets +onlyGivenNames -merge -underBinder x117
    exact readEcc_keeps (fun _ h118 => startPass_keeps h118) (fun _ h119 => faultStream_keeps h119) h7

theorem drainSlot_keeps {a1 a2 a3 a4} (h4 : Keeps s0 a4) :
    Keeps s0 (drainSlot a1 a2 a3 a4) := by
  unfold drainSlot
  split
  · exact h4
  · extract_lets +onlyGivenNames -merge -underBinder x120 x121 x122
    exact keeps_ite h4 (keeps_ite (produceToken_keeps h4) (State.modDie_keeps h4))

theorem firstVectorEnters_keeps {a1 a2 a3} (h3 : Keeps s0 a3) :
    Keeps s0 (firstVectorEnters a1 a2 a3) := by
  unfold firstVectorEnters
  extract_lets +onlyGivenNames -merge -underBinder x123 x124
  refine keeps_ite ?_ ?_
  · exact State.setDie_keeps h3
  · split
    · exact h3
    · extract_lets +onlyGivenNames -merge -underBinder x127
      exact State.setDie_keeps h3

theorem swatchMismatch_keeps {a1 a2 a3 a4 a5 a6 a7} (h7 : Keeps s0 a7) :
    Keeps s0 (swatchMismatch a1 a2 a3 a4 a5 a6 a7) := by
  unfold swatchMismatch
  split
  · exact h7
  · extract_lets +onlyGivenNames -merge -underBinder x128 x130
    have h129 : Keeps s0 x128 := addLog_keeps h7
    have h131 : Keeps s0 x130 := takeOut_keeps (takeOut_keeps h129)
    refine keeps_ite ?_ ?_
    · exact stopLaunch_keeps h131
    · extract_lets +onlyGivenNames -merge -underBinder x132
      exact State.modDie_keeps h131

theorem writeResult_keeps {a1 a2 a3 a4 a5} (h5 : Keeps s0 a5) :
    Keeps s0 (writeResult a1 a2 a3 a4 a5) := by
  unfold writeResult
  extract_lets +onlyGivenNames -merge -underBinder x133 x134
  split
  · exact h5
  · refine keeps_ite ?_ ?_
    · exact h5
    · extract_lets +onlyGivenNames -merge -underBinder x135
      refine keeps_ite ?_ ?_
      · exact trapStream_keeps h5
      · extract_lets +onlyGivenNames -merge -underBinder x136 x137 x140 x141 x143 x144
        have h142 : Keeps s0 x141 := State.setDie_keeps h5
        have h145 : Keeps s0 x144 := State.count_keeps h142
        split
        · exact keeps_ite h145 (swatchMismatch_keeps h145)
        · exact h145

theorem resultWrite_keeps {a1 a2 a3 a4 a5 a6} (h6 : Keeps s0 a6) :
    Keeps s0 (resultWrite a1 a2 a3 a4 a5 a6) := by
  unfold resultWrite
  split
  · exact h6
  · exact readEcc_keeps (fun _ h146 => writeResult_keeps h146) (fun _ h147 => faultStream_keeps h147) h6

theorem passComplete_keeps {a1 a2 a3} (h3 : Keeps s0 a3) :
    Keeps s0 (passComplete a1 a2 a3) := by
  unfold passComplete
  extract_lets +onlyGivenNames -merge -underBinder x148 x149
  split
  · exact h3
  · refine keeps_ite ?_ ?_
    · extract_lets +onlyGivenNames -merge -underBinder x150 x151 x153 x155 x158
      have h152 : Keeps s0 x151 := State.setDie_keeps h3
      have h154 : Keeps s0 x153 := produceToken_keeps h152
      have h156 : Keeps s0 x155 := foldOver_keeps (fun _ _ h157 => produceToken_keeps h157) h154
      exact State.count_keeps h156
    · exact h3

theorem thirdExecution_keeps {a1 a2} (h2 : Keeps s0 a2) :
    Keeps s0 (thirdExecution a1 a2) := by
  unfold thirdExecution
  split
  · exact h2
  · split
    · exact h2
    · refine keeps_ite ?_ ?_
      · exact h2
      · extract_lets +onlyGivenNames -merge -underBinder x159 x160
        split
        · exact stopLaunch_keeps h2
        · extract_lets +onlyGivenNames -merge -underBinder x161 x162
          exact keeps_ite (stopLaunch_keeps h2) (replayOn_keeps h2)

theorem retirePair_keeps {a1 a2 a3 a4 a5 a6} (h6 : Keeps s0 a6) :
    Keeps s0 (retirePair a1 a2 a3 a4 a5 a6) := by
  unfold retirePair
  extract_lets +onlyGivenNames -merge -underBinder x163
  have h164 : Keeps s0 x163 := putBack_keeps (retireUnit_keeps h6)
  exact State.modDie_keeps h164

theorem swatchDecide_keeps {a1 a2 a3 a4 a5 a6} (h6 : Keeps s0 a6) :
    Keeps s0 (swatchDecide a1 a2 a3 a4 a5 a6) := by
  unfold swatchDecide
  split
  · exact h6
  · split
    · exact h6
    · extract_lets +onlyGivenNames -merge -underBinder x165
      have h166 : Keeps s0 x165 := keeps_ite (retirePair_keeps h6) (retirePair_keeps h6)
      refine keeps_ite ?_ ?_
      · exact h6
      · refine keeps_ite ?_ ?_
        · split
          · exact h6
          · extract_lets +onlyGivenNames -merge -underBinder x167
            exact keeps_ite (retirePair_keeps h6) (keeps_ite (retirePair_keeps h6) h166)
        · exact keeps_ite h166 h6

theorem swatchReplay_keeps {a1 a2} (h2 : Keeps s0 a2) :
    Keeps s0 (swatchReplay a1 a2) := by
  unfold swatchReplay
  split
  · exact h2
  · split
    · exact h2
    · refine keeps_ite ?_ ?_
      · exact h2
      · extract_lets +onlyGivenNames -merge -underBinder x168 x169
        split
        · exact stopLaunch_keeps h2
        · exact replayOn_keeps h2

end Sys2Proof.Machine
end

