-- ==== Sys2Proof/Laws/KeepsStream.lean ====
section
/-! SUPPORT. What every change of state keeps (`Keeps`), for tiers, movers, vector engines, the sequencer, placement and programs. -/

namespace Sys2Proof.Machine

variable {s0 s : State}

theorem setPage_keeps {a1 a2 a3 a4} (h4 : Keeps s0 a4) :
    Keeps s0 (setPage a1 a2 a3 a4) := by
  unfold setPage
  exact State.modStore_keeps h4

theorem releasePages_keeps {a1 a2 a3 a4} (h4 : Keeps s0 a4) :
    Keeps s0 (releasePages a1 a2 a3 a4) := by
  unfold releasePages
  exact State.modStore_keeps h4

theorem touchLayer_keeps {a1 a2 a3} (h3 : Keeps s0 a3) :
    Keeps s0 (touchLayer a1 a2 a3) := by
  unfold touchLayer
  split
  · exact h3
  · extract_lets +onlyGivenNames -merge -underBinder x170 x171 x172
    refine keeps_ite ?_ ?_
    · exact h3
    · extract_lets +onlyGivenNames -merge -underBinder x173
      split
      · exact h3
      · extract_lets +onlyGivenNames -merge -underBinder x174 x175 x177
        have h176 : Keeps s0 x175 := State.modDie_keeps h3
        exact foldOver_keeps (fun _ _ h178 => releasePages_keeps h178) h176

theorem evictPage_keeps {a1 a2 a3} (h3 : Keeps s0 a3) :
    Keeps s0 (evictPage a1 a2 a3) := by
  unfold evictPage
  extract_lets +onlyGivenNames -merge -underBinder x179 x180 x181 x182
  have h183 : Keeps s0 x182 := keeps_ite (State.count_keeps h3) h3
  exact keeps_ite (setPage_keeps h183) (keeps_ite (addLog_keeps (setPage_keeps h183)) (setPage_keeps h183))

theorem findFrame_keeps {a1 a2 a3 a4} (h4 : Keeps s0 a4) :
    Keeps s0 (findFrame a1 a2 a3 a4).1 := by
  unfold findFrame
  extract_lets +onlyGivenNames -merge -underBinder x184 x185 x186
  split
  · exact keeps_fst h4
  · split
    · exact keeps_fst h4
    · extract_lets +onlyGivenNames -merge -underBinder x187
      have h188 : Keeps s0 x187 := evictPage_keeps h4
      exact keeps_fst h188

theorem touchPage_keeps {a1 a2 a3 a4} (h4 : Keeps s0 a4) :
    Keeps s0 (touchPage a1 a2 a3 a4) := by
  unfold touchPage
  split
  · exact h4
  · exact setPage_keeps h4

theorem claimPage_keeps {a1 a2 a3 a4} (h4 : Keeps s0 a4) :
    Keeps s0 (claimPage a1 a2 a3 a4) := by
  unfold claimPage
  split
  · exact h4
  · exact setPage_keeps h4

theorem storeWrite_keeps {a1 a2 a3 a4} (h4 : Keeps s0 a4) :
    Keeps s0 (storeWrite a1 a2 a3 a4) := by
  unfold storeWrite
  exact State.modStore_keeps h4

theorem openPage_keeps {a1 a2 a3} (h3 : Keeps s0 a3) : Keeps s0 (openPage a1 a2 a3) := by
  unfold openPage
  exact storeWrite_keeps (Keeps.frame h3 rfl rfl rfl rfl rfl rfl rfl rfl rfl)

theorem poisonMet_keeps {a1 a2 a3 a4} (h4 : Keeps s0 a4) :
    Keeps s0 (poisonMet a1 a2 a3 a4) := by
  unfold poisonMet
  exact addLog_keeps h4

theorem readPage_keeps {a1 a2 a3 a4} (h4 : Keeps s0 a4) :
    Keeps s0 (readPage a1 a2 a3 a4).1 := by
  unfold readPage
  extract_lets +onlyGivenNames -merge -underBinder x189
  refine keeps_ite1 ?_ ?_
  · exact keeps_fst h4
  · split
    · exact keeps_fst h4
    · exact keeps_fst (claimPage_keeps h4)
    · exact keeps_fst h4
    · exact keeps_fst (poisonMet_keeps h4)
    · exact keeps_fst (touchPage_keeps h4)

theorem writePage_keeps {a1 a2 a3 a4 a5} (h5 : Keeps s0 a5) :
    Keeps s0 (writePage a1 a2 a3 a4 a5).1 := by
  unfold writePage
  extract_lets +onlyGivenNames -merge -underBinder x190 x191 x192
  have h193 : ∀ k s, Keeps s0 s → Keeps s0 (x192 k s).1 := by
    subst x192
    intro _ _ h194
    dsimp -zeta only
    extract_lets +onlyGivenNames -merge -underBinder x195
    have h196 : Keeps s0 x195.1 := keeps_fst_of (findFrame_keeps h194) rfl
    clear_value x195
    split
    · exact keeps_fst (setPage_keeps h196)
    · exact keeps_fst h196
  clear_value x192
  refine keeps_ite1 ?_ ?_
  · exact keeps_fst h5
  · split
    · exact h193 _ _ h5
    · refine keeps_ite1 (h193 _ _ h5) (keeps_ite1 ?_ (keeps_fst (claimPage_keeps h5)))
      exact keeps_ite (openPage_keeps (h193 _ _ h5)) (h193 _ _ h5)
    · exact keeps_fst h5
    · exact keeps_ite1 (h193 _ _ h5) (keeps_fst (poisonMet_keeps h5))
    · exact keeps_fst (setPage_keeps h5)

theorem readRange_keeps {a1 a2 a3 a4} (h4 : Keeps s0 a4) :
    Keeps s0 (readRange a1 a2 a3 a4).1 := by
  unfold readRange
  exact foldlp_keeps (fun _ _ h197 => keeps_ite1 (readPage_keeps h197) h197) (keeps_fst h4)

theorem writeRange_keeps {a1 a2 a3 a4 a5 a6 a7} (h7 : Keeps s0 a7) :
    Keeps s0 (writeRange a1 a2 a3 a4 a5 a6 a7).1 := by
  induction a5 generalizing a6 a7 with
  | nil => exact h7
  | cons pg r ih =>
    unfold writeRange
    extract_lets +onlyGivenNames -merge -underBinder lo hi
    refine keeps_ite1 (ih h7) ?_
    extract_lets +onlyGivenNames -merge -underBinder a
    have h : Keeps s0 a.1 := writePage_keeps h7
    exact keeps_ite1 (ih (storeWrite_keeps h)) (keeps_fst h)

theorem waitOnPage_keeps {a1 a2} (h2 : Keeps s0 a2) :
    Keeps s0 (waitOnPage a1 a2) := by
  unfold waitOnPage
  exact State.modLive_keeps h2

theorem chargeWait_keeps {a1 a2} (h2 : Keeps s0 a2) :
    Keeps s0 (chargeWait a1 a2) := by
  unfold chargeWait
  split
  · split
    · exact State.modLive_keeps (State.count_keeps h2)
    · exact h2
  · exact h2

theorem stoppedBy_keeps {a1 a2 a3} (h3 : Keeps s0 a3) :
    Keeps s0 (stoppedBy a1 a2 a3) := by
  unfold stoppedBy
  split
  · exact h3
  · exact waitOnPage_keeps h3
  · exact fail_keeps h3
  · exact fail_keeps h3

theorem stoMapStart_keeps {a1 a2} (h2 : Keeps s0 a2) :
    Keeps s0 (stoMapStart a1 a2) := by
  unfold stoMapStart
  split
  · exact h2
  · extract_lets +onlyGivenNames -merge -underBinder x198 x199
    have h200 : Keeps s0 x199 := State.modStore_keeps h2
    exact succeed_keeps (Keeps.frame h200 rfl rfl rfl rfl rfl rfl rfl rfl rfl)

theorem dropPages_keeps {a1 a2 a3 a4 a5} (h5 : Keeps s0 a5) :
    Keeps s0 (dropPages a1 a2 a3 a4 a5) := by
  unfold dropPages
  exact State.modStore_keeps h5

theorem stoUnmapStart_keeps {a1 a2} (h2 : Keeps s0 a2) :
    Keeps s0 (stoUnmapStart a1 a2) := by
  unfold stoUnmapStart
  split
  · exact h2
  · refine keeps_ite (State.modLive_keeps h2) (keeps_ite (fail_keeps h2) ?_)
    extract_lets +onlyGivenNames -merge -underBinder x201
    have h202 : Keeps s0 x201 := dropPages_keeps h2
    exact succeed_keeps (Keeps.frame h202 rfl rfl rfl rfl rfl rfl rfl rfl rfl)

theorem stoDiscardStart_keeps {a1 a2} (h2 : Keeps s0 a2) :
    Keeps s0 (stoDiscardStart a1 a2) := by
  unfold stoDiscardStart
  split
  · exact h2
  · exact keeps_ite (State.modLive_keeps h2) (keeps_ite (fail_keeps h2) (acknowledge_keeps (dropPages_keeps h2)))

theorem stoReadStart_keeps {a1 a2} (h2 : Keeps s0 a2) :
    Keeps s0 (stoReadStart a1 a2) := by
  unfold stoReadStart
  split
  · exact h2
  · extract_lets +onlyGivenNames -merge -underBinder x210
    have h211 : Keeps s0 x210.1 := keeps_fst_of (readRange_keeps h2) rfl
    refine keeps_ite ?_ ?_
    · extract_lets +onlyGivenNames -merge -underBinder x212 x209 x214
      have h213 : Keeps s0 x212 := chargeWait_keeps h211
      have h215 : Keeps s0 x214 := State.count_keeps h213
      exact succeed_keeps h215
    · exact stoppedBy_keeps h211

theorem stoWriteLanded_keeps {a1 a2} (h2 : Keeps s0 a2) :
    Keeps s0 (stoWriteLanded a1 a2) := by
  unfold stoWriteLanded
  split
  · exact h2
  · refine keeps_ite ?_ ?_
    · exact State.modLive_keeps h2
    · extract_lets +onlyGivenNames -merge -underBinder x216 x218
      have h217 : Keeps s0 x216.1 := keeps_fst_of (writeRange_keeps h2) rfl
      have h219 : Keeps s0 x218 := State.modLive_keeps h217
      refine keeps_ite ?_ ?_
      · extract_lets +onlyGivenNames -merge -underBinder x220
        have h221 : Keeps s0 x220 := State.count_keeps (chargeWait_keeps h219)
        exact acknowledge_keeps (State.modLive_keeps h221)
      · exact stoppedBy_keeps h219

theorem pinPage_keeps {a1 a2 a3 a4 a5} (h5 : Keeps s0 a5) :
    Keeps s0 (pinPage a1 a2 a3 a4 a5).1 := by
  unfold pinPage
  extract_lets +onlyGivenNames -merge -underBinder x222 x223
  have h224 : ∀ y0 s, Keeps s0 s → Keeps s0 (x223 y0 s).1 := fun _ _ h225 => keeps_fst (State.modLive_keeps
      (setPage_keeps h225))
  clear_value x223
  refine keeps_ite1 ?_ ?_
  · exact keeps_fst h5
  · split
    · exact h224 _ _ h5
    · exact h224 _ _ h5
    · exact h224 _ _ h5
    · exact keeps_fst (poisonMet_keeps h5)
    · extract_lets +onlyGivenNames -merge -underBinder x226
      have h227 : Keeps s0 x226.1 := keeps_fst_of (findFrame_keeps h5) rfl
      clear_value x226
      split
      · exact h224 _ _ h227
      · exact keeps_fst h227
    · exact keeps_fst (claimPage_keeps h5)
    · exact keeps_ite1 (keeps_fst h5) (keeps_fst (State.modLive_keeps (setPage_keeps h5)))

theorem unpinList_keeps {a1 a2 a3} (h3 : Keeps s0 a3) :
    Keeps s0 (unpinList a1 a2 a3) := by
  unfold unpinList
  refine foldOver_keeps ?_ ?_
  · intro _ _ h228
    split
    · exact setPage_keeps h228
    · exact h228
  · exact h3

theorem stoPinStart_keeps {a1 a2} (h2 : Keeps s0 a2) :
    Keeps s0 (stoPinStart a1 a2) := by
  unfold stoPinStart
  split
  · exact h2
  · extract_lets +onlyGivenNames -merge -underBinder x229 x230 x231
    have h232 : ∀ s, Keeps s0 s → Keeps s0 (x231 s) := by
      subst x231
      intro _ h233
      dsimp -zeta only
      extract_lets +onlyGivenNames -merge -underBinder x234
      exact fail_keeps (unpinList_keeps h233)
    clear_value x231
    refine keeps_ite ?_ ?_
    · exact h232 _ h2
    · extract_lets +onlyGivenNames -merge -underBinder x235
      have h236 : Keeps s0 x235.1 := foldlp_keeps (fun _ _ h237 => keeps_ite1 (pinPage_keeps h237) h237) (keeps_fst
          h2)
      clear_value x235
      split
      · exact succeed_keeps (chargeWait_keeps h236)
      · exact fail_keeps (unpinList_keeps h236)
      · exact fail_keeps h236
      · extract_lets +onlyGivenNames -merge -underBinder x238
        exact keeps_ite (h232 _ h236) (waitOnPage_keeps h236)

theorem stoUnpinStart_keeps {a1 a2} (h2 : Keeps s0 a2) :
    Keeps s0 (stoUnpinStart a1 a2) := by
  unfold stoUnpinStart
  split
  · exact h2
  · exact succeed_keeps (unpinList_keeps h2)

theorem stoQueryStart_keeps {a1 a2} (h2 : Keeps s0 a2) :
    Keeps s0 (stoQueryStart a1 a2) := by
  unfold stoQueryStart
  split
  · exact h2
  · exact succeed_keeps h2

theorem stoPolicyStart_keeps {a1 a2} (h2 : Keeps s0 a2) :
    Keeps s0 (stoPolicyStart a1 a2) := by
  unfold stoPolicyStart
  split
  · exact h2
  · extract_lets +onlyGivenNames -merge -underBinder x239 x240
    have h241 : Keeps s0 x240 := State.modPart_keeps h2
    exact succeed_keeps (addLog_keeps h241)

theorem fetchStart_keeps {a1 a2 a3} (h3 : Keeps s0 a3) :
    Keeps s0 (fetchStart a1 a2 a3) := by
  unfold fetchStart
  extract_lets +onlyGivenNames -merge -underBinder x242
  refine keeps_ite ?_ ?_
  · refine keeps_ite ?_ ?_
    · extract_lets +onlyGivenNames -merge -underBinder x241
      have h240 : Keeps s0 x241.1 := keeps_fst_of (findFrame_keeps h3) rfl
      clear_value x241
      split
      · exact openPage_keeps (setPage_keeps h240)
      · exact h240
    · extract_lets +onlyGivenNames -merge -underBinder x243
      have h244 : Keeps s0 x243.1 := keeps_fst_of (findFrame_keeps h3) rfl
      clear_value x243
      split
      · exact keeps_ite (setPage_keeps h244) h3
      · exact h244
  · exact h3

theorem fetchEnd_keeps {a1 a2 a3 a4} (h4 : Keeps s0 a4) :
    Keeps s0 (fetchEnd a1 a2 a3 a4) := by
  unfold fetchEnd
  extract_lets +onlyGivenNames -merge -underBinder x245
  refine keeps_ite ?_ ?_
  · extract_lets +onlyGivenNames -merge -underBinder x248
    have h249 : Keeps s0 x248 := State.count_keeps h4
    exact keeps_ite (setPage_keeps h249) (addLog_keeps (setPage_keeps h249))
  · exact h4

theorem writebackEnd_keeps {a1 a2 a3 a4} (h4 : Keeps s0 a4) :
    Keeps s0 (writebackEnd a1 a2 a3 a4) := by
  unfold writebackEnd
  extract_lets +onlyGivenNames -merge -underBinder x250
  refine keeps_ite ?_ ?_
  · split
    · exact setPage_keeps (State.count_keeps h4)
    · exact addLog_keeps (setPage_keeps h4)
    · exact eccUncorrectable_keeps (setPage_keeps h4)
  · exact h4

theorem evictAhead_keeps {a1 a2 a3} (h3 : Keeps s0 a3) : Keeps s0 (evictAhead a1 a2 a3) := by
  induction a2 generalizing a3 with
  | zero => exact h3
  | succ n ih =>
    unfold evictAhead
    refine keeps_ite h3 ?_
    split
    · exact h3
    · exact ih (evictPage_keeps h3)

theorem reserveEvict_keeps {a1 a2} (h2 : Keeps s0 a2) :
    Keeps s0 (reserveEvict a1 a2) := by
  unfold reserveEvict
  extract_lets +onlyGivenNames -merge -underBinder x251 x252
  have h253 : Keeps s0 x252 := State.modDie_keeps h2
  exact keeps_ite (evictAhead_keeps h253) h253

theorem idleAge_keeps {a1 a2 a3} (h3 : Keeps s0 a3) :
    Keeps s0 (idleAge a1 a2 a3) := by
  unfold idleAge
  extract_lets +onlyGivenNames -merge -underBinder x254
  exact keeps_ite (evictPage_keeps h3) h3

theorem prefetchLate_keeps {a1 a2 a3} (h3 : Keeps s0 a3) :
    Keeps s0 (prefetchLate a1 a2 a3) := by
  unfold prefetchLate
  split
  · exact h3
  · split
    · exact h3
    · extract_lets +onlyGivenNames -merge -underBinder x255 x256 x257
      exact keeps_ite (State.count_keeps h3) h3

theorem headMove_keeps {a1 a2 a3} (h3 : Keeps s0 a3) :
    Keeps s0 (headMove a1 a2 a3) := by
  unfold headMove
  split
  · exact h3
  · extract_lets +onlyGivenNames -merge -underBinder x258 x259 x262 x263
    have h260 : Keeps s0 x259 := foldOver_keeps (fun _ _ h261 => touchLayer_keeps h261) h3
    exact keeps_ite (State.modDie_keeps h260) h260

theorem moveDone_keeps {a1 a2 a3 a4} (h4 : Keeps s0 a4) :
    Keeps s0 (moveDone a1 a2 a3 a4) := by
  unfold moveDone
  exact notifyToken_keeps (produceToken_keeps h4)

theorem moveFailed_keeps {a1 a2 a3 a4} (h4 : Keeps s0 a4) :
    Keeps s0 (moveFailed a1 a2 a3 a4) := by
  unfold moveFailed
  split
  · exact State.modDie_keeps h4
  · exact h4

theorem moveSlot_keeps {a1 a2 a3 a4 a5} (h5 : Keeps s0 a5) :
    Keeps s0 (moveSlot a1 a2 a3 a4 a5) := by
  unfold moveSlot
  split
  · exact h5
  · refine keeps_ite ?_ ?_
    · exact h5
    · extract_lets +onlyGivenNames -merge -underBinder x264 x265 x266 x267 x268
      refine keeps_ite ?_ ?_
      · exact State.modDie_keeps (moveFailed_keeps h5)
      · extract_lets +onlyGivenNames -merge -underBinder x269
        refine keeps_ite ?_ ?_
        · exact h5
        · extract_lets +onlyGivenNames -merge -underBinder x270
          have h271 : Keeps s0 x270 := State.modDie_keeps h5
          exact keeps_ite (headMove_keeps h271) h271

theorem movePerform_keeps {a1 a2 a3 a4 a5} (h5 : Keeps s0 a5) :
    Keeps s0 (movePerform a1 a2 a3 a4 a5).1 := by
  unfold movePerform
  extract_lets +onlyGivenNames -merge -underBinder x272 x273
  have h274 : Keeps s0 x273.1 :=
    keeps_fst_of (keeps_ite1 (keeps_fst h5) (keeps_ite1 (keeps_fst h5) (readRange_keeps h5))) rfl
  refine keeps_ite1 ?_ ?_
  · exact h274
  · refine keeps_ite1 ?_ ?_
    · exact h274
    · extract_lets +onlyGivenNames -merge -underBinder x275
      refine keeps_ite1 ?_ ?_
      · exact keeps_fst (State.modDie_keeps h274)
      · extract_lets +onlyGivenNames -merge -underBinder x276
        have h277 : Keeps s0 x276.1 := keeps_fst_of (writeRange_keeps h274) rfl
        exact keeps_fst h277

theorem popMove_keeps {a1 a2 a3} (h3 : Keeps s0 a3) :
    Keeps s0 (popMove a1 a2 a3) := by
  unfold popMove
  exact headMove_keeps (State.modDie_keeps h3)

theorem moveComplete_keeps {a1 a2 a3 a4} (h4 : Keeps s0 a4) :
    Keeps s0 (moveComplete a1 a2 a3 a4) := by
  unfold moveComplete
  split
  · extract_lets +onlyGivenNames -merge -underBinder x278 x279 x290
    have h280 : ∀ s, Keeps s0 s → Keeps s0 (x279 s) := by
      subst x279
      intro _ h281
      dsimp -zeta only
      extract_lets +onlyGivenNames -merge -underBinder x282 x283 x285 x287
      have h284 : Keeps s0 x283 := Keeps.frame h281 rfl rfl rfl rfl rfl rfl rfl rfl rfl
      have h286 : Keeps s0 x285 := keeps_ite (movePerform_keeps h284) h284
      have h288 : Keeps s0 x287 := foldOver_keeps (fun _ _ h289 => moveFailed_keeps h289) h286
      exact State.modDie_keeps h288
    clear_value x279
    have h291 : ∀ s, Keeps s0 s → Keeps s0 (x290 s) := by
      subst x290
      intro _ h292
      dsimp -zeta only
      refine keeps_ite ?_ ?_
      · exact popMove_keeps (moveFailed_keeps h292)
      · extract_lets +onlyGivenNames -merge -underBinder x293
        have h294 : Keeps s0 x293.1 := keeps_fst_of (movePerform_keeps h292) rfl
        clear_value x293
        split
        · exact State.modDie_keeps h294
        · exact popMove_keeps (moveFailed_keeps h294)
        · exact popMove_keeps (moveFailed_keeps h294)
        · extract_lets +onlyGivenNames -merge -underBinder x295
          have h296 : Keeps s0 x295 := State.count_keeps h294
          exact popMove_keeps (moveDone_keeps h296)
    clear_value x290
    exact readEcc_keeps (fun _ h297 => h291 _ h297) (fun _ h298 => h280 _ h298) h4
  · exact h4

theorem issueVec_keeps {a1 a2 a3 a4 a5 a6 a7 a8 a9} (h9 : Keeps s0 a9) :
    Keeps s0 (issueVec a1 a2 a3 a4 a5 a6 a7 a8 a9) := by
  unfold issueVec
  split
  · exact h9
  · refine keeps_ite ?_ ?_
    · exact h9
    · extract_lets +onlyGivenNames -merge -underBinder x299 x300 x301 x302 x303
      have h304 : Keeps s0 x303 := State.modDie_keeps h9
      exact State.count_keeps h304

theorem issueEcc_keeps {a1 a2 a3 a4 a5 a6} (h5 : ∀ s, Keeps s0 s → Keeps s0 (a5 s)) (h6 : Keeps s0 a6) :
    Keeps s0 (issueEcc a1 a2 a3 a4 a5 a6) := by
  unfold issueEcc
  exact readEcc_keeps (fun _ h305 => h5 _ h305) (fun _ h306 => faultStream_keeps h306) h6

theorem vLoad_keeps {a1 a2 a3 a4 a5} (h5 : Keeps s0 a5) :
    Keeps s0 (vLoad a1 a2 a3 a4 a5) := by
  unfold vLoad
  exact issueVec_keeps h5

theorem vStore_keeps {a1 a2 a3 a4 a5} (h5 : Keeps s0 a5) :
    Keeps s0 (vStore a1 a2 a3 a4 a5) := by
  unfold vStore
  exact issueVec_keeps h5

theorem vLoadp_keeps {a1 a2 a3 a4 a5} (h5 : Keeps s0 a5) :
    Keeps s0 (vLoadp a1 a2 a3 a4 a5) := by
  unfold vLoadp
  exact issueVec_keeps h5

theorem vStorep_keeps {a1 a2 a3 a4 a5} (h5 : Keeps s0 a5) :
    Keeps s0 (vStorep a1 a2 a3 a4 a5) := by
  unfold vStorep
  exact issueVec_keeps h5

theorem vTwo_keeps {a1 a2 a3 a4 a5 a6 a7 a8} (h8 : Keeps s0 a8) :
    Keeps s0 (vTwo a1 a2 a3 a4 a5 a6 a7 a8) := by
  unfold vTwo
  exact issueVec_keeps h8

theorem vThree_keeps {a1 a2 a3 a4 a5 a6 a7 a8} (h8 : Keeps s0 a8) :
    Keeps s0 (vThree a1 a2 a3 a4 a5 a6 a7 a8) := by
  unfold vThree
  exact issueVec_keeps h8

theorem vOne_keeps {a1 a2 a3 a4 a5 a6 a7 a8} (h8 : Keeps s0 a8) :
    Keeps s0 (vOne a1 a2 a3 a4 a5 a6 a7 a8) := by
  unfold vOne
  exact issueVec_keeps h8

theorem vBcast_keeps {a1 a2 a3 a4 a5} (h5 : Keeps s0 a5) :
    Keeps s0 (vBcast a1 a2 a3 a4 a5) := by
  unfold vBcast
  exact issueVec_keeps h5

theorem vMovi_keeps {a1 a2 a3 a4 a5} (h5 : Keeps s0 a5) :
    Keeps s0 (vMovi a1 a2 a3 a4 a5) := by
  unfold vMovi
  exact issueVec_keeps h5

theorem vCmp_keeps {a1 a2 a3 a4 a5 a6 a7} (h7 : Keeps s0 a7) :
    Keeps s0 (vCmp a1 a2 a3 a4 a5 a6 a7) := by
  unfold vCmp
  exact issueVec_keeps h7

theorem vSel_keeps {a1 a2 a3 a4 a5} (h5 : Keeps s0 a5) :
    Keeps s0 (vSel a1 a2 a3 a4 a5) := by
  unfold vSel
  exact issueVec_keeps h5

theorem vRsum_keeps {a1 a2 a3 a4 a5} (h5 : Keeps s0 a5) :
    Keeps s0 (vRsum a1 a2 a3 a4 a5) := by
  unfold vRsum
  exact issueVec_keeps h5

theorem vRmax_keeps {a1 a2 a3 a4 a5} (h5 : Keeps s0 a5) :
    Keeps s0 (vRmax a1 a2 a3 a4 a5) := by
  unfold vRmax
  exact issueVec_keeps h5

theorem vSurvey_keeps {a1 a2 a3 a4 a5} (h5 : Keeps s0 a5) :
    Keeps s0 (vSurvey a1 a2 a3 a4 a5) := by
  unfold vSurvey
  exact issueVec_keeps h5

theorem vConvert_keeps {a1 a2 a3 a4 a5} (h5 : Keeps s0 a5) :
    Keeps s0 (vConvert a1 a2 a3 a4 a5) := by
  unfold vConvert
  exact issueVec_keeps h5

theorem vPacked2_keeps {a1 a2 a3 a4 a5 a6 a7} (h7 : Keeps s0 a7) :
    Keeps s0 (vPacked2 a1 a2 a3 a4 a5 a6 a7) := by
  unfold vPacked2
  exact issueVec_keeps h7

theorem vPfma_keeps {a1 a2 a3 a4 a5} (h5 : Keeps s0 a5) :
    Keeps s0 (vPfma a1 a2 a3 a4 a5) := by
  unfold vPfma
  exact issueVec_keeps h5

theorem vecSlot_keeps {a1 a2 a3 a4 a5 a6} (h6 : Keeps s0 a6) :
    Keeps s0 (vecSlot a1 a2 a3 a4 a5 a6) := by
  unfold vecSlot
  exact keeps_itef (vLoad_keeps h6) (keeps_itef (vStore_keeps h6) (keeps_itef (vLoadp_keeps h6) (keeps_itef
      (vStorep_keeps h6) (keeps_itef (vTwo_keeps h6) (keeps_itef (vTwo_keeps h6) (keeps_itef (vTwo_keeps h6)
      (keeps_itef (vThree_keeps h6) (keeps_itef (vThree_keeps h6) (keeps_itef (vTwo_keeps h6) (keeps_itef (vTwo_keeps
      h6) (keeps_itef (vOne_keeps h6) (keeps_itef (vOne_keeps h6) (keeps_itef (vOne_keeps h6) (keeps_itef (vTwo_keeps
      h6) (keeps_itef (vOne_keeps h6) (keeps_itef (vBcast_keeps h6) (keeps_itef (vMovi_keeps h6) (keeps_itef
      (vCmp_keeps h6) (keeps_itef (vCmp_keeps h6) (keeps_itef (vSel_keeps h6) (keeps_itef (vRsum_keeps h6)
      (keeps_itef (vRmax_keeps h6) (keeps_itef (vSurvey_keeps h6) (keeps_itef (vConvert_keeps h6) (keeps_itef
      (vPacked2_keeps h6) (keeps_itef (vPacked2_keeps h6) (keeps_itef (vPfma_keeps h6) h6)))))))))))))))))))))))))))

theorem writeBack_keeps {a1 a2 a3 a4} (h4 : Keeps s0 a4) :
    Keeps s0 (writeBack a1 a2 a3 a4) := by
  unfold writeBack
  extract_lets +onlyGivenNames -merge -underBinder x307 x309
  have h308 : Keeps s0 x307 := State.modDie_keeps h4
  have h310 : Keeps s0 x309 := produceToken_keeps h308
  exact State.count_keeps h310

theorem dropOp_keeps {a1 a2 a3 a4} (h4 : Keeps s0 a4) :
    Keeps s0 (dropOp a1 a2 a3 a4) := by
  unfold dropOp
  exact State.modDie_keeps h4

theorem modCore_keeps {a1 a2 a3} (h3 : Keeps s0 a3) :
    Keeps s0 (modCore a1 a2 a3) := by
  unfold modCore
  exact State.modDie_keeps h3

theorem stallOn_keeps {a1 a2 a3} (h3 : Keeps s0 a3) :
    Keeps s0 (stallOn a1 a2 a3) := by
  unfold stallOn
  exact State.modDie_keeps h3

theorem trapToken_keeps {a1 a2 a3 a4} (h4 : Keeps s0 a4) :
    Keeps s0 (trapToken a1 a2 a3 a4) := by
  unfold trapToken
  exact trapStream_keeps h4

theorem waitSlot_keeps {a1 a2 a3 a4} (h4 : Keeps s0 a4) :
    Keeps s0 (waitSlot a1 a2 a3 a4) := by
  unfold waitSlot
  split
  · exact h4
  · refine keeps_ite ?_ ?_
    · exact h4
    · split
      · exact keeps_ite (modCore_keeps h4) h4
      · exact trapToken_keeps h4
      · exact stallOn_keeps h4

theorem stitchMark_keeps {a1 a2 a3 a4} (h4 : Keeps s0 a4) :
    Keeps s0 (stitchMark a1 a2 a3 a4) := by
  unfold stitchMark
  split
  · exact h4
  · extract_lets +onlyGivenNames -merge -underBinder x311
    refine keeps_ite ?_ ?_
    · exact State.modDie_keeps h4
    · extract_lets +onlyGivenNames -merge -underBinder x312
      exact State.count_keeps (State.modDie_keeps h4)

theorem ctlSlot_keeps {a1 a2 a3 a4 a5} (h5 : Keeps s0 a5) :
    Keeps s0 (ctlSlot a1 a2 a3 a4 a5).1 := by
  unfold ctlSlot
  split
  · exact keeps_fst h5
  · refine keeps_ite1 ?_ ?_
    · exact keeps_fst h5
    · refine keeps_ite1 ?_ ?_
      · exact keeps_fst (State.modDie_keeps h5)
      · refine keeps_ite1 ?_ ?_
        · exact keeps_fst (stitchMark_keeps h5)
        · refine keeps_ite1 ?_ ?_
          · exact keeps_fst (trapWith_keeps h5)
          · refine keeps_ite1 ?_ ?_
            · exact keeps_fst (State.modDie_keeps h5)
            · refine keeps_ite1 ?_ ?_
              · exact keeps_fst (trapStream_keeps h5)
              · extract_lets +onlyGivenNames -merge -underBinder x313
                exact keeps_fst (modCore_keeps h5)

theorem ctlRow_keeps {a1 a2 a3 a4} (h4 : Keeps s0 a4) :
    Keeps s0 (ctlRow a1 a2 a3 a4) := by
  unfold ctlRow
  split
  · exact h4
  · extract_lets +onlyGivenNames -merge -underBinder x314
    have h315 : Keeps s0 x314.1 := keeps_fst_of (ctlSlot_keeps h4) rfl
    clear_value x314
    split
    · exact h315
    · exact State.modDie_keeps h315

theorem issueSlots_keeps {a1 a2 a3 a4} (h4 : Keeps s0 a4) :
    Keeps s0 (issueSlots a1 a2 a3 a4) := by
  unfold issueSlots
  extract_lets +onlyGivenNames -merge -underBinder x316 x317 x318 x319 x320 x322 x326 x330 x334 x337 x338 x341 x342
  have h321 : Keeps s0 x320 := State.modDie_keeps h4
  have h323 : Keeps s0 x322 := by
    subst x322
    refine foldOver_keeps ?_ ?_
    · intro _ _ h324
      extract_lets +onlyGivenNames -merge -underBinder x325
      exact keeps_ite (drainSlot_keeps h324) (startPass_keeps h324)
    · exact h321
  have h327 : Keeps s0 x326 := by
    subst x326
    refine foldOver_keeps ?_ ?_
    · intro _ _ h328
      extract_lets +onlyGivenNames -merge -underBinder x329
      exact vecSlot_keeps h328
    · exact h323
  have h331 : Keeps s0 x330 := by
    subst x330
    refine foldOver_keeps ?_ ?_
    · intro _ _ h332
      extract_lets +onlyGivenNames -merge -underBinder x333
      exact moveSlot_keeps h332
    · exact h327
  have h335 : Keeps s0 x334 := by
    subst x334
    split
    · exact h331
    · extract_lets +onlyGivenNames -merge -underBinder x336
      exact keeps_ite (modCore_keeps h331) (keeps_ite (modCore_keeps h331) (keeps_ite (modCore_keeps h331) h331))
  have h339 : ∀ y0 y1 s, Keeps s0 s → Keeps s0 (x338 y0 y1 s) := fun _ _ _ h340 => State.modDie_keeps h340
  clear_value x338
  have h343 : Keeps s0 x342 := by
    subst x342
    split
    · exact h339 _ _ _ h335
    · extract_lets +onlyGivenNames -merge -underBinder x344
      refine keeps_ite ?_ ?_
      · exact stitchMark_keeps (h339 _ _ _ h335)
      · extract_lets +onlyGivenNames -merge -underBinder x345
        have h346 : Keeps s0 x345.1 := keeps_fst_of (ctlSlot_keeps h335) rfl
        exact keeps_ite (h339 _ _ _ h346) h346
  exact keeps_ite h4 (State.count_keeps h343)

theorem rowIssue_keeps {a1 a2 a3 a4} (h4 : Keeps s0 a4) :
    Keeps s0 (rowIssue a1 a2 a3 a4) := by
  unfold rowIssue
  split
  · exact h4
  · refine keeps_ite ?_ ?_
    · exact h4
    · refine keeps_ite ?_ ?_
      · exact trapStream_keeps h4
      · extract_lets +onlyGivenNames -merge -underBinder x347
        split
        · exact trapStream_keeps h4
        · extract_lets +onlyGivenNames -merge -underBinder x348 x351 x352 x354
          have h349 : ∀ s, Keeps s0 s → Keeps s0 (x348 s) := fun _ h350 => State.modDie_keeps h350
          clear_value x348
          have h353 : ∀ s, Keeps s0 s → Keeps s0 (x352 s) := by
            subst x352
            intro _ h
            exact keeps_ite (issueSlots_keeps h) (trapStream_keeps (h349 _ h))
          clear_value x352
          have h355 : ∀ s, Keeps s0 s → Keeps s0 (x354 s) := by
            subst x354
            intro _ h
            dsimp -zeta only
            split
            · exact trapToken_keeps (h349 _ h)
            · exact stallOn_keeps (h349 _ h)
            · split
              · exact stallOn_keeps (h349 _ h)
              · exact readEcc_keeps (fun _ h => h353 _ h) (fun _ h => trapStream_keeps (h349 _ h)) h
          clear_value x354
          exact readEcc_keeps (fun _ h => h355 _ h) (fun _ h => trapStream_keeps (h349 _ h)) h4

theorem waitSatisfied_keeps {a1 a2} (h2 : Keeps s0 a2) :
    Keeps s0 (waitSatisfied a1 a2) := by
  unfold waitSatisfied
  split
  · exact h2
  · split
    · split
      · extract_lets +onlyGivenNames -merge -underBinder x359 x360 x362
        have h361 : Keeps s0 x360 := State.count_keeps (State.modDie_keeps h2)
        have h363 : Keeps s0 x362 := keeps_ite (modCore_keeps h361) h361
        split
        · exact keeps_ite (rowIssue_keeps h361) h363
        · exact h363
      · exact h2
    · exact h2

theorem waitFailed_keeps {a1 a2} (h2 : Keeps s0 a2) :
    Keeps s0 (waitFailed a1 a2) := by
  unfold waitFailed
  split
  · exact h2
  · split
    · split
      · exact trapToken_keeps h2
      · exact h2
    · exact h2

theorem waitTimeout_keeps {a1 a2} (h2 : Keeps s0 a2) :
    Keeps s0 (waitTimeout a1 a2) := by
  unfold waitTimeout
  split
  · exact h2
  · split
    · exact keeps_ite (trapStream_keeps h2) h2
    · exact h2

theorem stallRelease_keeps {a1 a2} (h2 : Keeps s0 a2) :
    Keeps s0 (stallRelease a1 a2) := by
  unfold stallRelease
  split
  · exact h2
  · split
    · extract_lets +onlyGivenNames -merge -underBinder x364 x365
      refine keeps_ite ?_ ?_
      · extract_lets +onlyGivenNames -merge -underBinder x366 x367 x368
        have h369 : Keeps s0 x368 := State.count_keeps (State.modDie_keeps h2)
        exact rowIssue_keeps h369
      · exact h2
    · exact h2

theorem stitchOverrun_keeps {a1 a2} (h2 : Keeps s0 a2) :
    Keeps s0 (stitchOverrun a1 a2) := by
  unfold stitchOverrun
  split
  · exact h2
  · exact keeps_ite (trapStream_keeps h2) h2

theorem streamComplete_keeps {a1 a2} (h2 : Keeps s0 a2) :
    Keeps s0 (streamComplete a1 a2) := by
  unfold streamComplete
  split
  · exact h2
  · refine keeps_ite ?_ ?_
    · extract_lets +onlyGivenNames -merge -underBinder x370 x371
      have h372 : Keeps s0 x371 := vacate_keeps (State.modLive_keeps h2)
      refine keeps_ite ?_ ?_
      · exact h372
      · extract_lets +onlyGivenNames -merge -underBinder x373
        exact fail_keeps h372
    · exact h2

theorem syncAct_keeps {a1 a2 a3 a4} (h4 : Keeps s0 a4) :
    Keeps s0 (syncAct a1 a2 a3 a4) := by
  unfold syncAct
  split
  · exact h4
  · exact keeps_ite h4 (modCore_keeps h4)

theorem dropUnplaceable_keeps {a1} (h1 : Keeps s0 a1) :
    Keeps s0 (dropUnplaceable a1) := by
  unfold dropUnplaceable
  exact foldOver_keeps (fun _ _ h374 => abort_keeps h374) h1

theorem wakeDie_keeps {a1 a2} (h2 : Keeps s0 a2) :
    Keeps s0 (wakeDie a1 a2) := by
  unfold wakeDie
  extract_lets +onlyGivenNames -merge -underBinder x375
  exact keeps_ite h2 (State.modDie_keeps h2)

theorem placeStream_keeps {a1 a2 a3} (h3 : Keeps s0 a3) :
    Keeps s0 (placeStream a1 a2 a3) := by
  unfold placeStream
  split
  · exact h3
  · extract_lets +onlyGivenNames -merge -underBinder x376 x377
    refine keeps_ite ?_ ?_
    · exact abort_keeps h3
    · split
      · exact keeps_ite (abort_keeps h3) (State.modDie_keeps (undefine_keeps (State.setDie_keeps h3)))
      · exact abort_keeps h3

theorem placeStreamTask_keeps {a1 a2} (h2 : Keeps s0 a2) :
    Keeps s0 (placeStreamTask a1 a2) := by
  unfold placeStreamTask
  split
  · exact h2
  · extract_lets +onlyGivenNames -merge -underBinder x378
    refine keeps_ite ?_ ?_
    · exact foldOver_keeps (fun _ _ h379 => wakeDie_keeps h379) h2
    · extract_lets +onlyGivenNames -merge -underBinder x380 x382
      have h381 : Keeps s0 x380 := Keeps.frame h2 rfl rfl rfl rfl rfl rfl rfl rfl rfl
      have h383 : Keeps s0 x382 := State.count_keeps h381
      exact foldOver_keeps (fun _ _ h384 => placeStream_keeps h384) h383

theorem placeUpdateTask_keeps {a1 a2} (h2 : Keeps s0 a2) :
    Keeps s0 (placeUpdateTask a1 a2) := by
  unfold placeUpdateTask
  split
  · exact h2
  · extract_lets +onlyGivenNames -merge -underBinder x385 x386
    split
    · exact h2
    · extract_lets +onlyGivenNames -merge -underBinder x387
      have h388 : Keeps s0 x387 := State.modDie_keeps h2
      exact Keeps.frame h388 rfl rfl rfl rfl rfl rfl rfl rfl rfl

theorem placeScanTask_keeps {a1 a2} (h2 : Keeps s0 a2) :
    Keeps s0 (placeScanTask a1 a2) := by
  unfold placeScanTask
  split
  · exact h2
  · extract_lets +onlyGivenNames -merge -underBinder x389 x390
    have h391 : Keeps s0 x390 := State.count_keeps h2
    exact Keeps.frame h391 rfl rfl rfl rfl rfl rfl rfl rfl rfl

theorem placeTask_keeps {a1 a2 a3} (h3 : Keeps s0 a3) :
    Keeps s0 (placeTask a1 a2 a3) := by
  unfold placeTask
  split
  · exact placeStreamTask_keeps h3
  · exact placeUpdateTask_keeps h3
  · exact placeScanTask_keeps h3

theorem addTask_keeps {a1 a2} (h2 : Keeps s0 a2) :
    Keeps s0 (addTask a1 a2) := by
  unfold addTask
  exact Keeps.frame h2 rfl rfl rfl rfl rfl rfl rfl rfl rfl

theorem preemptRequest_keeps {a1 a2} (h2 : Keeps s0 a2) :
    Keeps s0 (preemptRequest a1 a2) := by
  unfold preemptRequest
  exact keeps_ite h2 (State.modDie_keeps h2)

theorem timeSlice_keeps {a1 a2} (h2 : Keeps s0 a2) :
    Keeps s0 (timeSlice a1 a2) := by
  unfold timeSlice
  split
  · exact h2
  · extract_lets +onlyGivenNames -merge -underBinder x392 x393
    exact keeps_ite (preemptRequest_keeps h2) h2

theorem starvation_keeps {a1 a2} (h2 : Keeps s0 a2) :
    Keeps s0 (starvation a1 a2) := by
  unfold starvation
  split
  · exact h2
  · refine keeps_ite ?_ ?_
    · extract_lets +onlyGivenNames -merge -underBinder x394
      have h395 : Keeps s0 x394 := Keeps.frame h2 rfl rfl rfl rfl rfl rfl rfl rfl rfl
      split
      · exact preemptRequest_keeps h395
      · exact h395
    · exact h2

theorem leaveDie_keeps {a1 a2 a3} (h3 : Keeps s0 a3) :
    Keeps s0 (leaveDie a1 a2 a3) := by
  unfold leaveDie
  extract_lets +onlyGivenNames -merge -underBinder x396 x397 x398 x400
  have h399 : Keeps s0 x398 := State.modDie_keeps (vacate_keeps h3)
  have h401 : Keeps s0 x400 := State.count_keeps h399
  exact addTask_keeps h401

theorem markerSaved_keeps {a1 a2} (h2 : Keeps s0 a2) :
    Keeps s0 (markerSaved a1 a2) := by
  unfold markerSaved
  split
  · exact h2
  · split
    · refine keeps_ite ?_ ?_
      · extract_lets +onlyGivenNames -merge -underBinder x402 x403 x404 x405
        have h406 : Keeps s0 x405 := State.count_keeps (State.modDie_keeps h2)
        exact keeps_ite (leaveDie_keeps h406) h406
      · exact h2
    · exact h2

theorem resumeStream_keeps {a1 a2 a3} (h3 : Keeps s0 a3) :
    Keeps s0 (resumeStream a1 a2 a3) := by
  unfold resumeStream
  extract_lets +onlyGivenNames -merge -underBinder x407 x408
  clear_value x408
  split
  · exact h3
  · split
    · exact h3
    · refine keeps_ite ?_ ?_
      · exact h3
      · refine keeps_ite ?_ ?_
        · exact wakeDie_keeps h3
        · extract_lets +onlyGivenNames -merge -underBinder x409 x411 x413 x414 x415
          have h410 : Keeps s0 x409 := State.modDie_keeps h3
          have h412 : Keeps s0 x411 := Keeps.frame h410 rfl rfl rfl rfl rfl rfl rfl rfl rfl
          have h416 : ∀ s, Keeps s0 s → Keeps s0 (x415 s) := by
            subst x415
            intro _ h417
            dsimp -zeta only
            split
            · extract_lets +onlyGivenNames -merge -underBinder x418
              have h419 : Keeps s0 x418 := restoreOn_keeps (State.setDie_keeps h417)
              exact State.modDie_keeps h419
            · exact abort_keeps h417
          clear_value x415
          exact keeps_ite (abort_keeps h412) (readEcc_keeps (fun _ h420 => h416 _ h420) (fun _ h421 => abort_keeps
              h421) h412)

theorem evictFor_keeps {a1 a2 a3 a4 a5} (h5 : Keeps s0 a5) : Keeps s0 (evictFor a1 a2 a3 a4 a5) := by
  induction a4 generalizing a5 with
  | zero => exact h5
  | succ n ih =>
    unfold evictFor
    refine keeps_ite h5 ?_
    split
    · exact h5
    · exact ih (evictPage_keeps h5)

theorem pinFrames_keeps {a1 a2 a3 a4} (h4 : Keeps s0 a4) :
    Keeps s0 (pinFrames a1 a2 a3 a4).1 := by
  unfold pinFrames
  extract_lets +onlyGivenNames -merge -underBinder x422
  have h423 : Keeps s0 x422 := evictFor_keeps h4
  exact keeps_ite1 (keeps_fst h423) (keeps_ite1 (keeps_fst h423) (keeps_fst h423))

theorem withFrames_keeps {a1 a2 a3} (h2 : ∀ s, Keeps s0 s → Keeps s0 (a2 s)) (h3 : Keeps s0 a3.1) :
    Keeps s0 (withFrames a1 a2 a3) := by
  unfold withFrames
  split
  · exact fail_keeps h3
  · exact waitOnPage_keeps h3
  · exact h2 _ h3

theorem prgLoadStart_keeps {a1 a2} (h2 : Keeps s0 a2) :
    Keeps s0 (prgLoadStart a1 a2) := by
  unfold prgLoadStart
  split
  · exact h2
  · extract_lets +onlyGivenNames -merge -underBinder x424 x425
    have h426 : Keeps s0 x425.1 := keeps_fst_of (readRange_keeps h2) rfl
    refine keeps_ite ?_ ?_
    · exact stoppedBy_keeps h426
    · extract_lets +onlyGivenNames -merge -underBinder x427 x428
      refine keeps_ite ?_ ?_
      · exact fail_keeps h426
      · extract_lets +onlyGivenNames -merge -underBinder x429 x430 x431 x433 x434
        have h432 : Keeps s0 x431.1 := keeps_fst_of (pinFrames_keeps h426) rfl
        have h435 : ∀ s, Keeps s0 s → Keeps s0 (x434 s) := by
          subst x434
          intro _ h436
          dsimp -zeta only
          extract_lets +onlyGivenNames -merge -underBinder x437
          have h438 : Keeps s0 x437 := chargeWait_keeps (State.modDie_keeps h436)
          exact succeed_keeps (Keeps.frame h438 rfl rfl rfl rfl rfl rfl rfl rfl rfl)
        clear_value x434
        exact withFrames_keeps (fun _ h439 => h435 _ h439) h432

theorem prgRunStart_keeps {a1 a2} (h2 : Keeps s0 a2) :
    Keeps s0 (prgRunStart a1 a2) := by
  unfold prgRunStart
  split
  · exact h2
  · extract_lets +onlyGivenNames -merge -underBinder x440
    have h441 : Keeps s0 x440 := State.modLive_keeps h2
    exact dropUnplaceable_keeps (addTask_keeps h441)

theorem prgUnloadStart_keeps {a1 a2} (h2 : Keeps s0 a2) :
    Keeps s0 (prgUnloadStart a1 a2) := by
  unfold prgUnloadStart
  split
  · exact h2
  · split
    · exact fail_keeps h2
    · extract_lets +onlyGivenNames -merge -underBinder x442 x444
      have h443 : Keeps s0 x442 := State.modDie_keeps h2
      have h445 : Keeps s0 x444 := foldOver_keeps (fun _ _ h446 => State.modDie_keeps h446) h443
      exact succeed_keeps (Keeps.frame h445 rfl rfl rfl rfl rfl rfl rfl rfl rfl)

end Sys2Proof.Machine
end

