-- ==== Sys2Proof/Laws/KeepsShare.lean ====
section
/-! SUPPORT. What every change of state keeps (`Keeps`), for shards, contexts, serving and search. -/

namespace Sys2Proof.Machine

variable {s0 s : State}

theorem State.modShard_keeps {a1 a2 a3} (h3 : Keeps s0 a3) :
    Keeps s0 (State.modShard a1 a2 a3) := by
  unfold State.modShard
  exact Keeps.frame h3 rfl rfl rfl rfl rfl rfl rfl rfl rfl

theorem sendEvent_keeps {a1 a2 a3 a4} (h4 : Keeps s0 a4) :
    Keeps s0 (sendEvent a1 a2 a3 a4) := by
  unfold sendEvent
  split
  · exact h4
  · split
    · exact State.modQueue_keeps h4
    · extract_lets +onlyGivenNames -merge -underBinder x447 x448 x449
      refine keeps_ite ?_ ?_
      · exact addLog_keeps h4
      · extract_lets +onlyGivenNames -merge -underBinder x450 _ x451
        have h452 : Keeps s0 x451 := sendUnit_keeps (Keeps.frame h4 rfl rfl rfl rfl rfl rfl rfl rfl rfl)
        exact State.modShard_keeps h452
    · exact h4

theorem raiseStep_keeps {a1 a2 a3} (h3 : Keeps s0 a3) :
    Keeps s0 (raiseStep a1 a2 a3) := by
  unfold raiseStep
  split
  · exact h3
  · exact keeps_ite h3 (keeps_ite (State.modShard_keeps h3) (sendEvent_keeps h3))

theorem raiseAttention_keeps {a1 a2 a3} (h3 : Keeps s0 a3) :
    Keeps s0 (raiseAttention a1 a2 a3) := by
  unfold raiseAttention
  split
  · exact h3
  · exact keeps_ite h3 (sendEvent_keeps h3)

theorem eventOver_keeps {a1 a2 a3} (h3 : Keeps s0 a3) :
    Keeps s0 (eventOver a1 a2 a3) := by
  unfold eventOver
  split
  · exact h3
  · extract_lets +onlyGivenNames -merge -underBinder x453 _ x454
    have h455 : Keeps s0 x454 := Keeps.frame h3 rfl rfl rfl rfl rfl rfl rfl rfl rfl
    refine keeps_ite ?_ ?_
    · extract_lets +onlyGivenNames -merge -underBinder x456
      have h457 : Keeps s0 x456 := State.modShard_keeps h455
      exact keeps_ite (sendEvent_keeps h457) h457
    · exact State.modShard_keeps h455

theorem eventReply_keeps {a1 a2 a3} (h3 : Keeps s0 a3) :
    Keeps s0 (eventReply a1 a2 a3) := by
  unfold eventReply
  split
  · exact h3
  · exact keeps_ite (eventOver_keeps h3) h3

theorem eventTimeout_keeps {a1 a2 a3} (h3 : Keeps s0 a3) :
    Keeps s0 (eventTimeout a1 a2 a3) := by
  unfold eventTimeout
  split
  · exact h3
  · split
    · exact keeps_ite (eventOver_keeps (addLog_keeps h3)) h3
    · exact h3

theorem shdCreateStart_keeps {a1 a2} (h2 : Keeps s0 a2) :
    Keeps s0 (shdCreateStart a1 a2) := by
  unfold shdCreateStart
  split
  · exact h2
  · extract_lets +onlyGivenNames -merge -underBinder x458 x459 x460 x461 x462 x464
    have h463 : Keeps s0 x462.1 := keeps_fst_of (pinFrames_keeps h2) rfl
    have h465 : ∀ s, Keeps s0 s → Keeps s0 (x464 s) := by
      subst x464
      intro _ h466
      dsimp -zeta only
      extract_lets +onlyGivenNames -merge -underBinder x467 x469 x471
      have h468 : Keeps s0 x467 := State.modDie_keeps h466
      have h470 : Keeps s0 x469 := Keeps.frame h468 rfl rfl rfl rfl rfl rfl rfl rfl rfl
      have h472 : Keeps s0 x471 := by
        subst x471
        split
        · exact Keeps.frame h470 rfl rfl rfl rfl rfl rfl rfl rfl rfl
        · exact h470
      exact succeed_keeps h472
    clear_value x464
    exact withFrames_keeps (fun _ h473 => h465 _ h473) h463

theorem shdDeleteStart_keeps {a1 a2} (h2 : Keeps s0 a2) :
    Keeps s0 (shdDeleteStart a1 a2) := by
  unfold shdDeleteStart
  split
  · exact h2
  · split
    · exact fail_keeps h2
    · extract_lets +onlyGivenNames -merge -underBinder x474 x475 x477 x479
      have h476 : Keeps s0 x475 := State.modDie_keeps h2
      have h478 : Keeps s0 x477 := Keeps.frame h476 rfl rfl rfl rfl rfl rfl rfl rfl rfl
      have h480 : Keeps s0 x479 := keeps_ite h478 (Keeps.frame h478 rfl rfl rfl rfl rfl rfl rfl rfl rfl)
      exact succeed_keeps h480

theorem shdGroupsLanded_keeps {a1 a2} (h2 : Keeps s0 a2) :
    Keeps s0 (shdGroupsLanded a1 a2) := by
  unfold shdGroupsLanded
  split
  · exact h2
  · split
    · exact fail_keeps h2
    · extract_lets +onlyGivenNames -merge -underBinder x481
      exact keeps_ite (fail_keeps h2) (succeed_keeps (State.modShard_keeps h2))

theorem shdCurveLanded_keeps {a1 a2} (h2 : Keeps s0 a2) :
    Keeps s0 (shdCurveLanded a1 a2) := by
  unfold shdCurveLanded
  split
  · exact h2
  · extract_lets +onlyGivenNames -merge -underBinder x482 x483 x484
    exact keeps_ite (succeed_keeps (State.modShard_keeps h2)) (fail_keeps h2)

theorem afterAdvance_keeps {a1 a2 a3} (h3 : Keeps s0 a3) :
    Keeps s0 (afterAdvance a1 a2 a3) := by
  unfold afterAdvance
  exact raiseStep_keeps h3

theorem startStep_keeps {a1 a2 a3 a4} (h4 : Keeps s0 a4) :
    Keeps s0 (startStep a1 a2 a3 a4) := by
  unfold startStep
  split
  · exact h4
  · extract_lets +onlyGivenNames -merge -underBinder x485 x486 x487
    refine keeps_ite ?_ ?_
    · extract_lets +onlyGivenNames -merge -underBinder x488
      have h489 : Keeps s0 x488 := addLog_keeps h4
      exact afterAdvance_keeps (raiseAttention_keeps (State.modShard_keeps h489))
    · extract_lets +onlyGivenNames -merge -underBinder x490 x491 x493 x494
      have h492 : Keeps s0 x491 := State.modShard_keeps (State.modShard_keeps h4)
      exact foldOver_keeps (fun _ _ h495 => addTask_keeps h495) h492

theorem shdPushLanded_keeps {a1 a2} (h2 : Keeps s0 a2) :
    Keeps s0 (shdPushLanded a1 a2) := by
  unfold shdPushLanded
  split
  · exact h2
  · split
    · exact fail_keeps h2
    · extract_lets +onlyGivenNames -merge -underBinder x496 x495
      refine keeps_ite (fail_keeps h2) (keeps_ite (fail_keeps h2) ?_)
      extract_lets +onlyGivenNames -merge -underBinder x497 x494 x498 x500
      have h499 : Keeps s0 x498 := State.modLive_keeps (State.modShard_keeps h2)
      have h501 : Keeps s0 x500 := succeed_keeps h499
      split
      · exact keeps_ite (startStep_keeps h501) h501
      · exact h501

theorem stepLate_keeps {a1 a2 a3} (h3 : Keeps s0 a3) :
    Keeps s0 (stepLate a1 a2 a3) := by
  unfold stepLate
  split
  · exact h3
  · extract_lets +onlyGivenNames -merge -underBinder x502
    split
    · exact h3
    · refine keeps_ite ?_ ?_
      · extract_lets +onlyGivenNames -merge -underBinder x503 x504
        have h505 : Keeps s0 x504 := keeps_ite h3 (raiseAttention_keeps (addLog_keeps (State.modShard_keeps h3)))
        exact foldOver_keeps (fun _ _ h506 => fail_keeps h506) h505
      · exact h3

theorem shdClose_keeps {a1 a2 a3} (h3 : Keeps s0 a3) :
    Keeps s0 (shdClose a1 a2 a3) := by
  unfold shdClose
  split
  · exact h3
  · extract_lets +onlyGivenNames -merge -underBinder x507 x508
    split
    · exact fail_keeps h3
    · extract_lets +onlyGivenNames -merge -underBinder x509 x510 x513
      have h511 : ∀ y0 s, Keeps s0 s → Keeps s0 (x510 y0 s) := fun _ _ h512 => State.modShard_keeps h512
      clear_value x510
      have h514 : Keeps s0 x513 := by
        subst x513
        refine foldOver_keeps ?_ ?_
        · intro _ _ h515
          extract_lets +onlyGivenNames -merge -underBinder x516
          exact keeps_ite (startStep_keeps h515) (h511 _ _ h515)
        · exact h3
      exact succeed_keeps (afterAdvance_keeps h514)

theorem shdCloseStart_keeps {a1 a2 a3} (h3 : Keeps s0 a3) :
    Keeps s0 (shdCloseStart a1 a2 a3) := by
  unfold shdCloseStart
  exact shdClose_keeps h3

theorem coefSlot_keeps {a1 a2 a3 a4 a5 a6} (h6 : Keeps s0 a6) :
    Keeps s0 (coefSlot a1 a2 a3 a4 a5 a6) := by
  unfold coefSlot
  split
  · exact h6
  · split
    · exact h6
    · split
      · exact h6
      · extract_lets +onlyGivenNames -merge -underBinder x517 x518 x519
        exact keeps_ite h6 (State.modDie_keeps h6)

theorem updateSlot_keeps {a1 a2 a3 a4 a5 a6} (h6 : Keeps s0 a6) :
    Keeps s0 (updateSlot a1 a2 a3 a4 a5 a6) := by
  unfold updateSlot
  split
  · extract_lets +onlyGivenNames -merge -underBinder x520
    split
    · refine keeps_ite ?_ ?_
      · extract_lets +onlyGivenNames -merge -underBinder x521 x522
        have h523 : Keeps s0 x522 := State.modDie_keeps h6
        exact State.modShard_keeps h523
      · exact h6
    · exact h6
  · exact h6

theorem dropChunk_keeps {a1 a2 a3} (h3 : Keeps s0 a3) :
    Keeps s0 (dropChunk a1 a2 a3) := by
  unfold dropChunk
  extract_lets +onlyGivenNames -merge -underBinder x524 x526
  have h525 : Keeps s0 x524 := Keeps.frame h3 rfl rfl rfl rfl rfl rfl rfl rfl rfl
  exact foldOver_keeps (fun _ _ h527 => State.modDie_keeps h527) h525

theorem updateEcc_keeps {a1 a2 a3 a4 a5 a6 a7} (h7 : Keeps s0 a7) :
    Keeps s0 (updateEcc a1 a2 a3 a4 a5 a6 a7) := by
  unfold updateEcc
  exact readEcc_keeps (fun _ h528 => updateSlot_keeps h528) (fun _ h529 => raiseAttention_keeps (dropChunk_keeps
      (State.modShard_keeps h529))) h7

theorem serviceBack_keeps {a1 a2 a3 a4} (h4 : Keeps s0 a4) :
    Keeps s0 (serviceBack a1 a2 a3 a4) := by
  unfold serviceBack
  split
  · exact State.modDie_keeps h4
  · exact State.count_keeps (State.modShard_keeps h4)
  · exact h4

theorem retireOk_keeps {a1 a2 a3 a4} (h4 : Keeps s0 a4) :
    Keeps s0 (retireOk a1 a2 a3 a4) := by
  unfold retireOk
  exact serviceBack_keeps (writeBack_keeps (dropOp_keeps h4))

theorem chunkComplete_keeps {a1 a2 a3} (h3 : Keeps s0 a3) :
    Keeps s0 (chunkComplete a1 a2 a3) := by
  unfold chunkComplete
  split
  · exact h3
  · extract_lets +onlyGivenNames -merge -underBinder x530 x531
    refine keeps_ite ?_ ?_
    · extract_lets +onlyGivenNames -merge -underBinder x532 x533 x534
      have h535 : Keeps s0 x534 := State.modShard_keeps h3
      exact afterAdvance_keeps (dropChunk_keeps h535)
    · exact h3

theorem chunkTierFailed_keeps {a1 a2 a3} (h3 : Keeps s0 a3) :
    Keeps s0 (chunkTierFailed a1 a2 a3) := by
  unfold chunkTierFailed
  split
  · exact h3
  · split
    · exact h3
    · exact keeps_ite (addLog_keeps (dropChunk_keeps (State.modShard_keeps h3))) h3

theorem shdImportStart_keeps {a1 a2} (h2 : Keeps s0 a2) :
    Keeps s0 (shdImportStart a1 a2) := by
  unfold shdImportStart
  split
  · exact h2
  · split
    · exact fail_keeps h2
    · extract_lets +onlyGivenNames -merge -underBinder x536 x537 x538 x539
      have h540 : Keeps s0 x539.1 := keeps_fst_of (readRange_keeps h2) rfl
      refine keeps_ite ?_ ?_
      · exact stoppedBy_keeps h540
      · extract_lets +onlyGivenNames -merge -underBinder x541 x542 x543
        have h544 : Keeps s0 x543 := State.modShard_keeps (chargeWait_keeps h540)
        exact succeed_keeps h544

theorem shdExportStart_keeps {a1 a2} (h2 : Keeps s0 a2) :
    Keeps s0 (shdExportStart a1 a2) := by
  unfold shdExportStart
  split
  · exact h2
  · split
    · exact fail_keeps h2
    · split
      · exact fail_keeps h2
      · exact State.modLive_keeps h2
      · extract_lets +onlyGivenNames -merge -underBinder x545 x546 x547 x548 x549 x551
        have h550 : Keeps s0 x549.1 := keeps_fst_of (writeRange_keeps h2) rfl
        have h552 : Keeps s0 x551 := State.modLive_keeps h550
        exact keeps_ite (succeed_keeps (chargeWait_keeps (State.modLive_keeps h552))) (stoppedBy_keeps h552)

theorem shdStatusStart_keeps {a1 a2} (h2 : Keeps s0 a2) :
    Keeps s0 (shdStatusStart a1 a2) := by
  unfold shdStatusStart
  split
  · exact h2
  · split
    · exact fail_keeps h2
    · extract_lets +onlyGivenNames -merge -underBinder x553
      exact succeed_keeps h2

theorem shdReadStart_keeps {a1 a2} (h2 : Keeps s0 a2) :
    Keeps s0 (shdReadStart a1 a2) := by
  unfold shdReadStart
  split
  · exact h2
  · split
    · exact fail_keeps h2
    · split
      · exact succeed_keeps h2
      · exact fail_keeps h2
      · exact State.modLive_keeps h2

theorem loseSums_keeps {a1 a2} (h2 : Keeps s0 a2) :
    Keeps s0 (loseSums a1 a2) := by
  unfold loseSums
  refine foldOver_keeps ?_ ?_
  · intro _ _ h554
    extract_lets +onlyGivenNames -merge -underBinder x555
    refine keeps_ite ?_ ?_
    · exact h554
    · extract_lets +onlyGivenNames -merge -underBinder x556 x558
      have h557 : Keeps s0 x556 := State.modShard_keeps h554
      have h559 : Keeps s0 x558 := foldOver_keeps (fun _ _ h560 => raiseAttention_keeps (dropChunk_keeps h560)) h557
      exact addLog_keeps h559
  · exact h2

theorem dealScan_keeps {a1} (h1 : Keeps s0 a1) :
    Keeps s0 (dealScan a1) := by
  unfold dealScan
  extract_lets +onlyGivenNames -merge -underBinder x561 x562
  exact foldOver_keeps (fun _ _ h563 => State.modPart_keeps h563) h1

theorem logPart_keeps {a1 a2} (h2 : Keeps s0 a2) :
    Keeps s0 (logPart a1 a2) := by
  unfold logPart
  exact addLog_keeps h2

theorem logCtx_keeps {a1 a2 a3 a4} (h4 : Keeps s0 a4) :
    Keeps s0 (logCtx a1 a2 a3 a4) := by
  unfold logCtx
  exact addLog_keeps h4

theorem parCreateStart_keeps {a1 a2} (h2 : Keeps s0 a2) :
    Keeps s0 (parCreateStart a1 a2) := by
  unfold parCreateStart
  split
  · exact h2
  · extract_lets +onlyGivenNames -merge -underBinder x564 x565 x566 x567
    have h568 : Keeps s0 x567 := keeps_ite (Keeps.frame h2 rfl rfl rfl rfl rfl rfl rfl rfl rfl) (dealScan_keeps
        (Keeps.frame h2 rfl rfl rfl rfl rfl rfl rfl rfl rfl))
    exact succeed_keeps (logPart_keeps h568)

theorem unmapAll_keeps {a1 a2} (h2 : Keeps s0 a2) :
    Keeps s0 (unmapAll a1 a2) := by
  unfold unmapAll
  extract_lets +onlyGivenNames -merge -underBinder x569
  exact Keeps.frame h2 rfl rfl rfl rfl rfl rfl rfl rfl rfl

theorem parDeleteStart_keeps {a1 a2} (h2 : Keeps s0 a2) :
    Keeps s0 (parDeleteStart a1 a2) := by
  unfold parDeleteStart
  split
  · exact h2
  · extract_lets +onlyGivenNames -merge -underBinder x570 x571 x573
    have h572 : Keeps s0 x571 := unmapAll_keeps h2
    have h574 : Keeps s0 x573 := Keeps.frame h572 rfl rfl rfl rfl rfl rfl rfl rfl rfl
    exact succeed_keeps (refreshFenced_keeps (logPart_keeps (dealScan_keeps h574)))

theorem logClipped_keeps {a1 a2 a3 a4 a5 a6} (h6 : Keeps s0 a6) :
    Keeps s0 (logClipped a1 a2 a3 a4 a5 a6) := by
  unfold logClipped
  exact keeps_ite h6 (addLog_keeps h6)

theorem parSharesStart_keeps {a1 a2} (h2 : Keeps s0 a2) :
    Keeps s0 (parSharesStart a1 a2) := by
  unfold parSharesStart
  split
  · exact h2
  · extract_lets +onlyGivenNames -merge -underBinder x575 x576 x577 x578 x579 x580 x582 x584
    have h581 : Keeps s0 x580 := State.modPart_keeps h2
    have h583 : Keeps s0 x582 := keeps_ite h581 (logClipped_keeps h581)
    have h585 : Keeps s0 x584 := keeps_ite h583 (logClipped_keeps h583)
    exact succeed_keeps (logPart_keeps h585)

theorem parSwatchStart_keeps {a1 a2} (h2 : Keeps s0 a2) :
    Keeps s0 (parSwatchStart a1 a2) := by
  unfold parSwatchStart
  split
  · exact h2
  · extract_lets +onlyGivenNames -merge -underBinder x586
    have h587 : Keeps s0 x586 := State.modPart_keeps h2
    exact succeed_keeps (dropUnplaceable_keeps (logPart_keeps h587))

theorem parQueryStart_keeps {a1 a2} (h2 : Keeps s0 a2) :
    Keeps s0 (parQueryStart a1 a2) := by
  unfold parQueryStart
  extract_lets +onlyGivenNames -merge -underBinder x588
  exact succeed_keeps h2

theorem logAffinity_keeps {a1 a2 a3 a4 a5} (h5 : Keeps s0 a5) :
    Keeps s0 (logAffinity a1 a2 a3 a4 a5) := by
  unfold logAffinity
  extract_lets +onlyGivenNames -merge -underBinder x589
  exact keeps_ite h5 (keeps_ite (addLog_keeps h5) (addLog_keeps h5))

theorem pinSaves_keeps {a1 a2 a3 a4} (h4 : Keeps s0 a4) : Keeps s0 (pinSaves a1 a2 a3 a4).1 := by
  induction a3 generalizing a4 with
  | nil => exact h4
  | cons d r ih =>
    unfold pinSaves
    have h : Keeps s0 (pinFrames d a1 a2 a4).1 := pinFrames_keeps h4
    generalize pinFrames d a1 a2 a4 = f at h ⊢
    dsimp only
    split
    · exact ih h
    · exact h

theorem ctxCreateStart_keeps {a1 a2} (h2 : Keeps s0 a2) :
    Keeps s0 (ctxCreateStart a1 a2) := by
  unfold ctxCreateStart
  split
  · exact h2
  · extract_lets +onlyGivenNames -merge -underBinder x590 x591 x592 x593
    have h594 : Keeps s0 x593.1 := keeps_fst_of (pinSaves_keeps h2) rfl
    clear_value x593
    split
    · extract_lets +onlyGivenNames -merge -underBinder x595 x596 x597
      have h598 : Keeps s0 x597 := foldOver_keeps (fun _ _ h599 => State.modDie_keeps h599) h594
      exact succeed_keeps (logAffinity_keeps (logCtx_keeps (Keeps.frame h598 rfl rfl rfl rfl rfl rfl rfl rfl rfl)))
    · exact waitOnPage_keeps h594
    · exact fail_keeps h594

theorem endSeqs_keeps {a1 a2 a3 a4} (h4 : Keeps s0 a4) :
    Keeps s0 (endSeqs a1 a2 a3 a4) := by
  unfold endSeqs
  extract_lets +onlyGivenNames -merge -underBinder x600
  have h601 : Keeps s0 x600 := foldOver_keeps (fun _ _ h602 => fail_keeps h602) h4
  exact foldOver_keeps (fun _ _ h603 => Keeps.frame h603 rfl rfl rfl rfl rfl rfl rfl rfl rfl) h601

theorem dropCtx_keeps {a1 a2} (h2 : Keeps s0 a2) :
    Keeps s0 (dropCtx a1 a2) := by
  unfold dropCtx
  split
  · exact h2
  · extract_lets +onlyGivenNames -merge -underBinder x604 x605 x607 x608 x611
    have h606 : Keeps s0 x605 := abortAll_keeps h2
    have h609 : Keeps s0 x608 := foldOver_keeps (fun _ _ h610 => endSeqs_keeps h610) h606
    have h612 : Keeps s0 x611 := foldOver_keeps (fun _ _ h613 => State.modDie_keeps h613) h609
    exact Keeps.frame h612 rfl rfl rfl rfl rfl rfl rfl rfl rfl

theorem ctxDeleteStart_keeps {a1 a2} (h2 : Keeps s0 a2) :
    Keeps s0 (ctxDeleteStart a1 a2) := by
  unfold ctxDeleteStart
  split
  · exact h2
  · exact succeed_keeps (logCtx_keeps (dropCtx_keeps h2))

theorem ctxSetStart_keeps {a1 a2} (h2 : Keeps s0 a2) :
    Keeps s0 (ctxSetStart a1 a2) := by
  unfold ctxSetStart
  split
  · exact h2
  · extract_lets +onlyGivenNames -merge -underBinder x614 x615 x616 x617 x619
    have h618 : Keeps s0 x617 := State.modCtx_keeps h2
    have h620 : Keeps s0 x619 := keeps_ite h618 (logAffinity_keeps h618)
    exact succeed_keeps (dropUnplaceable_keeps (logCtx_keeps h620))

theorem clearCounters_keeps {a1 a2 a3} (h3 : Keeps s0 a3) :
    Keeps s0 (clearCounters a1 a2 a3) := by
  unfold clearCounters
  extract_lets +onlyGivenNames -merge -underBinder x621
  have h622 : Keeps s0 x621 := State.modCtx_keeps h3
  exact Keeps.frame h622 rfl rfl rfl rfl rfl rfl rfl rfl rfl

theorem ctxCountersStart_keeps {a1 a2} (h2 : Keeps s0 a2) :
    Keeps s0 (ctxCountersStart a1 a2) := by
  unfold ctxCountersStart
  split
  · exact h2
  · split
    · exact fail_keeps h2
    · exact succeed_keeps (keeps_ite (clearCounters_keeps h2) h2)

theorem ctxQueryStart_keeps {a1 a2} (h2 : Keeps s0 a2) :
    Keeps s0 (ctxQueryStart a1 a2) := by
  unfold ctxQueryStart
  split
  · exact h2
  · extract_lets +onlyGivenNames -merge -underBinder x623
    exact succeed_keeps h2

theorem srvOpenStart_keeps {a1 a2} (h2 : Keeps s0 a2) :
    Keeps s0 (srvOpenStart a1 a2) := by
  unfold srvOpenStart
  split
  · exact h2
  · extract_lets +onlyGivenNames -merge -underBinder x624 x625
    exact succeed_keeps (Keeps.frame h2 rfl rfl rfl rfl rfl rfl rfl rfl rfl)

theorem addSeq_keeps {a1 a2 a3 a4 a5 a6 a7 a8} (h8 : Keeps s0 a8) :
    Keeps s0 (addSeq a1 a2 a3 a4 a5 a6 a7 a8) := by
  unfold addSeq
  extract_lets +onlyGivenNames -merge -underBinder x626
  exact Keeps.frame h8 rfl rfl rfl rfl rfl rfl rfl rfl rfl

theorem srvSubmitStart_keeps {a1 a2} (h2 : Keeps s0 a2) :
    Keeps s0 (srvSubmitStart a1 a2) := by
  unfold srvSubmitStart
  split
  · exact h2
  · extract_lets +onlyGivenNames -merge -underBinder x627
    exact addSeq_keeps (State.modLive_keeps h2)

theorem srvCancelStart_keeps {a1 a2} (h2 : Keeps s0 a2) :
    Keeps s0 (srvCancelStart a1 a2) := by
  unfold srvCancelStart
  split
  · exact h2
  · extract_lets +onlyGivenNames -merge -underBinder x628 x629
    split
    · exact fail_keeps h2
    · refine keeps_ite ?_ ?_
      · extract_lets +onlyGivenNames -merge -underBinder x630
        exact succeed_keeps (Keeps.frame h2 rfl rfl rfl rfl rfl rfl rfl rfl rfl)
      · extract_lets +onlyGivenNames -merge -underBinder x631 x632
        have h633 : Keeps s0 x632 := endSeqs_keeps (Keeps.frame h2 rfl rfl rfl rfl rfl rfl rfl rfl rfl)
        exact succeed_keeps h633

theorem srvCloseStart_keeps {a1 a2} (h2 : Keeps s0 a2) :
    Keeps s0 (srvCloseStart a1 a2) := by
  unfold srvCloseStart
  split
  · exact h2
  · exact succeed_keeps (Keeps.frame h2 rfl rfl rfl rfl rfl rfl rfl rfl rfl)

theorem setStep_keeps {a1 a2 a3 a4 a5} (h5 : Keeps s0 a5) :
    Keeps s0 (setStep a1 a2 a3 a4 a5) := by
  unfold setStep
  exact Keeps.frame h5 rfl rfl rfl rfl rfl rfl rfl rfl rfl

theorem batchEnter_keeps {a1 a2 a3 a4} (h4 : Keeps s0 a4) : Keeps s0 (batchEnter a1 a2 a3 a4) := by
  unfold batchEnter
  extract_lets +onlyGivenNames -merge -underBinder c
  split
  · exact setStep_keeps h4
  · rename_i hr
    extract_lets +onlyGivenNames -merge -underBinder s1
    have h1 : Keeps s0 s1 := setStep_keeps (enterTable_keeps (refusal_room hr) h4)
    split
    · exact h1
    · exact keeps_ite h1 (prgRunStart_keeps h1)

theorem batchWritten_keeps {a1 a2 a3 a4 a5} (h5 : Keeps s0 a5) :
    Keeps s0 (batchWritten a1 a2 a3 a4 a5) := by
  unfold batchWritten
  split
  · exact h5
  · exact setStep_keeps h5
  · exact setStep_keeps h5
  · exact batchEnter_keeps h5

theorem batchAssemble_keeps {a1 a2} (h2 : Keeps s0 a2) :
    Keeps s0 (batchAssemble a1 a2) := by
  unfold batchAssemble
  split
  · exact h2
  · extract_lets +onlyGivenNames -merge -underBinder x637
    refine keeps_ite ?_ ?_
    · exact h2
    · extract_lets +onlyGivenNames -merge -underBinder x638 x639
      have h640 : Keeps s0 x639.1 := keeps_fst_of (writeRange_keeps h2) rfl
      exact batchWritten_keeps h640

theorem servingStepComplete_keeps {a1 a2} (h2 : Keeps s0 a2) :
    Keeps s0 (servingStepComplete a1 a2) := by
  unfold servingStepComplete
  split
  · exact h2
  · split
    · extract_lets +onlyGivenNames -merge -underBinder x641 x642 x643 x644
      refine foldOver_keeps ?_ ?_
      · intro _ _ h645
        split
        · exact endSeqs_keeps h645
        · exact h645
      · exact Keeps.frame h2 rfl rfl rfl rfl rfl rfl rfl rfl rfl
    · exact h2

theorem chargeUj_keeps {a1 a2 a3} (h3 : Keeps s0 a3) :
    Keeps s0 (chargeUj a1 a2 a3) := by
  unfold chargeUj
  exact State.count_keeps h3

theorem chargeNone_keeps {a1 a2} (h2 : Keeps s0 a2) :
    Keeps s0 (chargeNone a1 a2) := by
  unfold chargeNone
  exact Keeps.frame h2 rfl rfl rfl rfl rfl rfl rfl rfl rfl

theorem chargeSplit_keeps {a1 a2 a3} (h3 : Keeps s0 a3) :
    Keeps s0 (chargeSplit a1 a2 a3) := by
  unfold chargeSplit
  extract_lets +onlyGivenNames -merge -underBinder x646
  refine keeps_ite ?_ ?_
  · exact chargeNone_keeps h3
  · extract_lets +onlyGivenNames -merge -underBinder x647
    exact chargeNone_keeps (foldOver_keeps (fun _ _ h648 => chargeUj_keeps h648) h3)

theorem energyTick_keeps {a1 a2} (h2 : Keeps s0 a2) :
    Keeps s0 (energyTick a1 a2) := by
  unfold energyTick
  extract_lets +onlyGivenNames -merge -underBinder x649
  have h650 : Keeps s0 x649 := foldOver_keeps (fun _ _ h651 => chargeSplit_keeps h651) h2
  exact Keeps.frame h650 rfl rfl rfl rfl rfl rfl rfl rfl rfl

theorem State.modCol_keeps {a1 a2 a3} (h3 : Keeps s0 a3) :
    Keeps s0 (State.modCol a1 a2 a3) := by
  unfold State.modCol
  exact Keeps.frame h3 rfl rfl rfl rfl rfl rfl rfl rfl rfl

theorem openSearch_keeps {a1 a2} (h2 : Keeps s0 a2) :
    Keeps s0 (openSearch a1 a2) := by
  unfold openSearch
  split
  · exact Keeps.frame h2 rfl rfl rfl rfl rfl rfl rfl rfl rfl
  · exact h2

theorem makeCol_keeps {a1 a2 a3 a4 a5} (h5 : Keeps s0 a5) :
    Keeps s0 (makeCol a1 a2 a3 a4 a5) := by
  unfold makeCol
  extract_lets +onlyGivenNames -merge -underBinder x652 x653 x654
  have h655 : ∀ s, Keeps s0 s → Keeps s0 (x654 s) := by
    subst x654
    intro _ h656
    dsimp -zeta only
    extract_lets +onlyGivenNames -merge -underBinder x657 _ x659
    have h658 : Keeps s0 x657 := State.modPart_keeps (State.modDie_keeps h656)
    have h660 : Keeps s0 x659 := Keeps.frame h658 rfl rfl rfl rfl rfl rfl rfl rfl rfl
    exact succeed_keeps (chargeWait_keeps (openSearch_keeps h660))
  clear_value x654
  exact withFrames_keeps (fun _ h661 => h655 _ h661) (pinFrames_keeps h5)

theorem colCreateStart_keeps {a1 a2} (h2 : Keeps s0 a2) :
    Keeps s0 (colCreateStart a1 a2) := by
  unfold colCreateStart
  split
  · exact h2
  · exact makeCol_keeps h2

theorem colDeleteStart_keeps {a1 a2} (h2 : Keeps s0 a2) :
    Keeps s0 (colDeleteStart a1 a2) := by
  unfold colDeleteStart
  split
  · exact h2
  · split
    · exact fail_keeps h2
    · extract_lets +onlyGivenNames -merge -underBinder x662 x663 x664 _ x666 x668
      have h665 : Keeps s0 x664 := State.modPart_keeps (State.modDie_keeps h2)
      have h667 : Keeps s0 x666 := Keeps.frame h665 rfl rfl rfl rfl rfl rfl rfl rfl rfl
      have h669 : Keeps s0 x668 := keeps_ite h667 (Keeps.frame h667 rfl rfl rfl rfl rfl rfl rfl rfl rfl)
      exact succeed_keeps h669

theorem colSetLanded_keeps {a1 a2 a3} (h3 : Keeps s0 a3) :
    Keeps s0 (colSetLanded a1 a2 a3) := by
  unfold colSetLanded
  split
  · exact h3
  · extract_lets +onlyGivenNames -merge -underBinder x670
    exact keeps_ite (fail_keeps h3) (keeps_ite (fail_keeps h3) (succeed_keeps (State.modCol_keeps h3)))

theorem mutationGrant_keeps {a1 a2} (h2 : Keeps s0 a2) :
    Keeps s0 (mutationGrant a1 a2) := by
  unfold mutationGrant
  split
  · exact h2
  · exact keeps_ite (State.modLive_keeps h2) h2

theorem colInsertLanded_keeps {a1 a2} (h2 : Keeps s0 a2) :
    Keeps s0 (colInsertLanded a1 a2) := by
  unfold colInsertLanded
  split
  · exact h2
  · split
    · exact fail_keeps h2
    · extract_lets +onlyGivenNames -merge -underBinder x671
      split
      · exact fail_keeps h2
      · refine keeps_ite ?_ ?_
        · exact fail_keeps h2
        · extract_lets +onlyGivenNames -merge -underBinder x672
          have h673 : Keeps s0 x672 := State.modCol_keeps h2
          exact succeed_keeps (State.count_keeps h673)

theorem colRemoveLanded_keeps {a1 a2} (h2 : Keeps s0 a2) :
    Keeps s0 (colRemoveLanded a1 a2) := by
  unfold colRemoveLanded
  split
  · exact h2
  · extract_lets +onlyGivenNames -merge -underBinder x674 x675
    split
    · exact fail_keeps h2
    · extract_lets +onlyGivenNames -merge -underBinder x676
      exact succeed_keeps (State.modCol_keeps h2)

theorem compact_keeps {a1 a2} (h2 : Keeps s0 a2) :
    Keeps s0 (compact a1 a2) := by
  unfold compact
  exact keeps_ite h2 (State.modCol_keeps h2)

theorem publishOne_keeps {a1 a2} (h2 : Keeps s0 a2) :
    Keeps s0 (publishOne a1 a2) := by
  unfold publishOne
  split
  · exact h2
  · split
    · exact h2
    · refine keeps_ite ?_ ?_
      · exact h2
      · extract_lets +onlyGivenNames -merge -underBinder x677 x679
        have h678 : Keeps s0 x677 := State.modCol_keeps h2
        have h680 : Keeps s0 x679 := keeps_ite (compact_keeps h678) h678
        split
        · exact succeed_keeps h680
        · exact h680

theorem publishReady_keeps {a1} (h1 : Keeps s0 a1) :
    Keeps s0 (publishReady a1) := by
  unfold publishReady
  exact foldOver_keeps (fun _ _ h681 => publishOne_keeps h681) h1

theorem colPublishStart_keeps {a1 a2} (h2 : Keeps s0 a2) :
    Keeps s0 (colPublishStart a1 a2) := by
  unfold colPublishStart
  split
  · exact h2
  · exact publishReady_keeps (State.modLive_keeps (State.modCol_keeps h2))

theorem autoPublish_keeps {a1 a2} (h2 : Keeps s0 a2) :
    Keeps s0 (autoPublish a1 a2) := by
  unfold autoPublish
  split
  · exact h2
  · refine keeps_ite ?_ ?_
    · exact h2
    · extract_lets +onlyGivenNames -merge -underBinder x682 x683
      have h684 : Keeps s0 x683 := State.modCol_keeps h2
      exact keeps_ite (publishReady_keeps (State.modCol_keeps h684)) h684

theorem colCompactStart_keeps {a1 a2} (h2 : Keeps s0 a2) :
    Keeps s0 (colCompactStart a1 a2) := by
  unfold colCompactStart
  split
  · exact h2
  · exact succeed_keeps (compact_keeps h2)

theorem graphLink_keeps {a1 a2 a3} (h3 : Keeps s0 a3) :
    Keeps s0 (graphLink a1 a2 a3) := by
  unfold graphLink
  split
  · exact h3
  · split
    · exact h3
    · refine keeps_ite ?_ ?_
      · extract_lets +onlyGivenNames -merge -underBinder x685 x686
        exact State.modCol_keeps h3
      · exact h3

theorem startParcels_keeps {a1 a2 a3} (h3 : Keeps s0 a3) : Keeps s0 (startParcels a1 a2 a3) := by
  induction a2 generalizing a3 with
  | zero => exact h3
  | succ n ih =>
    unfold startParcels
    split
    · split
      · exact h3
      · refine keeps_ite (h3.frame rfl rfl rfl rfl rfl rfl rfl rfl rfl) (keeps_ite h3 ?_)
        exact ih (addTask_keeps (h3.frame rfl rfl rfl rfl rfl rfl rfl rfl rfl))
    · exact h3

theorem queryGo_keeps {a1 a2} (h2 : Keeps s0 a2) :
    Keeps s0 (queryGo a1 a2) := by
  unfold queryGo
  extract_lets +onlyGivenNames -merge -underBinder x687
  have h688 : Keeps s0 x687 := startParcels_keeps h2
  split
  · exact h688
  · refine keeps_ite ?_ ?_
    · split
      · exact h688
      · exact succeed_keeps (stopWork_keeps h688)
    · exact h688

theorem colQueryLanded_keeps {a1 a2} (h2 : Keeps s0 a2) :
    Keeps s0 (colQueryLanded a1 a2) := by
  unfold colQueryLanded
  split
  · exact h2
  · split
    · exact fail_keeps h2
    · extract_lets +onlyGivenNames -merge -underBinder x689 x690 x691
      refine keeps_ite ?_ ?_
      · exact fail_keeps h2
      · refine keeps_ite ?_ ?_
        · exact fail_keeps h2
        · extract_lets +onlyGivenNames -merge -underBinder x692 x693 x694 x695 x696 x697 x698 x699
          exact queryGo_keeps (State.modLive_keeps (Keeps.frame h2 rfl rfl rfl rfl rfl rfl rfl rfl rfl))

theorem releaseScan_keeps {a1 a2 a3} (h3 : Keeps s0 a3) :
    Keeps s0 (releaseScan a1 a2 a3) := by
  unfold releaseScan
  split
  · exact h3
  · extract_lets +onlyGivenNames -merge -underBinder x700 x701
    have h702 : Keeps s0 x701 := Keeps.frame h3 rfl rfl rfl rfl rfl rfl rfl rfl rfl
    exact State.count_keeps h702

theorem queryUnreadable_keeps {a1 a2 a3} (h3 : Keeps s0 a3) :
    Keeps s0 (queryUnreadable a1 a2 a3) := by
  unfold queryUnreadable
  exact fail_keeps (stopWork_keeps h3)

theorem parcelScanned_keeps {a1 a2 a3 a4} (h4 : Keeps s0 a4) :
    Keeps s0 (parcelScanned a1 a2 a3 a4) := by
  unfold parcelScanned
  split
  · split
    · exact h4
    · refine keeps_ite ?_ ?_
      · extract_lets +onlyGivenNames -merge -underBinder x703
        have h704 : Keeps s0 x703 := releaseScan_keeps h4
        refine keeps_ite ?_ ?_
        · exact queryUnreadable_keeps h704
        · extract_lets +onlyGivenNames -merge -underBinder x705 x706 x707 x708 x709
          have h710 : Keeps s0 x709 := State.count_keeps h704
          exact queryGo_keeps (Keeps.frame h710 rfl rfl rfl rfl rfl rfl rfl rfl rfl)
      · exact h4
  · exact h4

theorem survivorEvaluated_keeps {a1 a2 a3} (h3 : Keeps s0 a3) :
    Keeps s0 (survivorEvaluated a1 a2 a3) := by
  unfold survivorEvaluated
  split
  · exact h3
  · split
    · split
      · exact queryGo_keeps (Keeps.frame h3 rfl rfl rfl rfl rfl rfl rfl rfl rfl)
      · refine keeps_ite ?_ ?_
        · exact fail_keeps (stopWork_keeps h3)
        · extract_lets +onlyGivenNames -merge -underBinder x711 x712 x713
          have h714 : Keeps s0 x713 := State.count_keeps h3
          exact queryGo_keeps (Keeps.frame h714 rfl rfl rfl rfl rfl rfl rfl rfl rfl)
    · exact h3

theorem colFetchLanded_keeps {a1 a2} (h2 : Keeps s0 a2) :
    Keeps s0 (colFetchLanded a1 a2) := by
  unfold colFetchLanded
  split
  · exact h2
  · split
    · exact fail_keeps h2
    · extract_lets +onlyGivenNames -merge -underBinder x715 x716 x717 x718
      exact succeed_keeps (State.count_keeps h2)

theorem colStatusStart_keeps {a1 a2} (h2 : Keeps s0 a2) :
    Keeps s0 (colStatusStart a1 a2) := by
  unfold colStatusStart
  split
  · exact h2
  · split
    · exact fail_keeps h2
    · extract_lets +onlyGivenNames -merge -underBinder x718 x719
      exact succeed_keeps h2

end Sys2Proof.Machine
end

