-- ==== Sys2Proof/Laws/KeepsMedia.lean ====
section
/-! SUPPORT. What every change of state keeps (`Keeps`), for media, leases and scans. -/

namespace Sys2Proof.Machine

variable {s0 s : State}

theorem dropValid_keeps {a1 a2} (h2 : Keeps s0 a2) :
    Keeps s0 (dropValid a1 a2) := by
  unfold dropValid
  refine keeps_ite ?_ ?_
  · extract_lets +onlyGivenNames -merge -underBinder x720
    exact State.modGroup_keeps h2
  · exact h2

theorem countRead_keeps {a1 a2} (h2 : Keeps s0 a2) :
    Keeps s0 (countRead a1 a2) := by
  unfold countRead
  refine keeps_ite ?_ ?_
  · extract_lets +onlyGivenNames -merge -underBinder x721
    exact State.modGroup_keeps h2
  · exact h2

theorem placeUnit_keeps {a1 a2 a3} (h3 : Keeps s0 a3) :
    Keeps s0 (placeUnit a1 a2 a3).1 := by
  unfold placeUnit
  extract_lets +onlyGivenNames -merge -underBinder x722 x723 _ x724
  have h725 : Keeps s0 x724 := Keeps.frame h3 rfl rfl rfl rfl rfl rfl rfl rfl rfl
  split
  · exact keeps_fst (State.modGroup_keeps h725)
  · exact keeps_fst h725

theorem dropUngranted_keeps {a1} (h1 : Keeps s0 a1) :
    Keeps s0 (dropUngranted a1) := by
  unfold dropUngranted
  exact abortAll_keeps h1

theorem checkCapacity_keeps {a1} (h1 : Keeps s0 a1) :
    Keeps s0 (checkCapacity a1) := by
  unfold checkCapacity
  extract_lets +onlyGivenNames -merge -underBinder x726 x727
  have h728 : Keeps s0 x727 := keeps_ite (degrade_keeps (logHw_keeps h1)) h1
  exact keeps_ite (dropUngranted_keeps (setStatus_keeps (logHw_keeps h728))) h728

theorem retireBlock_keeps {a1 a2 a3 a4} (h4 : Keeps s0 a4) :
    Keeps s0 (retireBlock a1 a2 a3 a4) := by
  unfold retireBlock
  exact keeps_ite h4 (checkCapacity_keeps (addLog_keeps (State.modGroup_keeps h4)))

theorem State.modVol_keeps {a1 a2 a3} (h3 : Keeps s0 a3) :
    Keeps s0 (State.modVol a1 a2 a3) := by
  unfold State.modVol
  exact Keeps.frame h3 rfl rfl rfl rfl rfl rfl rfl rfl rfl

theorem pinAbsorb_keeps {a1 a2 a3 a4} (h4 : Keeps s0 a4) : Keeps s0 (pinAbsorb a1 a2 a3 a4).1 := by
  induction a3 generalizing a4 with
  | nil => exact h4
  | cons d r ih =>
    unfold pinAbsorb
    have h : Keeps s0 (pinFrames d (absorbFrames a1 d) a2 a4).1 := pinFrames_keeps h4
    generalize pinFrames d (absorbFrames a1 d) a2 a4 = f at h ⊢
    dsimp only
    split
    · exact ih (State.modDie_keeps h)
    · exact h

theorem takeAbsorb_keeps {a1 a2 a3} (h3 : Keeps s0 a3) :
    Keeps s0 (takeAbsorb a1 a2 a3).1 := by
  unfold takeAbsorb
  refine keeps_ite1 ?_ ?_
  · exact keeps_fst h3
  · extract_lets +onlyGivenNames -merge -underBinder x729
    have h730 : Keeps s0 x729.1 := keeps_fst_of (pinAbsorb_keeps h3) rfl
    exact keeps_ite1 (keeps_fst (State.modPart_keeps h730)) (keeps_fst h3)

theorem freeAbsorb_keeps {a1 a2} (h2 : Keeps s0 a2) :
    Keeps s0 (freeAbsorb a1 a2) := by
  unfold freeAbsorb
  split
  · exact h2
  · exact foldOver_keeps (fun _ _ h731 => State.modDie_keeps h731) (State.modPart_keeps h2)

theorem makeVol_keeps {a1 a2 a3 a4} (h4 : Keeps s0 a4) :
    Keeps s0 (makeVol a1 a2 a3 a4) := by
  unfold makeVol
  extract_lets +onlyGivenNames -merge -underBinder x732 x733 x734
  have h735 : Keeps s0 x734.1 := keeps_ite1 (keeps_fst h4) (takeAbsorb_keeps h4)
  clear_value x734
  split
  · exact fail_keeps h735
  · exact waitOnPage_keeps h735
  · extract_lets +onlyGivenNames -merge -underBinder x736 x737 _ x739
    have h738 : Keeps s0 x737 := h735
    have h740 : Keeps s0 x739 := Keeps.frame h738 rfl rfl rfl rfl rfl rfl rfl rfl rfl
    exact succeed_keeps (addLog_keeps h740)

theorem volCreateStart_keeps {a1 a2} (h2 : Keeps s0 a2) :
    Keeps s0 (volCreateStart a1 a2) := by
  unfold volCreateStart
  split
  · exact h2
  · exact makeVol_keeps (Keeps.frame h2 rfl rfl rfl rfl rfl rfl rfl rfl rfl)

theorem volCreateLanded_keeps {a1 a2} (h2 : Keeps s0 a2) :
    Keeps s0 (volCreateLanded a1 a2) := by
  unfold volCreateLanded
  split
  · exact h2
  · extract_lets +onlyGivenNames -merge -underBinder x741
    exact keeps_ite (fail_keeps h2) (makeVol_keeps h2)

theorem volReadStart_keeps {a1 a2} (h2 : Keeps s0 a2) :
    Keeps s0 (volReadStart a1 a2) := by
  unfold volReadStart
  split
  · exact h2
  · split
    · exact fail_keeps h2
    · extract_lets +onlyGivenNames -merge -underBinder x742 x743 x744
      have h745 : Keeps s0 x744 := foldOver_keeps (fun _ _ h746 => countRead_keeps h746) h2
      exact keeps_ite (finish_keeps h745) (succeed_keeps (State.count_keeps h745))

theorem sendRecall_keeps {a1 a2 a3} (h3 : Keeps s0 a3) :
    Keeps s0 (sendRecall a1 a2 a3) := by
  unfold sendRecall
  extract_lets +onlyGivenNames -merge -underBinder x747 x748 x749 x750
  exact sendUnit_keeps (Keeps.frame h3 rfl rfl rfl rfl rfl rfl rfl rfl rfl)

theorem recallRange_keeps {a1 a2 a3 a4 a5} (h5 : Keeps s0 a5) :
    Keeps s0 (recallRange a1 a2 a3 a4 a5) := by
  unfold recallRange
  extract_lets +onlyGivenNames -merge -underBinder x751 x752
  have h753 : Keeps s0 x752 := by
    subst x752
    refine foldOver_keeps ?_ ?_
    · intro _ _ h754
      split
      · exact keeps_ite (sendRecall_keeps (Keeps.frame h754 rfl rfl rfl rfl rfl rfl rfl rfl rfl)) h754
      · exact h754
    · exact h5
  exact State.modLive_keeps h753

theorem remapUnit_keeps {a1 a2 a3} (h3 : Keeps s0 a3) :
    Keeps s0 (remapUnit a1 a2 a3) := by
  unfold remapUnit
  split
  · exact h3
  · extract_lets +onlyGivenNames -merge -underBinder x755
    have h756 : Keeps s0 x755.1 := keeps_fst_of (placeUnit_keeps (dropValid_keeps h3)) rfl
    exact State.modVol_keeps h756

theorem writeMedia_keeps {a1 a2 a3 a4} (h4 : Keeps s0 a4) :
    Keeps s0 (writeMedia a1 a2 a3 a4) := by
  unfold writeMedia
  exact State.modVol_keeps (foldOver_keeps (fun _ _ h757 => remapUnit_keeps h757) h4)

theorem ackMedia_keeps {a1 a2 a3} (h3 : Keeps s0 a3) :
    Keeps s0 (ackMedia a1 a2 a3) := by
  unfold ackMedia
  extract_lets +onlyGivenNames -merge -underBinder x758
  have h759 : Keeps s0 x758 := State.modLive_keeps h3
  split
  · exact h759
  · exact keeps_ite h759 (succeed_keeps h759)

theorem volWriteStart_keeps {a1 a2} (h2 : Keeps s0 a2) :
    Keeps s0 (volWriteStart a1 a2) := by
  unfold volWriteStart
  split
  · exact h2
  · split
    · exact fail_keeps h2
    · extract_lets +onlyGivenNames -merge -underBinder x760
      have h761 : Keeps s0 x760 := recallRange_keeps h2
      refine keeps_ite ?_ ?_
      · extract_lets +onlyGivenNames -merge -underBinder x762
        have h763 : Keeps s0 x762.1 := keeps_fst_of (takeAbsorb_keeps h761) rfl
        clear_value x762
        split
        · exact fail_keeps h761
        · exact waitOnPage_keeps h761
        · exact State.modVol_keeps h763
      · exact h761

theorem freeLanding_keeps {a1 a2} (h2 : Keeps s0 a2) :
    Keeps s0 (freeLanding a1 a2) := by
  unfold freeLanding
  exact keeps_ite h2 (Keeps.frame h2 rfl rfl rfl rfl rfl rfl rfl rfl rfl)

theorem volWriteLanded_keeps {a1 a2} (h2 : Keeps s0 a2) :
    Keeps s0 (volWriteLanded a1 a2) := by
  unfold volWriteLanded
  split
  · exact h2
  · split
    · exact fail_keeps h2
    · extract_lets +onlyGivenNames -merge -underBinder x764 x765 x766
      refine keeps_ite ?_ ?_
      · exact State.modLive_keeps h2
      · refine keeps_ite ?_ ?_
        · exact State.modLive_keeps h2
        · refine keeps_ite ?_ ?_
          · extract_lets +onlyGivenNames -merge -underBinder x767
            exact ackMedia_keeps (State.modVol_keeps h2)
          · split
            · exact fail_keeps h2
            · extract_lets +onlyGivenNames -merge -underBinder x768
              have h769 : Keeps s0 x768 := State.modVol_keeps (writeMedia_keeps (freeLanding_keeps h2))
              exact ackMedia_keeps (State.count_keeps h769)

theorem flushReady_keeps {a1 a2} (h2 : Keeps s0 a2) :
    Keeps s0 (flushReady a1 a2) := by
  unfold flushReady
  split
  · exact h2
  · extract_lets +onlyGivenNames -merge -underBinder x770
    exact foldOver_keeps (fun _ _ h771 => succeed_keeps h771) h2

theorem absorbDestage_keeps {a1 a2} (h2 : Keeps s0 a2) :
    Keeps s0 (absorbDestage a1 a2) := by
  unfold absorbDestage
  split
  · exact h2
  · refine keeps_ite ?_ ?_
    · exact h2
    · extract_lets +onlyGivenNames -merge -underBinder x772 x773 x774 x775
      have h776 : Keeps s0 x775 := foldOver_keeps (fun _ _ h777 => writeMedia_keeps h777) h2
      exact flushReady_keeps (State.modVol_keeps h776)

theorem volFlushStart_keeps {a1 a2} (h2 : Keeps s0 a2) :
    Keeps s0 (volFlushStart a1 a2) := by
  unfold volFlushStart
  split
  · exact h2
  · extract_lets +onlyGivenNames -merge -underBinder x778
    exact flushReady_keeps (State.modLive_keeps h2)

theorem zeroUnits_keeps {a1 a2 a3} (h3 : Keeps s0 a3) :
    Keeps s0 (zeroUnits a1 a2 a3) := by
  unfold zeroUnits
  split
  · exact h3
  · extract_lets +onlyGivenNames -merge -underBinder x779
    have h780 : Keeps s0 x779 := foldOver_keeps (fun _ _ h781 => dropValid_keeps h781) h3
    exact State.modVol_keeps h780

theorem volDiscardStart_keeps {a1 a2} (h2 : Keeps s0 a2) :
    Keeps s0 (volDiscardStart a1 a2) := by
  unfold volDiscardStart
  split
  · exact h2
  · extract_lets +onlyGivenNames -merge -underBinder x782 x783 x784 x785
    have h786 : Keeps s0 x785 := recallRange_keeps h2
    refine keeps_ite ?_ ?_
    · exact State.modLive_keeps h786
    · refine keeps_ite ?_ ?_
      · exact State.modLive_keeps h786
      · split
        · exact fail_keeps h786
        · extract_lets +onlyGivenNames -merge -underBinder x787 x788 x789 x790 x791
          split
          · exact fail_keeps h786
          · extract_lets +onlyGivenNames -merge -underBinder x792 x794 x797
            have h793 : Keeps s0 x792 := zeroUnits_keeps h786
            have h795 : Keeps s0 x794 := keeps_ite h793 (foldOver_keeps (fun _ _ h796 => writeMedia_keeps h796) h793)
            exact ackMedia_keeps (State.modVol_keeps h795)

theorem volDeleteStart_keeps {a1 a2} (h2 : Keeps s0 a2) :
    Keeps s0 (volDeleteStart a1 a2) := by
  unfold volDeleteStart
  split
  · exact h2
  · split
    · exact fail_keeps h2
    · extract_lets +onlyGivenNames -merge -underBinder x798
      have h799 : Keeps s0 x798 := recallRange_keeps h2
      refine keeps_ite ?_ ?_
      · exact State.modLive_keeps h799
      · extract_lets +onlyGivenNames -merge -underBinder x800 _ x803
        have h801 : Keeps s0 x800 := freeAbsorb_keeps (foldOver_keeps (fun _ _ h802 => dropValid_keeps h802) h799)
        have h804 : Keeps s0 x803 := Keeps.frame h801 rfl rfl rfl rfl rfl rfl rfl rfl rfl
        exact succeed_keeps (addLog_keeps h804)

theorem volQueryStart_keeps {a1 a2} (h2 : Keeps s0 a2) :
    Keeps s0 (volQueryStart a1 a2) := by
  unfold volQueryStart
  split
  · exact h2
  · split
    · exact fail_keeps h2
    · extract_lets +onlyGivenNames -merge -underBinder x805
      exact succeed_keeps h2

theorem wearCheck_keeps {a1} (h1 : Keeps s0 a1) :
    Keeps s0 (wearCheck a1) := by
  unfold wearCheck
  extract_lets +onlyGivenNames -merge -underBinder x806 x807 x808 x809 x810 x811 x812 x813 _ x814
  have h815 : Keeps s0 x814 := Keeps.frame h1 rfl rfl rfl rfl rfl rfl rfl rfl rfl
  exact keeps_ite h815 (setFlag_keeps (logHw_keeps h815))

theorem startRefresh_keeps {a1 a2 a3} (h3 : Keeps s0 a3) :
    Keeps s0 (startRefresh a1 a2 a3) := by
  unfold startRefresh
  extract_lets +onlyGivenNames -merge -underBinder x816
  split
  · exact h3
  · refine keeps_ite ?_ ?_
    · exact h3
    · extract_lets +onlyGivenNames -merge -underBinder _ x817
      have h818 : Keeps s0 x817 := Keeps.frame h3 rfl rfl rfl rfl rfl rfl rfl rfl rfl
      exact wearCheck_keeps (State.modGroup_keeps h818)

theorem rebuildAt_keeps {a1 a2} (h2 : Keeps s0 a2) :
    Keeps s0 (rebuildAt a1 a2) := by
  unfold rebuildAt
  extract_lets +onlyGivenNames -merge -underBinder x819 x820 _ x821 x823 x825
  have h822 : Keeps s0 x821 := Keeps.frame h2 rfl rfl rfl rfl rfl rfl rfl rfl rfl
  have h824 : Keeps s0 x823 := State.modGroup_keeps h822
  have h826 : Keeps s0 x825 := keeps_ite (retireBlock_keeps h824) h824
  split
  · exact startRefresh_keeps h826
  · exact h826

theorem codewordDecode_keeps {a1 a2 a3 a4} (h4 : Keeps s0 a4) :
    Keeps s0 (codewordDecode a1 a2 a3 a4) := by
  unfold codewordDecode
  split
  · exact h4
  · extract_lets +onlyGivenNames -merge -underBinder x827
    refine keeps_ite ?_ ?_
    · exact h4
    · extract_lets +onlyGivenNames -merge -underBinder x828 _ x829
      have h830 : Keeps s0 x829 := Keeps.frame h4 rfl rfl rfl rfl rfl rfl rfl rfl rfl
      split
      · exact wearCheck_keeps h830
      · exact wearCheck_keeps (rebuildAt_keeps h830)
      · extract_lets +onlyGivenNames -merge -underBinder x831 x832
        have h833 : Keeps s0 x832 := eccUncorrectable_keeps h830
        exact wearCheck_keeps (State.modVol_keeps (dropValid_keeps h833))

theorem closeSuper_keeps {a1 a2 a3} (h3 : Keeps s0 a3) :
    Keeps s0 (closeSuper a1 a2 a3) := by
  unfold closeSuper
  exact State.modGroup_keeps h3

theorem reprogram_keeps {a1 a2 a3 a4 a5} (h5 : Keeps s0 a5) :
    Keeps s0 (reprogram a1 a2 a3 a4 a5) := by
  unfold reprogram
  refine foldOver_keeps ?_ ?_
  · intro _ _ h834
    split
    · exact keeps_ite (remapUnit_keeps h834) h834
    · exact h834
  · exact h5

theorem wordlineDone_keeps {a1 a2 a3 a4} (h4 : Keeps s0 a4) :
    Keeps s0 (wordlineDone a1 a2 a3 a4) := by
  unfold wordlineDone
  extract_lets +onlyGivenNames -merge -underBinder x835
  split
  · exact h4
  · split
    · exact h4
    · refine keeps_ite ?_ ?_
      · extract_lets +onlyGivenNames -merge -underBinder x836 _ x837 x839
        have h838 : Keeps s0 x837 := Keeps.frame h4 rfl rfl rfl rfl rfl rfl rfl rfl rfl
        have h840 : Keeps s0 x839 := State.modGroup_keeps h838
        exact keeps_ite (closeSuper_keeps h840) h840
      · extract_lets +onlyGivenNames -merge -underBinder x841
        have h842 : Keeps s0 x841 := retireBlock_keeps (closeSuper_keeps h4)
        exact reprogram_keeps h842

theorem gcStart_keeps {a1 a2} (h2 : Keeps s0 a2) :
    Keeps s0 (gcStart a1 a2) := by
  unfold gcStart
  extract_lets +onlyGivenNames -merge -underBinder x843 x844 x845 x846 x847
  refine keeps_ite ?_ ?_
  · exact h2
  · clear_value x847
    split
    · exact State.modGroup_keeps h2
    · exact State.modGroup_keeps h2

theorem moveUnit_keeps {a1 a2 a3 a4 a5} (h5 : Keeps s0 a5) :
    Keeps s0 (moveUnit a1 a2 a3 a4 a5) := by
  unfold moveUnit
  split
  · exact h5
  · extract_lets +onlyGivenNames -merge -underBinder x848
    refine keeps_ite ?_ ?_
    · exact h5
    · split
      · exact State.modVol_keeps (dropValid_keeps (countRead_keeps (State.modGroup_keeps h5)))
      · exact remapUnit_keeps h5

theorem eraseIntent_keeps {a1 a2 a3} (h3 : Keeps s0 a3) :
    Keeps s0 (eraseIntent a1 a2 a3) := by
  unfold eraseIntent
  extract_lets +onlyGivenNames -merge -underBinder x849
  split
  · exact h3
  · exact keeps_ite (logHw_keeps h3) (State.modGroup_keeps h3)

theorem gcMove_keeps {a1 a2} (h2 : Keeps s0 a2) :
    Keeps s0 (gcMove a1 a2) := by
  unfold gcMove
  split
  · exact h2
  · split
    · exact h2
    · refine keeps_ite ?_ ?_
      · exact h2
      · extract_lets +onlyGivenNames -merge -underBinder x850
        have h851 : Keeps s0 x850 := foldOver_keeps (fun _ _ h852 => moveUnit_keeps h852) h2
        exact keeps_ite (eraseIntent_keeps h851) h851

theorem eraseDone_keeps {a1 a2 a3} (h3 : Keeps s0 a3) :
    Keeps s0 (eraseDone a1 a2 a3) := by
  unfold eraseDone
  extract_lets +onlyGivenNames -merge -underBinder x853
  split
  · exact h3
  · extract_lets +onlyGivenNames -merge -underBinder x854 x855 x856 x858
    have h857 : Keeps s0 x856 := State.modGroup_keeps h3
    have h859 : Keeps s0 x858 := foldOver_keeps (fun _ _ h860 => retireBlock_keeps h860) h857
    exact State.modGroup_keeps h859

theorem wearLevel_keeps {a1 a2} (h2 : Keeps s0 a2) :
    Keeps s0 (wearLevel a1 a2) := by
  unfold wearLevel
  extract_lets +onlyGivenNames -merge -underBinder x861 x862
  refine keeps_ite ?_ ?_
  · exact h2
  · split
    · exact State.modGroup_keeps h2
    · exact h2

theorem readRefresh_keeps {a1 a2 a3} (h3 : Keeps s0 a3) :
    Keeps s0 (readRefresh a1 a2 a3) := by
  unfold readRefresh
  extract_lets +onlyGivenNames -merge -underBinder x863
  split
  · exact h3
  · exact keeps_ite (startRefresh_keeps h3) h3

theorem patrolRead_keeps {a1 a2 a3 a4 a5} (h5 : Keeps s0 a5) :
    Keeps s0 (patrolRead a1 a2 a3 a4 a5) := by
  unfold patrolRead
  split
  · exact h5
  · refine keeps_ite ?_ ?_
    · exact h5
    · extract_lets +onlyGivenNames -merge -underBinder x864
      have h865 : Keeps s0 x864 := State.modGroup_keeps h5
      exact keeps_ite (startRefresh_keeps h865) h865

theorem retentionRefresh_keeps {a1 a2 a3} (h3 : Keeps s0 a3) :
    Keeps s0 (retentionRefresh a1 a2 a3) := by
  unfold retentionRefresh
  split
  · exact h3
  · exact keeps_ite (startRefresh_keeps h3) h3

theorem eraseSuspend_keeps {a1 a2 a3} (h3 : Keeps s0 a3) :
    Keeps s0 (eraseSuspend a1 a2 a3) := by
  unfold eraseSuspend
  split
  · exact h3
  · extract_lets +onlyGivenNames -merge -underBinder x866
    refine keeps_ite ?_ ?_
    · exact h3
    · extract_lets +onlyGivenNames -merge -underBinder x867
      exact State.modGroup_keeps h3

theorem eraseResume_keeps {a1 a2 a3} (h3 : Keeps s0 a3) :
    Keeps s0 (eraseResume a1 a2 a3) := by
  unfold eraseResume
  split
  · exact h3
  · refine keeps_ite ?_ ?_
    · extract_lets +onlyGivenNames -merge -underBinder x868
      exact State.modGroup_keeps h3
    · exact h3

theorem holdupMeasure_keeps {a1 a2} (h2 : Keeps s0 a2) :
    Keeps s0 (holdupMeasure a1 a2) := by
  unfold holdupMeasure
  extract_lets +onlyGivenNames -merge -underBinder x869 _ x870
  have h871 : Keeps s0 x870 := Keeps.frame h2 rfl rfl rfl rfl rfl rfl rfl rfl rfl
  exact keeps_ite (degrade_keeps (logHw_keeps h871)) (undegrade_keeps h871)

theorem medWearStart_keeps {a1 a2} (h2 : Keeps s0 a2) :
    Keeps s0 (medWearStart a1 a2) := by
  unfold medWearStart
  exact succeed_keeps h2

theorem medPolicyLanded_keeps {a1 a2} (h2 : Keeps s0 a2) :
    Keeps s0 (medPolicyLanded a1 a2) := by
  unfold medPolicyLanded
  split
  · exact h2
  · extract_lets +onlyGivenNames -merge -underBinder x872 x873 _ x874 x876
    have h875 : Keeps s0 x874 := Keeps.frame h2 rfl rfl rfl rfl rfl rfl rfl rfl rfl
    have h877 : Keeps s0 x876 := addLog_keeps h875
    exact succeed_keeps (addLog_keeps h877)

theorem formatPage_keeps {a1 a2 a3} (h3 : Keeps s0 a3) :
    Keeps s0 (formatPage a1 a2 a3) := by
  unfold formatPage
  extract_lets +onlyGivenNames -merge -underBinder x878
  split
  · exact addLog_keeps (setPage_keeps h3)
  · exact setPage_keeps h3
  · exact setPage_keeps h3
  · exact h3

theorem medFormatStart_keeps {a1 a2} (h2 : Keeps s0 a2) :
    Keeps s0 (medFormatStart a1 a2) := by
  unfold medFormatStart
  extract_lets +onlyGivenNames -merge -underBinder x879 x882 x885 x888 _ _ x890
  have h880 : Keeps s0 x879 := foldOver_keeps (fun _ _ h881 => formatPage_keeps h881) h2
  have h883 : Keeps s0 x882 := foldOver_keeps (fun _ _ h884 => freeAbsorb_keeps h884) h880
  have h886 : Keeps s0 x885 := foldOver_keeps (fun _ _ h887 => State.modPart_keeps (State.modDie_keeps h887)) h883
  have h889 : Keeps s0 x888 := revokeLeases_keeps h886
  have h891 : Keeps s0 x890 := Keeps.frame h889 rfl rfl rfl rfl rfl rfl rfl rfl rfl
  exact succeed_keeps (checkCapacity_keeps (setStatus_keeps h891))

theorem lseAcquireStart_keeps {a1 a2} (h2 : Keeps s0 a2) :
    Keeps s0 (lseAcquireStart a1 a2) := by
  unfold lseAcquireStart
  split
  · exact h2
  · extract_lets +onlyGivenNames -merge -underBinder x892 x893
    refine keeps_ite ?_ ?_
    · exact State.modLive_keeps h2
    · split
      · extract_lets +onlyGivenNames -merge -underBinder x894
        exact succeed_keeps (Keeps.frame h2 rfl rfl rfl rfl rfl rfl rfl rfl rfl)
      · exact fail_keeps h2

theorem forgetRecalls_keeps {a1} (h1 : Keeps s0 a1) :
    Keeps s0 (forgetRecalls a1) := by
  unfold forgetRecalls
  extract_lets +onlyGivenNames -merge -underBinder x895
  exact Keeps.frame h1 rfl rfl rfl rfl rfl rfl rfl rfl rfl

theorem revokeSlot_keeps {a1 a2} (h2 : Keeps s0 a2) :
    Keeps s0 (revokeSlot a1 a2) := by
  unfold revokeSlot
  exact forgetRecalls_keeps (revokeLeases_keeps h2)

theorem lseReleaseStart_keeps {a1 a2} (h2 : Keeps s0 a2) :
    Keeps s0 (lseReleaseStart a1 a2) := by
  unfold lseReleaseStart
  split
  · exact h2
  · exact succeed_keeps (revokeSlot_keeps h2)

theorem lseReadStart_keeps {a1 a2} (h2 : Keeps s0 a2) :
    Keeps s0 (lseReadStart a1 a2) := by
  unfold lseReadStart
  split
  · exact h2
  · split
    · extract_lets +onlyGivenNames -merge -underBinder x896
      have h897 : Keeps s0 x896 := fail_keeps h2
      split
      · exact keeps_ite (violation_keeps h897) h897
      · exact h897
    · split
      · exact fail_keeps h2
      · exact keeps_ite (fail_keeps h2) (succeed_keeps (State.count_keeps (countRead_keeps h2)))

theorem recallAck_keeps {a1 a2 a3} (h3 : Keeps s0 a3) :
    Keeps s0 (recallAck a1 a2 a3) := by
  unfold recallAck
  split
  · exact keeps_ite (revokeSlot_keeps h3) h3
  · exact h3

theorem recallTimeout_keeps {a1 a2} (h2 : Keeps s0 a2) :
    Keeps s0 (recallTimeout a1 a2) := by
  unfold recallTimeout
  split
  · exact keeps_ite (violation_keeps (revokeSlot_keeps (logHw_keeps h2))) h2
  · exact h2

theorem leaseExpiry_keeps {a1 a2} (h2 : Keeps s0 a2) :
    Keeps s0 (leaseExpiry a1 a2) := by
  unfold leaseExpiry
  split
  · exact keeps_ite (revokeSlot_keeps h2) h2
  · exact h2

theorem sendSegments_keeps {a1 a2 a3 a4} (h4 : Keeps s0 a4) : Keeps s0 (sendSegments a1 a2 a3 a4) := by
  induction a3 generalizing a4 with
  | zero => exact h4
  | succ k ih =>
    unfold sendSegments
    split
    · exact keeps_ite h4 (ih (sendUnit_keeps (Keeps.frame h4 rfl rfl rfl rfl rfl rfl rfl rfl rfl)))
    · exact h4

theorem stopScan_keeps {a1 a2 a3 a4} (h4 : Keeps s0 a4) :
    Keeps s0 (stopScan a1 a2 a3 a4) := by
  unfold stopScan
  exact Keeps.frame h4 rfl rfl rfl rfl rfl rfl rfl rfl rfl

theorem flushScan_keeps {a1 a2 a3} (h3 : Keeps s0 a3) :
    Keeps s0 (flushScan a1 a2 a3) := by
  unfold flushScan
  split
  · refine keeps_ite ?_ ?_
    · exact sendSegments_keeps h3
    · refine keeps_ite ?_ ?_
      · extract_lets +onlyGivenNames -merge -underBinder x898 x899 x900
        have h901 : Keeps s0 x900.1 := keeps_fst_of (writeRange_keeps h3) rfl
        clear_value x900
        split
        · extract_lets +onlyGivenNames -merge -underBinder x902
          have h903 : Keeps s0 x902 := h901
          exact Keeps.frame h903 rfl rfl rfl rfl rfl rfl rfl rfl rfl
        · exact h901
        · exact stopScan_keeps h901
        · exact stopScan_keeps h901
      · exact h3
  · exact h3

theorem feedScan_keeps {a1 a2 a3} (h3 : Keeps s0 a3) : Keeps s0 (feedScan a1 a2 a3) := by
  induction a2 generalizing a3 with
  | zero => exact h3
  | succ k ih =>
    unfold feedScan
    split
    · exact h3
    · split
      · exact keeps_ite h3 (ih (addSeq_keeps (Keeps.frame h3 rfl rfl rfl rfl rfl rfl rfl rfl rfl)))
      · exact h3

theorem feedScans_keeps {a1} (h1 : Keeps s0 a1) :
    Keeps s0 (feedScans a1) := by
  unfold feedScans
  exact foldOver_keeps (fun _ _ h904 => feedScan_keeps h904) h1

theorem scnRunLanded_keeps {a1 a2} (h2 : Keeps s0 a2) :
    Keeps s0 (scnRunLanded a1 a2) := by
  unfold scnRunLanded
  split
  · exact h2
  · split
    · exact fail_keeps h2
    · split
      · exact fail_keeps h2
      · extract_lets +onlyGivenNames -merge -underBinder x905 x906 x907 x908 x909 x911
        have h910 : Keeps s0 x909.1 := keeps_ite1 (keeps_fst h2) (keeps_ite1 (pinFrames_keeps h2) (keeps_fst h2))
        have h912 : ∀ s, Keeps s0 s → Keeps s0 (x911 s) := by
          subst x911
          intro _ h913
          dsimp -zeta only
          extract_lets +onlyGivenNames -merge -underBinder x914 x916
          have h915 : Keeps s0 x914 := State.modPart_keeps (State.modDie_keeps h913)
          have h917 : Keeps s0 x916 := State.modLive_keeps h915
          exact foldOver_keeps (fun _ _ h918 => addTask_keeps h918) (Keeps.frame h917 rfl rfl rfl rfl rfl rfl rfl rfl
              rfl)
        clear_value x911
        exact withFrames_keeps (fun _ h919 => h912 _ h919) h910

theorem scanPage_keeps {a1 a2 a3 a4} (h4 : Keeps s0 a4) :
    Keeps s0 (scanPage a1 a2 a3 a4) := by
  unfold scanPage
  extract_lets +onlyGivenNames -merge -underBinder x920
  have h921 : Keeps s0 x920 := feedScan_keeps (flushScan_keeps h4)
  split
  · split
    · refine keeps_ite ?_ ?_
      · exact h921
      · refine keeps_ite ?_ ?_
        · exact stopScan_keeps h921
        · extract_lets +onlyGivenNames -merge -underBinder x922 x925
          have h923 : ∀ y0 s, Keeps s0 s → Keeps s0 (x922 y0 s) := fun _ _ h924 => feedScan_keeps (flushScan_keeps
              (Keeps.frame h924 rfl rfl rfl rfl rfl rfl rfl rfl rfl))
          clear_value x922
          refine keeps_ite ?_ ?_
          · exact keeps_ite (h923 _ _ h921) (stopScan_keeps h921)
          · split
            · exact h923 _ _ h921
            · exact keeps_ite (stopScan_keeps h921) (h923 _ _ h921)
            · extract_lets +onlyGivenNames -merge -underBinder x926
              refine keeps_ite ?_ ?_
              · exact keeps_ite (h923 _ _ h921) (stopScan_keeps h921)
              · extract_lets +onlyGivenNames -merge -underBinder _ x927 x928 x929
                have h930 : Keeps s0 x929 := foldOver_keeps (fun _ _ h931 => countRead_keeps h931) h921
                exact h923 _ _ (State.count_keeps h930)
    · exact h921
  · exact h921

theorem spanComplete_keeps {a1 a2 a3} (h3 : Keeps s0 a3) :
    Keeps s0 (spanComplete a1 a2 a3) := by
  unfold spanComplete
  split
  · exact h3
  · split
    · exact h3
    · refine keeps_ite ?_ ?_
      · extract_lets +onlyGivenNames -merge -underBinder x932
        exact flushScan_keeps (releaseScan_keeps (Keeps.frame h3 rfl rfl rfl rfl rfl rfl rfl rfl rfl))
      · exact h3

theorem takeResult_keeps {a1 a2 a3 a4} (h4 : Keeps s0 a4) : Keeps s0 (takeResult a1 a2 a3 a4).2 := by
  unfold takeResult
  extract_lets +onlyGivenNames -merge -underBinder f c g d
  split
  · split
    · exact h4
    · extract_lets +onlyGivenNames -merge -underBinder v
      split
      · exact h4
      · exact State.modCol_keeps h4
  · split
    · extract_lets +onlyGivenNames -merge -underBinder sc z
      split
      · exact h4
      · extract_lets +onlyGivenNames -merge -underBinder r
        split <;> exact h4
    · split <;> exact h4

theorem scanSeqFinish_keeps {a1 a2 a3 a4} (h4 : Keeps s0 a4) : Keeps s0 (scanSeqFinish a1 a2 a3 a4) := by
  unfold scanSeqFinish
  split
  · exact h4
  · split
    · exact h4
    · split
      · exact h4
      · extract_lets +onlyGivenNames -merge -underBinder q0 sm r
        have hr : Keeps s0 r.2 := by
          subst r
          split
          · exact stopScan_keeps h4
          · split
            · exact takeResult_keeps h4
            · exact h4
        exact feedScan_keeps (flushScan_keeps (Keeps.frame hr rfl rfl rfl rfl rfl rfl rfl rfl rfl))

theorem scanComplete_keeps {a1 a2} (h2 : Keeps s0 a2) :
    Keeps s0 (scanComplete a1 a2) := by
  unfold scanComplete
  split
  · refine keeps_ite ?_ ?_
    · exact h2
    · split
      · exact fail_keeps (stopWork_keeps h2)
      · extract_lets +onlyGivenNames -merge -underBinder x940 x941
        have h942 : Keeps s0 x941 := flushScan_keeps (Keeps.frame h2 rfl rfl rfl rfl rfl rfl rfl rfl rfl)
        split
        · exact h942
        · refine keeps_ite ?_ ?_
          · exact h942
          · extract_lets +onlyGivenNames -merge -underBinder x943
            exact succeed_keeps (stopWork_keeps h942)
  · exact h2

theorem scnCancelStart_keeps {a1 a2} (h2 : Keeps s0 a2) :
    Keeps s0 (scnCancelStart a1 a2) := by
  unfold scnCancelStart
  split
  · exact h2
  · split
    · exact succeed_keeps (stopScan_keeps h2)
    · exact fail_keeps h2

theorem scnStatusStart_keeps {a1 a2} (h2 : Keeps s0 a2) :
    Keeps s0 (scnStatusStart a1 a2) := by
  unfold scnStatusStart
  split
  · exact h2
  · split
    · exact succeed_keeps h2
    · exact fail_keeps h2

theorem scnCreditStart_keeps {a1 a2} (h2 : Keeps s0 a2) :
    Keeps s0 (scnCreditStart a1 a2) := by
  unfold scnCreditStart
  split
  · exact h2
  · split
    · exact fail_keeps h2
    · extract_lets +onlyGivenNames -merge -underBinder x944 x945 x946 x948
      have h947 : Keeps s0 x946 := Keeps.frame h2 rfl rfl rfl rfl rfl rfl rfl rfl rfl
      have h949 : Keeps s0 x948 := succeed_keeps (flushScan_keeps h947)
      refine keeps_ite ?_ ?_
      · split
        · exact violation_keeps h949
        · exact h949
      · exact h949

end Sys2Proof.Machine
end

