-- ==== Sys2Proof/Laws/KeepsLinks.lean ====
section
/-! SUPPORT. What every change of state keeps (`Keeps`), for links, the fabric and the control function. -/

namespace Sys2Proof.Machine

variable {s0 s : State}

theorem countLink_keeps {a1 a2 a3} (h3 : Keeps s0 a3) :
    Keeps s0 (countLink a1 a2 a3) := by
  unfold countLink
  exact State.modLink_keeps h3

theorem strand_keeps {a1 a2 a3} (h3 : Keeps s0 a3) :
    Keeps s0 (strand a1 a2 a3) := by
  unfold strand
  extract_lets +onlyGivenNames -merge -underBinder x950
  refine keeps_ite ?_ ?_
  · extract_lets +onlyGivenNames -merge -underBinder x951
    have h952 : Keeps s0 x951 := dropRelay_keeps h3
    exact keeps_ite (answerDropped_keeps h952) h952
  · refine keeps_ite ?_ ?_
    · extract_lets +onlyGivenNames -merge -underBinder x953
      split
      · exact queueUnit_keeps h3
      · split
        · exact Keeps.erase h3 rfl rfl rfl rfl rfl rfl rfl rfl rfl
        · exact h3
    · refine keeps_ite ?_ ?_
      · exact sendUnit_keeps h3
      · refine keeps_ite ?_ ?_
        · split
          · exact abort_keeps h3
          · exact h3
        · exact h3

theorem dropEvents_keeps {a1 a2 a3} (_ : Keeps s0 a2) (h3 : Keeps s0 a3) : Keeps s0 (dropEvents a1 a2 a3) := by
  unfold dropEvents
  exact foldOver_keeps (fun _ _ h => eventOver_keeps (addLog_keeps h)) h3

theorem linkDown_keeps {a1 a2 a3} (h3 : Keeps s0 a3) :
    Keeps s0 (linkDown a1 a2 a3) := by
  unfold linkDown
  extract_lets +onlyGivenNames -merge -underBinder x955
  refine keeps_ite ?_ ?_
  · exact h3
  · extract_lets +onlyGivenNames -merge -underBinder x956 x958 x960
    have h957 : Keeps s0 x956 := abortInputs_keeps (logLink_keeps h3)
    have h959 : Keeps s0 x958 := State.modLink_keeps h957
    have h961 : Keeps s0 x960 := setLinkSt_keeps h959
    exact linkCut_keeps (dropEvents_keeps h3 (foldOver_keeps (fun _ _ h962 => strand_keeps h962) h961))

theorem setMasks_keeps {a1 a2 a3 a4} (h4 : Keeps s0 a4) :
    Keeps s0 (setMasks a1 a2 a3 a4) := by
  unfold setMasks
  extract_lets +onlyGivenNames -merge -underBinder x963
  refine keeps_ite ?_ ?_
  · exact h4
  · refine keeps_ite ?_ ?_
    · exact linkDown_keeps h4
    · extract_lets +onlyGivenNames -merge -underBinder x964 x965
      have h966 : Keeps s0 x965 := State.modLink_keeps h4
      exact keeps_ite (logLink_keeps h966) h966

theorem startTraining_keeps {a1 a2 a3} (h3 : Keeps s0 a3) :
    Keeps s0 (startTraining a1 a2 a3) := by
  unfold startTraining
  exact setLinkSt_keeps (State.modLink_keeps h3)

theorem trainFails_keeps {a1 a2 a3} (h3 : Keeps s0 a3) :
    Keeps s0 (trainFails a1 a2 a3) := by
  unfold trainFails
  extract_lets +onlyGivenNames -merge -underBinder x967 x968 x969 x971
  have h970 : Keeps s0 x969 := keeps_ite (logLink_keeps h3) h3
  have h972 : Keeps s0 x971 := keeps_ite (logLink_keeps h970) h970
  exact setLinkSt_keeps (State.modLink_keeps h972)

theorem ringsFound_keeps {a1 a2 a3} (h3 : Keeps s0 a3) :
    Keeps s0 (ringsFound a1 a2 a3) := by
  unfold ringsFound
  refine foldOver_keeps ?_ ?_
  · intro _ _ h973
    extract_lets +onlyGivenNames -merge -underBinder x974 x975
    refine keeps_ite ?_ ?_
    · exact h973
    · refine keeps_ite ?_ ?_
      · extract_lets +onlyGivenNames -merge -underBinder x976
        have h977 : Keeps s0 x976 := State.modLink_keeps h973
        exact keeps_ite (degrade_keeps h977) h977
      · exact State.modLink_keeps h973
  · exact h3

theorem trainEnds_keeps {a1 a2 a3} (h3 : Keeps s0 a3) :
    Keeps s0 (trainEnds a1 a2 a3) := by
  unfold trainEnds
  extract_lets +onlyGivenNames -merge -underBinder x978 x979 x981 x982 x983
  have h980 : Keeps s0 x979 := keeps_ite (ringsFound_keeps (State.modLink_keeps h3)) h3
  refine keeps_ite ?_ ?_
  · exact setLinkSt_keeps (State.modLink_keeps h980)
  · split
    · refine keeps_ite ?_ ?_
      · extract_lets +onlyGivenNames -merge -underBinder x984
        have h985 : Keeps s0 x984 := trainFails_keeps h980
        exact logLink_keeps (degrade_keeps (setLinkSt_keeps h985))
      · exact trainFails_keeps h980
    · extract_lets +onlyGivenNames -merge -underBinder x986 x987
      have h988 : Keeps s0 x987 := State.modLink_keeps h980
      exact undegrade_keeps (setLinkSt_keeps h988)

theorem replayOnce_keeps {a1 a2} (h2 : Keeps s0 a2) :
    Keeps s0 (replayOnce a1 a2) := by
  unfold replayOnce
  extract_lets +onlyGivenNames -merge -underBinder x989
  refine keeps_ite ?_ ?_
  · exact h2
  · extract_lets +onlyGivenNames -merge -underBinder x990
    have h991 : Keeps s0 x990 := State.modLink_keeps h2
    exact keeps_ite (linkDown_keeps h991) h991

theorem addCredits_keeps {a1 a2 a3} (h3 : Keeps s0 a3) :
    Keeps s0 (addCredits a1 a2 a3) := by
  unfold addCredits
  exact State.modLink_keeps h3

theorem takeHeader_keeps {a1 a2 a3} (h3 : Keeps s0 a3) :
    Keeps s0 (takeHeader a1 a2 a3) := by
  unfold takeHeader
  extract_lets +onlyGivenNames -merge -underBinder x992 x993 x995
  have h994 : Keeps s0 x993 := keeps_ite (State.modLink_keeps h3) h3
  have h996 : Keeps s0 x995 := keeps_ite (replayOnce_keeps h994) h994
  exact addCredits_keeps h996

theorem sendAck_keeps {a1 a2 a3} (h3 : Keeps s0 a3) :
    Keeps s0 (sendAck a1 a2 a3) := by
  unfold sendAck
  exact State.modLink_keeps h3

theorem nackFlit_keeps {a1 a2} (h2 : Keeps s0 a2) :
    Keeps s0 (nackFlit a1 a2) := by
  unfold nackFlit
  exact keeps_ite h2 (sendAck_keeps (State.modLink_keeps h2))

theorem firstSlot_keeps {a1 a2 a3 a4 a5} (h5 : Keeps s0 a5) :
    Keeps s0 (firstSlot a1 a2 a3 a4 a5).1 := by
  unfold firstSlot
  extract_lets +onlyGivenNames -merge -underBinder x997 x998 x999 x1000 x1001 x1002 x1005
  have h1003 : ∀ y0 s, Keeps s0 s → Keeps s0 (x1002 y0 s) := fun _ _ h1004 => keeps_ite h1004 (State.modLink_keeps
      h1004)
  clear_value x1002
  refine keeps_ite1 ?_ ?_
  · exact keeps_fst (freeSlots_keeps (h1003 _ _ h5))
  · refine keeps_ite1 ?_ ?_
    · exact keeps_fst (violation_keeps (freeSlots_keeps (h1003 _ _ h5)))
    · refine keeps_ite1 ?_ ?_
      · extract_lets +onlyGivenNames -merge -underBinder x1006
        have h1007 : Keeps s0 x1006 := countLink_keeps (freeSlots_keeps h5)
        exact keeps_ite1 (keeps_fst h1007) (keeps_fst (h1003 _ _ h1007))
      · split
        · extract_lets +onlyGivenNames -merge -underBinder x1008 x1009 x1010
          have h1011 : Keeps s0 x1010 := countLink_keeps (queueUnit_keeps h5)
          exact keeps_fst (h1003 _ _ h1011)
        · extract_lets +onlyGivenNames -merge -underBinder x1012 x1014
          have h1013 : Keeps s0 x1012 := countLink_keeps (freeSlots_keeps (h1003 _ _ h5))
          exact keeps_fst (keeps_ite (answerDropped_keeps h1013) h1013)

theorem nextSlot_keeps {a1 a2 a3 a4 a5 a6} (h6 : Keeps s0 a6) :
    Keeps s0 (nextSlot a1 a2 a3 a4 a5 a6).1 := by
  unfold nextSlot
  extract_lets +onlyGivenNames -merge -underBinder x1015 x1016 x1017
  have h1018 : ∀ s, Keeps s0 s → Keeps s0 (x1017 s) := fun _ h1019 => State.modLink_keeps h1019
  clear_value x1017
  split
  · extract_lets +onlyGivenNames -merge -underBinder x1020
    have h1021 : Keeps s0 x1020 := State.modLink_keeps h6
    exact keeps_fst (h1018 _ (countLink_keeps h1021))
  · refine keeps_ite1 ?_ ?_
    · exact keeps_fst (h1018 _ (freeSlots_keeps h6))
    · extract_lets +onlyGivenNames -merge -underBinder x1022
      have h1023 : Keeps s0 x1022 := h1018 _ (countLink_keeps (freeSlots_keeps h6))
      exact keeps_fst h1023

theorem takeSlot_keeps {a1 a2 a3 a4 a5 a6} (h6 : Keeps s0 a6) :
    Keeps s0 (takeSlot a1 a2 a3 a4 a5 a6).1 := by
  unfold takeSlot
  extract_lets +onlyGivenNames -merge -underBinder x1024 x1025 x1026
  have h1027 : ∀ s, Keeps s0 s → Keeps s0 (x1026 s) := fun _ h1028 => State.modLink_keeps h1028
  clear_value x1026
  clear_value x1025
  split
  · exact keeps_fst h6
  · exact firstSlot_keeps h6
  · exact firstSlot_keeps (violation_keeps (h1027 _ (abortOnward_keeps h6)))
  · exact nextSlot_keeps h6
  · exact keeps_fst (freeSlots_keeps (h1027 _ (abortOnward_keeps h6)))
  · exact keeps_fst (violation_keeps (freeSlots_keeps h6))
  · exact keeps_fst h6

theorem tagFailure_keeps {a1 a2} (h2 : Keeps s0 a2) :
    Keeps s0 (tagFailure a1 a2) := by
  unfold tagFailure
  extract_lets +onlyGivenNames -merge -underBinder x1029 x1030 x1031
  have h1032 : Keeps s0 x1031 := State.modLink_keeps h2
  exact keeps_ite (linkDown_keeps h1032) (nackFlit_keeps h1032)

theorem acceptFlit_keeps {a1 a2 a3 a4} (h4 : Keeps s0 a4) :
    Keeps s0 (acceptFlit a1 a2 a3 a4).1 := by
  unfold acceptFlit
  extract_lets +onlyGivenNames -merge -underBinder x1033 x1034 x1036 x1038
  have h1035 : Keeps s0 x1034 := State.modLink_keeps h4
  have h1037 : Keeps s0 x1036 := takeHeader_keeps h1035
  have h1039 : Keeps s0 x1038.1 := by
    subst x1038
    refine foldlp_keeps ?_ ?_
    · intro _ _ h1040
      extract_lets +onlyGivenNames -merge -underBinder x1041
      refine keeps_ite1 ?_ ?_
      · extract_lets +onlyGivenNames -merge -underBinder x1042
        have h1043 : Keeps s0 x1042.1 := keeps_fst_of (takeSlot_keeps h1040) rfl
        exact keeps_fst h1043
      · exact h1040
    · exact keeps_fst h1037
  exact keeps_fst (keeps_ite (sendAck_keeps h1039) h1039)

theorem payloadFlit_keeps {a1 a2 a3 a4} (h4 : Keeps s0 a4) :
    Keeps s0 (payloadFlit a1 a2 a3 a4).1 := by
  unfold payloadFlit
  extract_lets +onlyGivenNames -merge -underBinder x1044
  refine keeps_ite1 ?_ ?_
  · exact keeps_fst h4
  · extract_lets +onlyGivenNames -merge -underBinder x1045 x1046 x1048
    have h1047 : Keeps s0 x1046 := countLink_keeps h4
    refine keeps_ite1 ?_ ?_
    · exact keeps_fst (nackFlit_keeps (countLink_keeps h1047))
    · refine keeps_ite1 ?_ ?_
      · exact keeps_fst (nackFlit_keeps (countLink_keeps h1047))
      · refine keeps_ite1 ?_ ?_
        · exact keeps_fst h1047
        · refine keeps_ite1 ?_ ?_
          · exact keeps_fst (tagFailure_keeps h1047)
          · refine keeps_ite1 ?_ ?_
            · exact keeps_fst (nackFlit_keeps h1047)
            · extract_lets +onlyGivenNames -merge -underBinder x1049 x1050
              exact keeps_ite1 (keeps_fst (nackFlit_keeps (violation_keeps h1047))) (acceptFlit_keeps h1047)

theorem closeFlit_keeps {a1 a2} (h2 : Keeps s0 a2) :
    Keeps s0 (closeFlit a1 a2) := by
  unfold closeFlit
  extract_lets +onlyGivenNames -merge -underBinder x1051 x1052 x1053 x1054 x1055 x1056 x1057 x1058 x1059
  exact State.modLink_keeps h2

theorem sendSlot_keeps {a1 a2} (h2 : Keeps s0 a2) :
    Keeps s0 (sendSlot a1 a2) := by
  unfold sendSlot
  extract_lets +onlyGivenNames -merge -underBinder x1060
  refine keeps_ite ?_ ?_
  · exact h2
  · split
    · exact keeps_ite h2 (closeFlit_keeps h2)
    · extract_lets +onlyGivenNames -merge -underBinder x1061 x1062 x1063 x1064 x1065 x1066 x1067 x1069 x1071 x1073 x1074
      have h1068 : Keeps s0 x1067 := State.modLink_keeps h2
      have h1070 : Keeps s0 x1069 := by
        subst x1069
        split
        · exact keeps_ite (freeSlots_keeps h1068) h1068
        · exact h1068
      have h1072 : Keeps s0 x1071 := by
        subst x1071
        split
        · exact keeps_ite (Keeps.erase h1070 rfl rfl rfl rfl rfl rfl rfl rfl rfl) h1070
        · exact h1070
      exact keeps_ite (closeFlit_keeps h1072) h1072

theorem creditStall_keeps {a1 a2 a3 a4} (h4 : Keeps s0 a4) :
    Keeps s0 (creditStall a1 a2 a3 a4) := by
  unfold creditStall
  extract_lets +onlyGivenNames -merge -underBinder x1075 x1076 x1077 x1078
  refine keeps_ite ?_ ?_
  · extract_lets +onlyGivenNames -merge -underBinder x1079 x1081
    have h1080 : Keeps s0 x1079 := State.modLink_keeps h4
    have h1082 : Keeps s0 x1081 := by
      subst x1081
      refine foldOver_keeps ?_ ?_
      · intro _ _ h1083
        refine keeps_ite ?_ ?_
        · extract_lets +onlyGivenNames -merge -underBinder x1084
          have h1085 : Keeps s0 x1084 := dropRelay_keeps h1083
          exact keeps_ite (answerDropped_keeps h1085) h1085
        · refine keeps_ite ?_ ?_
          · split
            · exact abort_keeps h1083
            · extract_lets +onlyGivenNames -merge -underBinder x1086
              exact State.setLink_keeps h1083
          · refine keeps_ite ?_ ?_
            · exact eventOver_keeps (addLog_keeps h1083)
            · split
              · exact Keeps.erase h1083 rfl rfl rfl rfl rfl rfl rfl rfl rfl
              · exact h1083
      · exact h1080
    exact violation_keeps h1082
  · exact h4

theorem shedMask_keeps {a1 a2 a3 a4} (h4 : Keeps s0 a4) :
    Keeps s0 (shedMask a1 a2 a3 a4) := by
  unfold shedMask
  extract_lets +onlyGivenNames -merge -underBinder x1087 x1088 x1089
  refine keeps_ite ?_ ?_
  · exact h4
  · extract_lets +onlyGivenNames -merge -underBinder x1090 x1092
    have h1091 : Keeps s0 x1090 := State.modLink_keeps h4
    refine keeps_ite ?_ ?_
    · exact linkDown_keeps h1091
    · refine keeps_ite ?_ ?_
      · exact setMasks_keeps h1091
      · extract_lets +onlyGivenNames -merge -underBinder x1093
        exact keeps_ite (linkDown_keeps h1091) (State.modLink_keeps h1091)

theorem laneChanged_keeps {a1 a2 a3 a4} (h4 : Keeps s0 a4) :
    Keeps s0 (laneChanged a1 a2 a3 a4) := by
  unfold laneChanged
  extract_lets +onlyGivenNames -merge -underBinder x1094
  refine keeps_ite ?_ ?_
  · exact h4
  · refine keeps_ite ?_ ?_
    · extract_lets +onlyGivenNames -merge -underBinder x1095
      have h1096 : Keeps s0 x1095 := State.modLink_keeps h4
      exact keeps_ite (setMasks_keeps h1096) (keeps_ite (logLink_keeps h1096) h1096)
    · extract_lets +onlyGivenNames -merge -underBinder x1097
      have h1098 : Keeps s0 x1097 := State.modLink_keeps h4
      exact setMasks_keeps h1098

theorem restoreOne_keeps {a1 a2 a3 a4 a5 a6} (h6 : Keeps s0 a6) :
    Keeps s0 (restoreOne a1 a2 a3 a4 a5 a6) := by
  unfold restoreOne
  extract_lets +onlyGivenNames -merge -underBinder x1099 x1100 x1101 x1102
  refine keeps_ite ?_ ?_
  · extract_lets +onlyGivenNames -merge -underBinder x1103 x1105
    have h1104 : Keeps s0 x1103 := State.modLink_keeps h6
    refine keeps_ite ?_ ?_
    · exact keeps_ite (setMasks_keeps h1104) h1104
    · extract_lets +onlyGivenNames -merge -underBinder x1106
      exact keeps_ite (State.modLink_keeps h1104) h1104
  · exact h6

theorem shedToEight_keeps {a1 a2} (h2 : Keeps s0 a2) :
    Keeps s0 (shedToEight a1 a2) := by
  unfold shedToEight
  extract_lets +onlyGivenNames -merge -underBinder x1107
  refine keeps_ite ?_ ?_
  · extract_lets +onlyGivenNames -merge -underBinder x1108 x1109
    exact setMasks_keeps (State.modLink_keeps h2)
  · exact h2

theorem powerLoop_keeps {a1 a2 a3} (h3 : Keeps s0 a3) :
    Keeps s0 (powerLoop a1 a2 a3) := by
  unfold powerLoop
  extract_lets +onlyGivenNames -merge -underBinder x1110
  refine keeps_ite ?_ ?_
  · exact h3
  · refine keeps_ite ?_ ?_
    · split
      · exact keeps_ite (setMasks_keeps (State.modLink_keeps h3)) h3
      · exact h3
    · refine keeps_ite ?_ ?_
      · split
        · exact keeps_ite (setMasks_keeps (State.modLink_keeps h3)) h3
        · exact h3
      · exact h3

theorem releaseQuarantine_keeps {a1 a2} (h2 : Keeps s0 a2) :
    Keeps s0 (releaseQuarantine a1 a2) := by
  unfold releaseQuarantine
  extract_lets +onlyGivenNames -merge -underBinder x1111
  refine keeps_ite ?_ ?_
  · exact h2
  · extract_lets +onlyGivenNames -merge -underBinder x1112
    have h1113 : Keeps s0 x1112 := logLink_keeps (State.modLink_keeps h2)
    exact keeps_ite (setLinkSt_keeps h1113) h1113

theorem idleFlit_keeps {a1 a2 a3} (h3 : Keeps s0 a3) :
    Keeps s0 (idleFlit a1 a2 a3) := by
  unfold idleFlit
  extract_lets +onlyGivenNames -merge -underBinder x1114
  exact keeps_ite (takeHeader_keeps (State.modLink_keeps h3)) h3

theorem ringTrack_keeps {a1 a2 a3 a4} (h4 : Keeps s0 a4) :
    Keeps s0 (ringTrack a1 a2 a3 a4) := by
  unfold ringTrack
  extract_lets +onlyGivenNames -merge -underBinder x1115 x1116
  refine keeps_ite ?_ ?_
  · exact h4
  · refine keeps_ite ?_ ?_
    · exact State.modLink_keeps h4
    · extract_lets +onlyGivenNames -merge -underBinder x1117 x1118 x1119
      have h1120 : Keeps s0 x1119 := State.modLink_keeps (Keeps.frame h4 rfl rfl rfl rfl rfl rfl rfl rfl rfl)
      exact shedMask_keeps h1120

theorem laserLost_keeps {a1 a2 a3} (h3 : Keeps s0 a3) :
    Keeps s0 (laserLost a1 a2 a3) := by
  unfold laserLost
  extract_lets +onlyGivenNames -merge -underBinder x1121 x1123
  have h1122 : Keeps s0 x1121 := State.modLink_keeps h3
  exact keeps_ite (keeps_ite (linkDown_keeps h1122) (shedMask_keeps h1122)) (keeps_ite (setLinkSt_keeps
      (State.modLink_keeps h1122)) h1122)

theorem lnkQueryStart_keeps {a1 a2} (h2 : Keeps s0 a2) :
    Keeps s0 (lnkQueryStart a1 a2) := by
  unfold lnkQueryStart
  split
  · exact h2
  · exact succeed_keeps h2

theorem lnkCountersStart_keeps {a1 a2} (h2 : Keeps s0 a2) :
    Keeps s0 (lnkCountersStart a1 a2) := by
  unfold lnkCountersStart
  split
  · exact h2
  · extract_lets +onlyGivenNames -merge -underBinder x1124 x1125
    have h1126 : Keeps s0 x1125 := keeps_ite (foldOver_keeps (fun _ _ h1127 => countLink_keeps h1127) h2) h2
    exact succeed_keeps h1126

theorem lnkPolicyLanded_keeps {a1 a2} (h2 : Keeps s0 a2) :
    Keeps s0 (lnkPolicyLanded a1 a2) := by
  unfold lnkPolicyLanded
  split
  · exact h2
  · extract_lets +onlyGivenNames -merge -underBinder x1128
    refine keeps_ite ?_ ?_
    · extract_lets +onlyGivenNames -merge -underBinder x1129 x1130 x1133 x1135 x1137
      have h1131 : Keeps s0 x1130 := foldOver_keeps (fun _ _ h1132 => State.modLink_keeps h1132) h2
      have h1134 : Keeps s0 x1133 := addLog_keeps h1131
      have h1136 : Keeps s0 x1135 := keeps_ite (addLog_keeps h1134) h1134
      have h1138 : Keeps s0 x1137 := keeps_ite (addLog_keeps h1136) h1136
      exact succeed_keeps h1138
    · exact fail_keeps h2

theorem lnkRouteLanded_keeps {a1 a2} (h2 : Keeps s0 a2) :
    Keeps s0 (lnkRouteLanded a1 a2) := by
  unfold lnkRouteLanded
  split
  · exact h2
  · extract_lets +onlyGivenNames -merge -underBinder x1139
    exact keeps_ite (succeed_keeps (Keeps.frame h2 rfl rfl rfl rfl rfl rfl rfl rfl rfl)) (fail_keeps h2)

theorem lnkKeyLanded_keeps {a1 a2} (h2 : Keeps s0 a2) :
    Keeps s0 (lnkKeyLanded a1 a2) := by
  unfold lnkKeyLanded
  split
  · exact h2
  · extract_lets +onlyGivenNames -merge -underBinder x1140 x1141 x1142 x1144
    have h1143 : Keeps s0 x1142 := State.modLink_keeps h2
    have h1145 : Keeps s0 x1144 := addLog_keeps h1143
    exact succeed_keeps (State.modLink_keeps (linkDown_keeps h1145))

theorem linkEnable_keeps {a1 a2} (h2 : Keeps s0 a2) :
    Keeps s0 (linkEnable a1 a2) := by
  unfold linkEnable
  exact keeps_ite (setLinkSt_keeps (State.modLink_keeps h2)) h2

theorem linkDisable_keeps {a1 a2} (h2 : Keeps s0 a2) :
    Keeps s0 (linkDisable a1 a2) := by
  unfold linkDisable
  exact undegrade_keeps (setLinkSt_keeps (State.modLink_keeps (linkDown_keeps h2)))

theorem linkRetrain_keeps {a1 a2 a3} (h3 : Keeps s0 a3) :
    Keeps s0 (linkRetrain a1 a2 a3) := by
  unfold linkRetrain
  exact keeps_ite h3 (undegrade_keeps (startTraining_keeps (linkDown_keeps h3)))

theorem lnkControl_keeps {a1 a2 a3} (h1 : ∀ x0 s, Keeps s0 s → Keeps s0 (a1 x0 s)) (h3 : Keeps s0 a3) :
    Keeps s0 (lnkControl a1 a2 a3) := by
  unfold lnkControl
  split
  · exact h3
  · exact succeed_keeps (foldOver_keeps (fun _ _ h1146 => h1 _ _ h1146) h3)

theorem lnkControlStart_keeps {a1 a2} (h2 : Keeps s0 a2) :
    Keeps s0 (lnkControlStart a1 a2) := by
  unfold lnkControlStart
  split
  · exact lnkControl_keeps (fun _ _ h1147 => linkEnable_keeps h1147) h2
  · exact lnkControl_keeps (fun _ _ h1148 => linkDisable_keeps h1148) h2
  · exact lnkControl_keeps (fun _ _ h1149 => linkRetrain_keeps h1149) h2
  · exact lnkControl_keeps (fun _ _ h1150 => linkRetrain_keeps h1150) h2
  · exact lnkControl_keeps (fun _ _ h1151 => releaseQuarantine_keeps h1151) h2
  · exact h2

theorem packageLinkFail_keeps {a1 a2} (h2 : Keeps s0 a2) :
    Keeps s0 (packageLinkFail a1 a2) := by
  unfold packageLinkFail
  refine keeps_ite ?_ ?_
  · exact h2
  · extract_lets +onlyGivenNames -merge -underBinder _ x1152
    have h1153 : Keeps s0 x1152 := degrade_keeps (Keeps.frame h2 rfl rfl rfl rfl rfl rfl rfl rfl rfl)
    exact logHw_keeps h1153

theorem recordGrant_keeps {a1 a2} (h2 : Keeps s0 a2) :
    Keeps s0 (recordGrant a1 a2) := by
  unfold recordGrant
  split
  · exact h2
  · extract_lets +onlyGivenNames -merge -underBinder x1154 x1155
    have h1156 : Keeps s0 x1155 := State.modLive_keeps h2
    split
    · exact sendUnit_keeps h1156
    · exact h1156

theorem blame_keeps {a1 a2 a3} (h3 : Keeps s0 a3) :
    Keeps s0 (blame a1 a2 a3) := by
  unfold blame
  split
  · exact violation_keeps h3
  · exact h3

theorem landBytes_keeps {a1 a2 a3 a4} (h4 : Keeps s0 a4) :
    Keeps s0 (landBytes a1 a2 a3 a4) := by
  unfold landBytes
  split
  · exact h4
  · exact keeps_ite h4 (keeps_ite (blame_keeps (abort_keeps h4)) (keeps_ite (blame_keeps h4) (State.modLive_keeps
        h4)))

theorem landSegment_keeps {a1 a2 a3 a4 a5 a6} (h6 : Keeps s0 a6) :
    Keeps s0 (landSegment a1 a2 a3 a4 a5 a6) := by
  unfold landSegment
  split
  · exact keeps_ite (landBytes_keeps h6) (violation_keeps h6)
  · exact violation_keeps h6

theorem grantTimeout_keeps {a1 a2} (h2 : Keeps s0 a2) :
    Keeps s0 (grantTimeout a1 a2) := by
  unfold grantTimeout
  split
  · exact h2
  · exact keeps_ite (blame_keeps (abort_keeps h2)) h2

theorem strayReply_keeps {a1 a2 a3} (h3 : Keeps s0 a3) :
    Keeps s0 (strayReply a1 a2 a3) := by
  unfold strayReply
  exact keeps_ite h3 (violation_keeps h3)

theorem grpLookupStart_keeps {a1 a2} (h2 : Keeps s0 a2) :
    Keeps s0 (grpLookupStart a1 a2) := by
  unfold grpLookupStart
  split
  · exact h2
  · split
    · exact succeed_keeps h2
    · exact fail_keeps h2

theorem grpSetLanded_keeps {a1 a2} (h2 : Keeps s0 a2) :
    Keeps s0 (grpSetLanded a1 a2) := by
  unfold grpSetLanded
  split
  · exact h2
  · extract_lets +onlyGivenNames -merge -underBinder x1157 x1158 x1159 x1160
    refine keeps_ite ?_ ?_
    · exact fail_keeps h2
    · refine keeps_ite ?_ ?_
      · exact fail_keeps h2
      · extract_lets +onlyGivenNames -merge -underBinder _ x1161
        have h1162 : Keeps s0 x1161 := addLog_keeps (Keeps.frame h2 rfl rfl rfl rfl rfl rfl rfl rfl rfl)
        exact succeed_keeps h1162

theorem grpDumpStart_keeps {a1 a2} (h2 : Keeps s0 a2) :
    Keeps s0 (grpDumpStart a1 a2) := by
  unfold grpDumpStart
  split
  · exact h2
  · exact succeed_keeps h2

theorem grpQueryStart_keeps {a1 a2} (h2 : Keeps s0 a2) :
    Keeps s0 (grpQueryStart a1 a2) := by
  unfold grpQueryStart
  extract_lets +onlyGivenNames -merge -underBinder x1163
  exact succeed_keeps h2

theorem stopQueue_keeps {a1 a2 a3} (h3 : Keeps s0 a3) :
    Keeps s0 (stopQueue a1 a2 a3) := by
  unfold stopQueue
  exact setFlag_keeps (State.modQueue_keeps h3)

theorem sqTail_keeps {a1 a2 a3} (h3 : Keeps s0 a3) :
    Keeps s0 (sqTail a1 a2 a3) := by
  unfold sqTail
  extract_lets +onlyGivenNames -merge -underBinder x1164 x1165
  exact keeps_ite h3 (keeps_ite (stopQueue_keeps h3) (State.modQueue_keeps h3))

theorem cqHead_keeps {a1 a2 a3} (h3 : Keeps s0 a3) :
    Keeps s0 (cqHead a1 a2 a3) := by
  unfold cqHead
  extract_lets +onlyGivenNames -merge -underBinder x1166 x1167
  exact keeps_ite h3 (keeps_ite (stopQueue_keeps h3) (State.modQueue_keeps h3))

theorem writeCfg_keeps {a1 a2 a3} (h3 : Keeps s0 a3) :
    Keeps s0 (writeCfg a1 a2 a3) := by
  unfold writeCfg
  extract_lets +onlyGivenNames -merge -underBinder x1168 x1169 x1170 x1171
  exact keeps_ite (State.modQueue_keeps h3) (keeps_ite (State.modQueue_keeps h3) (State.modQueue_keeps h3))

theorem signalQueue_keeps {a1 a2} (h2 : Keeps s0 a2) :
    Keeps s0 (signalQueue a1 a2) := by
  unfold signalQueue
  exact signalVector_keeps (State.modQueue_keeps h2)

theorem writeEntry_keeps {a1 a2 a3} (h3 : Keeps s0 a3) :
    Keeps s0 (writeEntry a1 a2 a3) := by
  unfold writeEntry
  extract_lets +onlyGivenNames -merge -underBinder x1172 x1173 x1174
  have h1175 : Keeps s0 x1174 := State.modQueue_keeps h3
  exact keeps_ite (signalQueue_keeps h1175) h1175

theorem restQueue_keeps {a1 a2} (h2 : Keeps s0 a2) :
    Keeps s0 (restQueue a1 a2) := by
  unfold restQueue
  exact State.modQueue_keeps h2

theorem completionWrite_keeps {a1 a2} (h2 : Keeps s0 a2) :
    Keeps s0 (completionWrite a1 a2) := by
  unfold completionWrite
  extract_lets +onlyGivenNames -merge -underBinder x1176
  split
  · exact h2
  · refine keeps_ite ?_ ?_
    · exact h2
    · extract_lets +onlyGivenNames -merge -underBinder x1177 x1178 x1179 x1181
      have h1180 : Keeps s0 x1179 := State.modQueue_keeps h2
      have h1182 : Keeps s0 x1181 := keeps_ite (Keeps.erase h1180 rfl rfl rfl rfl rfl rfl rfl rfl rfl) h1180
      refine keeps_ite ?_ ?_
      · exact restQueue_keeps (keeps_ite (State.modSlot_keeps h1182) h1182)
      · extract_lets +onlyGivenNames -merge -underBinder x1183 x1184
        have h1185 : Keeps s0 x1184 := keeps_ite (State.modSlot_keeps h1182) h1182
        exact restQueue_keeps (writeEntry_keeps h1185)

theorem eventWrite_keeps {a1 a2} (h2 : Keeps s0 a2) :
    Keeps s0 (eventWrite a1 a2) := by
  unfold eventWrite
  extract_lets +onlyGivenNames -merge -underBinder x1186
  split
  · exact h2
  · refine keeps_ite ?_ ?_
    · exact h2
    · extract_lets +onlyGivenNames -merge -underBinder x1187
      have h1188 : Keeps s0 x1187 := State.modQueue_keeps h2
      exact keeps_ite (writeEntry_keeps h1188) (addLog_keeps (setFlag_keeps h1188))

theorem releaseSlot_keeps {a1 a2} (h2 : Keeps s0 a2) :
    Keeps s0 (releaseSlot a1 a2) := by
  unfold releaseSlot
  extract_lets +onlyGivenNames -merge -underBinder x1189
  exact keeps_ite (State.modSlot_keeps h2) (setFlag_keeps (Keeps.frame h2 rfl rfl rfl rfl rfl rfl rfl rfl rfl))

theorem forceFlags_keeps {a1 a2} (h2 : Keeps s0 a2) :
    Keeps s0 (forceFlags a1 a2) := by
  unfold forceFlags
  exact foldOver_keeps (fun _ _ h1190 => setFlag_keeps h1190) h2

theorem writeEnable_keeps {a1 a2} (h2 : Keeps s0 a2) :
    Keeps s0 (writeEnable a1 a2) := by
  unfold writeEnable
  extract_lets +onlyGivenNames -merge -underBinder _ _ x1191
  have h1192 : Keeps s0 x1191 := Keeps.frame h2 rfl rfl rfl rfl rfl rfl rfl rfl rfl
  exact foldOver_keeps (fun _ _ h1193 => signalVector_keeps h1193) h1192

theorem flushPending_keeps {a1} (h1 : Keeps s0 a1) :
    Keeps s0 (flushPending a1) := by
  unfold flushPending
  extract_lets +onlyGivenNames -merge -underBinder x1194
  refine keeps_ite ?_ ?_
  · exact h1
  · extract_lets +onlyGivenNames -merge -underBinder x1195
    exact Keeps.frame h1 rfl rfl rfl rfl rfl rfl rfl rfl rfl

theorem maskVector_keeps {a1 a2 a3} (h3 : Keeps s0 a3) :
    Keeps s0 (maskVector a1 a2 a3) := by
  unfold maskVector
  extract_lets +onlyGivenNames -merge -underBinder x1196
  exact flushPending_keeps (Keeps.frame h3 rfl rfl rfl rfl rfl rfl rfl rfl rfl)

theorem writeEpoch_keeps {a1 a2} (h2 : Keeps s0 a2) :
    Keeps s0 (writeEpoch a1 a2) := by
  unfold writeEpoch
  extract_lets +onlyGivenNames -merge -underBinder x1197
  exact addLog_keeps (Keeps.frame h2 rfl rfl rfl rfl rfl rfl rfl rfl rfl)

theorem mbxSend_keeps {a1 a2 a3} (h3 : Keeps s0 a3) :
    Keeps s0 (mbxSend a1 a2 a3) := by
  unfold mbxSend
  refine keeps_ite ?_ ?_
  · exact State.modMailbox_keeps h3
  · extract_lets +onlyGivenNames -merge -underBinder x1198
    have h1199 : Keeps s0 x1198 := State.modMailbox_keeps h3
    exact keeps_ite (setFlag_keeps h1199) h1199

theorem mbxTake_keeps {a1 a2} (h2 : Keeps s0 a2) :
    Keeps s0 (mbxTake a1 a2) := by
  unfold mbxTake
  refine keeps_ite ?_ ?_
  · extract_lets +onlyGivenNames -merge -underBinder x1200
    have h1201 : Keeps s0 x1200 := State.modMailbox_keeps h2
    exact keeps_ite (setFlag_keeps h1201) h1201
  · exact h2

theorem discardQueued_keeps {a1} (h1 : Keeps s0 a1) :
    Keeps s0 (discardQueued a1) := by
  unfold discardQueued
  extract_lets +onlyGivenNames -merge -underBinder x1202 x1204
  have h1203 : Keeps s0 x1202 := Keeps.mapVals h1 rfl rfl rfl rfl rfl rfl rfl rfl rfl
  have h1205 : Keeps s0 x1204 := abortAll_keeps h1203
  exact Keeps.keep h1205 rfl rfl rfl rfl rfl rfl rfl rfl rfl

theorem resetFunction_keeps {a1 a2 a3} (h3 : Keeps s0 a3) : Keeps s0 (resetFunction a1 a2 a3) := by
  unfold resetFunction
  extract_lets +onlyGivenNames -merge -underBinder s1 busy h e q y l s2
  have h1 : Keeps s0 s1 := discardQueued_keeps h3
  have h2 : Keeps s0 s2 := h1.trans ⟨rfl, id, id, Nat.le_refl _, Nat.le_refl _, ⟨rfl, rfl⟩, OtpSets.refl _⟩
  exact logHw_keeps h2

theorem functionReset_keeps {a1 a2} (h2 : Keeps s0 a2) :
    Keeps s0 (functionReset a1 a2) := by
  unfold functionReset
  exact resetFunction_keeps h2

theorem writeCtlq_keeps {a1 a2 a3 a4} (h4 : Keeps s0 a4) :
    Keeps s0 (writeCtlq a1 a2 a3 a4) := by
  unfold writeCtlq
  extract_lets +onlyGivenNames -merge -underBinder x1212 x1213
  split
  · exact keeps_ite (State.modQueue_keeps h4) h4
  · exact keeps_ite (State.modQueue_keeps h4) h4
  · exact keeps_ite (State.modQueue_keeps h4) h4
  · exact keeps_ite (State.modQueue_keeps h4) h4
  · exact writeCfg_keeps h4
  · exact sqTail_keeps h4
  · exact cqHead_keeps h4
  · exact h4

theorem writeMbx_keeps {a1 a2 a3 a4} (h4 : Keeps s0 a4) :
    Keeps s0 (writeMbx a1 a2 a3 a4) := by
  unfold writeMbx
  split
  · exact keeps_ite (mbxSend_keeps h4) h4
  · extract_lets +onlyGivenNames -merge -underBinder x1214
    have h1215 : Keeps s0 x1214 := keeps_ite (mbxTake_keeps h4) h4
    exact keeps_ite (State.modMailbox_keeps h1215) h1215
  · exact h4

theorem bar0Write_keeps {a1 a2 a3} (h3 : Keeps s0 a3) : Keeps s0 (bar0Write a1 a2 a3) := by
  unfold bar0Write
  repeat' with_reducible refine keeps_ite ?_ ?_
  all_goals first
    | with_reducible exact h3
    | with_reducible exact writeEpoch_keeps h3
    | with_reducible exact writeEnable_keeps h3
    | with_reducible exact forceFlags_keeps h3
    | with_reducible exact writeCtlq_keeps h3
    | with_reducible exact writeMbx_keeps h3
    | with_reducible exact releaseSlot_keeps h3
    | exact Keeps.frame h3 rfl rfl rfl rfl rfl rfl rfl rfl rfl
    | exact logRing_keeps h3 (fun h => ⟨h.1, h.2.1, h.2.2.1, h.2.2.2.1, h.2.2.2.2⟩)

theorem bar4Write_keeps {a1 a2 a3} (h3 : Keeps s0 a3) :
    Keeps s0 (bar4Write a1 a2 a3) := by
  unfold bar4Write
  exact keeps_ite (keeps_ite (maskVector_keeps h3) (Keeps.frame h3 rfl rfl rfl rfl rfl rfl rfl rfl rfl)) h3

theorem barWrite_keeps {a1 a2 a3 a4 a5} (h1 : ∀ x0 x1 s, Keeps s0 s → Keeps s0 (a1 x0 x1 s)) (h5 : Keeps s0 a5) :
    Keeps s0 (barWrite a1 a2 a3 a4 a5) := by
  unfold barWrite
  exact keeps_ite h5 (keeps_ite (keeps_ite h5 (h1 _ _ _ (h1 _ _ _ h5))) (keeps_ite h5 (h1 _ _ _ h5)))

theorem bar0Access_keeps {a1 a2 a3 a4} (h4 : Keeps s0 a4) :
    Keeps s0 (bar0Access a1 a2 a3 a4) := by
  unfold bar0Access
  exact keeps_ite (writeEpoch_keeps h4) (barWrite_keeps (fun _ _ _ h1216 => bar0Write_keeps h1216) h4)

end Sys2Proof.Machine
end

