-- ==== Sys2Proof/Laws/KeepsModule.lean ====
section
/-! SUPPORT. What every change of state keeps (`Keeps`), for errors, recovery, power, cast-on and security. -/

namespace Sys2Proof.Machine

variable {s0 s : State}

theorem eccData_keeps {a1 a2 a3} (h3 : Keeps s0 a3) :
    Keeps s0 (eccData a1 a2 a3).1 := by
  unfold eccData
  extract_lets +onlyGivenNames -merge -underBinder x1217 x1218 x1219
  have h1220 : Keeps s0 x1219.1 := by
    subst x1219
    split
    · exact keeps_fst h3
    · exact keeps_fst (Keeps.frame h3 rfl rfl rfl rfl rfl rfl rfl rfl rfl)
  split
  · exact keeps_fst h3
  · extract_lets +onlyGivenNames -merge -underBinder x1221
    exact keeps_fst h3
  · split
    · exact keeps_fst h3
    · exact h1220
  · exact h1220

theorem eccPut_keeps {a1 a2 a3 a4} (h4 : Keeps s0 a4) :
    Keeps s0 (eccPut a1 a2 a3 a4) := by
  unfold eccPut
  extract_lets +onlyGivenNames -merge -underBinder x1222 x1223 _ x1224
  have h1225 : Keeps s0 x1224 := Keeps.frame h4 rfl rfl rfl rfl rfl rfl rfl rfl rfl
  split
  · exact State.modDie_keeps h4
  · exact State.modDie_keeps h4
  · split
    · exact storeWrite_keeps h4
    · exact h1225
  · exact h1225

theorem eccStored_keeps {a1 a2 a3} (h3 : Keeps s0 a3) :
    Keeps s0 (eccStored a1 a2 a3).1 := by
  unfold eccStored
  extract_lets +onlyGivenNames -merge -underBinder x1226
  have h1227 : Keeps s0 x1226.1 := keeps_fst_of (eccData_keeps h3) rfl
  split
  · exact keeps_fst h1227
  · exact keeps_fst h1227

theorem setPort_keeps {a1 a2 a3 a4 a5} (h5 : Keeps s0 a5) :
    Keeps s0 (setPort a1 a2 a3 a4 a5) := by
  unfold setPort
  exact Keeps.frame h5 rfl rfl rfl rfl rfl rfl rfl rfl rfl

theorem refusePort_keeps {a1 a2 a3 a4} (h4 : Keeps s0 a4) :
    Keeps s0 (refusePort a1 a2 a3 a4) := by
  unfold refusePort
  exact setPort_keeps h4

theorem eccPort_keeps {a1 a2 a3 a4} (h4 : Keeps s0 a4) :
    Keeps s0 (eccPort a1 a2 a3 a4) := by
  unfold eccPort
  split
  · exact keeps_ite h4 (logUnit_keeps h4)
  · split
    · exact refusePort_keeps h4
    · extract_lets +onlyGivenNames -merge -underBinder x1228 x1229
      have h1230 : ∀ s, Keeps s0 s → Keeps s0 (x1229 s) := fun _ h1231 => Keeps.frame h1231 rfl rfl rfl rfl rfl rfl
          rfl rfl rfl
      clear_value x1229
      refine keeps_ite ?_ ?_
      · extract_lets +onlyGivenNames -merge -underBinder x1232 x1233
        have h1234 : Keeps s0 x1233 := h1230 _ (eccPut_keeps h4)
        exact setPort_keeps (Keeps.frame h1234 rfl rfl rfl rfl rfl rfl rfl rfl rfl)
      · refine keeps_ite ?_ ?_
        · exact setPort_keeps (h1230 _ (eccPut_keeps h4))
        · extract_lets +onlyGivenNames -merge -underBinder x1235
          have h1236 : Keeps s0 x1235.1 := keeps_fst_of (eccStored_keeps h4) rfl
          refine keeps_ite ?_ ?_
          · exact setPort_keeps h1236
          · refine keeps_ite ?_ ?_
            · extract_lets +onlyGivenNames -merge -underBinder x1237
              exact setPort_keeps h1236
            · extract_lets +onlyGivenNames -merge -underBinder x1238
              exact setPort_keeps h1236

theorem portTakes_keeps {a1 a2 a3 a4} (h4 : Keeps s0 a4) :
    Keeps s0 (portTakes a1 a2 a3 a4) := by
  unfold portTakes
  extract_lets +onlyGivenNames -merge -underBinder x1239
  exact Keeps.frame h4 rfl rfl rfl rfl rfl rfl rfl rfl rfl

theorem portRuns_keeps {a1 a2 a3 a4} (h4 : Keeps s0 a4) :
    Keeps s0 (portRuns a1 a2 a3 a4) := by
  unfold portRuns
  exact eccPort_keeps (portTakes_keeps h4)

theorem portWrite_keeps {a1 a2 a3 a4} (h4 : Keeps s0 a4) :
    Keeps s0 (portWrite a1 a2 a3 a4) := by
  unfold portWrite
  extract_lets +onlyGivenNames -merge -underBinder x1240 x1241 x1242
  refine keeps_ite ?_ ?_
  · extract_lets +onlyGivenNames -merge -underBinder _ x1243
    have h1244 : Keeps s0 x1243 := Keeps.frame h4 rfl rfl rfl rfl rfl rfl rfl rfl rfl
    refine keeps_ite ?_ ?_
    · split
      · exact keeps_ite (setPort_keeps h1244) (eccPort_keeps h1244)
      · exact setPort_keeps h1244
    · exact h1244
  · refine keeps_ite ?_ ?_
    · exact Keeps.frame h4 rfl rfl rfl rfl rfl rfl rfl rfl rfl
    · refine keeps_ite ?_ ?_
      · exact Keeps.frame h4 rfl rfl rfl rfl rfl rfl rfl rfl rfl
      · refine keeps_ite ?_ ?_
        · extract_lets +onlyGivenNames -merge -underBinder x1245
          exact Keeps.frame h4 rfl rfl rfl rfl rfl rfl rfl rfl rfl
        · exact h4

theorem retireChannel_keeps {a1 a2} (h2 : Keeps s0 a2) :
    Keeps s0 (retireChannel a1 a2) := by
  unfold retireChannel
  extract_lets +onlyGivenNames -merge -underBinder x1246 _ x1248
  have h1247 : Keeps s0 x1246 := retireUnit_keeps h2
  have h1249 : Keeps s0 x1248 := Keeps.frame h1247 rfl rfl rfl rfl rfl rfl rfl rfl rfl
  exact checkCapacity_keeps (foldOver_keeps (fun _ _ h1250 => remapUnit_keeps h1250) h1249)

theorem retireFor_keeps {a1 a2} (h2 : Keeps s0 a2) :
    Keeps s0 (retireFor a1 a2) := by
  unfold retireFor
  split
  · exact keeps_ite h2 (retireChannel_keeps h2)
  · exact dropUnplaceable_keeps (retireUnit_keeps h2)

theorem remapFull_keeps {a1 a2 a3 a4} (h4 : Keeps s0 a4) :
    Keeps s0 (remapFull a1 a2 a3 a4) := by
  unfold remapFull
  extract_lets +onlyGivenNames -merge -underBinder x1251
  have h1252 : Keeps s0 x1251 := addLog_keeps h4
  split
  · exact retireFor_keeps h1252
  · exact retireFor_keeps h1252
  · exact dropUnplaceable_keeps (State.modDie_keeps h1252)
  · extract_lets +onlyGivenNames -merge -underBinder x1253 _ x1254
    have h1255 : Keeps s0 x1254 := Keeps.frame h1252 rfl rfl rfl rfl rfl rfl rfl rfl rfl
    exact keeps_ite (retireFor_keeps h1255) h1255
  · refine keeps_ite ?_ ?_
    · extract_lets +onlyGivenNames -merge -underBinder _ x1256
      have h1257 : Keeps s0 x1256 := Keeps.frame h1252 rfl rfl rfl rfl rfl rfl rfl rfl rfl
      exact keeps_ite (degrade_keeps (Keeps.frame h1257 rfl rfl rfl rfl rfl rfl rfl rfl rfl)) h1257
    · exact degrade_keeps h1252
  · exact degrade_keeps h1252

theorem wordRemapped_keeps {a1 a2 a3 a4 a5} (h5 : Keeps s0 a5) :
    Keeps s0 (wordRemapped a1 a2 a3 a4 a5) := by
  unfold wordRemapped
  refine keeps_ite ?_ ?_
  · exact h5
  · refine keeps_ite ?_ ?_
    · exact remapFull_keeps h5
    · extract_lets +onlyGivenNames -merge -underBinder x1258
      exact logUnit_keeps (Keeps.frame h5 rfl rfl rfl rfl rfl rfl rfl rfl rfl)

theorem frameRetire_keeps {a1 a2 a3 a4} (h4 : Keeps s0 a4) :
    Keeps s0 (frameRetire a1 a2 a3 a4) := by
  unfold frameRetire
  split
  · exact h4
  · extract_lets +onlyGivenNames -merge -underBinder x1259
    have h1260 : ∀ s, Keeps s0 s → Keeps s0 (x1259 s) := by
      subst x1259
      intro _ h1261
      dsimp -zeta only
      extract_lets +onlyGivenNames -merge -underBinder x1262 x1263
      have h1264 : Keeps s0 x1263 := addLog_keeps (State.modDie_keeps h1261)
      exact keeps_ite (degrade_keeps h1264) h1264
    clear_value x1259
    refine keeps_ite ?_ ?_
    · exact h1260 _ h4
    · refine keeps_ite ?_ ?_
      · refine keeps_ite ?_ ?_
        · exact h1260 _ h4
        · split
          · exact h4
          · extract_lets +onlyGivenNames -merge -underBinder x1265
            have h1266 : Keeps s0 x1265 := evictPage_keeps h4
            exact keeps_ite (h1260 _ h1266) h1266
      · exact h4

theorem scanResult_keeps {a1 a2 a3 a4} (h4 : Keeps s0 a4) :
    Keeps s0 (scanResult a1 a2 a3 a4) := by
  unfold scanResult
  refine keeps_ite ?_ ?_
  · extract_lets +onlyGivenNames -merge -underBinder _ x1267
    have h1268 : Keeps s0 x1267 := Keeps.frame h4 rfl rfl rfl rfl rfl rfl rfl rfl rfl
    exact keeps_ite (putBack_keeps h1268) (retireFor_keeps (logUnit_keeps h1268))
  · exact h4

theorem scanPeriod_keeps {a1 a2} (h2 : Keeps s0 a2) :
    Keeps s0 (scanPeriod a1 a2) := by
  unfold scanPeriod
  extract_lets +onlyGivenNames -merge -underBinder x1269 x1270
  refine keeps_ite ?_ ?_
  · split
    · extract_lets +onlyGivenNames -merge -underBinder x1271 x1272
      exact keeps_ite (takeOut_keeps h2) h2
    · exact keeps_ite (takeOut_keeps h2) h2
    · exact h2
  · exact h2

theorem errQueryStart_keeps {a1 a2} (h2 : Keeps s0 a2) :
    Keeps s0 (errQueryStart a1 a2) := by
  unfold errQueryStart
  split
  · exact h2
  · exact succeed_keeps h2

theorem errInjectLanded_keeps {a1 a2} (h2 : Keeps s0 a2) :
    Keeps s0 (errInjectLanded a1 a2) := by
  unfold errInjectLanded
  split
  · exact h2
  · extract_lets +onlyGivenNames -merge -underBinder x1273 x1274 x1276 x1277
    have h1275 : Keeps s0 x1274 := by
      subst x1274
      split
      · exact portRuns_keeps h2
      · exact setPort_keeps h2
    exact succeed_keeps h1275

theorem logLoop_keeps {a1 a2 a3 a4 a5} (h5 : Keeps s0 a5) :
    Keeps s0 (logLoop a1 a2 a3 a4 a5) := by
  unfold logLoop
  exact keeps_ite h5 (keeps_ite (addLog_keeps h5) (logClipped_keeps h5))

theorem errPolicyStart_keeps {a1 a2} (h2 : Keeps s0 a2) :
    Keeps s0 (errPolicyStart a1 a2) := by
  unfold errPolicyStart
  split
  · exact h2
  · extract_lets +onlyGivenNames -merge -underBinder x1278 x1279 x1280 x1281 _ x1282 x1284
    have h1283 : Keeps s0 x1282 := Keeps.frame h2 rfl rfl rfl rfl rfl rfl rfl rfl rfl
    have h1285 : Keeps s0 x1284 := logLoop_keeps (logLoop_keeps (logLoop_keeps h1283))
    exact succeed_keeps (addLog_keeps h1285)

theorem errReinstateStart_keeps {a1 a2 a3} (h3 : Keeps s0 a3) :
    Keeps s0 (errReinstateStart a1 a2 a3) := by
  unfold errReinstateStart
  split
  · exact h3
  · split
    · exact fail_keeps h3
    · refine keeps_ite ?_ ?_
      · exact fail_keeps h3
      · split
        · extract_lets +onlyGivenNames -merge -underBinder _ _ x1286
          have h1287 : Keeps s0 x1286 := Keeps.frame h3 rfl rfl rfl rfl rfl rfl rfl rfl rfl
          exact succeed_keeps (undegrade_keeps h1287)
        · extract_lets +onlyGivenNames -merge -underBinder x1288 x1289
          have h1290 : Keeps s0 x1289 := State.modDie_keeps h3
          exact succeed_keeps (keeps_ite (undegrade_keeps h1290) h1290)

theorem errScanStart_keeps {a1 a2 a3 a4} (h4 : Keeps s0 a4) :
    Keeps s0 (errScanStart a1 a2 a3 a4) := by
  unfold errScanStart
  split
  · exact h4
  · split
    · exact fail_keeps h4
    · exact keeps_ite (succeed_keeps (scanResult_keeps h4)) (fail_keeps h4)

theorem clearReset_keeps {a1 a2} (h2 : Keeps s0 a2) :
    Keeps s0 (clearReset a1 a2) := by
  unfold clearReset
  exact Keeps.frame h2 rfl rfl rfl rfl rfl rfl rfl rfl rfl

theorem chargeEngine_keeps {a1 a2} (h2 : Keeps s0 a2) :
    Keeps s0 (chargeEngine a1 a2) := by
  unfold chargeEngine
  extract_lets +onlyGivenNames -merge -underBinder x1291 _ x1292 x1294
  have h1293 : Keeps s0 x1292 := Keeps.frame h2 rfl rfl rfl rfl rfl rfl rfl rfl rfl
  exact keeps_ite (retireFor_keeps h1293) h1293

theorem suspectsOver_keeps {a1 a2} (h2 : Keeps s0 a2) :
    Keeps s0 (suspectsOver a1 a2) := by
  unfold suspectsOver
  refine keeps_ite ?_ ?_
  · exact h2
  · extract_lets +onlyGivenNames -merge -underBinder x1295 x1297 _ x1298
    have h1296 : Keeps s0 x1295 := by
      subst x1295
      split
      · exact keeps_ite h2 (State.modDie_keeps h2)
      · exact h2
    have h1299 : Keeps s0 x1298 := Keeps.frame h1296 rfl rfl rfl rfl rfl rfl rfl rfl rfl
    exact keeps_ite (chargeEngine_keeps h1299) h1299

theorem dropSuspects_keeps {a1 a2} (h2 : Keeps s0 a2) :
    Keeps s0 (dropSuspects a1 a2) := by
  unfold dropSuspects
  extract_lets +onlyGivenNames -merge -underBinder x1300 _ x1301
  have h1302 : Keeps s0 x1301 := Keeps.frame h2 rfl rfl rfl rfl rfl rfl rfl rfl rfl
  exact foldOver_keeps (fun _ _ h1303 => suspectsOver_keeps h1303) h1302

theorem contextReset_keeps {a1 a2} (h2 : Keeps s0 a2) :
    Keeps s0 (contextReset a1 a2) := by
  unfold contextReset
  extract_lets +onlyGivenNames -merge -underBinder x1304 x1305 x1307 x1308 x1311
  have h1306 : Keeps s0 x1305 := abortAll_keeps (dropSuspects_keeps h2)
  have h1309 : Keeps s0 x1308 := foldOver_keeps (fun _ _ h1310 => endSeqs_keeps h1310) h1306
  have h1312 : Keeps s0 x1311 := Keeps.frame h1309 rfl rfl rfl rfl rfl rfl rfl rfl rfl
  exact armReset_keeps (holdContext_keeps h1312)

theorem takeDump_keeps {a1 a2 a3 a4 a5 a6} (h6 : Keeps s0 a6) :
    Keeps s0 (takeDump a1 a2 a3 a4 a5 a6) := by
  unfold takeDump
  extract_lets +onlyGivenNames -merge -underBinder x1313
  exact logHw_keeps (Keeps.frame h6 rfl rfl rfl rfl rfl rfl rfl rfl rfl)

theorem dropStaging_keeps {a1} (h1 : Keeps s0 a1) :
    Keeps s0 (dropStaging a1) := by
  unfold dropStaging
  refine keeps_ite ?_ ?_
  · extract_lets +onlyGivenNames -merge -underBinder x1314
    have h1315 : Keeps s0 x1314 := State.modDie_keeps h1
    exact Keeps.frame h1315 rfl rfl rfl rfl rfl rfl rfl rfl rfl
  · exact Keeps.frame h1 rfl rfl rfl rfl rfl rfl rfl rfl rfl

theorem allLinksDown_keeps {a1 a2 a3} (h3 : Keeps s0 a3) :
    Keeps s0 (allLinksDown a1 a2 a3) := by
  unfold allLinksDown
  refine foldOver_keeps ?_ ?_
  · intro _ _ h1316
    extract_lets +onlyGivenNames -merge -underBinder x1317
    exact keeps_ite (linkDown_keeps (keeps_ite (State.modLink_keeps h1316) h1316)) h1316
  · exact h3

theorem loseWork_keeps {a1} (h1 : Keeps s0 a1) :
    Keeps s0 (loseWork a1) := by
  unfold loseWork
  extract_lets +onlyGivenNames -merge -underBinder x1318 x1320 x1321
  have h1319 : Keeps s0 x1318 := dropStaging_keeps (abortAll_keeps h1)
  exact Keeps.keep h1319 rfl rfl rfl rfl rfl rfl rfl rfl rfl

theorem flushStaging_keeps {a1} (h1 : Keeps s0 a1) :
    Keeps s0 (flushStaging a1) := by
  unfold flushStaging
  exact Keeps.frame h1 rfl rfl rfl rfl rfl rfl rfl rfl rfl

theorem writeLogBatch_keeps {a1} (h1 : Keeps s0 a1) : Keeps s0 (writeLogBatch a1) := by
  unfold writeLogBatch
  extract_lets +onlyGivenNames -merge -underBinder xs
  refine logRing_keeps h1 fun h => ⟨h.1, h.2.1, h.2.2.1, Nat.zero_le _, ?_⟩
  simp only [List.length_drop]
  omega

theorem castFrom_keeps {a1 a2} (h2 : Keeps s0 a2) : Keeps s0 (castFrom a1 a2) := by
  unfold castFrom
  extract_lets +onlyGivenNames -merge -underBinder _ s1
  have h1 : Keeps s0 s1 :=
    h2.trans ⟨rfl, id, id, Nat.le_refl _, Nat.le_succ _, ⟨rfl, rfl⟩, OtpSets.refl _⟩
  exact setStatus_keeps (setStatus_keeps h1)

theorem resetBegins_keeps {a1} (h1 : Keeps s0 a1) :
    Keeps s0 (resetBegins a1) := by
  unfold resetBegins
  extract_lets +onlyGivenNames -merge -underBinder x1325 x1327
  have h1326 : Keeps s0 x1325 := Keeps.frame h1 rfl rfl rfl rfl rfl rfl rfl rfl rfl
  have h1328 : Keeps s0 x1327 := resetFunction_keeps (allLinksDown_keeps h1326)
  exact setStatus_keeps (setStatus_keeps (refreshFenced_keeps h1328))

theorem startModuleReset_keeps {a1 a2 a3 a4 a5} (h5 : Keeps s0 a5) :
    Keeps s0 (startModuleReset a1 a2 a3 a4 a5) := by
  unfold startModuleReset
  refine keeps_ite ?_ ?_
  · exact h5
  · extract_lets +onlyGivenNames -merge -underBinder _ x1329
    have h1330 : Keeps s0 x1329 := Keeps.frame h5 rfl rfl rfl rfl rfl rfl rfl rfl rfl
    exact keeps_ite (Keeps.frame h1330 rfl rfl rfl rfl rfl rfl rfl rfl rfl) (resetBegins_keeps (armReset_keeps
        (Keeps.frame h1330 rfl rfl rfl rfl rfl rfl rfl rfl rfl)))

theorem resetModule_keeps {a1 a2} (h2 : Keeps s0 a2) :
    Keeps s0 (resetModule a1 a2) := by
  unfold resetModule
  split
  · refine keeps_ite ?_ ?_
    · exact h2
    · extract_lets +onlyGivenNames -merge -underBinder x1331 x1333 x1335 _ _ _ _ x1336
      have h1332 : Keeps s0 x1331 := keeps_ite h2 (takeDump_keeps h2)
      have h1334 : Keeps s0 x1333 := loseWork_keeps (flushStaging_keeps h1332)
      have h1337 : Keeps s0 x1336 := Keeps.frame h1334 rfl rfl rfl rfl rfl rfl rfl rfl rfl
      exact refreshFenced_keeps (castFrom_keeps h1337)
  · exact h2

theorem moduleReset_keeps {a1 a2} (h2 : Keeps s0 a2) :
    Keeps s0 (moduleReset a1 a2) := by
  unfold moduleReset
  refine keeps_ite ?_ ?_
  · exact h2
  · extract_lets +onlyGivenNames -merge -underBinder x1338
    exact resetModule_keeps (startModuleReset_keeps h2)

theorem bindOff_keeps {a1 a2} (h2 : Keeps s0 a2) :
    Keeps s0 (bindOff a1 a2) := by
  unfold bindOff
  split
  · exact h2
  · refine keeps_ite ?_ ?_
    · exact h2
    · extract_lets +onlyGivenNames -merge -underBinder x1339
      have h1340 : Keeps s0 x1339 := refreshFenced_keeps (State.modPart_keeps h2)
      exact foldOver_keeps (fun _ _ h1341 => preemptRequest_keeps h1341) h1340

theorem partitionReset_keeps {a1 a2 a3} (h3 : Keeps s0 a3) :
    Keeps s0 (partitionReset a1 a2 a3) := by
  unfold partitionReset
  exact keeps_ite h3 (bindOff_keeps (armReset_keeps h3))

theorem endPartition_keeps {a1 a2} (h2 : Keeps s0 a2) :
    Keeps s0 (endPartition a1 a2) := by
  unfold endPartition
  extract_lets +onlyGivenNames -merge -underBinder x1342 x1343 x1345 x1348 x1350 x1355
  have h1344 : Keeps s0 x1343 := dropSuspects_keeps h2
  have h1346 : Keeps s0 x1345 := foldOver_keeps (fun _ _ h1347 => holdContext_keeps h1347) h1344
  have h1349 : Keeps s0 x1348 := abortAll_keeps h1346
  have h1351 : Keeps s0 x1350 := by
    subst x1350
    refine foldOver_keeps ?_ ?_
    · intro _ _ h1352
      extract_lets +onlyGivenNames -merge -underBinder x1353
      have h1354 : Keeps s0 x1353 := endSeqs_keeps h1352
      exact Keeps.frame h1354 rfl rfl rfl rfl rfl rfl rfl rfl rfl
    · exact h1349
  have h1356 : Keeps s0 x1355 := revokeLeases_keeps h1351
  exact loseSums_keeps (forgetRecalls_keeps h1356)

theorem resetPartDies_keeps {a1 a2} (h2 : Keeps s0 a2) :
    Keeps s0 (resetPartDies a1 a2) := by
  unfold resetPartDies
  extract_lets +onlyGivenNames -merge -underBinder x1357 x1358 x1359 x1362 _ x1365
  have h1360 : Keeps s0 x1359 := foldOver_keeps (fun _ _ h1361 => advanceGen_keeps h1361) h2
  have h1363 : Keeps s0 x1362 := foldOver_keeps (fun _ _ h1364 => State.modDie_keeps h1364) h1360
  have h1366 : Keeps s0 x1365 := Keeps.frame h1363 rfl rfl rfl rfl rfl rfl rfl rfl rfl
  refine foldOver_keeps ?_ ?_
  · intro _ _ h1367
    split
    · exact chargeEngine_keeps h1367
    · exact h1367
  · exact h1366

theorem bindOffDrain_keeps {a1 a2 a3} (h3 : Keeps s0 a3) :
    Keeps s0 (bindOffDrain a1 a2 a3) := by
  unfold bindOffDrain
  split
  · exact h3
  · refine keeps_ite ?_ ?_
    · exact h3
    · extract_lets +onlyGivenNames -merge -underBinder x1368
      have h1369 : Keeps s0 x1368 := endPartition_keeps h3
      split
      · exact h1369
      · extract_lets +onlyGivenNames -merge -underBinder x1370 x1372
        have h1371 : Keeps s0 x1370 := resetPartDies_keeps (takeDump_keeps h1369)
        have h1373 : Keeps s0 x1372 := refreshFenced_keeps (State.modPart_keeps (clearReset_keeps h1371))
        exact addLog_keeps h1373

theorem addSuspect_keeps {a1 a2} (h2 : Keeps s0 a2) :
    Keeps s0 (addSuspect a1 a2) := by
  unfold addSuspect
  exact keeps_ite h2 (holdContext_keeps (Keeps.frame h2 rfl rfl rfl rfl rfl rfl rfl rfl rfl))

theorem suspectStream_keeps {a1 a2 a3} (h3 : Keeps s0 a3) :
    Keeps s0 (suspectStream a1 a2 a3) := by
  unfold suspectStream
  split
  · exact h3
  · extract_lets +onlyGivenNames -merge -underBinder x1374
    have h1375 : Keeps s0 x1374 := State.modDie_keeps (vacate_keeps h3)
    exact addSuspect_keeps h1375

theorem requeueUpdate_keeps {a1 a2 a3} (h3 : Keeps s0 a3) :
    Keeps s0 (requeueUpdate a1 a2 a3) := by
  unfold requeueUpdate
  split
  · exact h3
  · extract_lets +onlyGivenNames -merge -underBinder x1376
    have h1377 : Keeps s0 x1376 := State.modDie_keeps h3
    split
    · exact h1377
    · exact addTask_keeps h1377

theorem stopScans_keeps {a1 a2 a3} (h3 : Keeps s0 a3) :
    Keeps s0 (stopScans a1 a2 a3) := by
  unfold stopScans
  extract_lets +onlyGivenNames -merge -underBinder x1378 x1379
  have h1380 : Keeps s0 x1379 := Keeps.frame h3 rfl rfl rfl rfl rfl rfl rfl rfl rfl
  exact foldOver_keeps (fun _ _ h1381 => addSuspect_keeps h1381) h1380

theorem countReset_keeps {a1 a2} (h2 : Keeps s0 a2) :
    Keeps s0 (countReset a1 a2) := by
  unfold countReset
  extract_lets +onlyGivenNames -merge -underBinder x1382 _ x1383
  have h1384 : Keeps s0 x1383 := Keeps.frame h2 rfl rfl rfl rfl rfl rfl rfl rfl rfl
  exact keeps_ite (startModuleReset_keeps h1384) h1384

theorem abandonWork_keeps {a1 a2} (h2 : Keeps s0 a2) :
    Keeps s0 (abandonWork a1 a2) := by
  unfold abandonWork
  split
  · exact suspectStream_keeps h2
  · exact suspectStream_keeps (requeueUpdate_keeps h2)
  · exact suspectStream_keeps h2
  · exact stopScans_keeps h2
  · refine keeps_ite ?_ ?_
    · exact h2
    · split
      · exact abort_keeps h2
      · exact h2
  · exact countReset_keeps h2
  · exact countReset_keeps h2
  · exact linkRetrain_keeps h2
  · exact h2

theorem engineReset_keeps {a1 a2 a3 a4} (h4 : Keeps s0 a4) :
    Keeps s0 (engineReset a1 a2 a3 a4) := by
  unfold engineReset
  extract_lets +onlyGivenNames -merge -underBinder x1385 x1386 x1387
  refine keeps_ite ?_ ?_
  · exact h4
  · extract_lets +onlyGivenNames -merge -underBinder x1388
    have h1389 : Keeps s0 x1388 := advanceGen_keeps (armReset_keeps h4)
    exact abandonWork_keeps (Keeps.frame h1389 rfl rfl rfl rfl rfl rfl rfl rfl rfl)

theorem clearEngine_keeps {a1 a2} (h2 : Keeps s0 a2) :
    Keeps s0 (clearEngine a1 a2) := by
  unfold clearEngine
  split
  · exact State.modDie_keeps h2
  · exact State.modDie_keeps h2
  · exact State.modDie_keeps h2
  · exact h2

theorem engineReopen_keeps {a1 a2} (h2 : Keeps s0 a2) :
    Keeps s0 (engineReopen a1 a2) := by
  unfold engineReopen
  split
  · exact h2
  · extract_lets +onlyGivenNames -merge -underBinder x1390
    have h1391 : Keeps s0 x1390 := logUnit_keeps (clearEngine_keeps (clearReset_keeps h2))
    exact keeps_ite (keeps_ite (Keeps.frame h1391 rfl rfl rfl rfl rfl rfl rfl rfl rfl) (chargeEngine_keeps h1391))
        h1391

theorem releaseStream_keeps {a1 a2 a3} (h3 : Keeps s0 a3) :
    Keeps s0 (releaseStream a1 a2 a3) := by
  unfold releaseStream
  split
  · exact h3
  · extract_lets +onlyGivenNames -merge -underBinder x1392
    have h1393 : Keeps s0 x1392 := State.modDie_keeps h3
    exact replayOn_keeps h1393

theorem countMismatch_keeps {a1 a2 a3} (h3 : Keeps s0 a3) :
    Keeps s0 (countMismatch a1 a2 a3) := by
  unfold countMismatch
  extract_lets +onlyGivenNames -merge -underBinder x1394 x1395 x1396 x1398
  have h1397 : Keeps s0 x1396 := State.modDie_keeps h3
  exact keeps_ite (retireFor_keeps h1397) h1397

theorem recurred_keeps {a1 a2} (h2 : Keeps s0 a2) :
    Keeps s0 (recurred a1 a2) := by
  unfold recurred
  split
  · exact keeps_ite h2 (countMismatch_keeps h2)
  · exact h2

theorem suspectReplay_keeps {a1 a2 a3} (h3 : Keeps s0 a3) :
    Keeps s0 (suspectReplay a1 a2 a3) := by
  unfold suspectReplay
  split
  · exact h3
  · refine keeps_ite ?_ ?_
    · exact h3
    · extract_lets +onlyGivenNames -merge -underBinder _ x1399
      have h1400 : Keeps s0 x1399 := Keeps.frame h3 rfl rfl rfl rfl rfl rfl rfl rfl rfl
      refine keeps_ite ?_ ?_
      · extract_lets +onlyGivenNames -merge -underBinder _ x1401
        have h1402 : Keeps s0 x1401 := Keeps.frame h1400 rfl rfl rfl rfl rfl rfl rfl rfl rfl
        exact suspectsOver_keeps (recurred_keeps (holdContext_keeps (addLog_keeps (abort_keeps h1402))))
      · extract_lets +onlyGivenNames -merge -underBinder x1403 x1404 x1406
        have h1405 : Keeps s0 x1404 := keeps_ite h1400 (holdContext_keeps h1400)
        have h1407 : Keeps s0 x1406 := by
          subst x1406
          split
          · exact releaseStream_keeps h1405
          · exact h1405
        exact suspectsOver_keeps h1407

theorem releaseTimeout_keeps {a1 a2 a3} (h3 : Keeps s0 a3) :
    Keeps s0 (releaseTimeout a1 a2 a3) := by
  unfold releaseTimeout
  split
  · exact h3
  · refine keeps_ite ?_ ?_
    · extract_lets +onlyGivenNames -merge -underBinder x1408
      have h1409 : Keeps s0 x1408 := logUnit_keeps (clearReset_keeps h3)
      exact dropSuspects_keeps (engineReset_keeps h1409)
    · exact h3

theorem askPowerCycle_keeps {a1} (h1 : Keeps s0 a1) :
    Keeps s0 (askPowerCycle a1) := by
  unfold askPowerCycle
  refine keeps_ite ?_ ?_
  · exact h1
  · extract_lets +onlyGivenNames -merge -underBinder _ x1410
    have h1411 : Keeps s0 x1410 := logHw_keeps (Keeps.frame h1 rfl rfl rfl rfl rfl rfl rfl rfl rfl)
    exact allLinksDown_keeps (refreshFenced_keeps h1411)

theorem escalate_keeps {a1 a2} (h2 : Keeps s0 a2) :
    Keeps s0 (escalate a1 a2) := by
  unfold escalate
  split
  · exact h2
  · refine keeps_ite ?_ ?_
    · exact h2
    · split
      · exact clearReset_keeps (logHw_keeps h2)
      · extract_lets +onlyGivenNames -merge -underBinder x1412
        have h1413 : Keeps s0 x1412 := logUnit_keeps h2
        split
        · exact partitionReset_keeps h1413
        · exact startModuleReset_keeps (clearReset_keeps h1413)
      · exact startModuleReset_keeps (addLog_keeps h2)
      · exact askPowerCycle_keeps (logHw_keeps h2)

theorem powerCycleIgnored_keeps {a1} (h1 : Keeps s0 a1) :
    Keeps s0 (powerCycleIgnored a1) := by
  unfold powerCycleIgnored
  split
  · exact h1
  · exact keeps_ite (allLinksDown_keeps (refreshFenced_keeps (logHw_keeps (Keeps.frame h1 rfl rfl rfl rfl rfl rfl rfl
        rfl rfl)))) h1

theorem watchdog_keeps {a1 a2 a3} (h3 : Keeps s0 a3) :
    Keeps s0 (watchdog a1 a2 a3) := by
  unfold watchdog
  refine keeps_ite ?_ ?_
  · exact h3
  · split
    · extract_lets +onlyGivenNames -merge -underBinder x1414
      have h1415 : Keeps s0 x1414 := logUnit_keeps h3
      split
      · exact partitionReset_keeps h1415
      · exact h1415
    · exact keeps_ite (logUnit_keeps h3) (startModuleReset_keeps (logUnit_keeps h3))
    · exact startModuleReset_keeps (logUnit_keeps h3)
    · exact engineReset_keeps (logUnit_keeps h3)

theorem rcvResetStart_keeps {a1 a2} (h2 : Keeps s0 a2) :
    Keeps s0 (rcvResetStart a1 a2) := by
  unfold rcvResetStart
  split
  · exact h2
  · extract_lets +onlyGivenNames -merge -underBinder x1416
    have h1417 : Keeps s0 x1416 := succeed_keeps h2
    split
    · exact contextReset_keeps h1417
    · split
      · exact engineReset_keeps h1417
      · exact h1417
    · exact partitionReset_keeps h1417
    · exact startModuleReset_keeps h1417

theorem rcvQueryStart_keeps {a1 a2} (h2 : Keeps s0 a2) :
    Keeps s0 (rcvQueryStart a1 a2) := by
  unfold rcvQueryStart
  split
  · exact h2
  · exact succeed_keeps h2

theorem rcvReleaseStart_keeps {a1 a2} (h2 : Keeps s0 a2) :
    Keeps s0 (rcvReleaseStart a1 a2) := by
  unfold rcvReleaseStart
  split
  · exact h2
  · exact succeed_keeps (holdContext_keeps h2)

theorem rcvDumpStart_keeps {a1 a2 a3} (h3 : Keeps s0 a3) :
    Keeps s0 (rcvDumpStart a1 a2 a3) := by
  unfold rcvDumpStart
  split
  · exact h3
  · exact succeed_keeps (takeDump_keeps h3)

theorem rcvDumpReadStart_keeps {a1 a2} (h2 : Keeps s0 a2) :
    Keeps s0 (rcvDumpReadStart a1 a2) := by
  unfold rcvDumpReadStart
  split
  · exact h2
  · extract_lets +onlyGivenNames -merge -underBinder x1418
    exact succeed_keeps h2

theorem copyDump_keeps {a1} (h1 : Keeps s0 a1) :
    Keeps s0 (copyDump a1) := by
  unfold copyDump
  split
  · exact h1
  · extract_lets +onlyGivenNames -merge -underBinder x1419
    exact Keeps.frame h1 rfl rfl rfl rfl rfl rfl rfl rfl rfl

theorem State.modCfl_keeps {a1 a2} (h2 : Keeps s0 a2) :
    Keeps s0 (State.modCfl a1 a2) := by
  unfold State.modCfl
  exact Keeps.frame h2 rfl rfl rfl rfl rfl rfl rfl rfl rfl

theorem seqError_keeps {a1} (h1 : Keeps s0 a1) :
    Keeps s0 (seqError a1) := by
  unfold seqError
  exact State.modCfl_keeps h1

theorem cflNow_keeps {a1} (h1 : Keeps s0 a1) :
    Keeps s0 (cflNow a1) := by
  unfold cflNow
  split
  · exact keeps_ite (State.modCfl_keeps h1) h1
  · exact h1

theorem sectorProgram_keeps {a1 a2} (h2 : Keeps s0 a2) :
    Keeps s0 (sectorProgram a1 a2) := by
  unfold sectorProgram
  extract_lets +onlyGivenNames -merge -underBinder x1420 x1422
  have h1421 : Keeps s0 x1420 := cflNow_keeps h2
  split
  · exact seqError_keeps h1421
  · extract_lets +onlyGivenNames -merge -underBinder x1423
    exact keeps_ite (seqError_keeps h1421) (State.modCfl_keeps h1421)

theorem countErase_keeps {a1 a2} (h2 : Keeps s0 a2) :
    Keeps s0 (countErase a1 a2) := by
  unfold countErase
  extract_lets +onlyGivenNames -merge -underBinder x1424 x1425
  have h1426 : Keeps s0 x1425 := State.modCfl_keeps h2
  exact keeps_ite (logHw_keeps h1426) h1426

theorem blockErase_keeps {a1 a2} (h2 : Keeps s0 a2) :
    Keeps s0 (blockErase a1 a2) := by
  unfold blockErase
  extract_lets +onlyGivenNames -merge -underBinder x1427
  have h1428 : Keeps s0 x1427 := cflNow_keeps h2
  split
  · exact seqError_keeps h1428
  · exact keeps_ite (seqError_keeps h1428) (countErase_keeps (State.modCfl_keeps h1428))

theorem cflSuspend_keeps {a1} (h1 : Keeps s0 a1) :
    Keeps s0 (cflSuspend a1) := by
  unfold cflSuspend
  extract_lets +onlyGivenNames -merge -underBinder x1429
  have h1430 : Keeps s0 x1429 := cflNow_keeps h1
  exact keeps_ite (State.modCfl_keeps h1430) (seqError_keeps h1430)

theorem cflResume_keeps {a1} (h1 : Keeps s0 a1) :
    Keeps s0 (cflResume a1) := by
  unfold cflResume
  extract_lets +onlyGivenNames -merge -underBinder x1431
  have h1432 : Keeps s0 x1431 := cflNow_keeps h1
  exact keeps_ite (State.modCfl_keeps h1432) (seqError_keeps h1432)

theorem otpEnter_keeps {a1 a2 a3} (h3 : Keeps s0 a3) :
    Keeps s0 (otpEnter a1 a2 a3) := by
  unfold otpEnter
  extract_lets +onlyGivenNames -merge -underBinder x1433
  have h1434 : Keeps s0 x1433 := cflNow_keeps h3
  exact keeps_ite (State.modCfl_keeps h1434) (seqError_keeps h1434)

theorem otpExit_keeps {a1 a2 a3} (h3 : Keeps s0 a3) :
    Keeps s0 (otpExit a1 a2 a3) := by
  unfold otpExit
  extract_lets +onlyGivenNames -merge -underBinder x1435
  have h1436 : Keeps s0 x1435 := cflNow_keeps h3
  exact keeps_ite (State.modCfl_keeps h1436) (seqError_keeps h1436)

theorem orBytes_sets (es : List (Nat × Byte)) (m : Mem) (k i : Nat)
    (h : (Mem.read m k).getLsbD i = true) :
    (Mem.read (es.foldl (fun m e => Mem.write e.1 (Mem.read m e.1 ||| e.2) m) m) k).getLsbD i = true := by
  induction es generalizing m with
  | nil => exact h
  | cons e r ih =>
    refine ih _ ?_
    rw [Mem.read_write]
    split
    · rename_i hk
      rw [← hk, BitVec.getLsbD_or, h, Bool.true_or]
    · exact h

theorem otpSet_keeps {a1 a2 a3 a4} (h4 : Keeps s0 a4) : Keeps s0 (otpSet a1 a2 a3 a4) := by
  unfold otpSet
  extract_lets +onlyGivenNames -merge -underBinder put
  have h (n k i : Nat) (hb : (Mem.read (a4.sec.otp.getD n []) k).getLsbD i = true) :
      (Mem.read ((a4.sec.otp.map put).getD n []) k).getLsbD i = true := by
    rw [List.getD_eq_getElem?_getD, List.getElem?_map] at *
    cases hg : a4.sec.otp[n]? with
    | none => rw [hg] at hb; exact hb
    | some m => rw [hg] at hb; exact orBytes_sets _ m k i hb
  exact addLog_keeps (h4.trans ⟨rfl, id, id, Nat.le_refl _, Nat.le_refl _, ⟨rfl, rfl⟩, List.length_map _, h⟩)

theorem freeBytes_keeps {a1 a2} (h2 : Keeps s0 a2) :
    Keeps s0 (freeBytes a1 a2).1 := by
  unfold freeBytes
  exact keeps_fst (Keeps.frame h2 rfl rfl rfl rfl rfl rfl rfl rfl rfl)

theorem flashDone_keeps {a1 a2} (h2 : Keeps s0 a2) :
    Keeps s0 (flashDone a1 a2) := by
  unfold flashDone
  extract_lets +onlyGivenNames -merge -underBinder x1438 x1440
  have h1439 : Keeps s0 x1438 := cflNow_keeps h2
  split
  · refine keeps_ite ?_ ?_
    · extract_lets +onlyGivenNames -merge -underBinder x1441 x1442 x1443
      have h1444 : Keeps s0 x1443 := State.modCfl_keeps h1439
      exact keeps_ite (otpSet_keeps h1444) h1444
    · extract_lets +onlyGivenNames -merge -underBinder x1445 x1446
      refine keeps_ite ?_ ?_
      · exact State.modCfl_keeps h1439
      · extract_lets +onlyGivenNames -merge -underBinder x1447
        have h1448 : Keeps s0 x1447.1 := keeps_fst_of (freeBytes_keeps h1439) rfl
        exact State.modCfl_keeps h1448
  · split
    · exact h1439
    · refine keeps_ite ?_ ?_
      · exact h1439
      · refine keeps_ite ?_ ?_
        · exact State.modCfl_keeps h1439
        · extract_lets +onlyGivenNames -merge -underBinder x1449
          have h1450 : Keeps s0 x1449.1 := keeps_fst_of (freeBytes_keeps h1439) rfl
          exact State.modCfl_keeps h1450

theorem cflFault_keeps {a1 a2 a3} (h3 : Keeps s0 a3) :
    Keeps s0 (cflFault a1 a2 a3) := by
  unfold cflFault
  exact State.modCfl_keeps h3

theorem fetchDuringErase_keeps {a1 a2} (h2 : Keeps s0 a2) :
    Keeps s0 (fetchDuringErase a1 a2) := by
  unfold fetchDuringErase
  extract_lets +onlyGivenNames -merge -underBinder x1451 x1453
  have h1452 : Keeps s0 x1451 := cflNow_keeps h2
  split
  · exact h1452
  · exact keeps_ite (State.modCfl_keeps h1452) (keeps_ite (cflFault_keeps h1452) (keeps_ite (State.modCfl_keeps
        h1452) h1452))

theorem takeStaging_keeps {a1 a2} (h2 : Keeps s0 a2) :
    Keeps s0 (takeStaging a1 a2) := by
  unfold takeStaging
  refine keeps_ite ?_ ?_
  · exact h2
  · refine keeps_ite ?_ ?_
    · exact Keeps.frame h2 rfl rfl rfl rfl rfl rfl rfl rfl rfl
    · extract_lets +onlyGivenNames -merge -underBinder x1454
      have h1455 : Keeps s0 x1454 := State.modDie_keeps h2
      exact Keeps.frame h1455 rfl rfl rfl rfl rfl rfl rfl rfl rfl

theorem fwStageStart_keeps {a1 a2} (h2 : Keeps s0 a2) :
    Keeps s0 (fwStageStart a1 a2) := by
  unfold fwStageStart
  split
  · exact h2
  · exact takeStaging_keeps h2

theorem eraseBlock_keeps {a1 a2} (h2 : Keeps s0 a2) :
    Keeps s0 (eraseBlock a1 a2) := by
  unfold eraseBlock
  exact countErase_keeps (State.modCfl_keeps h2)

theorem putRecovered_keeps {a1 a2 a3 a4} (h4 : Keeps s0 a4) :
    Keeps s0 (putRecovered a1 a2 a3 a4) := by
  unfold putRecovered
  extract_lets +onlyGivenNames -merge -underBinder x1456
  have h1457 : Keeps s0 x1456 := State.modCfl_keeps (foldOver_keeps (fun _ _ h1458 => eraseBlock_keeps h1458) h4)
  exact Keeps.frame h1457 rfl rfl rfl rfl rfl rfl rfl rfl rfl

theorem putStaged_keeps {a1 a2 a3} (h3 : Keeps s0 a3) :
    Keeps s0 (putStaged a1 a2 a3) := by
  unfold putStaged
  exact keeps_ite (putRecovered_keeps h3) (Keeps.frame h3 rfl rfl rfl rfl rfl rfl rfl rfl rfl)

theorem fwStageLanded_keeps {a1 a2} (h2 : Keeps s0 a2) :
    Keeps s0 (fwStageLanded a1 a2) := by
  unfold fwStageLanded
  split
  · exact h2
  · exact keeps_ite (fail_keeps h2) (keeps_ite (fail_keeps h2) (succeed_keeps (addLog_keeps (putStaged_keeps h2))))

theorem freeStaging_keeps {a1} (h1 : Keeps s0 a1) :
    Keeps s0 (freeStaging a1) := by
  unfold freeStaging
  refine keeps_ite ?_ ?_
  · extract_lets +onlyGivenNames -merge -underBinder x1459
    have h1460 : Keeps s0 x1459 := State.modDie_keeps h1
    exact Keeps.frame h1460 rfl rfl rfl rfl rfl rfl rfl rfl rfl
  · exact Keeps.frame h1 rfl rfl rfl rfl rfl rfl rfl rfl rfl

theorem fwAbortStart_keeps {a1 a2} (h2 : Keeps s0 a2) :
    Keeps s0 (fwAbortStart a1 a2) := by
  unfold fwAbortStart
  exact succeed_keeps (freeStaging_keeps h2)

theorem fwQueryStart_keeps {a1 a2} (h2 : Keeps s0 a2) :
    Keeps s0 (fwQueryStart a1 a2) := by
  unfold fwQueryStart
  extract_lets +onlyGivenNames -merge -underBinder x1461 x1462 x1463
  exact succeed_keeps h2

theorem commitAnswer_keeps {a1 a2 a3} (h3 : Keeps s0 a3) :
    Keeps s0 (commitAnswer a1 a2 a3) := by
  unfold commitAnswer
  split
  · exact fail_keeps h3
  · exact Keeps.frame h3 rfl rfl rfl rfl rfl rfl rfl rfl rfl

theorem commitBegins_keeps {a1 a2 a3} (h3 : Keeps s0 a3) :
    Keeps s0 (commitBegins a1 a2 a3) := by
  unfold commitBegins
  extract_lets +onlyGivenNames -merge -underBinder _ x1464
  have h1465 : Keeps s0 x1464 := Keeps.frame h3 rfl rfl rfl rfl rfl rfl rfl rfl rfl
  split
  · exact commitAnswer_keeps (logHw_keeps h1465)
  · exact Keeps.frame h1465 rfl rfl rfl rfl rfl rfl rfl rfl rfl

theorem commitOptions_keeps {a1 a2 a3} (h3 : Keeps s0 a3) :
    Keeps s0 (commitOptions a1 a2 a3) := by
  unfold commitOptions
  extract_lets +onlyGivenNames -merge -underBinder x1466
  have h1467 : Keeps s0 x1466 := keeps_ite (otpSet_keeps h3) h3
  exact keeps_ite (otpSet_keeps h1467) h1467

theorem commitEnds_keeps {a1} (h1 : Keeps s0 a1) :
    Keeps s0 (commitEnds a1) := by
  unfold commitEnds
  extract_lets +onlyGivenNames -merge -underBinder x1468 x1469 x1470 x1471 _ x1473
  have h1472 : Keeps s0 x1471 := State.modCfl_keeps h1
  have h1474 : Keeps s0 x1473 := commitOptions_keeps (Keeps.frame h1472 rfl rfl rfl rfl rfl rfl rfl rfl rfl)
  exact commitAnswer_keeps (logHw_keeps h1474)

theorem fwCommitStart_keeps {a1 a2} (h2 : Keeps s0 a2) :
    Keeps s0 (fwCommitStart a1 a2) := by
  unfold fwCommitStart
  split
  · exact h2
  · refine keeps_ite ?_ ?_
    · split
      · exact fail_keeps (logHw_keeps h2)
      · exact startModuleReset_keeps (commitEnds_keeps (Keeps.frame h2 rfl rfl rfl rfl rfl rfl rfl rfl rfl))
    · exact commitBegins_keeps h2

theorem commitStep_keeps {a1 a2} (h2 : Keeps s0 a2) :
    Keeps s0 (commitStep a1 a2) := by
  unfold commitStep
  extract_lets +onlyGivenNames -merge -underBinder x1475 x1476
  have h1477 : ∀ y0 s, Keeps s0 s → Keeps s0 (x1476 y0 s) := fun _ _ h1478 => Keeps.frame h1478 rfl rfl rfl rfl rfl
      rfl rfl rfl rfl
  clear_value x1476
  split
  · refine h1477 _ _ ?_
    refine countErase_keeps ?_
    extract_lets +onlyGivenNames -merge -underBinder x1479
    have h1480 : Keeps s0 x1479 := State.modCfl_keeps h2
    exact Keeps.frame h1480 rfl rfl rfl rfl rfl rfl rfl rfl rfl
  · exact h1477 _ _ (foldOver_keeps (fun _ _ h1481 => countErase_keeps (State.modCfl_keeps h1481)) h2)
  · exact h1477 _ _ (State.modCfl_keeps h2)
  · exact keeps_ite (h1477 _ _ h2) (keeps_ite (commitAnswer_keeps (h1477 _ _ h2)) (h1477 _ _ (Keeps.frame h2 rfl rfl
        rfl rfl rfl rfl rfl rfl rfl)))
  · exact h2

theorem otpWriteLanded_keeps {a1 a2} (h2 : Keeps s0 a2) :
    Keeps s0 (otpWriteLanded a1 a2) := by
  unfold otpWriteLanded
  split
  · exact h2
  · extract_lets +onlyGivenNames -merge -underBinder x1482 x1483
    refine keeps_ite ?_ ?_
    · exact fail_keeps h2
    · refine keeps_ite ?_ ?_
      · exact fail_keeps h2
      · extract_lets +onlyGivenNames -merge -underBinder x1484
        have h1485 : Keeps s0 x1484 := succeed_keeps (otpSet_keeps h2)
        exact keeps_ite (Keeps.frame h1485 rfl rfl rfl rfl rfl rfl rfl rfl rfl) h1485

theorem reply_keeps {a1 a2 a3 a4} (h4 : Keeps s0 a4) :
    Keeps s0 (reply a1 a2 a3 a4) := by
  unfold reply
  exact Keeps.frame h4 rfl rfl rfl rfl rfl rfl rfl rfl rfl

theorem setConn_keeps {a1 a2 a3} (h3 : Keeps s0 a3) :
    Keeps s0 (setConn a1 a2 a3) := by
  unfold setConn
  exact Keeps.frame h3 rfl rfl rfl rfl rfl rfl rfl rfl rfl

theorem spdmError_keeps {a1 a2 a3} (h3 : Keeps s0 a3) :
    Keeps s0 (spdmError a1 a2 a3) := by
  unfold spdmError
  exact reply_keeps h3

theorem getVersion_keeps {a1 a2} (h2 : Keeps s0 a2) :
    Keeps s0 (getVersion a1 a2) := by
  unfold getVersion
  exact reply_keeps (setConn_keeps h2)

theorem getCapabilities_keeps {a1 a2} (h2 : Keeps s0 a2) :
    Keeps s0 (getCapabilities a1 a2) := by
  unfold getCapabilities
  exact keeps_ite (reply_keeps (setConn_keeps h2)) (spdmError_keeps h2)

theorem negotiate_keeps {a1 a2 a3 a4 a5} (h5 : Keeps s0 a5) :
    Keeps s0 (negotiate a1 a2 a3 a4 a5) := by
  unfold negotiate
  exact keeps_ite (spdmError_keeps h5) (keeps_ite (reply_keeps (setConn_keeps h5)) (spdmError_keeps h5))

theorem getDigests_keeps {a1 a2} (h2 : Keeps s0 a2) :
    Keeps s0 (getDigests a1 a2) := by
  unfold getDigests
  exact keeps_ite (spdmError_keeps h2) (reply_keeps h2)

theorem getCertificate_keeps {a1 a2 a3 a4 a5} (h5 : Keeps s0 a5) :
    Keeps s0 (getCertificate a1 a2 a3 a4 a5) := by
  unfold getCertificate
  exact keeps_ite (spdmError_keeps h5) (keeps_ite (spdmError_keeps h5) (reply_keeps h5))

theorem challenge_keeps {a1 a2 a3 a4} (h4 : Keeps s0 a4) :
    Keeps s0 (challenge a1 a2 a3 a4) := by
  unfold challenge
  refine keeps_ite ?_ ?_
  · exact spdmError_keeps h4
  · refine keeps_ite ?_ ?_
    · exact spdmError_keeps h4
    · extract_lets +onlyGivenNames -merge -underBinder x1486
      exact addLog_keeps (reply_keeps (Keeps.frame h4 rfl rfl rfl rfl rfl rfl rfl rfl rfl))

theorem getMeasurements_keeps {a1 a2 a3 a4} (h4 : Keeps s0 a4) :
    Keeps s0 (getMeasurements a1 a2 a3 a4) := by
  unfold getMeasurements
  extract_lets +onlyGivenNames -merge -underBinder x1487
  refine keeps_ite ?_ ?_
  · exact spdmError_keeps h4
  · refine keeps_ite ?_ ?_
    · exact spdmError_keeps h4
    · extract_lets +onlyGivenNames -merge -underBinder x1488 x1489
      exact reply_keeps (Keeps.frame h4 rfl rfl rfl rfl rfl rfl rfl rfl rfl)

theorem keyExchange_keeps {a1 a2 a3 a4} (h4 : Keeps s0 a4) :
    Keeps s0 (keyExchange a1 a2 a3 a4) := by
  unfold keyExchange
  extract_lets +onlyGivenNames -merge -underBinder x1490 x1491 x1494
  have h1492 : ∀ y0 y1 s, Keeps s0 s → Keeps s0 (x1491 y0 y1 s) := fun _ _ _ h1493 => addLog_keeps (reply_keeps
      (setConn_keeps h1493))
  clear_value x1491
  have h1495 : ∀ s, Keeps s0 s → Keeps s0 (x1494 s) := fun _ h1496 => addLog_keeps (reply_keeps h1496)
  clear_value x1494
  refine keeps_ite ?_ ?_
  · exact spdmError_keeps h4
  · split
    · exact keeps_ite (h1495 _ h4) (h1492 _ _ _ h4)
    · extract_lets +onlyGivenNames -merge -underBinder x1497
      split
      · exact keeps_ite (h1492 _ _ _ h4) (h1495 _ h4)
      · exact h1495 _ h4

theorem sensorRead_keeps {a1 a2 a3} (h3 : Keeps s0 a3) :
    Keeps s0 (sensorRead a1 a2 a3) := by
  unfold sensorRead
  exact reply_keeps h3

theorem pldmUpdate_keeps {a1 a2 a3} (h3 : Keeps s0 a3) :
    Keeps s0 (pldmUpdate a1 a2 a3) := by
  unfold pldmUpdate
  extract_lets +onlyGivenNames -merge -underBinder x1498 x1499
  refine keeps_ite ?_ ?_
  · exact reply_keeps h3
  · extract_lets +onlyGivenNames -merge -underBinder x1500 _ x1502
    have h1501 : Keeps s0 x1500 := takeStaging_keeps h3
    have h1503 : Keeps s0 x1502 := addLog_keeps (putStaged_keeps (Keeps.frame h1501 rfl rfl rfl rfl rfl rfl rfl rfl
        rfl))
    refine keeps_ite ?_ ?_
    · split
      · exact reply_keeps (logHw_keeps h1503)
      · exact commitEnds_keeps (Keeps.frame h1503 rfl rfl rfl rfl rfl rfl rfl rfl rfl)
    · exact commitBegins_keeps h1503

theorem setEid_keeps {a1 a2 a3} (h3 : Keeps s0 a3) :
    Keeps s0 (setEid a1 a2 a3) := by
  unfold setEid
  exact keeps_ite h3 (keeps_ite (Keeps.frame h3 rfl rfl rfl rfl rfl rfl rfl rfl rfl) (Keeps.frame h3 rfl rfl rfl rfl
      rfl rfl rfl rfl rfl))

theorem setDasa_keeps {a1 a2 a3} (h3 : Keeps s0 a3) :
    Keeps s0 (setDasa a1 a2 a3) := by
  unfold setDasa
  exact keeps_ite (Keeps.frame h3 rfl rfl rfl rfl rfl rfl rfl rfl rfl) h3

theorem identifyStart_keeps {a1 a2} (h2 : Keeps s0 a2) :
    Keeps s0 (identifyStart a1 a2) := by
  unfold identifyStart
  split
  · exact h2
  · extract_lets +onlyGivenNames -merge -underBinder x1504
    exact succeed_keeps h2

theorem logReadStart_keeps {a1 a2} (h2 : Keeps s0 a2) :
    Keeps s0 (logReadStart a1 a2) := by
  unfold logReadStart
  split
  · exact h2
  · extract_lets +onlyGivenNames -merge -underBinder x1505
    exact succeed_keeps h2

theorem logBatch_keeps {a1} (h1 : Keeps s0 a1) :
    Keeps s0 (logBatch a1) := by
  unfold logBatch
  split
  · exact h1
  · exact keeps_ite (writeLogBatch_keeps h1) h1

theorem notePin_keeps {a1 a2 a3} (h3 : Keeps s0 a3) :
    Keeps s0 (notePin a1 a2 a3) := by
  unfold notePin
  extract_lets +onlyGivenNames -merge -underBinder x1506 x1507 x1508 x1509
  refine keeps_ite ?_ ?_
  · extract_lets +onlyGivenNames -merge -underBinder x1510 _ x1511
    have h1512 : Keeps s0 x1511 := Keeps.frame h3 rfl rfl rfl rfl rfl rfl rfl rfl rfl
    exact keeps_ite (addLog_keeps h1512) h1512
  · exact keeps_ite (addLog_keeps (Keeps.frame h3 rfl rfl rfl rfl rfl rfl rfl rfl rfl)) h3

theorem stepDie_keeps {a1 a2} (h2 : Keeps s0 a2) :
    Keeps s0 (stepDie a1 a2) := by
  unfold stepDie
  extract_lets +onlyGivenNames -merge -underBinder x1513 x1514
  exact notePin_keeps (keeps_ite h2 (State.modDie_keeps h2))

theorem settleSteps_keeps {a1} (h1 : Keeps s0 a1) :
    Keeps s0 (settleSteps a1) := by
  unfold settleSteps
  extract_lets +onlyGivenNames -merge -underBinder x1515
  have h1516 : Keeps s0 x1515 := foldOver_keeps (fun _ _ h1517 => stepDie_keeps h1517) h1
  exact setStatus_keeps h1516

theorem capTick_keeps {a1 a2 a3} (h3 : Keeps s0 a3) :
    Keeps s0 (capTick a1 a2 a3) := by
  unfold capTick
  extract_lets +onlyGivenNames -merge -underBinder _ x1518 x1520
  have h1519 : Keeps s0 x1518 := Keeps.frame h3 rfl rfl rfl rfl rfl rfl rfl rfl rfl
  have h1521 : ∀ y0 s, Keeps s0 s → Keeps s0 (x1520 y0 s) := fun _ _ h1522 => Keeps.frame h1522 rfl rfl rfl rfl rfl
      rfl rfl rfl rfl
  clear_value x1520
  refine keeps_ite ?_ ?_
  · exact settleSteps_keeps (logHw_keeps (h1521 _ _ (foldOver_keeps (fun _ _ h1523 => State.modDie_keeps h1523)
        h1519)))
  · extract_lets +onlyGivenNames -merge -underBinder x1524 x1525
    refine keeps_ite ?_ ?_
    · extract_lets +onlyGivenNames -merge -underBinder x1526
      split
      · exact settleSteps_keeps (h1521 _ _ (State.modDie_keeps h1519))
      · exact h1521 _ _ h1519
    · refine keeps_ite ?_ ?_
      · extract_lets +onlyGivenNames -merge -underBinder x1527 x1528
        have h1529 : Keeps s0 x1528 := h1521 _ _ h1519
        refine keeps_ite ?_ ?_
        · split
          · exact settleSteps_keeps (State.modDie_keeps h1529)
          · exact h1529
        · exact h1529
      · exact h1521 _ _ h1519

theorem setTemp_keeps {a1 a2 a3} (h3 : Keeps s0 a3) :
    Keeps s0 (setTemp a1 a2 a3) := by
  unfold setTemp
  split
  · exact State.modDie_keeps h3
  · exact Keeps.frame h3 rfl rfl rfl rfl rfl rfl rfl rfl rfl

theorem thermalTick_keeps {a1 a2 a3} (h3 : Keeps s0 a3) :
    Keeps s0 (thermalTick a1 a2 a3) := by
  unfold thermalTick
  extract_lets +onlyGivenNames -merge -underBinder x1530 x1532
  have h1531 : Keeps s0 x1530 := State.modDie_keeps h3
  exact keeps_ite (settleSteps_keeps (State.modDie_keeps h1531)) (keeps_ite (settleSteps_keeps (State.modDie_keeps
      h1531)) h1531)

theorem thermalLimit_keeps {a1 a2 a3} (h3 : Keeps s0 a3) :
    Keeps s0 (thermalLimit a1 a2 a3) := by
  unfold thermalLimit
  extract_lets +onlyGivenNames -merge -underBinder x1533 x1535
  have h1534 : Keeps s0 x1533 := setTemp_keeps h3
  refine keeps_ite ?_ ?_
  · split
    · exact settleSteps_keeps (State.modDie_keeps h1534)
    · extract_lets +onlyGivenNames -merge -underBinder _ x1536
      have h1537 : Keeps s0 x1536 := Keeps.frame h1534 rfl rfl rfl rfl rfl rfl rfl rfl rfl
      exact foldOver_keeps (fun _ _ h1538 => shedToEight_keeps h1538) h1537
    · exact Keeps.frame h1534 rfl rfl rfl rfl rfl rfl rfl rfl rfl
  · exact Keeps.frame h1534 rfl rfl rfl rfl rfl rfl rfl rfl rfl

theorem drivePins_keeps {a1} (h1 : Keeps s0 a1) :
    Keeps s0 (drivePins a1) := by
  unfold drivePins
  exact Keeps.frame h1 rfl rfl rfl rfl rfl rfl rfl rfl rfl

theorem diesOff_keeps {a1} (h1 : Keeps s0 a1) : Keeps s0 (diesOff a1) := by
  unfold diesOff
  extract_lets +onlyGivenNames -merge -underBinder s1 x s2
  have hs : Keeps s0 s1 := loseWork_keeps (allLinksDown_keeps h1)
  clear_value s1
  have h2 : Keeps s0 s2 := Keeps.frame hs rfl rfl rfl rfl rfl rfl rfl rfl rfl
  exact setStatus_keeps (refreshFenced_keeps h2)

theorem thermalShutdown_keeps {a1 a2} (h2 : Keeps s0 a2) :
    Keeps s0 (thermalShutdown a1 a2) := by
  unfold thermalShutdown
  refine keeps_ite ?_ ?_
  · exact h2
  · extract_lets +onlyGivenNames -merge -underBinder x1543
    have h1544 : Keeps s0 x1543 := diesOff_keeps (flushStaging_keeps (logHw_keeps h2))
    exact drivePins_keeps (Keeps.frame h1544 rfl rfl rfl rfl rfl rfl rfl rfl rfl)

theorem thermalTrip_keeps {a1 a2 a3} (h3 : Keeps s0 a3) :
    Keeps s0 (thermalTrip a1 a2 a3) := by
  unfold thermalTrip
  extract_lets +onlyGivenNames -merge -underBinder x1545
  have h1546 : Keeps s0 x1545 := setTemp_keeps h3
  split
  · extract_lets +onlyGivenNames -merge -underBinder x1547
    exact Keeps.frame h1546 rfl rfl rfl rfl rfl rfl rfl rfl rfl
  · exact keeps_ite (thermalShutdown_keeps h1546) h1546

theorem coolantHot_keeps {a1 a2} (h2 : Keeps s0 a2) :
    Keeps s0 (coolantHot a1 a2) := by
  unfold coolantHot
  extract_lets +onlyGivenNames -merge -underBinder x1548 _ x1549
  have h1550 : Keeps s0 x1549 := Keeps.frame h2 rfl rfl rfl rfl rfl rfl rfl rfl rfl
  exact keeps_ite (logHw_keeps h1550) h1550

theorem flowLow_keeps {a1 a2 a3 a4} (h4 : Keeps s0 a4) :
    Keeps s0 (flowLow a1 a2 a3 a4) := by
  unfold flowLow
  extract_lets +onlyGivenNames -merge -underBinder _ x1551
  have h1552 : Keeps s0 x1551 := Keeps.frame h4 rfl rfl rfl rfl rfl rfl rfl rfl rfl
  exact keeps_ite (logHw_keeps (degrade_keeps (Keeps.frame h1552 rfl rfl rfl rfl rfl rfl rfl rfl rfl))) h1552

theorem flowRestored_keeps {a1 a2 a3} (h3 : Keeps s0 a3) :
    Keeps s0 (flowRestored a1 a2 a3) := by
  unfold flowRestored
  extract_lets +onlyGivenNames -merge -underBinder _ x1553
  have h1554 : Keeps s0 x1553 := Keeps.frame h3 rfl rfl rfl rfl rfl rfl rfl rfl rfl
  exact keeps_ite (undegrade_keeps (Keeps.frame h1554 rfl rfl rfl rfl rfl rfl rfl rfl rfl)) h1554

theorem inletShutdown_keeps {a1 a2 a3} (h3 : Keeps s0 a3) :
    Keeps s0 (inletShutdown a1 a2 a3) := by
  unfold inletShutdown
  extract_lets +onlyGivenNames -merge -underBinder _ x1555
  have h1556 : Keeps s0 x1555 := Keeps.frame h3 rfl rfl rfl rfl rfl rfl rfl rfl rfl
  exact keeps_ite (thermalShutdown_keeps h1556) h1556

theorem enterState_keeps {a1 a2 a3} (h3 : Keeps s0 a3) :
    Keeps s0 (enterState a1 a2 a3) := by
  unfold enterState
  exact State.modDie_keeps h3

theorem gateTimer_keeps {a1 a2} (h2 : Keeps s0 a2) :
    Keeps s0 (gateTimer a1 a2) := by
  unfold gateTimer
  extract_lets +onlyGivenNames -merge -underBinder x1557
  exact keeps_ite (enterState_keeps h2) h2

theorem retainTimer_keeps {a1 a2} (h2 : Keeps s0 a2) :
    Keeps s0 (retainTimer a1 a2) := by
  unfold retainTimer
  extract_lets +onlyGivenNames -merge -underBinder x1558
  split
  · exact h2
  · exact keeps_ite (enterState_keeps h2) h2

theorem wakeComplete_keeps {a1 a2} (h2 : Keeps s0 a2) :
    Keeps s0 (wakeComplete a1 a2) := by
  unfold wakeComplete
  split
  · exact h2
  · exact keeps_ite (State.modDie_keeps h2) h2

theorem pwrQueryStart_keeps {a1 a2} (h2 : Keeps s0 a2) :
    Keeps s0 (pwrQueryStart a1 a2) := by
  unfold pwrQueryStart
  split
  · exact h2
  · exact succeed_keeps (Keeps.frame h2 rfl rfl rfl rfl rfl rfl rfl rfl rfl)

theorem pwrApply_keeps {a1 a2} (h2 : Keeps s0 a2) :
    Keeps s0 (pwrApply a1 a2) := by
  unfold pwrApply
  extract_lets +onlyGivenNames -merge -underBinder x1559 _ x1560
  have h1561 : Keeps s0 x1560 := Keeps.frame h2 rfl rfl rfl rfl rfl rfl rfl rfl rfl
  exact settleSteps_keeps (foldOver_keeps (fun _ _ h1562 => State.modDie_keeps h1562) h1561)

theorem pwrPolicyLanded_keeps {a1 a2} (h2 : Keeps s0 a2) :
    Keeps s0 (pwrPolicyLanded a1 a2) := by
  unfold pwrPolicyLanded
  split
  · exact h2
  · extract_lets +onlyGivenNames -merge -underBinder x1563 x1564
    refine keeps_ite ?_ ?_
    · extract_lets +onlyGivenNames -merge -underBinder x1565
      have h1566 : Keeps s0 x1565 := addLog_keeps (pwrApply_keeps h2)
      exact succeed_keeps (addLog_keeps h1566)
    · exact fail_keeps h2

theorem forceDie_keeps {a1 a2 a3} (h3 : Keeps s0 a3) :
    Keeps s0 (forceDie a1 a2 a3) := by
  unfold forceDie
  extract_lets +onlyGivenNames -merge -underBinder x1567 x1568
  have h1569 : Keeps s0 x1568 := keeps_ite (wakeDie_keeps h3) (enterState_keeps (State.modDie_keeps h3))
  exact succeed_keeps (addLog_keeps h1569)

theorem blockWrite_keeps {a1 a2 a3 a4} (h4 : Keeps s0 a4) :
    Keeps s0 (blockWrite a1 a2 a3 a4) := by
  unfold blockWrite
  extract_lets +onlyGivenNames -merge -underBinder x1570 x1571 x1572
  exact keeps_ite h4 (keeps_ite (Keeps.frame h4 rfl rfl rfl rfl rfl rfl rfl rfl rfl) (Keeps.frame h4 rfl rfl rfl rfl
      rfl rfl rfl rfl rfl))

theorem setModuleFrames_keeps {a1} (h1 : Keeps s0 a1) :
    Keeps s0 (setModuleFrames a1) := by
  unfold setModuleFrames
  exact foldOver_keeps (fun _ _ h1573 => State.modDie_keeps h1573) h1

theorem assignScan_keeps {a1 a2} (h2 : Keeps s0 a2) :
    Keeps s0 (assignScan a1 a2) := by
  unfold assignScan
  split
  · exact dealScan_keeps h2
  · extract_lets +onlyGivenNames -merge -underBinder x1574 x1575 x1576
    exact keeps_ite (Keeps.frame h2 rfl rfl rfl rfl rfl rfl rfl rfl rfl) (dealScan_keeps h2)

theorem startPolicies_keeps {a1 a2} (h2 : Keeps s0 a2) :
    Keeps s0 (startPolicies a1 a2) := by
  unfold startPolicies
  extract_lets +onlyGivenNames -merge -underBinder x1577 x1578 x1579 x1580 x1581 x1582 x1584
  have h1583 : Keeps s0 x1582 := pwrApply_keeps h2
  have h1585 : Keeps s0 x1584 := foldOver_keeps (fun _ _ h1586 => keeps_ite h1586 (State.modLink_keeps h1586)) h1583
  exact Keeps.frame h1585 rfl rfl rfl rfl rfl rfl rfl rfl rfl

theorem applyItem_keeps {a1 a2 a3} (h3 : Keeps s0 a3) :
    Keeps s0 (applyItem a1 a2 a3) := by
  unfold applyItem
  extract_lets +onlyGivenNames -merge -underBinder x1587
  split
  · exact Keeps.frame h3 rfl rfl rfl rfl rfl rfl rfl rfl rfl
  · extract_lets +onlyGivenNames -merge -underBinder x1588
    exact setModuleFrames_keeps (Keeps.frame h3 rfl rfl rfl rfl rfl rfl rfl rfl rfl)
  · exact Keeps.frame h3 rfl rfl rfl rfl rfl rfl rfl rfl rfl
  · exact assignScan_keeps h3
  · exact Keeps.frame h3 rfl rfl rfl rfl rfl rfl rfl rfl rfl
  · exact setModuleFrames_keeps (Keeps.frame h3 rfl rfl rfl rfl rfl rfl rfl rfl rfl)
  · exact Keeps.frame h3 rfl rfl rfl rfl rfl rfl rfl rfl rfl
  · exact Keeps.frame h3 rfl rfl rfl rfl rfl rfl rfl rfl rfl
  · exact Keeps.frame h3 rfl rfl rfl rfl rfl rfl rfl rfl rfl
  · exact startPolicies_keeps h3
  · extract_lets +onlyGivenNames -merge -underBinder x1589
    exact Keeps.frame h3 rfl rfl rfl rfl rfl rfl rfl rfl rfl
  · exact Keeps.frame h3 rfl rfl rfl rfl rfl rfl rfl rfl rfl
  · exact h3

theorem applyItems_keeps {a1 a2} (h2 : Keeps s0 a2) :
    Keeps s0 (applyItems a1 a2) := by
  unfold applyItems
  refine foldOver_keeps ?_ ?_
  · intro _ _ h1590
    extract_lets +onlyGivenNames -merge -underBinder x1591 x1592
    have h1593 : Keeps s0 x1592 := applyItem_keeps h1590
    exact Keeps.frame h1593 rfl rfl rfl rfl rfl rfl rfl rfl rfl
  · exact h2

theorem castConfig_keeps {a1} (h1 : Keeps s0 a1) :
    Keeps s0 (castConfig a1) := by
  unfold castConfig
  exact applyItems_keeps h1

theorem changeNow_keeps {a1 a2} (h2 : Keeps s0 a2) :
    Keeps s0 (changeNow a1 a2) := by
  unfold changeNow
  extract_lets +onlyGivenNames -merge -underBinder x1594 x1595
  have h1596 : Keeps s0 x1595 := applyItems_keeps h2
  exact keeps_ite (logHw_keeps h1596) h1596

theorem cfgReadStart_keeps {a1 a2} (h2 : Keeps s0 a2) :
    Keeps s0 (cfgReadStart a1 a2) := by
  unfold cfgReadStart
  split
  · exact h2
  · extract_lets +onlyGivenNames -merge -underBinder x1597 x1598
    exact succeed_keeps h2

theorem cfgWriteNow_keeps {a1 a2 a3} (h3 : Keeps s0 a3) :
    Keeps s0 (cfgWriteNow a1 a2 a3) := by
  unfold cfgWriteNow
  split
  · exact h3
  · extract_lets +onlyGivenNames -merge -underBinder x1599
    split
    · exact fail_keeps h3
    · refine keeps_ite ?_ ?_
      · exact fail_keeps h3
      · extract_lets +onlyGivenNames -merge -underBinder x1600 x1601 x1602 _ _ _ x1603 x1606
        have h1604 : Keeps s0 x1603 := by
          subst x1603
          refine keeps_ite ?_ ?_
          · exact Keeps.frame h3 rfl rfl rfl rfl rfl rfl rfl rfl rfl
          · extract_lets +onlyGivenNames -merge -underBinder x1605
            exact Keeps.frame h3 rfl rfl rfl rfl rfl rfl rfl rfl rfl
        have h1607 : Keeps s0 x1606 := addLog_keeps h1604
        exact succeed_keeps (changeNow_keeps h1607)

theorem cfgSelectNow_keeps {a1 a2} (h2 : Keeps s0 a2) :
    Keeps s0 (cfgSelectNow a1 a2) := by
  unfold cfgSelectNow
  split
  · exact h2
  · extract_lets +onlyGivenNames -merge -underBinder x1608 x1609
    refine keeps_ite ?_ ?_
    · exact fail_keeps h2
    · extract_lets +onlyGivenNames -merge -underBinder x1610 _ x1611 x1613
      have h1612 : Keeps s0 x1611 := Keeps.frame h2 rfl rfl rfl rfl rfl rfl rfl rfl rfl
      have h1614 : Keeps s0 x1613 := addLog_keeps h1612
      exact succeed_keeps (changeNow_keeps h1614)

theorem cfgOrWait_keeps {a1 a2 a3} (h2 : ∀ s, Keeps s0 s → Keeps s0 (a2 s)) (h3 : Keeps s0 a3) :
    Keeps s0 (cfgOrWait a1 a2 a3) := by
  unfold cfgOrWait
  refine keeps_ite ?_ ?_
  · exact h2 _ h3
  · extract_lets +onlyGivenNames -merge -underBinder x1615
    have h1616 : Keeps s0 x1615 := State.modLive_keeps h3
    exact Keeps.frame h1616 rfl rfl rfl rfl rfl rfl rfl rfl rfl

theorem cfgWriteLanded_keeps {a1 a2} (h2 : Keeps s0 a2) :
    Keeps s0 (cfgWriteLanded a1 a2) := by
  unfold cfgWriteLanded
  split
  · exact h2
  · exact cfgOrWait_keeps (fun _ h1617 => cfgWriteNow_keeps h1617) h2

theorem cfgSelectStart_keeps {a1 a2} (h2 : Keeps s0 a2) :
    Keeps s0 (cfgSelectStart a1 a2) := by
  unfold cfgSelectStart
  exact cfgOrWait_keeps (fun _ h1618 => cfgSelectNow_keeps h1618) h2

theorem cfgAccessNow_keeps {a1 a2 a3} (h3 : Keeps s0 a3) :
    Keeps s0 (cfgAccessNow a1 a2 a3) := by
  unfold cfgAccessNow
  split
  · exact h3
  · exact keeps_ite (fail_keeps h3) (keeps_ite (fail_keeps h3) (succeed_keeps (addLog_keeps (Keeps.frame h3 rfl rfl
        rfl rfl rfl rfl rfl rfl rfl))))

theorem cfgAccessLanded_keeps {a1 a2} (h2 : Keeps s0 a2) :
    Keeps s0 (cfgAccessLanded a1 a2) := by
  unfold cfgAccessLanded
  split
  · exact h2
  · exact cfgOrWait_keeps (fun _ h1619 => cfgAccessNow_keeps h1619) h2

theorem runWaitingCfg_keeps {a1} (h1 : Keeps s0 a1) :
    Keeps s0 (runWaitingCfg a1) := by
  unfold runWaitingCfg
  refine foldOver_keeps ?_ ?_
  · intro _ _ h1620
    split
    · exact h1620
    · exact keeps_ite (cfgWriteNow_keeps h1620) (keeps_ite (cfgSelectNow_keeps h1620) (cfgAccessNow_keeps h1620))
  · exact Keeps.frame h1 rfl rfl rfl rfl rfl rfl rfl rfl rfl

theorem reset_log_ok : State.reset.log.Ok := by
  unfold LogRing.Ok
  decide

/-- Auxiliary power coming up keeps all that `Keeps` says but the module time, which starts afresh (R409). -/
theorem auxUp_keeps_but_time {a1 : State} :
    (auxUp a1).pending = a1.pending ∧ (a1.Inv → (auxUp a1).Inv) ∧ (auxUp a1).sys.castOns = a1.sys.castOns ∧
    (auxUp a1).sys.stepping = a1.sys.stepping ∧ (auxUp a1).sys.slotId = a1.sys.slotId ∧
    (a1.sys.aux = true → auxUp a1 = a1) ∧ OtpSets a1.sec.otp (auxUp a1).sec.otp := by
  unfold auxUp
  split
  · exact ⟨rfl, id, rfl, rfl, rfl, fun _ => rfl, OtpSets.refl _⟩
  · rename_i h
    refine ⟨rfl, fun hi => ⟨?_, hi.2⟩, rfl, rfl, rfl, fun h' => absurd h' h, OtpSets.refl _⟩
    exact ⟨reset_log_ok.1, reset_log_ok.2.1, reset_log_ok.2.2.1, reset_log_ok.2.2.2.1, hi.1.2.2.2.2⟩

theorem auxLoss_keeps {a1} (h1 : Keeps s0 a1) :
    Keeps s0 (auxLoss a1) := by
  unfold auxLoss
  refine keeps_ite ?_ ?_
  · extract_lets +onlyGivenNames -merge -underBinder x1623 x1625
    have h1624 : Keeps s0 x1623 := keeps_ite (flushStaging_keeps h1) h1
    have h1626 : Keeps s0 x1625 := loseWork_keeps h1624
    exact Keeps.frame h1626 rfl rfl rfl rfl rfl rfl rfl rfl rfl
  · exact h1

theorem mainLost_keeps {a1} (h1 : Keeps s0 a1) :
    Keeps s0 (mainLost a1) := by
  unfold mainLost
  refine keeps_ite ?_ ?_
  · exact h1
  · extract_lets +onlyGivenNames -merge -underBinder _ x1627
    have h1628 : Keeps s0 x1627 := Keeps.frame h1 rfl rfl rfl rfl rfl rfl rfl rfl rfl
    refine keeps_ite ?_ ?_
    · exact h1628
    · extract_lets +onlyGivenNames -merge -underBinder x1629 x1631 x1633 _ _ x1634
      have h1630 : Keeps s0 x1629 := logHw_keeps (undegrade_keeps h1628)
      have h1632 : Keeps s0 x1631 := keeps_ite (diesOff_keeps (flushStaging_keeps h1630)) h1630
      have h1635 : Keeps s0 x1634 := Keeps.frame h1632 rfl rfl rfl rfl rfl rfl rfl rfl rfl
      exact keeps_ite h1635 (castFrom_keeps h1635)

theorem mainFail_keeps {a1 a2 a3} (h3 : Keeps s0 a3) :
    Keeps s0 (mainFail a1 a2 a3) := by
  unfold mainFail
  exact keeps_ite (mainLost_keeps h3) h3

theorem overVoltage_keeps {a1 a2 a3} (h3 : Keeps s0 a3) :
    Keeps s0 (overVoltage a1 a2 a3) := by
  unfold overVoltage
  exact keeps_ite (mainLost_keeps h3) h3

theorem afterCycle_keeps {a1} (h1 : Keeps s0 a1) :
    Keeps s0 (afterCycle a1) := by
  unfold afterCycle
  extract_lets +onlyGivenNames -merge -underBinder x1636
  have h1637 : Keeps s0 x1636 := resetFunction_keeps h1
  exact castFrom_keeps (Keeps.frame h1637 rfl rfl rfl rfl rfl rfl rfl rfl rfl)

theorem mainReturn_keeps {a1 a2} (h2 : Keeps s0 a2) :
    Keeps s0 (mainReturn a1 a2) := by
  unfold mainReturn
  refine keeps_ite ?_ ?_
  · exact h2
  · extract_lets +onlyGivenNames -merge -underBinder x1638
    have h1639 : ∀ s, Keeps s0 s → Keeps s0 (x1638 s) := fun _ h1640 => keeps_ite (undegrade_keeps h1640) h1640
    clear_value x1638
    refine keeps_ite ?_ ?_
    · exact keeps_ite (h1639 _ h2) h2
    · extract_lets +onlyGivenNames -merge -underBinder _ x1641
      have h1642 : Keeps s0 x1641 := Keeps.frame h2 rfl rfl rfl rfl rfl rfl rfl rfl rfl
      exact keeps_ite h1642 (keeps_ite (refreshFenced_keeps (afterCycle_keeps (Keeps.frame h1642 rfl rfl rfl rfl rfl
          rfl rfl rfl rfl))) (keeps_ite h1642 (Keeps.frame h1642 rfl rfl rfl rfl rfl rfl rfl rfl rfl)))

theorem supplyLow_keeps {a1 a2} (h2 : Keeps s0 a2) :
    Keeps s0 (supplyLow a1 a2) := by
  unfold supplyLow
  refine keeps_ite ?_ ?_
  · extract_lets +onlyGivenNames -merge -underBinder x1643
    have h1644 : Keeps s0 x1643 := degrade_keeps h2
    exact keeps_ite (logHw_keeps (Keeps.frame h1644 rfl rfl rfl rfl rfl rfl rfl rfl rfl)) h1644
  · exact h2

theorem supplyHigh_keeps {a1 a2} (h2 : Keeps s0 a2) :
    Keeps s0 (supplyHigh a1 a2) := by
  unfold supplyHigh
  exact keeps_ite (logHw_keeps (Keeps.frame h2 rfl rfl rfl rfl rfl rfl rfl rfl rfl)) h2

theorem castOn_keeps {a1} (h1 : Keeps s0 a1) :
    Keeps s0 (castOn a1) := by
  unfold castOn
  exact keeps_ite (castFrom_keeps h1) h1

theorem castStops_keeps {a1 a2} (h2 : Keeps s0 a2) :
    Keeps s0 (castStops a1 a2) := by
  unfold castStops
  extract_lets +onlyGivenNames -merge -underBinder _ x1645
  have h1646 : Keeps s0 x1645 := addLog_keeps (Keeps.frame h2 rfl rfl rfl rfl rfl rfl rfl rfl rfl)
  exact drivePins_keeps (setStatus_keeps h1646)

theorem enterRecovery_keeps {a1} (h1 : Keeps s0 a1) :
    Keeps s0 (enterRecovery a1) := by
  unfold enterRecovery
  extract_lets +onlyGivenNames -merge -underBinder x1647 _ _ x1649
  have h1648 : Keeps s0 x1647 := countErase_keeps (State.modCfl_keeps h1)
  have h1650 : Keeps s0 x1649 := Keeps.frame h1648 rfl rfl rfl rfl rfl rfl rfl rfl rfl
  exact drivePins_keeps (logHw_keeps (setStatus_keeps (setStatus_keeps h1650)))

theorem stepBoot_keeps {a1 a2} (h2 : Keeps s0 a2) :
    Keeps s0 (stepBoot a1 a2) := by
  unfold stepBoot
  split
  · exact enterRecovery_keeps h2
  · refine keeps_ite ?_ ?_
    · exact enterRecovery_keeps h2
    · extract_lets +onlyGivenNames -merge -underBinder x1651 _ _ x1652
      have h1653 : Keeps s0 x1652 := Keeps.frame h2 rfl rfl rfl rfl rfl rfl rfl rfl rfl
      exact castConfig_keeps (setStatus_keeps (setStatus_keeps h1653))

theorem dieFails_keeps {a1 a2} (h2 : Keeps s0 a2) :
    Keeps s0 (dieFails a1 a2) := by
  unfold dieFails
  extract_lets +onlyGivenNames -merge -underBinder x1654 x1656
  have h1655 : Keeps s0 x1654 := degrade_keeps (State.modDie_keeps h2)
  exact Keeps.frame h1655 rfl rfl rfl rfl rfl rfl rfl rfl rfl

theorem lightFails_keeps {a1 a2} (h2 : Keeps s0 a2) :
    Keeps s0 (lightFails a1 a2) := by
  unfold lightFails
  exact foldOver_keeps (fun _ _ h1657 => setLinkSt_keeps (degrade_keeps h1657)) h2

theorem stepFinding_keeps {a1 a2} (h2 : Keeps s0 a2) :
    Keeps s0 (stepFinding a1 a2) := by
  unfold stepFinding
  extract_lets +onlyGivenNames -merge -underBinder x1658
  split
  · exact keeps_ite (dieFails_keeps h2) h2
  · exact keeps_ite (degrade_keeps (State.modDie_keeps h2)) h2
  · exact keeps_ite (lightFails_keeps h2) h2
  · exact keeps_ite (retireFor_keeps (logUnit_keeps h2)) h2
  · exact keeps_ite h2 (keeps_ite (retireFor_keeps h2) (degrade_keeps (Keeps.frame h2 rfl rfl rfl rfl rfl rfl rfl rfl
        rfl)))
  · exact h2

theorem stepWork_keeps {a1 a2} (h2 : Keeps s0 a2) :
    Keeps s0 (stepWork a1 a2) := by
  unfold stepWork
  refine keeps_ite ?_ ?_
  · exact copyDump_keeps h2
  · refine keeps_ite ?_ ?_
    · extract_lets +onlyGivenNames -merge -underBinder _ x1659
      have h1660 : Keeps s0 x1659 := Keeps.frame h2 rfl rfl rfl rfl rfl rfl rfl rfl rfl
      exact keeps_ite (Keeps.frame h1660 rfl rfl rfl rfl rfl rfl rfl rfl rfl) h1660
    · exact h2

theorem castEnds_keeps {a1} (h1 : Keeps s0 a1) :
    Keeps s0 (castEnds a1) := by
  unfold castEnds
  extract_lets +onlyGivenNames -merge -underBinder x1661 _ x1662
  have h1663 : Keeps s0 x1662 := Keeps.mapVals h1 rfl rfl rfl rfl rfl rfl rfl rfl rfl
  exact setStatus_keeps (setStatus_keeps (refreshFenced_keeps h1663))

theorem castStepEnd_keeps {a1 a2} (h2 : Keeps s0 a2) :
    Keeps s0 (castStepEnd a1 a2) := by
  unfold castStepEnd
  extract_lets +onlyGivenNames -merge -underBinder x1664
  refine keeps_ite ?_ ?_
  · exact h2
  · refine keeps_ite ?_ ?_
    · exact stepBoot_keeps h2
    · refine keeps_ite ?_ ?_
      · exact castStops_keeps h2
      · extract_lets +onlyGivenNames -merge -underBinder x1665
        have h1666 : Keeps s0 x1665 := stepWork_keeps (foldOver_keeps (fun _ _ h1667 => stepFinding_keeps h1667) h2)
        exact keeps_ite (castEnds_keeps h1666) (Keeps.frame h1666 rfl rfl rfl rfl rfl rfl rfl rfl rfl)

theorem refclkLost_keeps {a1 a2 a3} (h3 : Keeps s0 a3) :
    Keeps s0 (refclkLost a1 a2 a3) := by
  unfold refclkLost
  refine keeps_ite ?_ ?_
  · extract_lets +onlyGivenNames -merge -underBinder _ x1668 x1670 x1672
    have h1669 : Keeps s0 x1668 := logHw_keeps (Keeps.frame h3 rfl rfl rfl rfl rfl rfl rfl rfl rfl)
    have h1671 : Keeps s0 x1670 := resetFunction_keeps (allLinksDown_keeps (setStatus_keeps h1669))
    have h1673 : Keeps s0 x1672 := keeps_ite (loseWork_keeps (flushStaging_keeps h1671)) h1671
    exact refreshFenced_keeps (Keeps.frame h1673 rfl rfl rfl rfl rfl rfl rfl rfl rfl)
  · exact h3

theorem refclkRestored_keeps {a1 a2} (h2 : Keeps s0 a2) :
    Keeps s0 (refclkRestored a1 a2) := by
  unfold refclkRestored
  refine keeps_ite ?_ ?_
  · extract_lets +onlyGivenNames -merge -underBinder _ x1674
    have h1675 : Keeps s0 x1674 := logHw_keeps (setStatus_keeps (Keeps.frame h2 rfl rfl rfl rfl rfl rfl rfl rfl rfl))
    exact startModuleReset_keeps h1675
  · exact h2

theorem refclkLock_keeps {a1 a2} (h2 : Keeps s0 a2) :
    Keeps s0 (refclkLock a1 a2) := by
  unfold refclkLock
  exact keeps_ite (setStatus_keeps (Keeps.frame h2 rfl rfl rfl rfl rfl rfl rfl rfl rfl)) h2

theorem shutdownEnds_keeps {a1} (h1 : Keeps s0 a1) :
    Keeps s0 (shutdownEnds a1) := by
  unfold shutdownEnds
  extract_lets +onlyGivenNames -merge -underBinder x1676
  have h1677 : Keeps s0 x1676 := diesOff_keeps (allLinksDown_keeps h1)
  exact logHw_keeps (Keeps.frame h1677 rfl rfl rfl rfl rfl rfl rfl rfl rfl)

theorem shutdownGoesOn_keeps {a1} (h1 : Keeps s0 a1) :
    Keeps s0 (shutdownGoesOn a1) := by
  unfold shutdownGoesOn
  refine keeps_ite ?_ ?_
  · extract_lets +onlyGivenNames -merge -underBinder _ x1678
    have h1679 : Keeps s0 x1678 := keeps_ite (Keeps.frame h1 rfl rfl rfl rfl rfl rfl rfl rfl rfl) h1
    exact keeps_ite (shutdownEnds_keeps h1679) h1679
  · exact h1

theorem shutdownTimeout_keeps {a1} (h1 : Keeps s0 a1) :
    Keeps s0 (shutdownTimeout a1) := by
  unfold shutdownTimeout
  split
  · exact h1
  · refine keeps_ite ?_ ?_
    · extract_lets +onlyGivenNames -merge -underBinder x1680
      have h1681 : Keeps s0 x1680 := diesOff_keeps (flushStaging_keeps h1)
      exact Keeps.frame h1681 rfl rfl rfl rfl rfl rfl rfl rfl rfl
    · exact h1

theorem pwrStateStart_keeps {a1 a2} (h2 : Keeps s0 a2) :
    Keeps s0 (pwrStateStart a1 a2) := by
  unfold pwrStateStart
  split
  · exact h2
  · refine keeps_ite ?_ ?_
    · exact forceDie_keeps h2
    · extract_lets +onlyGivenNames -merge -underBinder x1682
      have h1683 : Keeps s0 x1682 := succeed_keeps (addLog_keeps h2)
      refine keeps_ite ?_ ?_
      · refine keeps_ite ?_ ?_
        · exact h1683
        · extract_lets +onlyGivenNames -merge -underBinder _ x1684
          have h1685 : Keeps s0 x1684 := Keeps.frame h1683 rfl rfl rfl rfl rfl rfl rfl rfl rfl
          exact foldOver_keeps (fun _ _ h1686 => bindOff_keeps h1686) h1685
      · refine keeps_ite ?_ ?_
        · extract_lets +onlyGivenNames -merge -underBinder x1687
          have h1688 : Keeps s0 x1687 := castFrom_keeps h1683
          exact Keeps.frame h1688 rfl rfl rfl rfl rfl rfl rfl rfl rfl
        · exact h1683

end Sys2Proof.Machine
end

