-- ==== Sys2Proof/Laws/KeepsRows.lean ====
section
/-! SUPPORT. What every change of state keeps (`Keeps`), for the protocol and the rows above it. -/

namespace Sys2Proof.Machine

variable {s0 s : State}

theorem withData_keeps {a1 a2 a3 a4} (h1 : ∀ x0 s, Keeps s0 s → Keeps s0 (a1 x0 s)) (h2 : ∀ x0 s, Keeps s0 s → Keeps s0 (a2 x0 s)) (h4 : Keeps s0 a4) :
    Keeps s0 (withData a1 a2 a3 a4) := by
  unfold withData
  split
  · exact h4
  · exact keeps_ite (h2 _ _ h4) (h1 _ _ h4)

theorem awaitData_keeps {a1 a2} (h2 : Keeps s0 a2) :
    Keeps s0 (awaitData a1 a2) := by
  unfold awaitData
  exact h2

theorem freeScan_keeps {a1 a2} (h1 : ∀ x0 x1 s, Keeps s0 s → Keeps s0 (a1 x0 x1 s)) (h2 : Keeps s0 a2) :
    Keeps s0 (freeScan a1 a2) := by
  unfold freeScan
  exact h1 _ _ _ (Keeps.frame h2 rfl rfl rfl rfl rfl rfl rfl rfl rfl)

theorem dumpFree_keeps {a1 a2} (h2 : Keeps s0 a2) :
    Keeps s0 (dumpFree a1 a2) := by
  unfold dumpFree
  split
  · exact h2
  · exact rcvDumpStart_keeps (Keeps.frame h2 rfl rfl rfl rfl rfl rfl rfl rfl rfl)

theorem landedOf_keeps {a1 a2 a3} (h3 : Keeps s0 a3) :
    Keeps s0 (landedOf a1 a2 a3) := by
  unfold landedOf
  split
  · exact stoWriteLanded_keeps h3
  · exact volCreateLanded_keeps h3
  · exact volWriteLanded_keeps h3
  · exact colSetLanded_keeps h3
  · exact colSetLanded_keeps h3
  · exact colInsertLanded_keeps h3
  · exact colRemoveLanded_keeps h3
  · exact colQueryLanded_keeps h3
  · exact colFetchLanded_keeps h3
  · exact shdGroupsLanded_keeps h3
  · exact shdCurveLanded_keeps h3
  · exact shdPushLanded_keeps h3
  · exact scnRunLanded_keeps h3
  · exact fwStageLanded_keeps h3
  · exact cfgWriteLanded_keeps h3
  · exact cfgAccessLanded_keeps h3
  · exact otpWriteLanded_keeps h3
  · exact medPolicyLanded_keeps h3
  · exact errInjectLanded_keeps h3
  · exact pwrPolicyLanded_keeps h3
  · exact lnkPolicyLanded_keeps h3
  · exact lnkRouteLanded_keeps h3
  · exact lnkKeyLanded_keeps h3
  · exact grpSetLanded_keeps h3
  · exact awaitData_keeps h3

theorem startOf_keeps {a1 a2 a3} (h3 : Keeps s0 a3) :
    Keeps s0 (startOf a1 a2 a3) := by
  unfold startOf
  split
  · exact parCreateStart_keeps h3
  · exact parDeleteStart_keeps h3
  · exact parSharesStart_keeps h3
  · exact parSwatchStart_keeps h3
  · exact parQueryStart_keeps h3
  · exact ctxCreateStart_keeps h3
  · exact ctxDeleteStart_keeps h3
  · exact ctxSetStart_keeps h3
  · exact ctxCountersStart_keeps h3
  · exact ctxQueryStart_keeps h3
  · exact stoMapStart_keeps h3
  · exact stoUnmapStart_keeps h3
  · exact stoPinStart_keeps h3
  · exact stoUnpinStart_keeps h3
  · exact stoReadStart_keeps h3
  · exact stoDiscardStart_keeps h3
  · exact stoQueryStart_keeps h3
  · exact stoPolicyStart_keeps h3
  · exact withData_keeps (fun _ _ h1689 => awaitData_keeps h1689) (fun _ _ h1690 => volCreateStart_keeps h1690) h3
  · exact volDeleteStart_keeps h3
  · exact volQueryStart_keeps h3
  · exact volDiscardStart_keeps h3
  · exact volFlushStart_keeps h3
  · exact volReadStart_keeps h3
  · exact withData_keeps (fun _ _ h1691 => volWriteStart_keeps h1691) (fun _ _ h1692 => volWriteLanded_keeps h1692) h3
  · exact colCreateStart_keeps h3
  · exact colDeleteStart_keeps h3
  · exact colPublishStart_keeps h3
  · exact colCompactStart_keeps h3
  · exact colStatusStart_keeps h3
  · exact shdCreateStart_keeps h3
  · exact shdDeleteStart_keeps h3
  · exact shdImportStart_keeps h3
  · exact shdExportStart_keeps h3
  · exact shdCloseStart_keeps h3
  · exact shdStatusStart_keeps h3
  · exact shdReadStart_keeps h3
  · exact prgLoadStart_keeps h3
  · exact prgRunStart_keeps h3
  · exact prgUnloadStart_keeps h3
  · exact srvOpenStart_keeps h3
  · exact srvSubmitStart_keeps h3
  · exact srvCancelStart_keeps h3
  · exact srvCloseStart_keeps h3
  · exact scnCancelStart_keeps h3
  · exact scnStatusStart_keeps h3
  · exact scnCreditStart_keeps h3
  · exact identifyStart_keeps h3
  · exact logReadStart_keeps h3
  · exact withData_keeps (fun _ _ h1693 => fwStageStart_keeps h1693) (fun _ _ h1694 => fwStageLanded_keeps h1694) h3
  · exact fwCommitStart_keeps h3
  · exact fwAbortStart_keeps h3
  · exact fwQueryStart_keeps h3
  · exact cfgReadStart_keeps h3
  · exact cfgSelectStart_keeps h3
  · exact medWearStart_keeps h3
  · exact medFormatStart_keeps h3
  · exact errQueryStart_keeps h3
  · exact errPolicyStart_keeps h3
  · exact freeScan_keeps (fun _ _ _ h1695 => errReinstateStart_keeps h1695) h3
  · exact freeScan_keeps (fun _ _ _ h1696 => errScanStart_keeps h1696) h3
  · exact rcvResetStart_keeps h3
  · exact rcvQueryStart_keeps h3
  · exact rcvReleaseStart_keeps h3
  · exact dumpFree_keeps h3
  · exact rcvDumpReadStart_keeps h3
  · exact pwrQueryStart_keeps h3
  · exact pwrStateStart_keeps h3
  · exact lnkQueryStart_keeps h3
  · exact lnkCountersStart_keeps h3
  · exact lnkControlStart_keeps h3
  · exact grpLookupStart_keeps h3
  · exact grpDumpStart_keeps h3
  · exact grpQueryStart_keeps h3
  · exact lseAcquireStart_keeps h3
  · exact lseReleaseStart_keeps h3
  · exact lseReadStart_keeps h3
  · exact withData_keeps (fun _ _ h1697 => awaitData_keeps h1697) (fun _ _ h1698 => landedOf_keeps h1698) h3

theorem begin'_keeps {a1 a2} (h2 : Keeps s0 a2) :
    Keeps s0 (begin' a1 a2) := by
  unfold begin'
  split
  · exact h2
  · exact startOf_keeps (State.modLive_keeps h2)

theorem settleOne_keeps {a1 a2} (h2 : Keeps s0 a2) :
    Keeps s0 (settleOne a1 a2) := by
  unfold settleOne
  split
  · exact h2
  · extract_lets +onlyGivenNames -merge -underBinder x1699
    have h1700 : ∀ s, Keeps s0 s → Keeps s0 (x1699 s) := fun _ h1701 => keeps_ite (landedOf_keeps h1701)
        (begin'_keeps h1701)
    clear_value x1699
    split
    · exact keeps_ite (keeps_ite h2 (succeed_keeps h2)) (keeps_ite h2 (h1700 _ h2))
    · exact h1700 _ h2
    · exact h1700 _ h2
    · exact h2

theorem settle_keeps {a1} (h1 : Keeps s0 a1) :
    Keeps s0 (settle a1) := by
  unfold settle
  extract_lets +onlyGivenNames -merge -underBinder x1702
  have h1703 : Keeps s0 x1702 := foldOver_keeps (fun _ _ h1704 => settleOne_keeps h1704) h1
  exact shutdownGoesOn_keeps (publishReady_keeps h1703)

theorem pushGrant_keeps {n l t} (h : Keeps s0 s) (e : pushGrant n l s = .ok t) : Keeps s0 t := by
  unfold pushGrant at e
  split at e
  · cases e
  · extract_lets +onlyGivenNames -merge -underBinder k ch u who at e
    repeat' (split at e; cases e)
    extract_lets +onlyGivenNames -merge -underBinder d place room at e
    split at e
    · cases e
    · cases e
      exact State.modLive_keeps (State.modShard_keeps h)

theorem volGrant_keeps {l t} (h : Keeps s0 s) (e : volGrant l s = .ok t) : Keeps s0 t := by
  unfold volGrant at e
  split at e
  · cases e
  · extract_lets +onlyGivenNames -merge -underBinder len at e
    repeat' split at e
    all_goals first
      | cases e; exact h
      | cases e; exact Keeps.frame h rfl rfl rfl rfl rfl rfl rfl rfl rfl
      | cases e

theorem grantDecision_keeps {n l t} (h : Keeps s0 s) (e : grantDecision n l s = .ok t) : Keeps s0 t := by
  unfold grantDecision at e
  extract_lets +onlyGivenNames -merge -underBinder op at e
  split at e
  · cases e
  · split at e
    · cases e
      exact h
    · split at e
      · exact pushGrant_keeps h e
      · split at e
        · exact volGrant_keeps h e
        · cases e
          exact mutationGrant_keeps h

theorem refuseGrant_keeps {a1 a2 a3 a4} (h4 : Keeps s0 a4) : Keeps s0 (refuseGrant a1 a2 a3 a4) := by
  unfold refuseGrant
  split
  · exact keeps_ite (violationBy_keeps (abort_keeps h4)) (abort_keeps h4)
  · exact abort_keeps h4

theorem rxGrant_keeps {a1 a2} (h2 : Keeps s0 a2) : Keeps s0 (rxGrant a1 a2) := by
  unfold rxGrant
  split
  · exact h2
  · refine keeps_ite ?_ h2
    split
    · exact h2
    · exact refuseGrant_keeps h2
    · rename_i e
      exact recordGrant_keeps (grantDecision_keeps h2 e)

theorem landIfFull_keeps {a1 a2} (h2 : Keeps s0 a2) :
    Keeps s0 (landIfFull a1 a2) := by
  unfold landIfFull
  split
  · exact h2
  · exact keeps_ite (landedOf_keeps h2) h2

theorem requestDataRead_keeps {a1 a2 a3} (h3 : Keeps s0 a3) : Keeps s0 (requestDataRead a1 a2 a3) := by
  unfold requestDataRead
  split
  · exact h3
  · extract_lets +onlyGivenNames -merge -underBinder fabric
    refine keeps_ite h3 ?_
    split
    · exact fail_keeps (stopWork_keeps h3)
    · refine keeps_ite h3 ?_
      split
      · exact h3
      · exact abort_keeps h3
      · rename_i e
        exact landIfFull_keeps (State.modLive_keeps (grantDecision_keeps h3 e))

theorem deliver_keeps {a1 a2 a3} (h3 : Keeps s0 a3) :
    Keeps s0 (deliver a1 a2 a3) := by
  unfold deliver
  exact command_keeps (fun _ _ h1706 => startOf_keeps h1706) h3

theorem takeReply_keeps {a1 a2 a3 a4} (h4 : Keeps s0 a4) :
    Keeps s0 (takeReply a1 a2 a3 a4) := by
  unfold takeReply
  split
  · exact violation_keeps h4
  · exact keeps_ite (recallAck_keeps (Keeps.frame h4 rfl rfl rfl rfl rfl rfl rfl rfl rfl)) (eventReply_keeps h4)

theorem takeUnit_keeps {a1 a2 a3} (h3 : Keeps s0 a3) :
    Keeps s0 (takeUnit a1 a2 a3) := by
  unfold takeUnit
  extract_lets +onlyGivenNames -merge -underBinder x1707 x1708 x1709
  refine keeps_ite ?_ ?_
  · exact violation_keeps h3
  · refine keeps_ite ?_ ?_
    · exact deliver_keeps h3
    · refine keeps_ite ?_ ?_
      · exact takeReply_keeps h3
      · refine keeps_ite ?_ ?_
        · exact strayReply_keeps h3
        · extract_lets +onlyGivenNames -merge -underBinder x1710
          have h1711 : Keeps s0 x1710 := landSegment_keeps h3
          split
          · exact landIfFull_keeps h1711
          · exact h1711

theorem takeEntry_keeps {a1 a2 a3} (h3 : Keeps s0 a3) :
    Keeps s0 (takeEntry a1 a2 a3) := by
  unfold takeEntry
  refine keeps_ite ?_ ?_
  · extract_lets +onlyGivenNames -merge -underBinder x1712 x1714 x1715
    have h1713 : Keeps s0 x1712 := State.modQueue_keeps h3
    exact keeps_ite (refuse_keeps h1713) (deliver_keeps h1713)
  · exact h3

theorem replayLate_keeps {a1 a2} (h2 : Keeps s0 a2) :
    Keeps s0 (replayLate a1 a2) := by
  unfold replayLate
  extract_lets +onlyGivenNames -merge -underBinder x1716
  exact keeps_ite (replayOnce_keeps h2) h2

theorem linkIdle_keeps {a1 a2} (h2 : Keeps s0 a2) :
    Keeps s0 (linkIdle a1 a2) := by
  unfold linkIdle
  exact keeps_ite (linkDown_keeps h2) h2

theorem keyExhausted_keeps {a1 a2} (h2 : Keeps s0 a2) :
    Keeps s0 (keyExhausted a1 a2) := by
  unfold keyExhausted
  extract_lets +onlyGivenNames -merge -underBinder x1717
  exact keeps_ite (linkDown_keeps (logLink_keeps h2)) h2

theorem dataSegment_keeps {a1 a2 a3 a4 a5 a6} (h6 : Keeps s0 a6) :
    Keeps s0 (dataSegment a1 a2 a3 a4 a5 a6) := by
  unfold dataSegment
  extract_lets +onlyGivenNames -merge -underBinder x1718
  have h1719 : Keeps s0 x1718 := landSegment_keeps h6
  split
  · exact landIfFull_keeps h1719
  · exact h1719

theorem blockHalf_keeps {a1 a2 a3 a4 a5} (h5 : Keeps s0 a5) :
    Keeps s0 (blockHalf a1 a2 a3 a4 a5) := by
  unfold blockHalf
  extract_lets +onlyGivenNames -merge -underBinder x1720
  exact blockWrite_keeps h5

theorem cflRegWrite_keeps {a1 a2 a3} (h3 : Keeps s0 a3) :
    Keeps s0 (cflRegWrite a1 a2 a3) := by
  unfold cflRegWrite
  exact keeps_ite (State.modCfl_keeps h3) (keeps_ite (State.modCfl_keeps h3) h3)

theorem windowWord_keeps {a1 a2 a3 a4} (h4 : Keeps s0 a4) :
    Keeps s0 (windowWord a1 a2 a3 a4) := by
  unfold windowWord
  exact keeps_ite (blockHalf_keeps h4) (keeps_ite (blockHalf_keeps h4) (keeps_ite (portWrite_keeps h4) (keeps_ite
      (cflRegWrite_keeps h4) h4)))

theorem windowWrite_keeps {a1 a2 a3 a4 a5} (h5 : Keeps s0 a5) :
    Keeps s0 (windowWrite a1 a2 a3 a4 a5) := by
  unfold windowWrite
  extract_lets +onlyGivenNames -merge -underBinder x1721 x1722
  exact keeps_ite (keeps_ite h5 (keeps_ite (blockWrite_keeps h5) (keeps_ite (blockWrite_keeps h5) (windowWord_keeps
      (windowWord_keeps h5))))) (keeps_ite h5 (windowWord_keeps h5))

theorem commitOver_keeps {a1 a2} (h2 : Keeps s0 a2) :
    Keeps s0 (commitOver a1 a2) := by
  unfold commitOver
  extract_lets +onlyGivenNames -merge -underBinder x1723
  have h1724 : Keeps s0 x1723 := runWaitingCfg_keeps h2
  refine keeps_ite ?_ ?_
  · extract_lets +onlyGivenNames -merge -underBinder x1725
    exact startModuleReset_keeps h1724
  · exact keeps_ite (startModuleReset_keeps h1724) h1724

theorem commitGoes_keeps {a1 a2} (h2 : Keeps s0 a2) :
    Keeps s0 (commitGoes a1 a2) := by
  unfold commitGoes
  refine keeps_ite ?_ ?_
  · exact commitOver_keeps (commitEnds_keeps h2)
  · extract_lets +onlyGivenNames -merge -underBinder x1726
    have h1727 : Keeps s0 x1726 := commitStep_keeps h2
    exact keeps_ite (commitOver_keeps h1727) h1727

theorem cflComplete_keeps {a1 a2} (h2 : Keeps s0 a2) :
    Keeps s0 (cflComplete a1 a2) := by
  unfold cflComplete
  extract_lets +onlyGivenNames -merge -underBinder x1728
  exact keeps_ite (flashDone_keeps h2) (keeps_ite (commitGoes_keeps h2) h2)

theorem inRange_keeps {a1 a2 a3 a4} (h3 : ∀ s, Keeps s0 s → Keeps s0 (a3 s)) (h4 : Keeps s0 a4) :
    Keeps s0 (inRange a1 a2 a3 a4) := by
  unfold inRange
  split
  · exact h4
  · exact keeps_ite h4 (keeps_ite (h3 _ h4) (trapStream_keeps h4))

theorem passRow_keeps {a1 a2 a3 a4 a5 a6} (h6 : Keeps s0 a6) :
    Keeps s0 (passRow a1 a2 a3 a4 a5 a6) := by
  unfold passRow
  exact inRange_keeps (fun _ h1729 => passSlot_keeps h1729) h6

theorem vecMemRow_keeps {a1 a2 a3 a4 a5 a6} (h6 : Keeps s0 a6) :
    Keeps s0 (vecMemRow a1 a2 a3 a4 a5 a6) := by
  unfold vecMemRow
  exact inRange_keeps (fun _ h1730 => issueEcc_keeps (fun _ h1731 => vecSlot_keeps h1731) h1730) h6

theorem moveRow_keeps {a1 a2 a3 a4 a5} (h5 : Keeps s0 a5) :
    Keeps s0 (moveRow a1 a2 a3 a4 a5) := by
  unfold moveRow
  exact inRange_keeps (fun _ h1732 => moveSlot_keeps h1732) h5

theorem residueFails_keeps {a1 a2 a3 a4} (h4 : Keeps s0 a4) : Keeps s0 (residueFails a1 a2 a3 a4) := by
  unfold residueFails
  extract_lets +onlyGivenNames -merge -underBinder u service d s1 s2
  have hd : Keeps s0 d := dropOp_keeps h4
  clear_value d
  have h1 : Keeps s0 s1 := addLog_keeps (Keeps.frame hd rfl rfl rfl rfl rfl rfl rfl rfl rfl)
  have h2 : Keeps s0 s2 := engineReset_keeps h1
  exact countMismatch_keeps (keeps_ite (requeueUpdate_keeps h2) (suspectStream_keeps h2))

theorem operandFails_keeps {a1 a2 a3 a4} (h4 : Keeps s0 a4) :
    Keeps s0 (operandFails a1 a2 a3 a4) := by
  unfold operandFails
  split
  · exact faultStream_keeps (dropOp_keeps h4)
  · exact raiseAttention_keeps (dropChunk_keeps (State.modShard_keeps h4))

theorem vectorRetire_keeps {a1 a2 a3 a4 a5} (h5 : Keeps s0 a5) :
    Keeps s0 (vectorRetire a1 a2 a3 a4 a5) := by
  unfold vectorRetire
  split
  · exact h5
  · exact readEcc_keeps (fun _ h1741 => keeps_itef (retireOk_keeps h1741) (residueFails_keeps h1741)) (fun _ h1742 =>
        operandFails_keeps h1742) h5

theorem lateMove_keeps {a1 a2 a3} (h3 : Keeps s0 a3) :
    Keeps s0 (lateMove a1 a2 a3) := by
  unfold lateMove
  split
  · extract_lets +onlyGivenNames -merge -underBinder x1743
    split
    · exact h3
    · refine keeps_ite ?_ ?_
      · extract_lets +onlyGivenNames -merge -underBinder x1744 x1745
        exact popMove_keeps (moveFailed_keeps (addLog_keeps h3))
      · exact h3
  · exact h3

theorem lateCommand_keeps {a1 a2} (h2 : Keeps s0 a2) :
    Keeps s0 (lateCommand a1 a2) := by
  unfold lateCommand
  split
  · exact h2
  · extract_lets +onlyGivenNames -merge -underBinder x1746
    split
    · exact h2
    · exact keeps_ite (abort_keeps (addLog_keeps h2)) h2

theorem tierDeadline_keeps {a1 a2} (h2 : Keeps s0 a2) :
    Keeps s0 (tierDeadline a1 a2) := by
  unfold tierDeadline
  split
  · exact lateMove_keeps h2
  · exact lateCommand_keeps h2
  · exact chunkTierFailed_keeps h2
  · exact h2

theorem idle_keeps {a1} (h1 : Keeps s0 a1) : Keeps s0 (idle a1) := by
  unfold idle
  split
  · exact h1.trans ⟨rfl, id, id, Nat.le_succ _, Nat.le_refl _, ⟨rfl, rfl⟩, OtpSets.refl _⟩
  · exact h1

end Sys2Proof.Machine
end

