-- ==== Sys2Proof/Laws/KeepsExec.lean ====
section
/-! SUPPORT. Every row answers a next state, and all but auxiliary power-up keep what `Keeps` says. -/

namespace Sys2Proof.Machine

variable {s0 : State}

theorem execEndStream_keeps {a1 a2 a3} (h3 : Keeps s0 a3) :
    ∃ t, execEndStream a1 a2 a3 = .next t ∧ Keeps s0 t := ⟨_, rfl, ctlRow_keeps h3⟩

theorem execBranch_keeps {a1 a2 a3} (h3 : Keeps s0 a3) :
    ∃ t, execBranch a1 a2 a3 = .next t ∧ Keeps s0 t := ⟨_, rfl, ctlRow_keeps h3⟩

theorem execIxSet_keeps {a1 a2 a3} (h3 : Keeps s0 a3) :
    ∃ t, execIxSet a1 a2 a3 = .next t ∧ Keeps s0 t := ⟨_, rfl, ctlRow_keeps h3⟩

theorem execIxAdd_keeps {a1 a2 a3} (h3 : Keeps s0 a3) :
    ∃ t, execIxAdd a1 a2 a3 = .next t ∧ Keeps s0 t := ⟨_, rfl, ctlRow_keeps h3⟩

theorem execStitch_keeps {a1 a2 a3} (h3 : Keeps s0 a3) :
    ∃ t, execStitch a1 a2 a3 = .next t ∧ Keeps s0 t := ⟨_, rfl, ctlRow_keeps h3⟩

theorem execMark_keeps {a1 a2 a3} (h3 : Keeps s0 a3) :
    ∃ t, execMark a1 a2 a3 = .next t ∧ Keeps s0 t := ⟨_, rfl, ctlRow_keeps h3⟩

theorem execFlagClear_keeps {a1 a2 a3} (h3 : Keeps s0 a3) :
    ∃ t, execFlagClear a1 a2 a3 = .next t ∧ Keeps s0 t := ⟨_, rfl, ctlRow_keeps h3⟩

theorem execClearOp_keeps {a1 a2 a3} (h3 : Keeps s0 a3) :
    ∃ t, execClearOp a1 a2 a3 = .next t ∧ Keeps s0 t := ⟨_, rfl, syncAct_keeps h3⟩

theorem execSetOp_keeps {a1 a2 a3} (h3 : Keeps s0 a3) :
    ∃ t, execSetOp a1 a2 a3 = .next t ∧ Keeps s0 t := ⟨_, rfl, syncAct_keeps h3⟩

theorem execPassFirstVectorEnters_keeps {a1 a2 a3} (h3 : Keeps s0 a3) :
    ∃ t, execPassFirstVectorEnters a1 a2 a3 = .next t ∧ Keeps s0 t := ⟨_, rfl, firstVectorEnters_keeps h3⟩

theorem execPassComplete_keeps {a1 a2 a3} (h3 : Keeps s0 a3) :
    ∃ t, execPassComplete a1 a2 a3 = .next t ∧ Keeps s0 t := ⟨_, rfl, passComplete_keeps h3⟩

theorem execDrain_keeps {a1 a2 a3 a4} (h4 : Keeps s0 a4) :
    ∃ t, execDrain a1 a2 a3 a4 = .next t ∧ Keeps s0 t := ⟨_, rfl, drainSlot_keeps h4⟩

theorem execAdd_keeps {a1 a2 a3 a4} (h4 : Keeps s0 a4) :
    ∃ t, execAdd a1 a2 a3 a4 = .next t ∧ Keeps s0 t := ⟨_, rfl, vTwo_keeps h4⟩

theorem execSub_keeps {a1 a2 a3 a4} (h4 : Keeps s0 a4) :
    ∃ t, execSub a1 a2 a3 a4 = .next t ∧ Keeps s0 t := ⟨_, rfl, vTwo_keeps h4⟩

theorem execMul_keeps {a1 a2 a3 a4} (h4 : Keeps s0 a4) :
    ∃ t, execMul a1 a2 a3 a4 = .next t ∧ Keeps s0 t := ⟨_, rfl, vTwo_keeps h4⟩

theorem execFma_keeps {a1 a2 a3 a4} (h4 : Keeps s0 a4) :
    ∃ t, execFma a1 a2 a3 a4 = .next t ∧ Keeps s0 t := ⟨_, rfl, vThree_keeps h4⟩

theorem execFnma_keeps {a1 a2 a3 a4} (h4 : Keeps s0 a4) :
    ∃ t, execFnma a1 a2 a3 a4 = .next t ∧ Keeps s0 t := ⟨_, rfl, vThree_keeps h4⟩

theorem execMax_keeps {a1 a2 a3 a4} (h4 : Keeps s0 a4) :
    ∃ t, execMax a1 a2 a3 a4 = .next t ∧ Keeps s0 t := ⟨_, rfl, vTwo_keeps h4⟩

theorem execMin_keeps {a1 a2 a3 a4} (h4 : Keeps s0 a4) :
    ∃ t, execMin a1 a2 a3 a4 = .next t ∧ Keeps s0 t := ⟨_, rfl, vTwo_keeps h4⟩

theorem execAbs_keeps {a1 a2 a3 a4} (h4 : Keeps s0 a4) :
    ∃ t, execAbs a1 a2 a3 a4 = .next t ∧ Keeps s0 t := ⟨_, rfl, vOne_keeps h4⟩

theorem execSign_keeps {a1 a2 a3 a4} (h4 : Keeps s0 a4) :
    ∃ t, execSign a1 a2 a3 a4 = .next t ∧ Keeps s0 t := ⟨_, rfl, vOne_keeps h4⟩

theorem execScale_keeps {a1 a2 a3 a4} (h4 : Keeps s0 a4) :
    ∃ t, execScale a1 a2 a3 a4 = .next t ∧ Keeps s0 t := ⟨_, rfl, vOne_keeps h4⟩

theorem execDiv_keeps {a1 a2 a3 a4} (h4 : Keeps s0 a4) :
    ∃ t, execDiv a1 a2 a3 a4 = .next t ∧ Keeps s0 t := ⟨_, rfl, vTwo_keeps h4⟩

theorem execSqrt_keeps {a1 a2 a3 a4} (h4 : Keeps s0 a4) :
    ∃ t, execSqrt a1 a2 a3 a4 = .next t ∧ Keeps s0 t := ⟨_, rfl, vOne_keeps h4⟩

theorem execBcast_keeps {a1 a2 a3 a4} (h4 : Keeps s0 a4) :
    ∃ t, execBcast a1 a2 a3 a4 = .next t ∧ Keeps s0 t := ⟨_, rfl, vBcast_keeps h4⟩

theorem execMovi_keeps {a1 a2 a3 a4} (h4 : Keeps s0 a4) :
    ∃ t, execMovi a1 a2 a3 a4 = .next t ∧ Keeps s0 t := ⟨_, rfl, vMovi_keeps h4⟩

theorem execCmpLt_keeps {a1 a2 a3 a4} (h4 : Keeps s0 a4) :
    ∃ t, execCmpLt a1 a2 a3 a4 = .next t ∧ Keeps s0 t := ⟨_, rfl, vCmp_keeps h4⟩

theorem execCmpEq_keeps {a1 a2 a3 a4} (h4 : Keeps s0 a4) :
    ∃ t, execCmpEq a1 a2 a3 a4 = .next t ∧ Keeps s0 t := ⟨_, rfl, vCmp_keeps h4⟩

theorem execSel_keeps {a1 a2 a3 a4} (h4 : Keeps s0 a4) :
    ∃ t, execSel a1 a2 a3 a4 = .next t ∧ Keeps s0 t := ⟨_, rfl, vSel_keeps h4⟩

theorem execRsum_keeps {a1 a2 a3 a4} (h4 : Keeps s0 a4) :
    ∃ t, execRsum a1 a2 a3 a4 = .next t ∧ Keeps s0 t := ⟨_, rfl, vRsum_keeps h4⟩

theorem execRmax_keeps {a1 a2 a3 a4} (h4 : Keeps s0 a4) :
    ∃ t, execRmax a1 a2 a3 a4 = .next t ∧ Keeps s0 t := ⟨_, rfl, vRmax_keeps h4⟩

theorem execSurvey_keeps {a1 a2 a3 a4} (h4 : Keeps s0 a4) :
    ∃ t, execSurvey a1 a2 a3 a4 = .next t ∧ Keeps s0 t := ⟨_, rfl, vSurvey_keeps h4⟩

theorem execPadd_keeps {a1 a2 a3 a4} (h4 : Keeps s0 a4) :
    ∃ t, execPadd a1 a2 a3 a4 = .next t ∧ Keeps s0 t := ⟨_, rfl, vPacked2_keeps h4⟩

theorem execPmul_keeps {a1 a2 a3 a4} (h4 : Keeps s0 a4) :
    ∃ t, execPmul a1 a2 a3 a4 = .next t ∧ Keeps s0 t := ⟨_, rfl, vPacked2_keeps h4⟩

theorem execPfma_keeps {a1 a2 a3 a4} (h4 : Keeps s0 a4) :
    ∃ t, execPfma a1 a2 a3 a4 = .next t ∧ Keeps s0 t := ⟨_, rfl, vPfma_keeps h4⟩

theorem execMoveComplete_keeps {a1 a2 a3 a4 a5} (h5 : Keeps s0 a5) :
    ∃ t, execMoveComplete a1 a2 a3 a4 a5 = .next t ∧ Keeps s0 t := ⟨_, rfl, moveComplete_keeps (State.tick_keeps h5)⟩

theorem execPageFetchStart_keeps {a1 a2 a3} (h3 : Keeps s0 a3) :
    ∃ t, execPageFetchStart a1 a2 a3 = .next t ∧ Keeps s0 t := ⟨_, rfl, fetchStart_keeps h3⟩

theorem execFreeReserveEvict_keeps {a1 a2} (h2 : Keeps s0 a2) :
    ∃ t, execFreeReserveEvict a1 a2 = .next t ∧ Keeps s0 t := ⟨_, rfl, reserveEvict_keeps h2⟩

theorem execIdleAgeExpiry_keeps {a1 a2 a3 a4} (h4 : Keeps s0 a4) :
    ∃ t, execIdleAgeExpiry a1 a2 a3 a4 = .next t ∧ Keeps s0 t := ⟨_, rfl, idleAge_keeps (State.tick_keeps h4)⟩

theorem execPrefetchLate_keeps {a1 a2 a3 a4} (h4 : Keeps s0 a4) :
    ∃ t, execPrefetchLate a1 a2 a3 a4 = .next t ∧ Keeps s0 t := ⟨_, rfl, prefetchLate_keeps (State.tick_keeps h4)⟩

theorem execPreemptRequest_keeps {a1 a2} (h2 : Keeps s0 a2) :
    ∃ t, execPreemptRequest a1 a2 = .next t ∧ Keeps s0 t := ⟨_, rfl, preemptRequest_keeps h2⟩

theorem execTimeSliceExpiry_keeps {a1 a2 a3} (h3 : Keeps s0 a3) :
    ∃ t, execTimeSliceExpiry a1 a2 a3 = .next t ∧ Keeps s0 t := ⟨_, rfl, timeSlice_keeps (State.tick_keeps h3)⟩

theorem execStarvationLimit_keeps {a1 a2 a3} (h3 : Keeps s0 a3) :
    ∃ t, execStarvationLimit a1 a2 a3 = .next t ∧ Keeps s0 t := ⟨_, rfl, starvation_keeps (State.tick_keeps h3)⟩

theorem execMarkerSaveComplete_keeps {a1 a2} (h2 : Keeps s0 a2) :
    ∃ t, execMarkerSaveComplete a1 a2 = .next t ∧ Keeps s0 t := ⟨_, rfl, markerSaved_keeps h2⟩

theorem execCoef_keeps {a1 a2 a3 a4 a5 a6} (h6 : Keeps s0 a6) :
    ∃ t, execCoef a1 a2 a3 a4 a5 a6 = .next t ∧ Keeps s0 t := ⟨_, rfl, coefSlot_keeps h6⟩

theorem execUpdate_keeps {a1 a2 a3 a4 a5 a6 a7} (h7 : Keeps s0 a7) :
    ∃ t, execUpdate a1 a2 a3 a4 a5 a6 a7 = .next t ∧ Keeps s0 t := ⟨_, rfl, updateEcc_keeps h7⟩

theorem execShdEventReply_keeps {a1 a2 a3 a4} (h4 : Keeps s0 a4) :
    ∃ t, execShdEventReply a1 a2 a3 a4 = .next t ∧ Keeps s0 t := ⟨_, rfl, eventReply_keeps h4⟩

theorem execShdEventTimeout_keeps {a1 a2 a3 a4} (h4 : Keeps s0 a4) :
    ∃ t, execShdEventTimeout a1 a2 a3 a4 = .next t ∧ Keeps s0 t := ⟨_, rfl, eventTimeout_keeps (State.tick_keeps h4)⟩

theorem execEnergyChargeTick_keeps {a1 a2 a3} (h3 : Keeps s0 a3) :
    ∃ t, execEnergyChargeTick a1 a2 a3 = .next t ∧ Keeps s0 t := ⟨_, rfl, keeps_ite (energyTick_keeps
        (State.tick_keeps h3)) (State.tick_keeps h3)⟩

theorem execGraphLink_keeps {a1 a2 a3} (h3 : Keeps s0 a3) :
    ∃ t, execGraphLink a1 a2 a3 = .next t ∧ Keeps s0 t := ⟨_, rfl, graphLink_keeps h3⟩

theorem execCodewordDecode_keeps {a1 a2 a3 a4 a5} (h5 : Keeps s0 a5) :
    ∃ t, execCodewordDecode a1 a2 a3 a4 a5 = .next t ∧ Keeps s0 t := ⟨_, rfl, codewordDecode_keeps h5⟩

theorem execGcStart_keeps {a1 a2} (h2 : Keeps s0 a2) :
    ∃ t, execGcStart a1 a2 = .next t ∧ Keeps s0 t := ⟨_, rfl, gcStart_keeps h2⟩

theorem execGcMoveCommit_keeps {a1 a2} (h2 : Keeps s0 a2) :
    ∃ t, execGcMoveCommit a1 a2 = .next t ∧ Keeps s0 t := ⟨_, rfl, gcMove_keeps h2⟩

theorem execWearLevel_keeps {a1 a2} (h2 : Keeps s0 a2) :
    ∃ t, execWearLevel a1 a2 = .next t ∧ Keeps s0 t := ⟨_, rfl, wearLevel_keeps h2⟩

theorem execReadThresholdRefresh_keeps {a1 a2 a3} (h3 : Keeps s0 a3) :
    ∃ t, execReadThresholdRefresh a1 a2 a3 = .next t ∧ Keeps s0 t := ⟨_, rfl, readRefresh_keeps h3⟩

theorem execPatrolRead_keeps {a1 a2 a3 a4 a5 a6} (h6 : Keeps s0 a6) :
    ∃ t, execPatrolRead a1 a2 a3 a4 a5 a6 = .next t ∧ Keeps s0 t := ⟨_, rfl, patrolRead_keeps (State.tick_keeps h6)⟩

theorem execRetentionRefresh_keeps {a1 a2 a3 a4} (h4 : Keeps s0 a4) :
    ∃ t, execRetentionRefresh a1 a2 a3 a4 = .next t ∧ Keeps s0 t := ⟨_, rfl, retentionRefresh_keeps (State.tick_keeps
        h4)⟩

theorem execEraseSuspend_keeps {a1 a2 a3 a4} (h4 : Keeps s0 a4) :
    ∃ t, execEraseSuspend a1 a2 a3 a4 = .next t ∧ Keeps s0 t := ⟨_, rfl, eraseSuspend_keeps (State.tick_keeps h4)⟩

theorem execEraseResume_keeps {a1 a2 a3 a4} (h4 : Keeps s0 a4) :
    ∃ t, execEraseResume a1 a2 a3 a4 = .next t ∧ Keeps s0 t := ⟨_, rfl, eraseResume_keeps (State.tick_keeps h4)⟩

theorem execSlotSend_keeps {a1 a2} (h2 : Keeps s0 a2) :
    ∃ t, execSlotSend a1 a2 = .next t ∧ Keeps s0 t := ⟨_, rfl, sendSlot_keeps h2⟩

theorem execTrainingFrameReceive_keeps {a1 a2 a3} (h3 : Keeps s0 a3) :
    ∃ t, execTrainingFrameReceive a1 a2 a3 = .next t ∧ Keeps s0 t := by
  unfold execTrainingFrameReceive
  refine ⟨_, rfl, ?_⟩
  refine keeps_ite ?_ ?_
  · split
    · exact keeps_ite h3 (trainFails_keeps h3)
    · exact setLinkSt_keeps (State.modLink_keeps h3)
  · exact h3

theorem execCreditReturnReceive_keeps {a1 a2 a3} (h3 : Keeps s0 a3) :
    ∃ t, execCreditReturnReceive a1 a2 a3 = .next t ∧ Keeps s0 t := ⟨_, rfl, keeps_ite (addCredits_keeps
        (State.modLink_keeps h3)) h3⟩

theorem execLinkTraining_keeps {a1 a2 a3 a4} (h4 : Keeps s0 a4) :
    ∃ t, execLinkTraining a1 a2 a3 a4 = .next t ∧ Keeps s0 t := ⟨_, rfl, keeps_ite (trainEnds_keeps (State.tick_keeps
        h4)) (State.tick_keeps h4)⟩

theorem execRetrainTimer_keeps {a1 a2 a3} (h3 : Keeps s0 a3) :
    ∃ t, execRetrainTimer a1 a2 a3 = .next t ∧ Keeps s0 t := ⟨_, rfl, keeps_ite (startTraining_keeps
        (State.tick_keeps h3)) (State.tick_keeps h3)⟩

theorem execDarkRetry_keeps {a1 a2 a3 a4} (h4 : Keeps s0 a4) :
    ∃ t, execDarkRetry a1 a2 a3 a4 = .next t ∧ Keeps s0 t := by
  unfold execDarkRetry
  refine ⟨_, rfl, ?_⟩
  refine keeps_ite ?_ ?_
  · extract_lets +onlyGivenNames -merge -underBinder x1
    have h2 : Keeps s0 x1 := State.modLink_keeps (State.tick_keeps h4)
    exact keeps_ite h2 (startTraining_keeps h2)
  · exact State.tick_keeps h4

theorem execRingHopComplete_keeps {a1 a2 a3 a4} (h4 : Keeps s0 a4) :
    ∃ t, execRingHopComplete a1 a2 a3 a4 = .next t ∧ Keeps s0 t := ⟨_, rfl, keeps_ite (State.modLink_keeps h4) h4⟩

theorem execWavelengthRestore_keeps {a1 a2 a3 a4 a5 a6} (h6 : Keeps s0 a6) :
    ∃ t, execWavelengthRestore a1 a2 a3 a4 a5 a6 = .next t ∧ Keeps s0 t := ⟨_, rfl, restoreOne_keeps
        (restoreOne_keeps (State.tick_keeps h6))⟩

theorem execPowerShedTick_keeps {a1 a2 a3} (h3 : Keeps s0 a3) :
    ∃ t, execPowerShedTick a1 a2 a3 = .next t ∧ Keeps s0 t := ⟨_, rfl, powerLoop_keeps h3⟩

theorem execQuarantineHoldExpiry_keeps {a1 a2 a3} (h3 : Keeps s0 a3) :
    ∃ t, execQuarantineHoldExpiry a1 a2 a3 = .next t ∧ Keeps s0 t := ⟨_, rfl, keeps_ite (releaseQuarantine_keeps
        (State.tick_keeps h3)) (State.tick_keeps h3)⟩

theorem execAckIntervalExpiry_keeps {a1 a2 a3} (h3 : Keeps s0 a3) :
    ∃ t, execAckIntervalExpiry a1 a2 a3 = .next t ∧ Keeps s0 t := ⟨_, rfl, keeps_ite (sendAck_keeps (State.tick_keeps
        h3)) (State.tick_keeps h3)⟩

theorem execShedHoldExpiry_keeps {a1 a2 a3 a4} (h4 : Keeps s0 a4) :
    ∃ t, execShedHoldExpiry a1 a2 a3 a4 = .next t ∧ Keeps s0 t := ⟨_, rfl, State.modLink_keeps (State.tick_keeps h4)⟩

theorem execCompletionWrite_keeps {a1 a2 a3} (h3 : Keeps s0 a3) :
    ∃ t, execCompletionWrite a1 a2 a3 = .next t ∧ Keeps s0 t := ⟨_, rfl, completionWrite_keeps (State.tick_keeps h3)⟩

theorem execCqEventWrite_keeps {a1 a2} (h2 : Keeps s0 a2) :
    ∃ t, execCqEventWrite a1 a2 = .next t ∧ Keeps s0 t := ⟨_, rfl, eventWrite_keeps h2⟩

theorem execCqAggTimer_keeps {a1 a2 a3} (h3 : Keeps s0 a3) :
    ∃ t, execCqAggTimer a1 a2 a3 = .next t ∧ Keeps s0 t := ⟨_, rfl, keeps_ite (signalQueue_keeps (State.tick_keeps
        h3)) (State.tick_keeps h3)⟩

theorem execSqFetchFail_keeps {a1 a2 a3} (h3 : Keeps s0 a3) :
    ∃ t, execSqFetchFail a1 a2 a3 = .next t ∧ Keeps s0 t := ⟨_, rfl, keeps_ite (stopQueue_keeps (State.modQueue_keeps
        h3)) h3⟩

theorem execCtlqSqTail_keeps {a1 a2 a3} (h3 : Keeps s0 a3) :
    ∃ t, execCtlqSqTail a1 a2 a3 = .next t ∧ Keeps s0 t := ⟨_, rfl, keeps_ite (sqTail_keeps h3) h3⟩

theorem execCtlqCqHead_keeps {a1 a2 a3} (h3 : Keeps s0 a3) :
    ∃ t, execCtlqCqHead a1 a2 a3 = .next t ∧ Keeps s0 t := ⟨_, rfl, keeps_ite (cqHead_keeps h3) h3⟩

theorem execCtlqEnable_keeps {a1 a2 a3} (h3 : Keeps s0 a3) :
    ∃ t, execCtlqEnable a1 a2 a3 = .next t ∧ Keeps s0 t := ⟨_, rfl, keeps_ite (writeCfg_keeps h3) h3⟩

theorem execCtlqDisable_keeps {a1 a2 a3} (h3 : Keeps s0 a3) :
    ∃ t, execCtlqDisable a1 a2 a3 = .next t ∧ Keeps s0 t := ⟨_, rfl, keeps_ite (writeCfg_keeps h3) h3⟩

theorem execRsltRelease_keeps {a1 a2} (h2 : Keeps s0 a2) :
    ∃ t, execRsltRelease a1 a2 = .next t ∧ Keeps s0 t := ⟨_, rfl, keeps_ite (releaseSlot_keeps h2) h2⟩

theorem execEvtForce_keeps {a1 a2} (h2 : Keeps s0 a2) :
    ∃ t, execEvtForce a1 a2 = .next t ∧ Keeps s0 t := ⟨_, rfl, keeps_ite (forceFlags_keeps h2) h2⟩

theorem execEvtEnableWrite_keeps {a1 a2} (h2 : Keeps s0 a2) :
    ∃ t, execEvtEnableWrite a1 a2 = .next t ∧ Keeps s0 t := ⟨_, rfl, keeps_ite (writeEnable_keeps h2) h2⟩

theorem execMsixUnmask_keeps {a1 a2} (h2 : Keeps s0 a2) :
    ∃ t, execMsixUnmask a1 a2 = .next t ∧ Keeps s0 t := ⟨_, rfl, keeps_ite (maskVector_keeps h2) h2⟩

theorem execPcieLinkUp_keeps {a1} (h1 : Keeps s0 a1) :
    ∃ t, execPcieLinkUp a1 = .next t ∧ Keeps s0 t := ⟨_, rfl, keeps_ite (Keeps.frame h1 rfl rfl rfl rfl rfl rfl rfl
        rfl rfl) h1⟩

theorem execD3hotTransition_keeps {a1 a2} (h2 : Keeps s0 a2) :
    ∃ t, execD3hotTransition a1 a2 = .next t ∧ Keeps s0 t := ⟨_, rfl, keeps_ite (flushPending_keeps (Keeps.frame h2
        rfl rfl rfl rfl rfl rfl rfl rfl rfl)) h2⟩

theorem execModTimeLowRead_keeps {a1} (h1 : Keeps s0 a1) :
    ∃ t, execModTimeLowRead a1 = .next t ∧ Keeps s0 t := ⟨_, rfl, keeps_ite (Keeps.frame h1 rfl rfl rfl rfl rfl rfl
        rfl rfl rfl) h1⟩

theorem execModEpochOffsetWrite_keeps {a1 a2} (h2 : Keeps s0 a2) :
    ∃ t, execModEpochOffsetWrite a1 a2 = .next t ∧ Keeps s0 t := ⟨_, rfl, keeps_ite (writeEpoch_keeps h2) h2⟩

theorem execMbxHostWrite_keeps {a1 a2 a3} (h3 : Keeps s0 a3) :
    ∃ t, execMbxHostWrite a1 a2 a3 = .next t ∧ Keeps s0 t := ⟨_, rfl, keeps_ite (mbxSend_keeps h3) h3⟩

theorem execMbxModuleWrite_keeps {a1 a2 a3} (h3 : Keeps s0 a3) :
    ∃ t, execMbxModuleWrite a1 a2 a3 = .next t ∧ Keeps s0 t := ⟨_, rfl, keeps_ite (mbxSend_keeps h3) h3⟩

theorem execMbxTake_keeps {a1 a2} (h2 : Keeps s0 a2) :
    ∃ t, execMbxTake a1 a2 = .next t ∧ Keeps s0 t := ⟨_, rfl, mbxTake_keeps h2⟩

theorem execMbxClrOverruns_keeps {a1 a2} (h2 : Keeps s0 a2) :
    ∃ t, execMbxClrOverruns a1 a2 = .next t ∧ Keeps s0 t := ⟨_, rfl, State.modMailbox_keeps h2⟩

theorem execEccReadRaw_keeps {a1 a2 a3} (h3 : Keeps s0 a3) :
    ∃ t, execEccReadRaw a1 a2 a3 = .next t ∧ Keeps s0 t := ⟨_, rfl, portRuns_keeps h3⟩

theorem execEccWriteSplit_keeps {a1 a2 a3} (h3 : Keeps s0 a3) :
    ∃ t, execEccWriteSplit a1 a2 a3 = .next t ∧ Keeps s0 t := ⟨_, rfl, portRuns_keeps h3⟩

theorem execEccWrite_keeps {a1 a2 a3} (h3 : Keeps s0 a3) :
    ∃ t, execEccWrite a1 a2 a3 = .next t ∧ Keeps s0 t := ⟨_, rfl, portRuns_keeps h3⟩

theorem execEccRead_keeps {a1 a2 a3} (h3 : Keeps s0 a3) :
    ∃ t, execEccRead a1 a2 a3 = .next t ∧ Keeps s0 t := ⟨_, rfl, portRuns_keeps h3⟩

theorem execScanPeriodExpiry_keeps {a1 a2 a3} (h3 : Keeps s0 a3) :
    ∃ t, execScanPeriodExpiry a1 a2 a3 = .next t ∧ Keeps s0 t := ⟨_, rfl, scanPeriod_keeps (State.tick_keeps h3)⟩

theorem execSectorProgram_keeps {a1 a2} (h2 : Keeps s0 a2) :
    ∃ t, execSectorProgram a1 a2 = .next t ∧ Keeps s0 t := ⟨_, rfl, sectorProgram_keeps h2⟩

theorem execBlockErase_keeps {a1 a2} (h2 : Keeps s0 a2) :
    ∃ t, execBlockErase a1 a2 = .next t ∧ Keeps s0 t := ⟨_, rfl, blockErase_keeps h2⟩

theorem execCflEraseSuspend_keeps {a1 a2} (h2 : Keeps s0 a2) :
    ∃ t, execCflEraseSuspend a1 a2 = .next t ∧ Keeps s0 t := ⟨_, rfl, cflSuspend_keeps h2⟩

theorem execCflEraseResume_keeps {a1 a2} (h2 : Keeps s0 a2) :
    ∃ t, execCflEraseResume a1 a2 = .next t ∧ Keeps s0 t := ⟨_, rfl, cflResume_keeps h2⟩

theorem execOtpEnter_keeps {a1 a2 a3} (h3 : Keeps s0 a3) :
    ∃ t, execOtpEnter a1 a2 a3 = .next t ∧ Keeps s0 t := ⟨_, rfl, otpEnter_keeps h3⟩

theorem execOtpExit_keeps {a1 a2 a3} (h3 : Keeps s0 a3) :
    ∃ t, execOtpExit a1 a2 a3 = .next t ∧ Keeps s0 t := ⟨_, rfl, otpExit_keeps h3⟩

theorem execCflReset_keeps {a1 a2} (h2 : Keeps s0 a2) :
    ∃ t, execCflReset a1 a2 = .next t ∧ Keeps s0 t := ⟨_, rfl, cflNow_keeps h2⟩

theorem execCflFetchDuringErase_keeps {a1 a2 a3} (h3 : Keeps s0 a3) :
    ∃ t, execCflFetchDuringErase a1 a2 a3 = .next t ∧ Keeps s0 t := ⟨_, rfl, fetchDuringErase_keeps (State.tick_keeps
        h3)⟩

theorem execGetVersion_keeps {a1 a2} (h2 : Keeps s0 a2) :
    ∃ t, execGetVersion a1 a2 = .next t ∧ Keeps s0 t := ⟨_, rfl, getVersion_keeps h2⟩

theorem execGetCapabilities_keeps {a1 a2} (h2 : Keeps s0 a2) :
    ∃ t, execGetCapabilities a1 a2 = .next t ∧ Keeps s0 t := ⟨_, rfl, getCapabilities_keeps h2⟩

theorem execNegotiateAlgorithms_keeps {a1 a2 a3 a4 a5} (h5 : Keeps s0 a5) :
    ∃ t, execNegotiateAlgorithms a1 a2 a3 a4 a5 = .next t ∧ Keeps s0 t := ⟨_, rfl, negotiate_keeps h5⟩

theorem execGetDigests_keeps {a1 a2} (h2 : Keeps s0 a2) :
    ∃ t, execGetDigests a1 a2 = .next t ∧ Keeps s0 t := ⟨_, rfl, getDigests_keeps h2⟩

theorem execGetCertificate_keeps {a1 a2 a3 a4 a5} (h5 : Keeps s0 a5) :
    ∃ t, execGetCertificate a1 a2 a3 a4 a5 = .next t ∧ Keeps s0 t := ⟨_, rfl, getCertificate_keeps h5⟩

theorem execChallenge_keeps {a1 a2 a3 a4} (h4 : Keeps s0 a4) :
    ∃ t, execChallenge a1 a2 a3 a4 = .next t ∧ Keeps s0 t := ⟨_, rfl, challenge_keeps h4⟩

theorem execGetMeasurements_keeps {a1 a2 a3 a4} (h4 : Keeps s0 a4) :
    ∃ t, execGetMeasurements a1 a2 a3 a4 = .next t ∧ Keeps s0 t := ⟨_, rfl, getMeasurements_keeps h4⟩

theorem execKeyExchange_keeps {a1 a2 a3 a4} (h4 : Keeps s0 a4) :
    ∃ t, execKeyExchange a1 a2 a3 a4 = .next t ∧ Keeps s0 t := ⟨_, rfl, keyExchange_keeps h4⟩

theorem execPldmSensorRead_keeps {a1 a2 a3} (h3 : Keeps s0 a3) :
    ∃ t, execPldmSensorRead a1 a2 a3 = .next t ∧ Keeps s0 t := ⟨_, rfl, sensorRead_keeps h3⟩

theorem execPldmFirmwareUpdate_keeps {a1 a2 a3} (h3 : Keeps s0 a3) :
    ∃ t, execPldmFirmwareUpdate a1 a2 a3 = .next t ∧ Keeps s0 t := ⟨_, rfl, pldmUpdate_keeps h3⟩

theorem execSetEndpointId_keeps {a1 a2 a3} (h3 : Keeps s0 a3) :
    ∃ t, execSetEndpointId a1 a2 a3 = .next t ∧ Keeps s0 t := ⟨_, rfl, setEid_keeps h3⟩

theorem execSetdasa_keeps {a1 a2 a3} (h3 : Keeps s0 a3) :
    ∃ t, execSetdasa a1 a2 a3 = .next t ∧ Keeps s0 t := ⟨_, rfl, setDasa_keeps h3⟩

theorem execLogBatchWrite_keeps {a1 a2} (h2 : Keeps s0 a2) :
    ∃ t, execLogBatchWrite a1 a2 = .next t ∧ Keeps s0 t := ⟨_, rfl, logBatch_keeps (State.tick_keeps h2)⟩

theorem execCapLoopTick_keeps {a1 a2 a3 a4} (h4 : Keeps s0 a4) :
    ∃ t, execCapLoopTick a1 a2 a3 a4 = .next t ∧ Keeps s0 t := ⟨_, rfl, capTick_keeps (State.tick_keeps h4)⟩

theorem execThermalLoopTick_keeps {a1 a2 a3 a4} (h4 : Keeps s0 a4) :
    ∃ t, execThermalLoopTick a1 a2 a3 a4 = .next t ∧ Keeps s0 t := ⟨_, rfl, thermalTick_keeps (State.tick_keeps h4)⟩

theorem execThermalLimit_keeps {a1 a2 a3} (h3 : Keeps s0 a3) :
    ∃ t, execThermalLimit a1 a2 a3 = .next t ∧ Keeps s0 t := ⟨_, rfl, thermalLimit_keeps h3⟩

theorem execCoolantHot_keeps {a1 a2} (h2 : Keeps s0 a2) :
    ∃ t, execCoolantHot a1 a2 = .next t ∧ Keeps s0 t := ⟨_, rfl, coolantHot_keeps h2⟩

theorem execCoolantFlowLow_keeps {a1 a2 a3 a4} (h4 : Keeps s0 a4) :
    ∃ t, execCoolantFlowLow a1 a2 a3 a4 = .next t ∧ Keeps s0 t := ⟨_, rfl, flowLow_keeps h4⟩

theorem execCoolantFlowRestored_keeps {a1 a2 a3} (h3 : Keeps s0 a3) :
    ∃ t, execCoolantFlowRestored a1 a2 a3 = .next t ∧ Keeps s0 t := ⟨_, rfl, flowRestored_keeps h3⟩

theorem execGateTimer_keeps {a1 a2 a3} (h3 : Keeps s0 a3) :
    ∃ t, execGateTimer a1 a2 a3 = .next t ∧ Keeps s0 t := ⟨_, rfl, gateTimer_keeps (State.tick_keeps h3)⟩

theorem execRetainTimer_keeps {a1 a2 a3} (h3 : Keeps s0 a3) :
    ∃ t, execRetainTimer a1 a2 a3 = .next t ∧ Keeps s0 t := ⟨_, rfl, retainTimer_keeps (State.tick_keeps h3)⟩

theorem execDieWake_keeps {a1 a2 a3} (h3 : Keeps s0 a3) :
    ∃ t, execDieWake a1 a2 a3 = .next t ∧ Keeps s0 t := ⟨_, rfl, wakeDie_keeps (State.tick_keeps h3)⟩

theorem execDieBlockEnWrite_keeps {a1 a2 a3 a4} (h4 : Keeps s0 a4) :
    ∃ t, execDieBlockEnWrite a1 a2 a3 a4 = .next t ∧ Keeps s0 t := ⟨_, rfl, blockWrite_keeps h4⟩

theorem execSupplyLow_keeps {a1 a2 a3} (h3 : Keeps s0 a3) :
    ∃ t, execSupplyLow a1 a2 a3 = .next t ∧ Keeps s0 t := ⟨_, rfl, supplyLow_keeps (State.tick_keeps h3)⟩

theorem execSupplyHigh_keeps {a1 a2 a3} (h3 : Keeps s0 a3) :
    ∃ t, execSupplyHigh a1 a2 a3 = .next t ∧ Keeps s0 t := ⟨_, rfl, supplyHigh_keeps (State.tick_keeps h3)⟩

theorem execCastOn_keeps {a1 a2} (h2 : Keeps s0 a2) :
    ∃ t, execCastOn a1 a2 = .next t ∧ Keeps s0 t := ⟨_, rfl, castOn_keeps (State.tick_keeps h2)⟩

theorem execRefclkLock_keeps {a1 a2} (h2 : Keeps s0 a2) :
    ∃ t, execRefclkLock a1 a2 = .next t ∧ Keeps s0 t := ⟨_, rfl, refclkLock_keeps h2⟩

theorem execRowIssue_keeps {a1 a2 a3 a4} (h4 : Keeps s0 a4) :
    ∃ t, execRowIssue a1 a2 a3 a4 = .next t ∧ Keeps s0 t := ⟨_, rfl, settle_keeps (rowIssue_keeps h4)⟩

theorem execStallRelease_keeps {a1 a2} (h2 : Keeps s0 a2) :
    ∃ t, execStallRelease a1 a2 = .next t ∧ Keeps s0 t := ⟨_, rfl, settle_keeps (stallRelease_keeps h2)⟩

theorem execStitchOverrun_keeps {a1 a2} (h2 : Keeps s0 a2) :
    ∃ t, execStitchOverrun a1 a2 = .next t ∧ Keeps s0 t := ⟨_, rfl, settle_keeps (stitchOverrun_keeps h2)⟩

theorem execWait_keeps {a1 a2 a3 a4} (h4 : Keeps s0 a4) :
    ∃ t, execWait a1 a2 a3 a4 = .next t ∧ Keeps s0 t := ⟨_, rfl, settle_keeps (waitSlot_keeps (State.tick_keeps h4))⟩

theorem execWaitClear_keeps {a1 a2 a3 a4} (h4 : Keeps s0 a4) :
    ∃ t, execWaitClear a1 a2 a3 a4 = .next t ∧ Keeps s0 t := ⟨_, rfl, settle_keeps (waitSlot_keeps (State.tick_keeps
        h4))⟩

theorem execWaitSatisfied_keeps {a1 a2} (h2 : Keeps s0 a2) :
    ∃ t, execWaitSatisfied a1 a2 = .next t ∧ Keeps s0 t := ⟨_, rfl, settle_keeps (waitFailed_keeps
        (waitSatisfied_keeps h2))⟩

theorem execWaitTimeout_keeps {a1 a2 a3} (h3 : Keeps s0 a3) :
    ∃ t, execWaitTimeout a1 a2 a3 = .next t ∧ Keeps s0 t := ⟨_, rfl, settle_keeps (waitTimeout_keeps
        (State.tick_keeps h3))⟩

theorem execStreamComplete_keeps {a1 a2} (h2 : Keeps s0 a2) :
    ∃ t, execStreamComplete a1 a2 = .next t ∧ Keeps s0 t := ⟨_, rfl, settle_keeps (streamComplete_keeps h2)⟩

theorem execLoop_keeps {a1 a2 a3} (h3 : Keeps s0 a3) :
    ∃ t, execLoop a1 a2 a3 = .next t ∧ Keeps s0 t := ⟨_, rfl, settle_keeps (ctlRow_keeps h3)⟩

theorem execTrap_keeps {a1 a2 a3} (h3 : Keeps s0 a3) :
    ∃ t, execTrap a1 a2 a3 = .next t ∧ Keeps s0 t := ⟨_, rfl, settle_keeps (ctlRow_keeps h3)⟩

theorem execPass_keeps {a1 a2 a3 a4 a5} (h5 : Keeps s0 a5) :
    ∃ t, execPass a1 a2 a3 a4 a5 = .next t ∧ Keeps s0 t := ⟨_, rfl, settle_keeps (passRow_keeps h5)⟩

theorem execPassChain_keeps {a1 a2 a3 a4 a5} (h5 : Keeps s0 a5) :
    ∃ t, execPassChain a1 a2 a3 a4 a5 = .next t ∧ Keeps s0 t := ⟨_, rfl, settle_keeps (passRow_keeps h5)⟩

theorem execArrayResultWrite_keeps {a1 a2 a3 a4 a5 a6} (h6 : Keeps s0 a6) :
    ∃ t, execArrayResultWrite a1 a2 a3 a4 a5 a6 = .next t ∧ Keeps s0 t := ⟨_, rfl, settle_keeps (resultWrite_keeps
        h6)⟩

theorem execSwatchThirdExecution_keeps {a1 a2} (h2 : Keeps s0 a2) :
    ∃ t, execSwatchThirdExecution a1 a2 = .next t ∧ Keeps s0 t := ⟨_, rfl, settle_keeps (thirdExecution_keeps h2)⟩

theorem execSwatchDecide_keeps {a1 a2 a3 a4 a5 a6} (h6 : Keeps s0 a6) :
    ∃ t, execSwatchDecide a1 a2 a3 a4 a5 a6 = .next t ∧ Keeps s0 t := ⟨_, rfl, settle_keeps (dropUnplaceable_keeps
        (swatchDecide_keeps h6))⟩

theorem execSwatchReplay_keeps {a1 a2} (h2 : Keeps s0 a2) :
    ∃ t, execSwatchReplay a1 a2 = .next t ∧ Keeps s0 t := ⟨_, rfl, settle_keeps (swatchReplay_keeps h2)⟩

theorem execLoad_keeps {a1 a2 a3 a4 a5} (h5 : Keeps s0 a5) :
    ∃ t, execLoad a1 a2 a3 a4 a5 = .next t ∧ Keeps s0 t := ⟨_, rfl, settle_keeps (vecMemRow_keeps h5)⟩

theorem execStore_keeps {a1 a2 a3 a4} (h4 : Keeps s0 a4) :
    ∃ t, execStore a1 a2 a3 a4 = .next t ∧ Keeps s0 t := ⟨_, rfl, settle_keeps (vecMemRow_keeps h4)⟩

theorem execLoadp_keeps {a1 a2 a3 a4 a5} (h5 : Keeps s0 a5) :
    ∃ t, execLoadp a1 a2 a3 a4 a5 = .next t ∧ Keeps s0 t := ⟨_, rfl, settle_keeps (vecMemRow_keeps h5)⟩

theorem execStorep_keeps {a1 a2 a3 a4} (h4 : Keeps s0 a4) :
    ∃ t, execStorep a1 a2 a3 a4 = .next t ∧ Keeps s0 t := ⟨_, rfl, settle_keeps (vecMemRow_keeps h4)⟩

theorem execConvert_keeps {a1 a2 a3 a4} (h4 : Keeps s0 a4) :
    ∃ t, execConvert a1 a2 a3 a4 = .next t ∧ Keeps s0 t := ⟨_, rfl, settle_keeps (vecMemRow_keeps h4)⟩

theorem execVectorRetire_keeps {a1 a2 a3 a4 a5} (h5 : Keeps s0 a5) :
    ∃ t, execVectorRetire a1 a2 a3 a4 a5 = .next t ∧ Keeps s0 t := ⟨_, rfl, settle_keeps (vectorRetire_keeps h5)⟩

theorem execCopy_keeps {a1 a2 a3 a4} (h4 : Keeps s0 a4) :
    ∃ t, execCopy a1 a2 a3 a4 = .next t ∧ Keeps s0 t := ⟨_, rfl, settle_keeps (moveRow_keeps h4)⟩

theorem execFill_keeps {a1 a2 a3 a4} (h4 : Keeps s0 a4) :
    ∃ t, execFill a1 a2 a3 a4 = .next t ∧ Keeps s0 t := ⟨_, rfl, settle_keeps (moveRow_keeps h4)⟩

theorem execPrefetch_keeps {a1 a2 a3 a4} (h4 : Keeps s0 a4) :
    ∃ t, execPrefetch a1 a2 a3 a4 = .next t ∧ Keeps s0 t := ⟨_, rfl, settle_keeps (moveRow_keeps h4)⟩

theorem execPageFetchComplete_keeps {a1 a2 a3 a4 a5} (h5 : Keeps s0 a5) :
    ∃ t, execPageFetchComplete a1 a2 a3 a4 a5 = .next t ∧ Keeps s0 t := ⟨_, rfl, settle_keeps (fetchEnd_keeps
        (State.tick_keeps h5))⟩

theorem execWritebackComplete_keeps {a1 a2 a3 a4} (h4 : Keeps s0 a4) :
    ∃ t, execWritebackComplete a1 a2 a3 a4 = .next t ∧ Keeps s0 t := ⟨_, rfl, settle_keeps (writebackEnd_keeps h4)⟩

theorem execTierDeadline_keeps {a1 a2 a3} (h3 : Keeps s0 a3) :
    ∃ t, execTierDeadline a1 a2 a3 = .next t ∧ Keeps s0 t := ⟨_, rfl, settle_keeps (tierDeadline_keeps
        (State.tick_keeps h3))⟩

theorem execPlaceTask_keeps {a1 a2 a3} (h3 : Keeps s0 a3) :
    ∃ t, execPlaceTask a1 a2 a3 = .next t ∧ Keeps s0 t := ⟨_, rfl, settle_keeps (placeTask_keeps h3)⟩

theorem execResumeStream_keeps {a1 a2 a3} (h3 : Keeps s0 a3) :
    ∃ t, execResumeStream a1 a2 a3 = .next t ∧ Keeps s0 t := ⟨_, rfl, settle_keeps (resumeStream_keeps h3)⟩

theorem execBatchAssemble_keeps {a1 a2} (h2 : Keeps s0 a2) :
    ∃ t, execBatchAssemble a1 a2 = .next t ∧ Keeps s0 t := ⟨_, rfl, settle_keeps (batchAssemble_keeps h2)⟩

theorem execServingStepComplete_keeps {a1 a2} (h2 : Keeps s0 a2) :
    ∃ t, execServingStepComplete a1 a2 = .next t ∧ Keeps s0 t := ⟨_, rfl, settle_keeps (feedScans_keeps
        (servingStepComplete_keeps h2))⟩

theorem execChunkStepComplete_keeps {a1 a2 a3} (h3 : Keeps s0 a3) :
    ∃ t, execChunkStepComplete a1 a2 a3 = .next t ∧ Keeps s0 t := ⟨_, rfl, settle_keeps (chunkComplete_keeps h3)⟩

theorem execStepLate_keeps {a1 a2 a3 a4} (h4 : Keeps s0 a4) :
    ∃ t, execStepLate a1 a2 a3 a4 = .next t ∧ Keeps s0 t := ⟨_, rfl, settle_keeps (stepLate_keeps (State.tick_keeps
        h4))⟩

theorem execStoMap_keeps {a1 a2} (h2 : Keeps s0 a2) :
    ∃ t, execStoMap a1 a2 = .next t ∧ Keeps s0 t := ⟨_, rfl, settle_keeps (deliver_keeps h2)⟩

theorem execStoUnmap_keeps {a1 a2} (h2 : Keeps s0 a2) :
    ∃ t, execStoUnmap a1 a2 = .next t ∧ Keeps s0 t := ⟨_, rfl, settle_keeps (deliver_keeps h2)⟩

theorem execStoPin_keeps {a1 a2} (h2 : Keeps s0 a2) :
    ∃ t, execStoPin a1 a2 = .next t ∧ Keeps s0 t := ⟨_, rfl, settle_keeps (deliver_keeps h2)⟩

theorem execStoUnpin_keeps {a1 a2} (h2 : Keeps s0 a2) :
    ∃ t, execStoUnpin a1 a2 = .next t ∧ Keeps s0 t := ⟨_, rfl, settle_keeps (deliver_keeps h2)⟩

theorem execStoRead_keeps {a1 a2} (h2 : Keeps s0 a2) :
    ∃ t, execStoRead a1 a2 = .next t ∧ Keeps s0 t := ⟨_, rfl, settle_keeps (deliver_keeps h2)⟩

theorem execStoWrite_keeps {a1 a2} (h2 : Keeps s0 a2) :
    ∃ t, execStoWrite a1 a2 = .next t ∧ Keeps s0 t := ⟨_, rfl, settle_keeps (deliver_keeps h2)⟩

theorem execStoDiscard_keeps {a1 a2} (h2 : Keeps s0 a2) :
    ∃ t, execStoDiscard a1 a2 = .next t ∧ Keeps s0 t := ⟨_, rfl, settle_keeps (deliver_keeps h2)⟩

theorem execStoQuery_keeps {a1 a2} (h2 : Keeps s0 a2) :
    ∃ t, execStoQuery a1 a2 = .next t ∧ Keeps s0 t := ⟨_, rfl, settle_keeps (deliver_keeps h2)⟩

theorem execStoSetPolicy_keeps {a1 a2} (h2 : Keeps s0 a2) :
    ∃ t, execStoSetPolicy a1 a2 = .next t ∧ Keeps s0 t := ⟨_, rfl, settle_keeps (deliver_keeps h2)⟩

theorem execPrgLoad_keeps {a1 a2} (h2 : Keeps s0 a2) :
    ∃ t, execPrgLoad a1 a2 = .next t ∧ Keeps s0 t := ⟨_, rfl, settle_keeps (deliver_keeps h2)⟩

theorem execPrgRun_keeps {a1 a2} (h2 : Keeps s0 a2) :
    ∃ t, execPrgRun a1 a2 = .next t ∧ Keeps s0 t := ⟨_, rfl, settle_keeps (deliver_keeps h2)⟩

theorem execPrgUnload_keeps {a1 a2} (h2 : Keeps s0 a2) :
    ∃ t, execPrgUnload a1 a2 = .next t ∧ Keeps s0 t := ⟨_, rfl, settle_keeps (deliver_keeps h2)⟩

theorem execShdCreate_keeps {a1 a2} (h2 : Keeps s0 a2) :
    ∃ t, execShdCreate a1 a2 = .next t ∧ Keeps s0 t := ⟨_, rfl, settle_keeps (deliver_keeps h2)⟩

theorem execShdDelete_keeps {a1 a2} (h2 : Keeps s0 a2) :
    ∃ t, execShdDelete a1 a2 = .next t ∧ Keeps s0 t := ⟨_, rfl, settle_keeps (deliver_keeps h2)⟩

theorem execShdSetGroups_keeps {a1 a2} (h2 : Keeps s0 a2) :
    ∃ t, execShdSetGroups a1 a2 = .next t ∧ Keeps s0 t := ⟨_, rfl, settle_keeps (deliver_keeps h2)⟩

theorem execShdSetCurve_keeps {a1 a2} (h2 : Keeps s0 a2) :
    ∃ t, execShdSetCurve a1 a2 = .next t ∧ Keeps s0 t := ⟨_, rfl, settle_keeps (deliver_keeps h2)⟩

theorem execShdImport_keeps {a1 a2} (h2 : Keeps s0 a2) :
    ∃ t, execShdImport a1 a2 = .next t ∧ Keeps s0 t := ⟨_, rfl, settle_keeps (deliver_keeps h2)⟩

theorem execShdExport_keeps {a1 a2} (h2 : Keeps s0 a2) :
    ∃ t, execShdExport a1 a2 = .next t ∧ Keeps s0 t := ⟨_, rfl, settle_keeps (deliver_keeps h2)⟩

theorem execShdPushGrad_keeps {a1 a2} (h2 : Keeps s0 a2) :
    ∃ t, execShdPushGrad a1 a2 = .next t ∧ Keeps s0 t := ⟨_, rfl, settle_keeps (deliver_keeps h2)⟩

theorem execShdCloseStepAbandon_keeps {a1 a2} (h2 : Keeps s0 a2) :
    ∃ t, execShdCloseStepAbandon a1 a2 = .next t ∧ Keeps s0 t := ⟨_, rfl, settle_keeps (deliver_keeps h2)⟩

theorem execShdCloseStepPartial_keeps {a1 a2} (h2 : Keeps s0 a2) :
    ∃ t, execShdCloseStepPartial a1 a2 = .next t ∧ Keeps s0 t := ⟨_, rfl, settle_keeps (deliver_keeps h2)⟩

theorem execShdStepStatus_keeps {a1 a2} (h2 : Keeps s0 a2) :
    ∃ t, execShdStepStatus a1 a2 = .next t ∧ Keeps s0 t := ⟨_, rfl, settle_keeps (deliver_keeps h2)⟩

theorem execShdReadWeights_keeps {a1 a2} (h2 : Keeps s0 a2) :
    ∃ t, execShdReadWeights a1 a2 = .next t ∧ Keeps s0 t := ⟨_, rfl, settle_keeps (deliver_keeps h2)⟩

theorem execParCreate_keeps {a1 a2} (h2 : Keeps s0 a2) :
    ∃ t, execParCreate a1 a2 = .next t ∧ Keeps s0 t := ⟨_, rfl, settle_keeps (deliver_keeps h2)⟩

theorem execParDelete_keeps {a1 a2} (h2 : Keeps s0 a2) :
    ∃ t, execParDelete a1 a2 = .next t ∧ Keeps s0 t := ⟨_, rfl, settle_keeps (deliver_keeps h2)⟩

theorem execParSetShares_keeps {a1 a2} (h2 : Keeps s0 a2) :
    ∃ t, execParSetShares a1 a2 = .next t ∧ Keeps s0 t := ⟨_, rfl, settle_keeps (deliver_keeps h2)⟩

theorem execParSetSwatch_keeps {a1 a2} (h2 : Keeps s0 a2) :
    ∃ t, execParSetSwatch a1 a2 = .next t ∧ Keeps s0 t := ⟨_, rfl, settle_keeps (deliver_keeps h2)⟩

theorem execParQuery_keeps {a1 a2} (h2 : Keeps s0 a2) :
    ∃ t, execParQuery a1 a2 = .next t ∧ Keeps s0 t := ⟨_, rfl, settle_keeps (deliver_keeps h2)⟩

theorem execCtxCreate_keeps {a1 a2} (h2 : Keeps s0 a2) :
    ∃ t, execCtxCreate a1 a2 = .next t ∧ Keeps s0 t := ⟨_, rfl, settle_keeps (deliver_keeps h2)⟩

theorem execCtxDelete_keeps {a1 a2} (h2 : Keeps s0 a2) :
    ∃ t, execCtxDelete a1 a2 = .next t ∧ Keeps s0 t := ⟨_, rfl, settle_keeps (deliver_keeps h2)⟩

theorem execCtxSet_keeps {a1 a2} (h2 : Keeps s0 a2) :
    ∃ t, execCtxSet a1 a2 = .next t ∧ Keeps s0 t := ⟨_, rfl, settle_keeps (deliver_keeps h2)⟩

theorem execCtxCounters_keeps {a1 a2} (h2 : Keeps s0 a2) :
    ∃ t, execCtxCounters a1 a2 = .next t ∧ Keeps s0 t := ⟨_, rfl, settle_keeps (deliver_keeps h2)⟩

theorem execCtxQuery_keeps {a1 a2} (h2 : Keeps s0 a2) :
    ∃ t, execCtxQuery a1 a2 = .next t ∧ Keeps s0 t := ⟨_, rfl, settle_keeps (deliver_keeps h2)⟩

theorem execSrvOpen_keeps {a1 a2} (h2 : Keeps s0 a2) :
    ∃ t, execSrvOpen a1 a2 = .next t ∧ Keeps s0 t := ⟨_, rfl, settle_keeps (deliver_keeps h2)⟩

theorem execSrvSubmit_keeps {a1 a2} (h2 : Keeps s0 a2) :
    ∃ t, execSrvSubmit a1 a2 = .next t ∧ Keeps s0 t := ⟨_, rfl, settle_keeps (deliver_keeps h2)⟩

theorem execSrvCancel_keeps {a1 a2} (h2 : Keeps s0 a2) :
    ∃ t, execSrvCancel a1 a2 = .next t ∧ Keeps s0 t := ⟨_, rfl, settle_keeps (deliver_keeps h2)⟩

theorem execSrvClose_keeps {a1 a2} (h2 : Keeps s0 a2) :
    ∃ t, execSrvClose a1 a2 = .next t ∧ Keeps s0 t := ⟨_, rfl, settle_keeps (deliver_keeps h2)⟩

theorem execColCreate_keeps {a1 a2} (h2 : Keeps s0 a2) :
    ∃ t, execColCreate a1 a2 = .next t ∧ Keeps s0 t := ⟨_, rfl, settle_keeps (deliver_keeps h2)⟩

theorem execColDelete_keeps {a1 a2} (h2 : Keeps s0 a2) :
    ∃ t, execColDelete a1 a2 = .next t ∧ Keeps s0 t := ⟨_, rfl, settle_keeps (deliver_keeps h2)⟩

theorem execColSetCodebook_keeps {a1 a2} (h2 : Keeps s0 a2) :
    ∃ t, execColSetCodebook a1 a2 = .next t ∧ Keeps s0 t := ⟨_, rfl, settle_keeps (deliver_keeps h2)⟩

theorem execColSetParcels_keeps {a1 a2} (h2 : Keeps s0 a2) :
    ∃ t, execColSetParcels a1 a2 = .next t ∧ Keeps s0 t := ⟨_, rfl, settle_keeps (deliver_keeps h2)⟩

theorem execColInsert_keeps {a1 a2} (h2 : Keeps s0 a2) :
    ∃ t, execColInsert a1 a2 = .next t ∧ Keeps s0 t := ⟨_, rfl, settle_keeps (deliver_keeps h2)⟩

theorem execColRemove_keeps {a1 a2} (h2 : Keeps s0 a2) :
    ∃ t, execColRemove a1 a2 = .next t ∧ Keeps s0 t := ⟨_, rfl, settle_keeps (deliver_keeps h2)⟩

theorem execColPublish_keeps {a1 a2} (h2 : Keeps s0 a2) :
    ∃ t, execColPublish a1 a2 = .next t ∧ Keeps s0 t := ⟨_, rfl, settle_keeps (deliver_keeps h2)⟩

theorem execColQuery_keeps {a1 a2} (h2 : Keeps s0 a2) :
    ∃ t, execColQuery a1 a2 = .next t ∧ Keeps s0 t := ⟨_, rfl, settle_keeps (deliver_keeps h2)⟩

theorem execColFetch_keeps {a1 a2} (h2 : Keeps s0 a2) :
    ∃ t, execColFetch a1 a2 = .next t ∧ Keeps s0 t := ⟨_, rfl, settle_keeps (deliver_keeps h2)⟩

theorem execColCompact_keeps {a1 a2} (h2 : Keeps s0 a2) :
    ∃ t, execColCompact a1 a2 = .next t ∧ Keeps s0 t := ⟨_, rfl, settle_keeps (deliver_keeps h2)⟩

theorem execColStatus_keeps {a1 a2} (h2 : Keeps s0 a2) :
    ∃ t, execColStatus a1 a2 = .next t ∧ Keeps s0 t := ⟨_, rfl, settle_keeps (deliver_keeps h2)⟩

theorem execScnRun_keeps {a1 a2} (h2 : Keeps s0 a2) :
    ∃ t, execScnRun a1 a2 = .next t ∧ Keeps s0 t := ⟨_, rfl, settle_keeps (deliver_keeps h2)⟩

theorem execScnCancel_keeps {a1 a2} (h2 : Keeps s0 a2) :
    ∃ t, execScnCancel a1 a2 = .next t ∧ Keeps s0 t := ⟨_, rfl, settle_keeps (deliver_keeps h2)⟩

theorem execScnStatus_keeps {a1 a2} (h2 : Keeps s0 a2) :
    ∃ t, execScnStatus a1 a2 = .next t ∧ Keeps s0 t := ⟨_, rfl, settle_keeps (deliver_keeps h2)⟩

theorem execScnCredit_keeps {a1 a2} (h2 : Keeps s0 a2) :
    ∃ t, execScnCredit a1 a2 = .next t ∧ Keeps s0 t := ⟨_, rfl, settle_keeps (deliver_keeps h2)⟩

theorem execVolCreate_keeps {a1 a2} (h2 : Keeps s0 a2) :
    ∃ t, execVolCreate a1 a2 = .next t ∧ Keeps s0 t := ⟨_, rfl, settle_keeps (deliver_keeps h2)⟩

theorem execVolDelete_keeps {a1 a2} (h2 : Keeps s0 a2) :
    ∃ t, execVolDelete a1 a2 = .next t ∧ Keeps s0 t := ⟨_, rfl, settle_keeps (deliver_keeps h2)⟩

theorem execVolQuery_keeps {a1 a2} (h2 : Keeps s0 a2) :
    ∃ t, execVolQuery a1 a2 = .next t ∧ Keeps s0 t := ⟨_, rfl, settle_keeps (deliver_keeps h2)⟩

theorem execVolDiscard_keeps {a1 a2} (h2 : Keeps s0 a2) :
    ∃ t, execVolDiscard a1 a2 = .next t ∧ Keeps s0 t := ⟨_, rfl, settle_keeps (deliver_keeps h2)⟩

theorem execVolFlush_keeps {a1 a2} (h2 : Keeps s0 a2) :
    ∃ t, execVolFlush a1 a2 = .next t ∧ Keeps s0 t := ⟨_, rfl, settle_keeps (deliver_keeps h2)⟩

theorem execVolRead_keeps {a1 a2} (h2 : Keeps s0 a2) :
    ∃ t, execVolRead a1 a2 = .next t ∧ Keeps s0 t := ⟨_, rfl, settle_keeps (deliver_keeps h2)⟩

theorem execVolWrite_keeps {a1 a2} (h2 : Keeps s0 a2) :
    ∃ t, execVolWrite a1 a2 = .next t ∧ Keeps s0 t := ⟨_, rfl, settle_keeps (deliver_keeps h2)⟩

theorem execLseAcquire_keeps {a1 a2} (h2 : Keeps s0 a2) :
    ∃ t, execLseAcquire a1 a2 = .next t ∧ Keeps s0 t := ⟨_, rfl, settle_keeps (deliver_keeps h2)⟩

theorem execLseRelease_keeps {a1 a2} (h2 : Keeps s0 a2) :
    ∃ t, execLseRelease a1 a2 = .next t ∧ Keeps s0 t := ⟨_, rfl, settle_keeps (deliver_keeps h2)⟩

theorem execLseRead_keeps {a1 a2} (h2 : Keeps s0 a2) :
    ∃ t, execLseRead a1 a2 = .next t ∧ Keeps s0 t := ⟨_, rfl, settle_keeps (deliver_keeps h2)⟩

theorem execMedWearLog_keeps {a1 a2} (h2 : Keeps s0 a2) :
    ∃ t, execMedWearLog a1 a2 = .next t ∧ Keeps s0 t := ⟨_, rfl, settle_keeps (deliver_keeps h2)⟩

theorem execMedSetPolicy_keeps {a1 a2} (h2 : Keeps s0 a2) :
    ∃ t, execMedSetPolicy a1 a2 = .next t ∧ Keeps s0 t := ⟨_, rfl, settle_keeps (deliver_keeps h2)⟩

theorem execMedFormat_keeps {a1 a2} (h2 : Keeps s0 a2) :
    ∃ t, execMedFormat a1 a2 = .next t ∧ Keeps s0 t := ⟨_, rfl, settle_keeps (deliver_keeps h2)⟩

theorem execLnkQuery_keeps {a1 a2} (h2 : Keeps s0 a2) :
    ∃ t, execLnkQuery a1 a2 = .next t ∧ Keeps s0 t := ⟨_, rfl, settle_keeps (deliver_keeps h2)⟩

theorem execLnkCounters_keeps {a1 a2} (h2 : Keeps s0 a2) :
    ∃ t, execLnkCounters a1 a2 = .next t ∧ Keeps s0 t := ⟨_, rfl, settle_keeps (deliver_keeps h2)⟩

theorem execLnkSetPolicy_keeps {a1 a2} (h2 : Keeps s0 a2) :
    ∃ t, execLnkSetPolicy a1 a2 = .next t ∧ Keeps s0 t := ⟨_, rfl, settle_keeps (deliver_keeps h2)⟩

theorem execLnkSetRoute_keeps {a1 a2} (h2 : Keeps s0 a2) :
    ∃ t, execLnkSetRoute a1 a2 = .next t ∧ Keeps s0 t := ⟨_, rfl, settle_keeps (deliver_keeps h2)⟩

theorem execLnkSetKey_keeps {a1 a2} (h2 : Keeps s0 a2) :
    ∃ t, execLnkSetKey a1 a2 = .next t ∧ Keeps s0 t := ⟨_, rfl, settle_keeps (deliver_keeps h2)⟩

theorem execLnkEnable_keeps {a1 a2} (h2 : Keeps s0 a2) :
    ∃ t, execLnkEnable a1 a2 = .next t ∧ Keeps s0 t := ⟨_, rfl, settle_keeps (deliver_keeps h2)⟩

theorem execLnkDisable_keeps {a1 a2} (h2 : Keeps s0 a2) :
    ∃ t, execLnkDisable a1 a2 = .next t ∧ Keeps s0 t := ⟨_, rfl, settle_keeps (deliver_keeps h2)⟩

theorem execLnkFastTraining_keeps {a1 a2} (h2 : Keeps s0 a2) :
    ∃ t, execLnkFastTraining a1 a2 = .next t ∧ Keeps s0 t := ⟨_, rfl, settle_keeps (deliver_keeps h2)⟩

theorem execLnkFullTraining_keeps {a1 a2} (h2 : Keeps s0 a2) :
    ∃ t, execLnkFullTraining a1 a2 = .next t ∧ Keeps s0 t := ⟨_, rfl, settle_keeps (deliver_keeps h2)⟩

theorem execLnkReleaseQuarantine_keeps {a1 a2} (h2 : Keeps s0 a2) :
    ∃ t, execLnkReleaseQuarantine a1 a2 = .next t ∧ Keeps s0 t := ⟨_, rfl, settle_keeps (deliver_keeps h2)⟩

theorem execGrpLookup_keeps {a1 a2} (h2 : Keeps s0 a2) :
    ∃ t, execGrpLookup a1 a2 = .next t ∧ Keeps s0 t := ⟨_, rfl, settle_keeps (deliver_keeps h2)⟩

theorem execGrpSet_keeps {a1 a2} (h2 : Keeps s0 a2) :
    ∃ t, execGrpSet a1 a2 = .next t ∧ Keeps s0 t := ⟨_, rfl, settle_keeps (deliver_keeps h2)⟩

theorem execGrpDump_keeps {a1 a2} (h2 : Keeps s0 a2) :
    ∃ t, execGrpDump a1 a2 = .next t ∧ Keeps s0 t := ⟨_, rfl, settle_keeps (deliver_keeps h2)⟩

theorem execGrpQuery_keeps {a1 a2} (h2 : Keeps s0 a2) :
    ∃ t, execGrpQuery a1 a2 = .next t ∧ Keeps s0 t := ⟨_, rfl, settle_keeps (deliver_keeps h2)⟩

theorem execMgtIdentify_keeps {a1 a2} (h2 : Keeps s0 a2) :
    ∃ t, execMgtIdentify a1 a2 = .next t ∧ Keeps s0 t := ⟨_, rfl, settle_keeps (deliver_keeps h2)⟩

theorem execMgtLogRead_keeps {a1 a2} (h2 : Keeps s0 a2) :
    ∃ t, execMgtLogRead a1 a2 = .next t ∧ Keeps s0 t := ⟨_, rfl, settle_keeps (deliver_keeps h2)⟩

theorem execFwStage_keeps {a1 a2} (h2 : Keeps s0 a2) :
    ∃ t, execFwStage a1 a2 = .next t ∧ Keeps s0 t := ⟨_, rfl, settle_keeps (deliver_keeps h2)⟩

theorem execFwCommit_keeps {a1 a2} (h2 : Keeps s0 a2) :
    ∃ t, execFwCommit a1 a2 = .next t ∧ Keeps s0 t := ⟨_, rfl, settle_keeps (deliver_keeps h2)⟩

theorem execFwAbort_keeps {a1 a2} (h2 : Keeps s0 a2) :
    ∃ t, execFwAbort a1 a2 = .next t ∧ Keeps s0 t := ⟨_, rfl, settle_keeps (deliver_keeps h2)⟩

theorem execFwQuery_keeps {a1 a2} (h2 : Keeps s0 a2) :
    ∃ t, execFwQuery a1 a2 = .next t ∧ Keeps s0 t := ⟨_, rfl, settle_keeps (deliver_keeps h2)⟩

theorem execCfgRead_keeps {a1 a2} (h2 : Keeps s0 a2) :
    ∃ t, execCfgRead a1 a2 = .next t ∧ Keeps s0 t := ⟨_, rfl, settle_keeps (deliver_keeps h2)⟩

theorem execCfgWrite_keeps {a1 a2} (h2 : Keeps s0 a2) :
    ∃ t, execCfgWrite a1 a2 = .next t ∧ Keeps s0 t := ⟨_, rfl, settle_keeps (deliver_keeps h2)⟩

theorem execCfgSelect_keeps {a1 a2} (h2 : Keeps s0 a2) :
    ∃ t, execCfgSelect a1 a2 = .next t ∧ Keeps s0 t := ⟨_, rfl, settle_keeps (deliver_keeps h2)⟩

theorem execCfgSetAccess_keeps {a1 a2} (h2 : Keeps s0 a2) :
    ∃ t, execCfgSetAccess a1 a2 = .next t ∧ Keeps s0 t := ⟨_, rfl, settle_keeps (deliver_keeps h2)⟩

theorem execSecOtpWrite_keeps {a1 a2} (h2 : Keeps s0 a2) :
    ∃ t, execSecOtpWrite a1 a2 = .next t ∧ Keeps s0 t := ⟨_, rfl, settle_keeps (deliver_keeps h2)⟩

theorem execErrQuery_keeps {a1 a2} (h2 : Keeps s0 a2) :
    ∃ t, execErrQuery a1 a2 = .next t ∧ Keeps s0 t := ⟨_, rfl, settle_keeps (deliver_keeps h2)⟩

theorem execErrInject_keeps {a1 a2} (h2 : Keeps s0 a2) :
    ∃ t, execErrInject a1 a2 = .next t ∧ Keeps s0 t := ⟨_, rfl, settle_keeps (deliver_keeps h2)⟩

theorem execErrSetPolicy_keeps {a1 a2} (h2 : Keeps s0 a2) :
    ∃ t, execErrSetPolicy a1 a2 = .next t ∧ Keeps s0 t := ⟨_, rfl, settle_keeps (deliver_keeps h2)⟩

theorem execErrReinstate_keeps {a1 a2 a3} (h3 : Keeps s0 a3) :
    ∃ t, execErrReinstate a1 a2 a3 = .next t ∧ Keeps s0 t := ⟨_, rfl, settle_keeps (command_keeps (fun _ _ h5 =>
        errReinstateStart_keeps h5) h3)⟩

theorem execErrScan_keeps {a1 a2 a3 a4} (h4 : Keeps s0 a4) :
    ∃ t, execErrScan a1 a2 a3 a4 = .next t ∧ Keeps s0 t := ⟨_, rfl, settle_keeps (command_keeps (fun _ _ h6 =>
        errScanStart_keeps h6) h4)⟩

theorem execRcvResetContext_keeps {a1 a2} (h2 : Keeps s0 a2) :
    ∃ t, execRcvResetContext a1 a2 = .next t ∧ Keeps s0 t := ⟨_, rfl, settle_keeps (deliver_keeps h2)⟩

theorem execRcvResetEngine_keeps {a1 a2} (h2 : Keeps s0 a2) :
    ∃ t, execRcvResetEngine a1 a2 = .next t ∧ Keeps s0 t := ⟨_, rfl, settle_keeps (deliver_keeps h2)⟩

theorem execRcvResetPartition_keeps {a1 a2} (h2 : Keeps s0 a2) :
    ∃ t, execRcvResetPartition a1 a2 = .next t ∧ Keeps s0 t := ⟨_, rfl, settle_keeps (deliver_keeps h2)⟩

theorem execRcvResetModule_keeps {a1 a2} (h2 : Keeps s0 a2) :
    ∃ t, execRcvResetModule a1 a2 = .next t ∧ Keeps s0 t := ⟨_, rfl, settle_keeps (deliver_keeps h2)⟩

theorem execRcvQuery_keeps {a1 a2} (h2 : Keeps s0 a2) :
    ∃ t, execRcvQuery a1 a2 = .next t ∧ Keeps s0 t := ⟨_, rfl, settle_keeps (deliver_keeps h2)⟩

theorem execRcvRelease_keeps {a1 a2} (h2 : Keeps s0 a2) :
    ∃ t, execRcvRelease a1 a2 = .next t ∧ Keeps s0 t := ⟨_, rfl, settle_keeps (deliver_keeps h2)⟩

theorem execRcvDumpRead_keeps {a1 a2} (h2 : Keeps s0 a2) :
    ∃ t, execRcvDumpRead a1 a2 = .next t ∧ Keeps s0 t := ⟨_, rfl, settle_keeps (deliver_keeps h2)⟩

theorem execRcvDump_keeps {a1 a2 a3} (h3 : Keeps s0 a3) :
    ∃ t, execRcvDump a1 a2 a3 = .next t ∧ Keeps s0 t := ⟨_, rfl, settle_keeps (command_keeps (fun _ _ h7 =>
        rcvDumpStart_keeps h7) h3)⟩

theorem execPwrQuery_keeps {a1 a2} (h2 : Keeps s0 a2) :
    ∃ t, execPwrQuery a1 a2 = .next t ∧ Keeps s0 t := ⟨_, rfl, settle_keeps (deliver_keeps h2)⟩

theorem execPwrSetPolicy_keeps {a1 a2} (h2 : Keeps s0 a2) :
    ∃ t, execPwrSetPolicy a1 a2 = .next t ∧ Keeps s0 t := ⟨_, rfl, settle_keeps (deliver_keeps h2)⟩

theorem execPwrSetDieState_keeps {a1 a2} (h2 : Keeps s0 a2) :
    ∃ t, execPwrSetDieState a1 a2 = .next t ∧ Keeps s0 t := ⟨_, rfl, settle_keeps (deliver_keeps h2)⟩

theorem execPwrSetStateOff_keeps {a1 a2} (h2 : Keeps s0 a2) :
    ∃ t, execPwrSetStateOff a1 a2 = .next t ∧ Keeps s0 t := ⟨_, rfl, settle_keeps (deliver_keeps h2)⟩

theorem execPwrSetStateOn_keeps {a1 a2} (h2 : Keeps s0 a2) :
    ∃ t, execPwrSetStateOn a1 a2 = .next t ∧ Keeps s0 t := ⟨_, rfl, settle_keeps (deliver_keeps h2)⟩

theorem execAutoPublish_keeps {a1 a2 a3} (h3 : Keeps s0 a3) :
    ∃ t, execAutoPublish a1 a2 a3 = .next t ∧ Keeps s0 t := ⟨_, rfl, settle_keeps (autoPublish_keeps
        (State.tick_keeps h3))⟩

theorem execParcelScanComplete_keeps {a1 a2 a3 a4} (h4 : Keeps s0 a4) :
    ∃ t, execParcelScanComplete a1 a2 a3 a4 = .next t ∧ Keeps s0 t := ⟨_, rfl, keeps_ite h4 (settle_keeps
        (parcelScanned_keeps h4))⟩

theorem execSurvivorEvaluate_keeps {a1 a2 a3} (h3 : Keeps s0 a3) :
    ∃ t, execSurvivorEvaluate a1 a2 a3 = .next t ∧ Keeps s0 t := ⟨_, rfl, settle_keeps (survivorEvaluated_keeps h3)⟩

theorem execScanPage_keeps {a1 a2 a3 a4} (h4 : Keeps s0 a4) :
    ∃ t, execScanPage a1 a2 a3 a4 = .next t ∧ Keeps s0 t := ⟨_, rfl, keeps_ite h4 (settle_keeps (scanPage_keeps h4))⟩

theorem execSpanComplete_keeps {a1 a2 a3} (h3 : Keeps s0 a3) :
    ∃ t, execSpanComplete a1 a2 a3 = .next t ∧ Keeps s0 t := ⟨_, rfl, settle_keeps (spanComplete_keeps h3)⟩

theorem execScanSequenceFinish_keeps {a1 a2 a3 a4} (h4 : Keeps s0 a4) :
    ∃ t, execScanSequenceFinish a1 a2 a3 a4 = .next t ∧ Keeps s0 t := ⟨_, rfl, settle_keeps (scanSeqFinish_keeps h4)⟩

theorem execScanComplete_keeps {a1 a2} (h2 : Keeps s0 a2) :
    ∃ t, execScanComplete a1 a2 = .next t ∧ Keeps s0 t := ⟨_, rfl, settle_keeps (scanComplete_keeps h2)⟩

theorem execAbsorbDestage_keeps {a1 a2} (h2 : Keeps s0 a2) :
    ∃ t, execAbsorbDestage a1 a2 = .next t ∧ Keeps s0 t := ⟨_, rfl, settle_keeps (absorbDestage_keeps h2)⟩

theorem execLseRecallAck_keeps {a1 a2 a3 a4} (h4 : Keeps s0 a4) :
    ∃ t, execLseRecallAck a1 a2 a3 a4 = .next t ∧ Keeps s0 t := ⟨_, rfl, settle_keeps (recallAck_keeps h4)⟩

theorem execLeaseRecallTimeout_keeps {a1 a2 a3} (h3 : Keeps s0 a3) :
    ∃ t, execLeaseRecallTimeout a1 a2 a3 = .next t ∧ Keeps s0 t := ⟨_, rfl, settle_keeps (recallTimeout_keeps
        (State.tick_keeps h3))⟩

theorem execLeaseExpiry_keeps {a1 a2 a3} (h3 : Keeps s0 a3) :
    ∃ t, execLeaseExpiry a1 a2 a3 = .next t ∧ Keeps s0 t := ⟨_, rfl, settle_keeps (leaseExpiry_keeps
        (State.tick_keeps h3))⟩

theorem execWordlineProgramComplete_keeps {a1 a2 a3 a4} (h4 : Keeps s0 a4) :
    ∃ t, execWordlineProgramComplete a1 a2 a3 a4 = .next t ∧ Keeps s0 t := ⟨_, rfl, settle_keeps (wordlineDone_keeps
        h4)⟩

theorem execBlockEraseComplete_keeps {a1 a2 a3} (h3 : Keeps s0 a3) :
    ∃ t, execBlockEraseComplete a1 a2 a3 = .next t ∧ Keeps s0 t := ⟨_, rfl, settle_keeps (eraseDone_keeps h3)⟩

theorem execHoldupMeasure_keeps {a1 a2 a3} (h3 : Keeps s0 a3) :
    ∃ t, execHoldupMeasure a1 a2 a3 = .next t ∧ Keeps s0 t := ⟨_, rfl, settle_keeps (holdupMeasure_keeps
        (State.tick_keeps h3))⟩

theorem execPayloadFlitReceive_keeps {a1 a2 a3 a4} (h4 : Keeps s0 a4) :
    ∃ t, execPayloadFlitReceive a1 a2 a3 a4 = .next t ∧ Keeps s0 t := ⟨_, rfl, settle_keeps (foldOver_keeps (fun _ _
        h3 => takeUnit_keeps h3) (payloadFlit_keeps h4))⟩

theorem execIdleFlitReceive_keeps {a1 a2 a3} (h3 : Keeps s0 a3) :
    ∃ t, execIdleFlitReceive a1 a2 a3 = .next t ∧ Keeps s0 t := ⟨_, rfl, settle_keeps (idleFlit_keeps h3)⟩

theorem execLaneChange_keeps {a1 a2 a3 a4} (h4 : Keeps s0 a4) :
    ∃ t, execLaneChange a1 a2 a3 a4 = .next t ∧ Keeps s0 t := ⟨_, rfl, settle_keeps (laneChanged_keeps h4)⟩

theorem execLinkDownNotice_keeps {a1 a2} (h2 : Keeps s0 a2) :
    ∃ t, execLinkDownNotice a1 a2 = .next t ∧ Keeps s0 t := ⟨_, rfl, settle_keeps (linkDown_keeps h2)⟩

theorem execReplayTimeout_keeps {a1 a2 a3} (h3 : Keeps s0 a3) :
    ∃ t, execReplayTimeout a1 a2 a3 = .next t ∧ Keeps s0 t := ⟨_, rfl, settle_keeps (replayLate_keeps
        (State.tick_keeps h3))⟩

theorem execLinkIdleTimeout_keeps {a1 a2 a3} (h3 : Keeps s0 a3) :
    ∃ t, execLinkIdleTimeout a1 a2 a3 = .next t ∧ Keeps s0 t := ⟨_, rfl, settle_keeps (linkIdle_keeps
        (State.tick_keeps h3))⟩

theorem execLaserLoss_keeps {a1 a2 a3} (h3 : Keeps s0 a3) :
    ∃ t, execLaserLoss a1 a2 a3 = .next t ∧ Keeps s0 t := ⟨_, rfl, settle_keeps (laserLost_keeps h3)⟩

theorem execRingTrackTick_keeps {a1 a2 a3 a4} (h4 : Keeps s0 a4) :
    ∃ t, execRingTrackTick a1 a2 a3 a4 = .next t ∧ Keeps s0 t := ⟨_, rfl, settle_keeps (ringTrack_keeps h4)⟩

theorem execShedCheck_keeps {a1 a2 a3 a4 a5 a6} (h6 : Keeps s0 a6) :
    ∃ t, execShedCheck a1 a2 a3 a4 a5 a6 = .next t ∧ Keeps s0 t := ⟨_, rfl, settle_keeps (shedMask_keeps
        (State.tick_keeps h6))⟩

theorem execCreditStallTimeout_keeps {a1 a2 a3 a4 a5} (h5 : Keeps s0 a5) :
    ∃ t, execCreditStallTimeout a1 a2 a3 a4 a5 = .next t ∧ Keeps s0 t := ⟨_, rfl, settle_keeps (creditStall_keeps
        (State.tick_keeps h5))⟩

theorem execLinkKeyExhausted_keeps {a1 a2} (h2 : Keeps s0 a2) :
    ∃ t, execLinkKeyExhausted a1 a2 = .next t ∧ Keeps s0 t := ⟨_, rfl, settle_keeps (keyExhausted_keeps h2)⟩

theorem execPackageLinkFail_keeps {a1 a2} (h2 : Keeps s0 a2) :
    ∃ t, execPackageLinkFail a1 a2 = .next t ∧ Keeps s0 t := ⟨_, rfl, settle_keeps (packageLinkFail_keeps h2)⟩

theorem execDataSegmentReceive_keeps {a1 a2 a3 a4 a5 a6 a7} (h7 : Keeps s0 a7) :
    ∃ t, execDataSegmentReceive a1 a2 a3 a4 a5 a6 a7 = .next t ∧ Keeps s0 t := ⟨_, rfl, settle_keeps
        (dataSegment_keeps (State.tick_keeps h7))⟩

theorem execRxGrant_keeps {a1 a2} (h2 : Keeps s0 a2) :
    ∃ t, execRxGrant a1 a2 = .next t ∧ Keeps s0 t := ⟨_, rfl, settle_keeps (rxGrant_keeps h2)⟩

theorem execGrantDataTimeout_keeps {a1 a2 a3} (h3 : Keeps s0 a3) :
    ∃ t, execGrantDataTimeout a1 a2 a3 = .next t ∧ Keeps s0 t := ⟨_, rfl, settle_keeps (grantTimeout_keeps
        (State.tick_keeps h3))⟩

theorem execStrayReplyReceive_keeps {a1 a2 a3} (h3 : Keeps s0 a3) :
    ∃ t, execStrayReplyReceive a1 a2 a3 = .next t ∧ Keeps s0 t := ⟨_, rfl, settle_keeps (strayReply_keeps h3)⟩

theorem execSqEntryTake_keeps {a1 a2 a3} (h3 : Keeps s0 a3) :
    ∃ t, execSqEntryTake a1 a2 a3 = .next t ∧ Keeps s0 t := ⟨_, rfl, settle_keeps (takeEntry_keeps h3)⟩

theorem execRequestDataRead_keeps {a1 a2 a3 a4} (h4 : Keeps s0 a4) :
    ∃ t, execRequestDataRead a1 a2 a3 a4 = .next t ∧ Keeps s0 t := ⟨_, rfl, settle_keeps (requestDataRead_keeps
        (State.tick_keeps h4))⟩

theorem execStructuralScan_keeps {a1 a2 a3 a4} (h4 : Keeps s0 a4) :
    ∃ t, execStructuralScan a1 a2 a3 a4 = .next t ∧ Keeps s0 t := ⟨_, rfl, settle_keeps (scanResult_keeps h4)⟩

theorem execWordRemapped_keeps {a1 a2 a3 a4 a5} (h5 : Keeps s0 a5) :
    ∃ t, execWordRemapped a1 a2 a3 a4 a5 = .next t ∧ Keeps s0 t := ⟨_, rfl, settle_keeps (wordRemapped_keeps h5)⟩

theorem execFrameRetire_keeps {a1 a2 a3 a4} (h4 : Keeps s0 a4) :
    ∃ t, execFrameRetire a1 a2 a3 a4 = .next t ∧ Keeps s0 t := ⟨_, rfl, settle_keeps (frameRetire_keeps h4)⟩

theorem execWatchdog_keeps {a1 a2 a3 a4} (h4 : Keeps s0 a4) :
    ∃ t, execWatchdog a1 a2 a3 a4 = .next t ∧ Keeps s0 t := ⟨_, rfl, settle_keeps (watchdog_keeps (State.tick_keeps
        h4))⟩

theorem execEngineReset_keeps {a1 a2 a3} (h3 : Keeps s0 a3) :
    ∃ t, execEngineReset a1 a2 a3 = .next t ∧ Keeps s0 t := ⟨_, rfl, settle_keeps (engineReset_keeps
        (State.tick_keeps h3))⟩

theorem execEngineReopen_keeps {a1 a2 a3} (h3 : Keeps s0 a3) :
    ∃ t, execEngineReopen a1 a2 a3 = .next t ∧ Keeps s0 t := ⟨_, rfl, settle_keeps (engineReopen_keeps
        (State.tick_keeps h3))⟩

theorem execSuspectReplay_keeps {a1 a2 a3} (h3 : Keeps s0 a3) :
    ∃ t, execSuspectReplay a1 a2 a3 = .next t ∧ Keeps s0 t := ⟨_, rfl, settle_keeps (suspectReplay_keeps h3)⟩

theorem execEscalationTimer_keeps {a1 a2 a3} (h3 : Keeps s0 a3) :
    ∃ t, execEscalationTimer a1 a2 a3 = .next t ∧ Keeps s0 t := ⟨_, rfl, settle_keeps (escalate_keeps
        (State.tick_keeps h3))⟩

theorem execPartitionReset_keeps {a1 a2 a3} (h3 : Keeps s0 a3) :
    ∃ t, execPartitionReset a1 a2 a3 = .next t ∧ Keeps s0 t := ⟨_, rfl, settle_keeps (partitionReset_keeps
        (State.tick_keeps h3))⟩

theorem execBindOffDrainExpiry_keeps {a1 a2 a3 a4} (h4 : Keeps s0 a4) :
    ∃ t, execBindOffDrainExpiry a1 a2 a3 a4 = .next t ∧ Keeps s0 t := ⟨_, rfl, settle_keeps (bindOffDrain_keeps
        (State.tick_keeps h4))⟩

theorem execModuleReset_keeps {a1 a2 a3} (h3 : Keeps s0 a3) :
    ∃ t, execModuleReset a1 a2 a3 = .next t ∧ Keeps s0 t := ⟨_, rfl, settle_keeps (moduleReset_keeps
        (State.tick_keeps h3))⟩

theorem execContextReleaseTimeout_keeps {a1 a2 a3 a4} (h4 : Keeps s0 a4) :
    ∃ t, execContextReleaseTimeout a1 a2 a3 a4 = .next t ∧ Keeps s0 t := ⟨_, rfl, settle_keeps (releaseTimeout_keeps
        (State.tick_keeps h4))⟩

theorem execPwrCycleIgnored_keeps {a1 a2} (h2 : Keeps s0 a2) :
    ∃ t, execPwrCycleIgnored a1 a2 = .next t ∧ Keeps s0 t := ⟨_, rfl, settle_keeps (powerCycleIgnored_keeps
        (State.tick_keeps h2))⟩

theorem execAuxPowerLoss_keeps {a1} (h1 : Keeps s0 a1) :
    ∃ t, execAuxPowerLoss a1 = .next t ∧ Keeps s0 t := ⟨_, rfl, settle_keeps (auxLoss_keeps h1)⟩

theorem execMainPowerFail_keeps {a1 a2 a3} (h3 : Keeps s0 a3) :
    ∃ t, execMainPowerFail a1 a2 a3 = .next t ∧ Keeps s0 t := ⟨_, rfl, settle_keeps (mainFail_keeps h3)⟩

theorem execMainPowerReturn_keeps {a1 a2 a3} (h3 : Keeps s0 a3) :
    ∃ t, execMainPowerReturn a1 a2 a3 = .next t ∧ Keeps s0 t := ⟨_, rfl, settle_keeps (mainReturn_keeps
        (State.tick_keeps h3))⟩

theorem execSupplyOvervoltage_keeps {a1 a2 a3} (h3 : Keeps s0 a3) :
    ∃ t, execSupplyOvervoltage a1 a2 a3 = .next t ∧ Keeps s0 t := ⟨_, rfl, settle_keeps (overVoltage_keeps h3)⟩

theorem execCastOnStepEnd_keeps {a1 a2 a3} (h3 : Keeps s0 a3) :
    ∃ t, execCastOnStepEnd a1 a2 a3 = .next t ∧ Keeps s0 t := ⟨_, rfl, settle_keeps (castStepEnd_keeps
        (State.tick_keeps h3))⟩

theorem execRefclkLost_keeps {a1 a2 a3} (h3 : Keeps s0 a3) :
    ∃ t, execRefclkLost a1 a2 a3 = .next t ∧ Keeps s0 t := ⟨_, rfl, settle_keeps (refclkLost_keeps h3)⟩

theorem execRefclkRestored_keeps {a1 a2} (h2 : Keeps s0 a2) :
    ∃ t, execRefclkRestored a1 a2 = .next t ∧ Keeps s0 t := ⟨_, rfl, settle_keeps (refclkRestored_keeps h2)⟩

theorem execDieWakeComplete_keeps {a1 a2 a3} (h3 : Keeps s0 a3) :
    ∃ t, execDieWakeComplete a1 a2 a3 = .next t ∧ Keeps s0 t := ⟨_, rfl, settle_keeps (wakeComplete_keeps
        (State.tick_keeps h3))⟩

theorem execThermalTrip_keeps {a1 a2 a3} (h3 : Keeps s0 a3) :
    ∃ t, execThermalTrip a1 a2 a3 = .next t ∧ Keeps s0 t := ⟨_, rfl, settle_keeps (thermalTrip_keeps h3)⟩

theorem execCoolantInletShutdown_keeps {a1 a2 a3} (h3 : Keeps s0 a3) :
    ∃ t, execCoolantInletShutdown a1 a2 a3 = .next t ∧ Keeps s0 t := ⟨_, rfl, settle_keeps (inletShutdown_keeps h3)⟩

theorem execShutdownDrainTimeout_keeps {a1 a2} (h2 : Keeps s0 a2) :
    ∃ t, execShutdownDrainTimeout a1 a2 = .next t ∧ Keeps s0 t := ⟨_, rfl, settle_keeps (shutdownTimeout_keeps
        (State.tick_keeps h2))⟩

theorem execFunctionReset_keeps {a1 a2} (h2 : Keeps s0 a2) :
    ∃ t, execFunctionReset a1 a2 = .next t ∧ Keeps s0 t := ⟨_, rfl, settle_keeps (functionReset_keeps h2)⟩

theorem execRegisterWrite_keeps {a1 a2 a3 a4 a5} (h5 : Keeps s0 a5) :
    ∃ t, execRegisterWrite a1 a2 a3 a4 a5 = .next t ∧ Keeps s0 t := by
  unfold execRegisterWrite
  refine ⟨_, rfl, ?_⟩
  refine settle_keeps ?_
  split
  · exact bar0Access_keeps h5
  · exact barWrite_keeps (fun _ _ _ h4 => bar4Write_keeps h4) h5
  · exact windowWrite_keeps h5

theorem execCflOperationComplete_keeps {a1 a2} (h2 : Keeps s0 a2) :
    ∃ t, execCflOperationComplete a1 a2 = .next t ∧ Keeps s0 t := ⟨_, rfl, settle_keeps (cflComplete_keeps h2)⟩

end Sys2Proof.Machine
end

