-- ==== Sys2Proof/Laws/State.lean ====
section
/-! SUPPORT. What the shared operations of Ops change and what they leave as it is, field by field, and what a read of a
numbered unit gives after a change of it. -/

namespace Sys2Proof.Machine

variable (s : State)

/-! ### `State.setDie` -/

@[simp] theorem setDie_pending (d : Nat) (x : Die) : (s.setDie d x).pending = s.pending := rfl
@[simp] theorem setDie_sys (d : Nat) (x : Die) : (s.setDie d x).sys = s.sys := rfl
@[simp] theorem setDie_log (d : Nat) (x : Die) : (s.setDie d x).log = s.log := rfl
@[simp] theorem setDie_host (d : Nat) (x : Die) : (s.setDie d x).host = s.host := rfl
@[simp] theorem setDie_cmds (d : Nat) (x : Die) : (s.setDie d x).cmds = s.cmds := rfl
@[simp] theorem setDie_nextCmd (d : Nat) (x : Die) : (s.setDie d x).nextCmd = s.nextCmd := rfl
@[simp] theorem setDie_tasks (d : Nat) (x : Die) : (s.setDie d x).tasks = s.tasks := rfl
@[simp] theorem setDie_nextTask (d : Nat) (x : Die) : (s.setDie d x).nextTask = s.nextTask := rfl
@[simp] theorem setDie_scanHeld (d : Nat) (x : Die) : (s.setDie d x).scanHeld = s.scanHeld := rfl
@[simp] theorem setDie_programs (d : Nat) (x : Die) : (s.setDie d x).programs = s.programs := rfl
@[simp] theorem setDie_parts (d : Nat) (x : Die) : (s.setDie d x).parts = s.parts := rfl
@[simp] theorem setDie_ctxs (d : Nat) (x : Die) : (s.setDie d x).ctxs = s.ctxs := rfl
@[simp] theorem setDie_endpoints (d : Nat) (x : Die) : (s.setDie d x).endpoints = s.endpoints := rfl
@[simp] theorem setDie_nextEndpoint (d : Nat) (x : Die) : (s.setDie d x).nextEndpoint = s.nextEndpoint := rfl
@[simp] theorem setDie_stores (d : Nat) (x : Die) : (s.setDie d x).stores = s.stores := rfl
@[simp] theorem setDie_shards (d : Nat) (x : Die) : (s.setDie d x).shards = s.shards := rfl
@[simp] theorem setDie_media (d : Nat) (x : Die) : (s.setDie d x).media = s.media := rfl
@[simp] theorem setDie_vols (d : Nat) (x : Die) : (s.setDie d x).vols = s.vols := rfl
@[simp] theorem setDie_leases (d : Nat) (x : Die) : (s.setDie d x).leases = s.leases := rfl
@[simp] theorem setDie_cols (d : Nat) (x : Die) : (s.setDie d x).cols = s.cols := rfl
@[simp] theorem setDie_queries (d : Nat) (x : Die) : (s.setDie d x).queries = s.queries := rfl
@[simp] theorem setDie_scans (d : Nat) (x : Die) : (s.setDie d x).scans = s.scans := rfl
@[simp] theorem setDie_links (d : Nat) (x : Die) : (s.setDie d x).links = s.links := rfl
@[simp] theorem setDie_fabric (d : Nat) (x : Die) : (s.setDie d x).fabric = s.fabric := rfl
@[simp] theorem setDie_errs (d : Nat) (x : Die) : (s.setDie d x).errs = s.errs := rfl
@[simp] theorem setDie_rcv (d : Nat) (x : Die) : (s.setDie d x).rcv = s.rcv := rfl
@[simp] theorem setDie_power (d : Nat) (x : Die) : (s.setDie d x).power = s.power := rfl
@[simp] theorem setDie_sec (d : Nat) (x : Die) : (s.setDie d x).sec = s.sec := rfl
@[simp] theorem setDie_free (d : Nat) (x : Die) : (s.setDie d x).free = s.free := rfl

/-! ### `State.modDie` -/

@[simp] theorem modDie_pending (d : Nat) (f : Die → Die) : (s.modDie d f).pending = s.pending := rfl
@[simp] theorem modDie_sys (d : Nat) (f : Die → Die) : (s.modDie d f).sys = s.sys := rfl
@[simp] theorem modDie_log (d : Nat) (f : Die → Die) : (s.modDie d f).log = s.log := rfl
@[simp] theorem modDie_host (d : Nat) (f : Die → Die) : (s.modDie d f).host = s.host := rfl
@[simp] theorem modDie_cmds (d : Nat) (f : Die → Die) : (s.modDie d f).cmds = s.cmds := rfl
@[simp] theorem modDie_nextCmd (d : Nat) (f : Die → Die) : (s.modDie d f).nextCmd = s.nextCmd := rfl
@[simp] theorem modDie_tasks (d : Nat) (f : Die → Die) : (s.modDie d f).tasks = s.tasks := rfl
@[simp] theorem modDie_nextTask (d : Nat) (f : Die → Die) : (s.modDie d f).nextTask = s.nextTask := rfl
@[simp] theorem modDie_scanHeld (d : Nat) (f : Die → Die) : (s.modDie d f).scanHeld = s.scanHeld := rfl
@[simp] theorem modDie_programs (d : Nat) (f : Die → Die) : (s.modDie d f).programs = s.programs := rfl
@[simp] theorem modDie_parts (d : Nat) (f : Die → Die) : (s.modDie d f).parts = s.parts := rfl
@[simp] theorem modDie_ctxs (d : Nat) (f : Die → Die) : (s.modDie d f).ctxs = s.ctxs := rfl
@[simp] theorem modDie_endpoints (d : Nat) (f : Die → Die) : (s.modDie d f).endpoints = s.endpoints := rfl
@[simp] theorem modDie_nextEndpoint (d : Nat) (f : Die → Die) : (s.modDie d f).nextEndpoint = s.nextEndpoint := rfl
@[simp] theorem modDie_stores (d : Nat) (f : Die → Die) : (s.modDie d f).stores = s.stores := rfl
@[simp] theorem modDie_shards (d : Nat) (f : Die → Die) : (s.modDie d f).shards = s.shards := rfl
@[simp] theorem modDie_media (d : Nat) (f : Die → Die) : (s.modDie d f).media = s.media := rfl
@[simp] theorem modDie_vols (d : Nat) (f : Die → Die) : (s.modDie d f).vols = s.vols := rfl
@[simp] theorem modDie_leases (d : Nat) (f : Die → Die) : (s.modDie d f).leases = s.leases := rfl
@[simp] theorem modDie_cols (d : Nat) (f : Die → Die) : (s.modDie d f).cols = s.cols := rfl
@[simp] theorem modDie_queries (d : Nat) (f : Die → Die) : (s.modDie d f).queries = s.queries := rfl
@[simp] theorem modDie_scans (d : Nat) (f : Die → Die) : (s.modDie d f).scans = s.scans := rfl
@[simp] theorem modDie_links (d : Nat) (f : Die → Die) : (s.modDie d f).links = s.links := rfl
@[simp] theorem modDie_fabric (d : Nat) (f : Die → Die) : (s.modDie d f).fabric = s.fabric := rfl
@[simp] theorem modDie_errs (d : Nat) (f : Die → Die) : (s.modDie d f).errs = s.errs := rfl
@[simp] theorem modDie_rcv (d : Nat) (f : Die → Die) : (s.modDie d f).rcv = s.rcv := rfl
@[simp] theorem modDie_power (d : Nat) (f : Die → Die) : (s.modDie d f).power = s.power := rfl
@[simp] theorem modDie_sec (d : Nat) (f : Die → Die) : (s.modDie d f).sec = s.sec := rfl
@[simp] theorem modDie_free (d : Nat) (f : Die → Die) : (s.modDie d f).free = s.free := rfl

/-! ### `State.setLink` -/

@[simp] theorem setLink_pending (l : Nat) (x : Link) : (s.setLink l x).pending = s.pending := rfl
@[simp] theorem setLink_sys (l : Nat) (x : Link) : (s.setLink l x).sys = s.sys := rfl
@[simp] theorem setLink_log (l : Nat) (x : Link) : (s.setLink l x).log = s.log := rfl
@[simp] theorem setLink_host (l : Nat) (x : Link) : (s.setLink l x).host = s.host := rfl
@[simp] theorem setLink_cmds (l : Nat) (x : Link) : (s.setLink l x).cmds = s.cmds := rfl
@[simp] theorem setLink_nextCmd (l : Nat) (x : Link) : (s.setLink l x).nextCmd = s.nextCmd := rfl
@[simp] theorem setLink_tasks (l : Nat) (x : Link) : (s.setLink l x).tasks = s.tasks := rfl
@[simp] theorem setLink_nextTask (l : Nat) (x : Link) : (s.setLink l x).nextTask = s.nextTask := rfl
@[simp] theorem setLink_scanHeld (l : Nat) (x : Link) : (s.setLink l x).scanHeld = s.scanHeld := rfl
@[simp] theorem setLink_dies (l : Nat) (x : Link) : (s.setLink l x).dies = s.dies := rfl
@[simp] theorem setLink_programs (l : Nat) (x : Link) : (s.setLink l x).programs = s.programs := rfl
@[simp] theorem setLink_parts (l : Nat) (x : Link) : (s.setLink l x).parts = s.parts := rfl
@[simp] theorem setLink_ctxs (l : Nat) (x : Link) : (s.setLink l x).ctxs = s.ctxs := rfl
@[simp] theorem setLink_endpoints (l : Nat) (x : Link) : (s.setLink l x).endpoints = s.endpoints := rfl
@[simp] theorem setLink_nextEndpoint (l : Nat) (x : Link) : (s.setLink l x).nextEndpoint = s.nextEndpoint := rfl
@[simp] theorem setLink_stores (l : Nat) (x : Link) : (s.setLink l x).stores = s.stores := rfl
@[simp] theorem setLink_shards (l : Nat) (x : Link) : (s.setLink l x).shards = s.shards := rfl
@[simp] theorem setLink_media (l : Nat) (x : Link) : (s.setLink l x).media = s.media := rfl
@[simp] theorem setLink_vols (l : Nat) (x : Link) : (s.setLink l x).vols = s.vols := rfl
@[simp] theorem setLink_leases (l : Nat) (x : Link) : (s.setLink l x).leases = s.leases := rfl
@[simp] theorem setLink_cols (l : Nat) (x : Link) : (s.setLink l x).cols = s.cols := rfl
@[simp] theorem setLink_queries (l : Nat) (x : Link) : (s.setLink l x).queries = s.queries := rfl
@[simp] theorem setLink_scans (l : Nat) (x : Link) : (s.setLink l x).scans = s.scans := rfl
@[simp] theorem setLink_fabric (l : Nat) (x : Link) : (s.setLink l x).fabric = s.fabric := rfl
@[simp] theorem setLink_errs (l : Nat) (x : Link) : (s.setLink l x).errs = s.errs := rfl
@[simp] theorem setLink_rcv (l : Nat) (x : Link) : (s.setLink l x).rcv = s.rcv := rfl
@[simp] theorem setLink_power (l : Nat) (x : Link) : (s.setLink l x).power = s.power := rfl
@[simp] theorem setLink_sec (l : Nat) (x : Link) : (s.setLink l x).sec = s.sec := rfl
@[simp] theorem setLink_free (l : Nat) (x : Link) : (s.setLink l x).free = s.free := rfl

/-! ### `State.modLink` -/

@[simp] theorem modLink_pending (l : Nat) (f : Link → Link) : (s.modLink l f).pending = s.pending := rfl
@[simp] theorem modLink_sys (l : Nat) (f : Link → Link) : (s.modLink l f).sys = s.sys := rfl
@[simp] theorem modLink_log (l : Nat) (f : Link → Link) : (s.modLink l f).log = s.log := rfl
@[simp] theorem modLink_host (l : Nat) (f : Link → Link) : (s.modLink l f).host = s.host := rfl
@[simp] theorem modLink_cmds (l : Nat) (f : Link → Link) : (s.modLink l f).cmds = s.cmds := rfl
@[simp] theorem modLink_nextCmd (l : Nat) (f : Link → Link) : (s.modLink l f).nextCmd = s.nextCmd := rfl
@[simp] theorem modLink_tasks (l : Nat) (f : Link → Link) : (s.modLink l f).tasks = s.tasks := rfl
@[simp] theorem modLink_nextTask (l : Nat) (f : Link → Link) : (s.modLink l f).nextTask = s.nextTask := rfl
@[simp] theorem modLink_scanHeld (l : Nat) (f : Link → Link) : (s.modLink l f).scanHeld = s.scanHeld := rfl
@[simp] theorem modLink_dies (l : Nat) (f : Link → Link) : (s.modLink l f).dies = s.dies := rfl
@[simp] theorem modLink_programs (l : Nat) (f : Link → Link) : (s.modLink l f).programs = s.programs := rfl
@[simp] theorem modLink_parts (l : Nat) (f : Link → Link) : (s.modLink l f).parts = s.parts := rfl
@[simp] theorem modLink_ctxs (l : Nat) (f : Link → Link) : (s.modLink l f).ctxs = s.ctxs := rfl
@[simp] theorem modLink_endpoints (l : Nat) (f : Link → Link) : (s.modLink l f).endpoints = s.endpoints := rfl
@[simp] theorem modLink_nextEndpoint (l : Nat) (f : Link → Link) : (s.modLink l f).nextEndpoint = s.nextEndpoint := rfl
@[simp] theorem modLink_stores (l : Nat) (f : Link → Link) : (s.modLink l f).stores = s.stores := rfl
@[simp] theorem modLink_shards (l : Nat) (f : Link → Link) : (s.modLink l f).shards = s.shards := rfl
@[simp] theorem modLink_media (l : Nat) (f : Link → Link) : (s.modLink l f).media = s.media := rfl
@[simp] theorem modLink_vols (l : Nat) (f : Link → Link) : (s.modLink l f).vols = s.vols := rfl
@[simp] theorem modLink_leases (l : Nat) (f : Link → Link) : (s.modLink l f).leases = s.leases := rfl
@[simp] theorem modLink_cols (l : Nat) (f : Link → Link) : (s.modLink l f).cols = s.cols := rfl
@[simp] theorem modLink_queries (l : Nat) (f : Link → Link) : (s.modLink l f).queries = s.queries := rfl
@[simp] theorem modLink_scans (l : Nat) (f : Link → Link) : (s.modLink l f).scans = s.scans := rfl
@[simp] theorem modLink_fabric (l : Nat) (f : Link → Link) : (s.modLink l f).fabric = s.fabric := rfl
@[simp] theorem modLink_errs (l : Nat) (f : Link → Link) : (s.modLink l f).errs = s.errs := rfl
@[simp] theorem modLink_rcv (l : Nat) (f : Link → Link) : (s.modLink l f).rcv = s.rcv := rfl
@[simp] theorem modLink_power (l : Nat) (f : Link → Link) : (s.modLink l f).power = s.power := rfl
@[simp] theorem modLink_sec (l : Nat) (f : Link → Link) : (s.modLink l f).sec = s.sec := rfl
@[simp] theorem modLink_free (l : Nat) (f : Link → Link) : (s.modLink l f).free = s.free := rfl

/-! ### `State.modPart` -/

@[simp] theorem modPart_pending (p : Nat) (f : Part → Part) : (s.modPart p f).pending = s.pending := rfl
@[simp] theorem modPart_sys (p : Nat) (f : Part → Part) : (s.modPart p f).sys = s.sys := rfl
@[simp] theorem modPart_log (p : Nat) (f : Part → Part) : (s.modPart p f).log = s.log := rfl
@[simp] theorem modPart_host (p : Nat) (f : Part → Part) : (s.modPart p f).host = s.host := rfl
@[simp] theorem modPart_cmds (p : Nat) (f : Part → Part) : (s.modPart p f).cmds = s.cmds := rfl
@[simp] theorem modPart_nextCmd (p : Nat) (f : Part → Part) : (s.modPart p f).nextCmd = s.nextCmd := rfl
@[simp] theorem modPart_tasks (p : Nat) (f : Part → Part) : (s.modPart p f).tasks = s.tasks := rfl
@[simp] theorem modPart_nextTask (p : Nat) (f : Part → Part) : (s.modPart p f).nextTask = s.nextTask := rfl
@[simp] theorem modPart_scanHeld (p : Nat) (f : Part → Part) : (s.modPart p f).scanHeld = s.scanHeld := rfl
@[simp] theorem modPart_dies (p : Nat) (f : Part → Part) : (s.modPart p f).dies = s.dies := rfl
@[simp] theorem modPart_programs (p : Nat) (f : Part → Part) : (s.modPart p f).programs = s.programs := rfl
@[simp] theorem modPart_ctxs (p : Nat) (f : Part → Part) : (s.modPart p f).ctxs = s.ctxs := rfl
@[simp] theorem modPart_endpoints (p : Nat) (f : Part → Part) : (s.modPart p f).endpoints = s.endpoints := rfl
@[simp] theorem modPart_nextEndpoint (p : Nat) (f : Part → Part) : (s.modPart p f).nextEndpoint = s.nextEndpoint := rfl
@[simp] theorem modPart_stores (p : Nat) (f : Part → Part) : (s.modPart p f).stores = s.stores := rfl
@[simp] theorem modPart_shards (p : Nat) (f : Part → Part) : (s.modPart p f).shards = s.shards := rfl
@[simp] theorem modPart_media (p : Nat) (f : Part → Part) : (s.modPart p f).media = s.media := rfl
@[simp] theorem modPart_vols (p : Nat) (f : Part → Part) : (s.modPart p f).vols = s.vols := rfl
@[simp] theorem modPart_leases (p : Nat) (f : Part → Part) : (s.modPart p f).leases = s.leases := rfl
@[simp] theorem modPart_cols (p : Nat) (f : Part → Part) : (s.modPart p f).cols = s.cols := rfl
@[simp] theorem modPart_queries (p : Nat) (f : Part → Part) : (s.modPart p f).queries = s.queries := rfl
@[simp] theorem modPart_scans (p : Nat) (f : Part → Part) : (s.modPart p f).scans = s.scans := rfl
@[simp] theorem modPart_links (p : Nat) (f : Part → Part) : (s.modPart p f).links = s.links := rfl
@[simp] theorem modPart_fabric (p : Nat) (f : Part → Part) : (s.modPart p f).fabric = s.fabric := rfl
@[simp] theorem modPart_errs (p : Nat) (f : Part → Part) : (s.modPart p f).errs = s.errs := rfl
@[simp] theorem modPart_rcv (p : Nat) (f : Part → Part) : (s.modPart p f).rcv = s.rcv := rfl
@[simp] theorem modPart_power (p : Nat) (f : Part → Part) : (s.modPart p f).power = s.power := rfl
@[simp] theorem modPart_sec (p : Nat) (f : Part → Part) : (s.modPart p f).sec = s.sec := rfl
@[simp] theorem modPart_free (p : Nat) (f : Part → Part) : (s.modPart p f).free = s.free := rfl

/-! ### `State.modCtx` -/

@[simp] theorem modCtx_pending (c : Nat) (f : Ctx → Ctx) : (s.modCtx c f).pending = s.pending := rfl
@[simp] theorem modCtx_sys (c : Nat) (f : Ctx → Ctx) : (s.modCtx c f).sys = s.sys := rfl
@[simp] theorem modCtx_log (c : Nat) (f : Ctx → Ctx) : (s.modCtx c f).log = s.log := rfl
@[simp] theorem modCtx_host (c : Nat) (f : Ctx → Ctx) : (s.modCtx c f).host = s.host := rfl
@[simp] theorem modCtx_cmds (c : Nat) (f : Ctx → Ctx) : (s.modCtx c f).cmds = s.cmds := rfl
@[simp] theorem modCtx_nextCmd (c : Nat) (f : Ctx → Ctx) : (s.modCtx c f).nextCmd = s.nextCmd := rfl
@[simp] theorem modCtx_tasks (c : Nat) (f : Ctx → Ctx) : (s.modCtx c f).tasks = s.tasks := rfl
@[simp] theorem modCtx_nextTask (c : Nat) (f : Ctx → Ctx) : (s.modCtx c f).nextTask = s.nextTask := rfl
@[simp] theorem modCtx_scanHeld (c : Nat) (f : Ctx → Ctx) : (s.modCtx c f).scanHeld = s.scanHeld := rfl
@[simp] theorem modCtx_dies (c : Nat) (f : Ctx → Ctx) : (s.modCtx c f).dies = s.dies := rfl
@[simp] theorem modCtx_programs (c : Nat) (f : Ctx → Ctx) : (s.modCtx c f).programs = s.programs := rfl
@[simp] theorem modCtx_parts (c : Nat) (f : Ctx → Ctx) : (s.modCtx c f).parts = s.parts := rfl
@[simp] theorem modCtx_endpoints (c : Nat) (f : Ctx → Ctx) : (s.modCtx c f).endpoints = s.endpoints := rfl
@[simp] theorem modCtx_nextEndpoint (c : Nat) (f : Ctx → Ctx) : (s.modCtx c f).nextEndpoint = s.nextEndpoint := rfl
@[simp] theorem modCtx_stores (c : Nat) (f : Ctx → Ctx) : (s.modCtx c f).stores = s.stores := rfl
@[simp] theorem modCtx_shards (c : Nat) (f : Ctx → Ctx) : (s.modCtx c f).shards = s.shards := rfl
@[simp] theorem modCtx_media (c : Nat) (f : Ctx → Ctx) : (s.modCtx c f).media = s.media := rfl
@[simp] theorem modCtx_vols (c : Nat) (f : Ctx → Ctx) : (s.modCtx c f).vols = s.vols := rfl
@[simp] theorem modCtx_leases (c : Nat) (f : Ctx → Ctx) : (s.modCtx c f).leases = s.leases := rfl
@[simp] theorem modCtx_cols (c : Nat) (f : Ctx → Ctx) : (s.modCtx c f).cols = s.cols := rfl
@[simp] theorem modCtx_queries (c : Nat) (f : Ctx → Ctx) : (s.modCtx c f).queries = s.queries := rfl
@[simp] theorem modCtx_scans (c : Nat) (f : Ctx → Ctx) : (s.modCtx c f).scans = s.scans := rfl
@[simp] theorem modCtx_links (c : Nat) (f : Ctx → Ctx) : (s.modCtx c f).links = s.links := rfl
@[simp] theorem modCtx_fabric (c : Nat) (f : Ctx → Ctx) : (s.modCtx c f).fabric = s.fabric := rfl
@[simp] theorem modCtx_errs (c : Nat) (f : Ctx → Ctx) : (s.modCtx c f).errs = s.errs := rfl
@[simp] theorem modCtx_rcv (c : Nat) (f : Ctx → Ctx) : (s.modCtx c f).rcv = s.rcv := rfl
@[simp] theorem modCtx_power (c : Nat) (f : Ctx → Ctx) : (s.modCtx c f).power = s.power := rfl
@[simp] theorem modCtx_sec (c : Nat) (f : Ctx → Ctx) : (s.modCtx c f).sec = s.sec := rfl
@[simp] theorem modCtx_free (c : Nat) (f : Ctx → Ctx) : (s.modCtx c f).free = s.free := rfl

/-! ### `State.count` -/

@[simp] theorem count_pending (c : Nat) (f : Counters → Counters) : (s.count c f).pending = s.pending := rfl
@[simp] theorem count_sys (c : Nat) (f : Counters → Counters) : (s.count c f).sys = s.sys := rfl
@[simp] theorem count_log (c : Nat) (f : Counters → Counters) : (s.count c f).log = s.log := rfl
@[simp] theorem count_host (c : Nat) (f : Counters → Counters) : (s.count c f).host = s.host := rfl
@[simp] theorem count_cmds (c : Nat) (f : Counters → Counters) : (s.count c f).cmds = s.cmds := rfl
@[simp] theorem count_nextCmd (c : Nat) (f : Counters → Counters) : (s.count c f).nextCmd = s.nextCmd := rfl
@[simp] theorem count_tasks (c : Nat) (f : Counters → Counters) : (s.count c f).tasks = s.tasks := rfl
@[simp] theorem count_nextTask (c : Nat) (f : Counters → Counters) : (s.count c f).nextTask = s.nextTask := rfl
@[simp] theorem count_scanHeld (c : Nat) (f : Counters → Counters) : (s.count c f).scanHeld = s.scanHeld := rfl
@[simp] theorem count_dies (c : Nat) (f : Counters → Counters) : (s.count c f).dies = s.dies := rfl
@[simp] theorem count_programs (c : Nat) (f : Counters → Counters) : (s.count c f).programs = s.programs := rfl
@[simp] theorem count_parts (c : Nat) (f : Counters → Counters) : (s.count c f).parts = s.parts := rfl
@[simp] theorem count_endpoints (c : Nat) (f : Counters → Counters) : (s.count c f).endpoints = s.endpoints := rfl
@[simp] theorem count_nextEndpoint (c : Nat) (f : Counters → Counters) : (s.count c f).nextEndpoint = s.nextEndpoint := rfl
@[simp] theorem count_stores (c : Nat) (f : Counters → Counters) : (s.count c f).stores = s.stores := rfl
@[simp] theorem count_shards (c : Nat) (f : Counters → Counters) : (s.count c f).shards = s.shards := rfl
@[simp] theorem count_media (c : Nat) (f : Counters → Counters) : (s.count c f).media = s.media := rfl
@[simp] theorem count_vols (c : Nat) (f : Counters → Counters) : (s.count c f).vols = s.vols := rfl
@[simp] theorem count_leases (c : Nat) (f : Counters → Counters) : (s.count c f).leases = s.leases := rfl
@[simp] theorem count_cols (c : Nat) (f : Counters → Counters) : (s.count c f).cols = s.cols := rfl
@[simp] theorem count_queries (c : Nat) (f : Counters → Counters) : (s.count c f).queries = s.queries := rfl
@[simp] theorem count_scans (c : Nat) (f : Counters → Counters) : (s.count c f).scans = s.scans := rfl
@[simp] theorem count_links (c : Nat) (f : Counters → Counters) : (s.count c f).links = s.links := rfl
@[simp] theorem count_fabric (c : Nat) (f : Counters → Counters) : (s.count c f).fabric = s.fabric := rfl
@[simp] theorem count_errs (c : Nat) (f : Counters → Counters) : (s.count c f).errs = s.errs := rfl
@[simp] theorem count_rcv (c : Nat) (f : Counters → Counters) : (s.count c f).rcv = s.rcv := rfl
@[simp] theorem count_power (c : Nat) (f : Counters → Counters) : (s.count c f).power = s.power := rfl
@[simp] theorem count_sec (c : Nat) (f : Counters → Counters) : (s.count c f).sec = s.sec := rfl
@[simp] theorem count_free (c : Nat) (f : Counters → Counters) : (s.count c f).free = s.free := rfl

/-! ### `State.modQueue` -/

@[simp] theorem modQueue_pending (n : Nat) (f : CtlQ → CtlQ) : (s.modQueue n f).pending = s.pending := rfl
@[simp] theorem modQueue_sys (n : Nat) (f : CtlQ → CtlQ) : (s.modQueue n f).sys = s.sys := rfl
@[simp] theorem modQueue_log (n : Nat) (f : CtlQ → CtlQ) : (s.modQueue n f).log = s.log := rfl
@[simp] theorem modQueue_cmds (n : Nat) (f : CtlQ → CtlQ) : (s.modQueue n f).cmds = s.cmds := rfl
@[simp] theorem modQueue_nextCmd (n : Nat) (f : CtlQ → CtlQ) : (s.modQueue n f).nextCmd = s.nextCmd := rfl
@[simp] theorem modQueue_tasks (n : Nat) (f : CtlQ → CtlQ) : (s.modQueue n f).tasks = s.tasks := rfl
@[simp] theorem modQueue_nextTask (n : Nat) (f : CtlQ → CtlQ) : (s.modQueue n f).nextTask = s.nextTask := rfl
@[simp] theorem modQueue_scanHeld (n : Nat) (f : CtlQ → CtlQ) : (s.modQueue n f).scanHeld = s.scanHeld := rfl
@[simp] theorem modQueue_dies (n : Nat) (f : CtlQ → CtlQ) : (s.modQueue n f).dies = s.dies := rfl
@[simp] theorem modQueue_programs (n : Nat) (f : CtlQ → CtlQ) : (s.modQueue n f).programs = s.programs := rfl
@[simp] theorem modQueue_parts (n : Nat) (f : CtlQ → CtlQ) : (s.modQueue n f).parts = s.parts := rfl
@[simp] theorem modQueue_ctxs (n : Nat) (f : CtlQ → CtlQ) : (s.modQueue n f).ctxs = s.ctxs := rfl
@[simp] theorem modQueue_endpoints (n : Nat) (f : CtlQ → CtlQ) : (s.modQueue n f).endpoints = s.endpoints := rfl
@[simp] theorem modQueue_nextEndpoint (n : Nat) (f : CtlQ → CtlQ) : (s.modQueue n f).nextEndpoint = s.nextEndpoint := rfl
@[simp] theorem modQueue_stores (n : Nat) (f : CtlQ → CtlQ) : (s.modQueue n f).stores = s.stores := rfl
@[simp] theorem modQueue_shards (n : Nat) (f : CtlQ → CtlQ) : (s.modQueue n f).shards = s.shards := rfl
@[simp] theorem modQueue_media (n : Nat) (f : CtlQ → CtlQ) : (s.modQueue n f).media = s.media := rfl
@[simp] theorem modQueue_vols (n : Nat) (f : CtlQ → CtlQ) : (s.modQueue n f).vols = s.vols := rfl
@[simp] theorem modQueue_leases (n : Nat) (f : CtlQ → CtlQ) : (s.modQueue n f).leases = s.leases := rfl
@[simp] theorem modQueue_cols (n : Nat) (f : CtlQ → CtlQ) : (s.modQueue n f).cols = s.cols := rfl
@[simp] theorem modQueue_queries (n : Nat) (f : CtlQ → CtlQ) : (s.modQueue n f).queries = s.queries := rfl
@[simp] theorem modQueue_scans (n : Nat) (f : CtlQ → CtlQ) : (s.modQueue n f).scans = s.scans := rfl
@[simp] theorem modQueue_links (n : Nat) (f : CtlQ → CtlQ) : (s.modQueue n f).links = s.links := rfl
@[simp] theorem modQueue_fabric (n : Nat) (f : CtlQ → CtlQ) : (s.modQueue n f).fabric = s.fabric := rfl
@[simp] theorem modQueue_errs (n : Nat) (f : CtlQ → CtlQ) : (s.modQueue n f).errs = s.errs := rfl
@[simp] theorem modQueue_rcv (n : Nat) (f : CtlQ → CtlQ) : (s.modQueue n f).rcv = s.rcv := rfl
@[simp] theorem modQueue_power (n : Nat) (f : CtlQ → CtlQ) : (s.modQueue n f).power = s.power := rfl
@[simp] theorem modQueue_sec (n : Nat) (f : CtlQ → CtlQ) : (s.modQueue n f).sec = s.sec := rfl
@[simp] theorem modQueue_free (n : Nat) (f : CtlQ → CtlQ) : (s.modQueue n f).free = s.free := rfl

/-! ### `State.modSlot` -/

@[simp] theorem modSlot_pending (i : Nat) (f : Slot → Slot) : (s.modSlot i f).pending = s.pending := rfl
@[simp] theorem modSlot_sys (i : Nat) (f : Slot → Slot) : (s.modSlot i f).sys = s.sys := rfl
@[simp] theorem modSlot_log (i : Nat) (f : Slot → Slot) : (s.modSlot i f).log = s.log := rfl
@[simp] theorem modSlot_cmds (i : Nat) (f : Slot → Slot) : (s.modSlot i f).cmds = s.cmds := rfl
@[simp] theorem modSlot_nextCmd (i : Nat) (f : Slot → Slot) : (s.modSlot i f).nextCmd = s.nextCmd := rfl
@[simp] theorem modSlot_tasks (i : Nat) (f : Slot → Slot) : (s.modSlot i f).tasks = s.tasks := rfl
@[simp] theorem modSlot_nextTask (i : Nat) (f : Slot → Slot) : (s.modSlot i f).nextTask = s.nextTask := rfl
@[simp] theorem modSlot_scanHeld (i : Nat) (f : Slot → Slot) : (s.modSlot i f).scanHeld = s.scanHeld := rfl
@[simp] theorem modSlot_dies (i : Nat) (f : Slot → Slot) : (s.modSlot i f).dies = s.dies := rfl
@[simp] theorem modSlot_programs (i : Nat) (f : Slot → Slot) : (s.modSlot i f).programs = s.programs := rfl
@[simp] theorem modSlot_parts (i : Nat) (f : Slot → Slot) : (s.modSlot i f).parts = s.parts := rfl
@[simp] theorem modSlot_ctxs (i : Nat) (f : Slot → Slot) : (s.modSlot i f).ctxs = s.ctxs := rfl
@[simp] theorem modSlot_endpoints (i : Nat) (f : Slot → Slot) : (s.modSlot i f).endpoints = s.endpoints := rfl
@[simp] theorem modSlot_nextEndpoint (i : Nat) (f : Slot → Slot) : (s.modSlot i f).nextEndpoint = s.nextEndpoint := rfl
@[simp] theorem modSlot_stores (i : Nat) (f : Slot → Slot) : (s.modSlot i f).stores = s.stores := rfl
@[simp] theorem modSlot_shards (i : Nat) (f : Slot → Slot) : (s.modSlot i f).shards = s.shards := rfl
@[simp] theorem modSlot_media (i : Nat) (f : Slot → Slot) : (s.modSlot i f).media = s.media := rfl
@[simp] theorem modSlot_vols (i : Nat) (f : Slot → Slot) : (s.modSlot i f).vols = s.vols := rfl
@[simp] theorem modSlot_leases (i : Nat) (f : Slot → Slot) : (s.modSlot i f).leases = s.leases := rfl
@[simp] theorem modSlot_cols (i : Nat) (f : Slot → Slot) : (s.modSlot i f).cols = s.cols := rfl
@[simp] theorem modSlot_queries (i : Nat) (f : Slot → Slot) : (s.modSlot i f).queries = s.queries := rfl
@[simp] theorem modSlot_scans (i : Nat) (f : Slot → Slot) : (s.modSlot i f).scans = s.scans := rfl
@[simp] theorem modSlot_links (i : Nat) (f : Slot → Slot) : (s.modSlot i f).links = s.links := rfl
@[simp] theorem modSlot_fabric (i : Nat) (f : Slot → Slot) : (s.modSlot i f).fabric = s.fabric := rfl
@[simp] theorem modSlot_errs (i : Nat) (f : Slot → Slot) : (s.modSlot i f).errs = s.errs := rfl
@[simp] theorem modSlot_rcv (i : Nat) (f : Slot → Slot) : (s.modSlot i f).rcv = s.rcv := rfl
@[simp] theorem modSlot_power (i : Nat) (f : Slot → Slot) : (s.modSlot i f).power = s.power := rfl
@[simp] theorem modSlot_sec (i : Nat) (f : Slot → Slot) : (s.modSlot i f).sec = s.sec := rfl
@[simp] theorem modSlot_free (i : Nat) (f : Slot → Slot) : (s.modSlot i f).free = s.free := rfl

/-! ### `State.modMailbox` -/

@[simp] theorem modMailbox_pending (n : Nat) (f : Mbx → Mbx) : (s.modMailbox n f).pending = s.pending := rfl
@[simp] theorem modMailbox_sys (n : Nat) (f : Mbx → Mbx) : (s.modMailbox n f).sys = s.sys := rfl
@[simp] theorem modMailbox_log (n : Nat) (f : Mbx → Mbx) : (s.modMailbox n f).log = s.log := rfl
@[simp] theorem modMailbox_cmds (n : Nat) (f : Mbx → Mbx) : (s.modMailbox n f).cmds = s.cmds := rfl
@[simp] theorem modMailbox_nextCmd (n : Nat) (f : Mbx → Mbx) : (s.modMailbox n f).nextCmd = s.nextCmd := rfl
@[simp] theorem modMailbox_tasks (n : Nat) (f : Mbx → Mbx) : (s.modMailbox n f).tasks = s.tasks := rfl
@[simp] theorem modMailbox_nextTask (n : Nat) (f : Mbx → Mbx) : (s.modMailbox n f).nextTask = s.nextTask := rfl
@[simp] theorem modMailbox_scanHeld (n : Nat) (f : Mbx → Mbx) : (s.modMailbox n f).scanHeld = s.scanHeld := rfl
@[simp] theorem modMailbox_dies (n : Nat) (f : Mbx → Mbx) : (s.modMailbox n f).dies = s.dies := rfl
@[simp] theorem modMailbox_programs (n : Nat) (f : Mbx → Mbx) : (s.modMailbox n f).programs = s.programs := rfl
@[simp] theorem modMailbox_parts (n : Nat) (f : Mbx → Mbx) : (s.modMailbox n f).parts = s.parts := rfl
@[simp] theorem modMailbox_ctxs (n : Nat) (f : Mbx → Mbx) : (s.modMailbox n f).ctxs = s.ctxs := rfl
@[simp] theorem modMailbox_endpoints (n : Nat) (f : Mbx → Mbx) : (s.modMailbox n f).endpoints = s.endpoints := rfl
@[simp] theorem modMailbox_nextEndpoint (n : Nat) (f : Mbx → Mbx) : (s.modMailbox n f).nextEndpoint = s.nextEndpoint := rfl
@[simp] theorem modMailbox_stores (n : Nat) (f : Mbx → Mbx) : (s.modMailbox n f).stores = s.stores := rfl
@[simp] theorem modMailbox_shards (n : Nat) (f : Mbx → Mbx) : (s.modMailbox n f).shards = s.shards := rfl
@[simp] theorem modMailbox_media (n : Nat) (f : Mbx → Mbx) : (s.modMailbox n f).media = s.media := rfl
@[simp] theorem modMailbox_vols (n : Nat) (f : Mbx → Mbx) : (s.modMailbox n f).vols = s.vols := rfl
@[simp] theorem modMailbox_leases (n : Nat) (f : Mbx → Mbx) : (s.modMailbox n f).leases = s.leases := rfl
@[simp] theorem modMailbox_cols (n : Nat) (f : Mbx → Mbx) : (s.modMailbox n f).cols = s.cols := rfl
@[simp] theorem modMailbox_queries (n : Nat) (f : Mbx → Mbx) : (s.modMailbox n f).queries = s.queries := rfl
@[simp] theorem modMailbox_scans (n : Nat) (f : Mbx → Mbx) : (s.modMailbox n f).scans = s.scans := rfl
@[simp] theorem modMailbox_links (n : Nat) (f : Mbx → Mbx) : (s.modMailbox n f).links = s.links := rfl
@[simp] theorem modMailbox_fabric (n : Nat) (f : Mbx → Mbx) : (s.modMailbox n f).fabric = s.fabric := rfl
@[simp] theorem modMailbox_errs (n : Nat) (f : Mbx → Mbx) : (s.modMailbox n f).errs = s.errs := rfl
@[simp] theorem modMailbox_rcv (n : Nat) (f : Mbx → Mbx) : (s.modMailbox n f).rcv = s.rcv := rfl
@[simp] theorem modMailbox_power (n : Nat) (f : Mbx → Mbx) : (s.modMailbox n f).power = s.power := rfl
@[simp] theorem modMailbox_sec (n : Nat) (f : Mbx → Mbx) : (s.modMailbox n f).sec = s.sec := rfl
@[simp] theorem modMailbox_free (n : Nat) (f : Mbx → Mbx) : (s.modMailbox n f).free = s.free := rfl

/-! ### `State.modStore` -/

@[simp] theorem modStore_pending (p : Nat) (f : Store → Store) : (s.modStore p f).pending = s.pending := rfl
@[simp] theorem modStore_sys (p : Nat) (f : Store → Store) : (s.modStore p f).sys = s.sys := rfl
@[simp] theorem modStore_log (p : Nat) (f : Store → Store) : (s.modStore p f).log = s.log := rfl
@[simp] theorem modStore_host (p : Nat) (f : Store → Store) : (s.modStore p f).host = s.host := rfl
@[simp] theorem modStore_cmds (p : Nat) (f : Store → Store) : (s.modStore p f).cmds = s.cmds := rfl
@[simp] theorem modStore_nextCmd (p : Nat) (f : Store → Store) : (s.modStore p f).nextCmd = s.nextCmd := rfl
@[simp] theorem modStore_tasks (p : Nat) (f : Store → Store) : (s.modStore p f).tasks = s.tasks := rfl
@[simp] theorem modStore_nextTask (p : Nat) (f : Store → Store) : (s.modStore p f).nextTask = s.nextTask := rfl
@[simp] theorem modStore_scanHeld (p : Nat) (f : Store → Store) : (s.modStore p f).scanHeld = s.scanHeld := rfl
@[simp] theorem modStore_dies (p : Nat) (f : Store → Store) : (s.modStore p f).dies = s.dies := rfl
@[simp] theorem modStore_programs (p : Nat) (f : Store → Store) : (s.modStore p f).programs = s.programs := rfl
@[simp] theorem modStore_parts (p : Nat) (f : Store → Store) : (s.modStore p f).parts = s.parts := rfl
@[simp] theorem modStore_ctxs (p : Nat) (f : Store → Store) : (s.modStore p f).ctxs = s.ctxs := rfl
@[simp] theorem modStore_endpoints (p : Nat) (f : Store → Store) : (s.modStore p f).endpoints = s.endpoints := rfl
@[simp] theorem modStore_nextEndpoint (p : Nat) (f : Store → Store) : (s.modStore p f).nextEndpoint = s.nextEndpoint := rfl
@[simp] theorem modStore_shards (p : Nat) (f : Store → Store) : (s.modStore p f).shards = s.shards := rfl
@[simp] theorem modStore_media (p : Nat) (f : Store → Store) : (s.modStore p f).media = s.media := rfl
@[simp] theorem modStore_vols (p : Nat) (f : Store → Store) : (s.modStore p f).vols = s.vols := rfl
@[simp] theorem modStore_leases (p : Nat) (f : Store → Store) : (s.modStore p f).leases = s.leases := rfl
@[simp] theorem modStore_cols (p : Nat) (f : Store → Store) : (s.modStore p f).cols = s.cols := rfl
@[simp] theorem modStore_queries (p : Nat) (f : Store → Store) : (s.modStore p f).queries = s.queries := rfl
@[simp] theorem modStore_scans (p : Nat) (f : Store → Store) : (s.modStore p f).scans = s.scans := rfl
@[simp] theorem modStore_links (p : Nat) (f : Store → Store) : (s.modStore p f).links = s.links := rfl
@[simp] theorem modStore_fabric (p : Nat) (f : Store → Store) : (s.modStore p f).fabric = s.fabric := rfl
@[simp] theorem modStore_errs (p : Nat) (f : Store → Store) : (s.modStore p f).errs = s.errs := rfl
@[simp] theorem modStore_rcv (p : Nat) (f : Store → Store) : (s.modStore p f).rcv = s.rcv := rfl
@[simp] theorem modStore_power (p : Nat) (f : Store → Store) : (s.modStore p f).power = s.power := rfl
@[simp] theorem modStore_sec (p : Nat) (f : Store → Store) : (s.modStore p f).sec = s.sec := rfl
@[simp] theorem modStore_free (p : Nat) (f : Store → Store) : (s.modStore p f).free = s.free := rfl

/-! ### `State.modLive` -/

@[simp] theorem modLive_pending (n : Nat) (f : Live → Live) : (s.modLive n f).pending = s.pending := rfl
@[simp] theorem modLive_sys (n : Nat) (f : Live → Live) : (s.modLive n f).sys = s.sys := rfl
@[simp] theorem modLive_log (n : Nat) (f : Live → Live) : (s.modLive n f).log = s.log := rfl
@[simp] theorem modLive_host (n : Nat) (f : Live → Live) : (s.modLive n f).host = s.host := rfl
@[simp] theorem modLive_nextCmd (n : Nat) (f : Live → Live) : (s.modLive n f).nextCmd = s.nextCmd := rfl
@[simp] theorem modLive_tasks (n : Nat) (f : Live → Live) : (s.modLive n f).tasks = s.tasks := rfl
@[simp] theorem modLive_nextTask (n : Nat) (f : Live → Live) : (s.modLive n f).nextTask = s.nextTask := rfl
@[simp] theorem modLive_scanHeld (n : Nat) (f : Live → Live) : (s.modLive n f).scanHeld = s.scanHeld := rfl
@[simp] theorem modLive_dies (n : Nat) (f : Live → Live) : (s.modLive n f).dies = s.dies := rfl
@[simp] theorem modLive_programs (n : Nat) (f : Live → Live) : (s.modLive n f).programs = s.programs := rfl
@[simp] theorem modLive_parts (n : Nat) (f : Live → Live) : (s.modLive n f).parts = s.parts := rfl
@[simp] theorem modLive_ctxs (n : Nat) (f : Live → Live) : (s.modLive n f).ctxs = s.ctxs := rfl
@[simp] theorem modLive_endpoints (n : Nat) (f : Live → Live) : (s.modLive n f).endpoints = s.endpoints := rfl
@[simp] theorem modLive_nextEndpoint (n : Nat) (f : Live → Live) : (s.modLive n f).nextEndpoint = s.nextEndpoint := rfl
@[simp] theorem modLive_stores (n : Nat) (f : Live → Live) : (s.modLive n f).stores = s.stores := rfl
@[simp] theorem modLive_shards (n : Nat) (f : Live → Live) : (s.modLive n f).shards = s.shards := rfl
@[simp] theorem modLive_media (n : Nat) (f : Live → Live) : (s.modLive n f).media = s.media := rfl
@[simp] theorem modLive_vols (n : Nat) (f : Live → Live) : (s.modLive n f).vols = s.vols := rfl
@[simp] theorem modLive_leases (n : Nat) (f : Live → Live) : (s.modLive n f).leases = s.leases := rfl
@[simp] theorem modLive_cols (n : Nat) (f : Live → Live) : (s.modLive n f).cols = s.cols := rfl
@[simp] theorem modLive_queries (n : Nat) (f : Live → Live) : (s.modLive n f).queries = s.queries := rfl
@[simp] theorem modLive_scans (n : Nat) (f : Live → Live) : (s.modLive n f).scans = s.scans := rfl
@[simp] theorem modLive_links (n : Nat) (f : Live → Live) : (s.modLive n f).links = s.links := rfl
@[simp] theorem modLive_fabric (n : Nat) (f : Live → Live) : (s.modLive n f).fabric = s.fabric := rfl
@[simp] theorem modLive_errs (n : Nat) (f : Live → Live) : (s.modLive n f).errs = s.errs := rfl
@[simp] theorem modLive_rcv (n : Nat) (f : Live → Live) : (s.modLive n f).rcv = s.rcv := rfl
@[simp] theorem modLive_power (n : Nat) (f : Live → Live) : (s.modLive n f).power = s.power := rfl
@[simp] theorem modLive_sec (n : Nat) (f : Live → Live) : (s.modLive n f).sec = s.sec := rfl
@[simp] theorem modLive_free (n : Nat) (f : Live → Live) : (s.modLive n f).free = s.free := rfl

/-! ### `State.modGroup` -/

@[simp] theorem modGroup_pending (g : Nat) (f : PGroup → PGroup) : (s.modGroup g f).pending = s.pending := rfl
@[simp] theorem modGroup_sys (g : Nat) (f : PGroup → PGroup) : (s.modGroup g f).sys = s.sys := rfl
@[simp] theorem modGroup_log (g : Nat) (f : PGroup → PGroup) : (s.modGroup g f).log = s.log := rfl
@[simp] theorem modGroup_host (g : Nat) (f : PGroup → PGroup) : (s.modGroup g f).host = s.host := rfl
@[simp] theorem modGroup_cmds (g : Nat) (f : PGroup → PGroup) : (s.modGroup g f).cmds = s.cmds := rfl
@[simp] theorem modGroup_nextCmd (g : Nat) (f : PGroup → PGroup) : (s.modGroup g f).nextCmd = s.nextCmd := rfl
@[simp] theorem modGroup_tasks (g : Nat) (f : PGroup → PGroup) : (s.modGroup g f).tasks = s.tasks := rfl
@[simp] theorem modGroup_nextTask (g : Nat) (f : PGroup → PGroup) : (s.modGroup g f).nextTask = s.nextTask := rfl
@[simp] theorem modGroup_scanHeld (g : Nat) (f : PGroup → PGroup) : (s.modGroup g f).scanHeld = s.scanHeld := rfl
@[simp] theorem modGroup_dies (g : Nat) (f : PGroup → PGroup) : (s.modGroup g f).dies = s.dies := rfl
@[simp] theorem modGroup_programs (g : Nat) (f : PGroup → PGroup) : (s.modGroup g f).programs = s.programs := rfl
@[simp] theorem modGroup_parts (g : Nat) (f : PGroup → PGroup) : (s.modGroup g f).parts = s.parts := rfl
@[simp] theorem modGroup_ctxs (g : Nat) (f : PGroup → PGroup) : (s.modGroup g f).ctxs = s.ctxs := rfl
@[simp] theorem modGroup_endpoints (g : Nat) (f : PGroup → PGroup) : (s.modGroup g f).endpoints = s.endpoints := rfl
@[simp] theorem modGroup_nextEndpoint (g : Nat) (f : PGroup → PGroup) : (s.modGroup g f).nextEndpoint = s.nextEndpoint := rfl
@[simp] theorem modGroup_stores (g : Nat) (f : PGroup → PGroup) : (s.modGroup g f).stores = s.stores := rfl
@[simp] theorem modGroup_shards (g : Nat) (f : PGroup → PGroup) : (s.modGroup g f).shards = s.shards := rfl
@[simp] theorem modGroup_vols (g : Nat) (f : PGroup → PGroup) : (s.modGroup g f).vols = s.vols := rfl
@[simp] theorem modGroup_leases (g : Nat) (f : PGroup → PGroup) : (s.modGroup g f).leases = s.leases := rfl
@[simp] theorem modGroup_cols (g : Nat) (f : PGroup → PGroup) : (s.modGroup g f).cols = s.cols := rfl
@[simp] theorem modGroup_queries (g : Nat) (f : PGroup → PGroup) : (s.modGroup g f).queries = s.queries := rfl
@[simp] theorem modGroup_scans (g : Nat) (f : PGroup → PGroup) : (s.modGroup g f).scans = s.scans := rfl
@[simp] theorem modGroup_links (g : Nat) (f : PGroup → PGroup) : (s.modGroup g f).links = s.links := rfl
@[simp] theorem modGroup_fabric (g : Nat) (f : PGroup → PGroup) : (s.modGroup g f).fabric = s.fabric := rfl
@[simp] theorem modGroup_errs (g : Nat) (f : PGroup → PGroup) : (s.modGroup g f).errs = s.errs := rfl
@[simp] theorem modGroup_rcv (g : Nat) (f : PGroup → PGroup) : (s.modGroup g f).rcv = s.rcv := rfl
@[simp] theorem modGroup_power (g : Nat) (f : PGroup → PGroup) : (s.modGroup g f).power = s.power := rfl
@[simp] theorem modGroup_sec (g : Nat) (f : PGroup → PGroup) : (s.modGroup g f).sec = s.sec := rfl
@[simp] theorem modGroup_free (g : Nat) (f : PGroup → PGroup) : (s.modGroup g f).free = s.free := rfl

/-! ### A unit read after a change of it -/

@[simp] theorem die_setDie_same (d : Nat) (x : Die) : (s.setDie d x).die d = x := by
  simp [State.die, State.setDie, Tbl.getD_set]
theorem die_setDie_other {d e : Nat} (x : Die) (h : e ≠ d) : (s.setDie d x).die e = s.die e := by
  simp [State.die, State.setDie, Tbl.getD_set, h]
@[simp] theorem die_modDie_same (d : Nat) (f : Die → Die) : (s.modDie d f).die d = f (s.die d) :=
  die_setDie_same s d _
@[simp] theorem link_setLink_same (l : Nat) (x : Link) : (s.setLink l x).link l = x := by
  simp [State.link, State.setLink, Tbl.getD_set]
theorem link_setLink_other {l m : Nat} (x : Link) (h : m ≠ l) : (s.setLink l x).link m = s.link m := by
  simp [State.link, State.setLink, Tbl.getD_set, h]
@[simp] theorem link_modLink_same (l : Nat) (f : Link → Link) : (s.modLink l f).link l = f (s.link l) :=
  link_setLink_same s l _
@[simp] theorem queue_modQueue_same (n : Nat) (f : CtlQ → CtlQ) : (s.modQueue n f).queue n = f (s.queue n) := by
  simp [State.queue, State.modQueue, Tbl.getD_set]
theorem queue_modQueue_other {n m : Nat} (f : CtlQ → CtlQ) (h : m ≠ n) : (s.modQueue n f).queue m = s.queue m := by
  simp [State.queue, State.modQueue, Tbl.getD_set, h]
@[simp] theorem slot_modSlot_same (i : Nat) (f : Slot → Slot) : (s.modSlot i f).slot i = f (s.slot i) := by
  simp [State.slot, State.modSlot, Tbl.getD_set]
theorem slot_modSlot_other {i j : Nat} (f : Slot → Slot) (h : j ≠ i) : (s.modSlot i f).slot j = s.slot j := by
  simp [State.slot, State.modSlot, Tbl.getD_set, h]
@[simp] theorem mailbox_modMailbox_same (n : Nat) (f : Mbx → Mbx) : (s.modMailbox n f).mailbox n = f (s.mailbox n) := by
  simp [State.mailbox, State.modMailbox, Tbl.getD_set]
@[simp] theorem store_modStore_same (p : Nat) (f : Store → Store) : (s.modStore p f).store p = f (s.store p) := by
  simp [State.store, State.modStore, Tbl.getD_set]
theorem store_modStore_other {p q : Nat} (f : Store → Store) (h : q ≠ p) : (s.modStore p f).store q = s.store q := by
  simp [State.store, State.modStore, Tbl.getD_set, h]
@[simp] theorem pgroup_modGroup_same (g : Nat) (f : PGroup → PGroup) : (s.modGroup g f).pgroup g = f (s.pgroup g) := by
  simp [State.pgroup, State.modGroup, Tbl.getD_set]

/-! ### `signalVector` -/

@[simp] theorem signalVector_pending (v : BitVec 6) : (signalVector v s).pending = s.pending := by unfold signalVector; dsimp only; split <;> rfl
@[simp] theorem signalVector_sys (v : BitVec 6) : (signalVector v s).sys = s.sys := by unfold signalVector; dsimp only; split <;> rfl
@[simp] theorem signalVector_log (v : BitVec 6) : (signalVector v s).log = s.log := by unfold signalVector; dsimp only; split <;> rfl
@[simp] theorem signalVector_cmds (v : BitVec 6) : (signalVector v s).cmds = s.cmds := by unfold signalVector; dsimp only; split <;> rfl
@[simp] theorem signalVector_nextCmd (v : BitVec 6) : (signalVector v s).nextCmd = s.nextCmd := by unfold signalVector; dsimp only; split <;> rfl
@[simp] theorem signalVector_tasks (v : BitVec 6) : (signalVector v s).tasks = s.tasks := by unfold signalVector; dsimp only; split <;> rfl
@[simp] theorem signalVector_nextTask (v : BitVec 6) : (signalVector v s).nextTask = s.nextTask := by unfold signalVector; dsimp only; split <;> rfl
@[simp] theorem signalVector_scanHeld (v : BitVec 6) : (signalVector v s).scanHeld = s.scanHeld := by unfold signalVector; dsimp only; split <;> rfl
@[simp] theorem signalVector_dies (v : BitVec 6) : (signalVector v s).dies = s.dies := by unfold signalVector; dsimp only; split <;> rfl
@[simp] theorem signalVector_programs (v : BitVec 6) : (signalVector v s).programs = s.programs := by unfold signalVector; dsimp only; split <;> rfl
@[simp] theorem signalVector_parts (v : BitVec 6) : (signalVector v s).parts = s.parts := by unfold signalVector; dsimp only; split <;> rfl
@[simp] theorem signalVector_ctxs (v : BitVec 6) : (signalVector v s).ctxs = s.ctxs := by unfold signalVector; dsimp only; split <;> rfl
@[simp] theorem signalVector_endpoints (v : BitVec 6) : (signalVector v s).endpoints = s.endpoints := by unfold signalVector; dsimp only; split <;> rfl
@[simp] theorem signalVector_nextEndpoint (v : BitVec 6) : (signalVector v s).nextEndpoint = s.nextEndpoint := by unfold signalVector; dsimp only; split <;> rfl
@[simp] theorem signalVector_stores (v : BitVec 6) : (signalVector v s).stores = s.stores := by unfold signalVector; dsimp only; split <;> rfl
@[simp] theorem signalVector_shards (v : BitVec 6) : (signalVector v s).shards = s.shards := by unfold signalVector; dsimp only; split <;> rfl
@[simp] theorem signalVector_media (v : BitVec 6) : (signalVector v s).media = s.media := by unfold signalVector; dsimp only; split <;> rfl
@[simp] theorem signalVector_vols (v : BitVec 6) : (signalVector v s).vols = s.vols := by unfold signalVector; dsimp only; split <;> rfl
@[simp] theorem signalVector_leases (v : BitVec 6) : (signalVector v s).leases = s.leases := by unfold signalVector; dsimp only; split <;> rfl
@[simp] theorem signalVector_cols (v : BitVec 6) : (signalVector v s).cols = s.cols := by unfold signalVector; dsimp only; split <;> rfl
@[simp] theorem signalVector_queries (v : BitVec 6) : (signalVector v s).queries = s.queries := by unfold signalVector; dsimp only; split <;> rfl
@[simp] theorem signalVector_scans (v : BitVec 6) : (signalVector v s).scans = s.scans := by unfold signalVector; dsimp only; split <;> rfl
@[simp] theorem signalVector_links (v : BitVec 6) : (signalVector v s).links = s.links := by unfold signalVector; dsimp only; split <;> rfl
@[simp] theorem signalVector_fabric (v : BitVec 6) : (signalVector v s).fabric = s.fabric := by unfold signalVector; dsimp only; split <;> rfl
@[simp] theorem signalVector_errs (v : BitVec 6) : (signalVector v s).errs = s.errs := by unfold signalVector; dsimp only; split <;> rfl
@[simp] theorem signalVector_rcv (v : BitVec 6) : (signalVector v s).rcv = s.rcv := by unfold signalVector; dsimp only; split <;> rfl
@[simp] theorem signalVector_power (v : BitVec 6) : (signalVector v s).power = s.power := by unfold signalVector; dsimp only; split <;> rfl
@[simp] theorem signalVector_sec (v : BitVec 6) : (signalVector v s).sec = s.sec := by unfold signalVector; dsimp only; split <;> rfl
@[simp] theorem signalVector_free (v : BitVec 6) : (signalVector v s).free = s.free := by unfold signalVector; dsimp only; split <;> rfl

/-! ### `setFlag` -/

@[simp] theorem setFlag_pending (k : Nat) : (setFlag k s).pending = s.pending := by unfold setFlag; dsimp only; split <;> simp
@[simp] theorem setFlag_sys (k : Nat) : (setFlag k s).sys = s.sys := by unfold setFlag; dsimp only; split <;> simp
@[simp] theorem setFlag_log (k : Nat) : (setFlag k s).log = s.log := by unfold setFlag; dsimp only; split <;> simp
@[simp] theorem setFlag_cmds (k : Nat) : (setFlag k s).cmds = s.cmds := by unfold setFlag; dsimp only; split <;> simp
@[simp] theorem setFlag_nextCmd (k : Nat) : (setFlag k s).nextCmd = s.nextCmd := by unfold setFlag; dsimp only; split <;> simp
@[simp] theorem setFlag_tasks (k : Nat) : (setFlag k s).tasks = s.tasks := by unfold setFlag; dsimp only; split <;> simp
@[simp] theorem setFlag_nextTask (k : Nat) : (setFlag k s).nextTask = s.nextTask := by unfold setFlag; dsimp only; split <;> simp
@[simp] theorem setFlag_scanHeld (k : Nat) : (setFlag k s).scanHeld = s.scanHeld := by unfold setFlag; dsimp only; split <;> simp
@[simp] theorem setFlag_dies (k : Nat) : (setFlag k s).dies = s.dies := by unfold setFlag; dsimp only; split <;> simp
@[simp] theorem setFlag_programs (k : Nat) : (setFlag k s).programs = s.programs := by unfold setFlag; dsimp only; split <;> simp
@[simp] theorem setFlag_parts (k : Nat) : (setFlag k s).parts = s.parts := by unfold setFlag; dsimp only; split <;> simp
@[simp] theorem setFlag_ctxs (k : Nat) : (setFlag k s).ctxs = s.ctxs := by unfold setFlag; dsimp only; split <;> simp
@[simp] theorem setFlag_endpoints (k : Nat) : (setFlag k s).endpoints = s.endpoints := by unfold setFlag; dsimp only; split <;> simp
@[simp] theorem setFlag_nextEndpoint (k : Nat) : (setFlag k s).nextEndpoint = s.nextEndpoint := by unfold setFlag; dsimp only; split <;> simp
@[simp] theorem setFlag_stores (k : Nat) : (setFlag k s).stores = s.stores := by unfold setFlag; dsimp only; split <;> simp
@[simp] theorem setFlag_shards (k : Nat) : (setFlag k s).shards = s.shards := by unfold setFlag; dsimp only; split <;> simp
@[simp] theorem setFlag_media (k : Nat) : (setFlag k s).media = s.media := by unfold setFlag; dsimp only; split <;> simp
@[simp] theorem setFlag_vols (k : Nat) : (setFlag k s).vols = s.vols := by unfold setFlag; dsimp only; split <;> simp
@[simp] theorem setFlag_leases (k : Nat) : (setFlag k s).leases = s.leases := by unfold setFlag; dsimp only; split <;> simp
@[simp] theorem setFlag_cols (k : Nat) : (setFlag k s).cols = s.cols := by unfold setFlag; dsimp only; split <;> simp
@[simp] theorem setFlag_queries (k : Nat) : (setFlag k s).queries = s.queries := by unfold setFlag; dsimp only; split <;> simp
@[simp] theorem setFlag_scans (k : Nat) : (setFlag k s).scans = s.scans := by unfold setFlag; dsimp only; split <;> simp
@[simp] theorem setFlag_links (k : Nat) : (setFlag k s).links = s.links := by unfold setFlag; dsimp only; split <;> simp
@[simp] theorem setFlag_fabric (k : Nat) : (setFlag k s).fabric = s.fabric := by unfold setFlag; dsimp only; split <;> simp
@[simp] theorem setFlag_errs (k : Nat) : (setFlag k s).errs = s.errs := by unfold setFlag; dsimp only; split <;> simp
@[simp] theorem setFlag_rcv (k : Nat) : (setFlag k s).rcv = s.rcv := by unfold setFlag; dsimp only; split <;> simp
@[simp] theorem setFlag_power (k : Nat) : (setFlag k s).power = s.power := by unfold setFlag; dsimp only; split <;> simp
@[simp] theorem setFlag_sec (k : Nat) : (setFlag k s).sec = s.sec := by unfold setFlag; dsimp only; split <;> simp
@[simp] theorem setFlag_free (k : Nat) : (setFlag k s).free = s.free := by unfold setFlag; dsimp only; split <;> simp

/-! ### `platformEvent` -/

@[simp] theorem platformEvent_pending (data : List Byte) : (platformEvent data s).pending = s.pending := rfl
@[simp] theorem platformEvent_sys (data : List Byte) : (platformEvent data s).sys = s.sys := rfl
@[simp] theorem platformEvent_log (data : List Byte) : (platformEvent data s).log = s.log := rfl
@[simp] theorem platformEvent_host (data : List Byte) : (platformEvent data s).host = s.host := rfl
@[simp] theorem platformEvent_cmds (data : List Byte) : (platformEvent data s).cmds = s.cmds := rfl
@[simp] theorem platformEvent_nextCmd (data : List Byte) : (platformEvent data s).nextCmd = s.nextCmd := rfl
@[simp] theorem platformEvent_tasks (data : List Byte) : (platformEvent data s).tasks = s.tasks := rfl
@[simp] theorem platformEvent_nextTask (data : List Byte) : (platformEvent data s).nextTask = s.nextTask := rfl
@[simp] theorem platformEvent_scanHeld (data : List Byte) : (platformEvent data s).scanHeld = s.scanHeld := rfl
@[simp] theorem platformEvent_dies (data : List Byte) : (platformEvent data s).dies = s.dies := rfl
@[simp] theorem platformEvent_programs (data : List Byte) : (platformEvent data s).programs = s.programs := rfl
@[simp] theorem platformEvent_parts (data : List Byte) : (platformEvent data s).parts = s.parts := rfl
@[simp] theorem platformEvent_ctxs (data : List Byte) : (platformEvent data s).ctxs = s.ctxs := rfl
@[simp] theorem platformEvent_endpoints (data : List Byte) : (platformEvent data s).endpoints = s.endpoints := rfl
@[simp] theorem platformEvent_nextEndpoint (data : List Byte) : (platformEvent data s).nextEndpoint = s.nextEndpoint := rfl
@[simp] theorem platformEvent_stores (data : List Byte) : (platformEvent data s).stores = s.stores := rfl
@[simp] theorem platformEvent_shards (data : List Byte) : (platformEvent data s).shards = s.shards := rfl
@[simp] theorem platformEvent_media (data : List Byte) : (platformEvent data s).media = s.media := rfl
@[simp] theorem platformEvent_vols (data : List Byte) : (platformEvent data s).vols = s.vols := rfl
@[simp] theorem platformEvent_leases (data : List Byte) : (platformEvent data s).leases = s.leases := rfl
@[simp] theorem platformEvent_cols (data : List Byte) : (platformEvent data s).cols = s.cols := rfl
@[simp] theorem platformEvent_queries (data : List Byte) : (platformEvent data s).queries = s.queries := rfl
@[simp] theorem platformEvent_scans (data : List Byte) : (platformEvent data s).scans = s.scans := rfl
@[simp] theorem platformEvent_links (data : List Byte) : (platformEvent data s).links = s.links := rfl
@[simp] theorem platformEvent_fabric (data : List Byte) : (platformEvent data s).fabric = s.fabric := rfl
@[simp] theorem platformEvent_errs (data : List Byte) : (platformEvent data s).errs = s.errs := rfl
@[simp] theorem platformEvent_rcv (data : List Byte) : (platformEvent data s).rcv = s.rcv := rfl
@[simp] theorem platformEvent_power (data : List Byte) : (platformEvent data s).power = s.power := rfl
@[simp] theorem platformEvent_free (data : List Byte) : (platformEvent data s).free = s.free := rfl

/-! ### `addLog` -/

@[simp] theorem addLog_pending (code : Half) (o u c : Word) (d : List Nat) : (addLog code o u c d s).pending = s.pending := by unfold addLog; dsimp only; split <;> (try split) <;> (try split) <;> simp
@[simp] theorem addLog_sys (code : Half) (o u c : Word) (d : List Nat) : (addLog code o u c d s).sys = s.sys := by unfold addLog; dsimp only; split <;> (try split) <;> (try split) <;> simp
@[simp] theorem addLog_cmds (code : Half) (o u c : Word) (d : List Nat) : (addLog code o u c d s).cmds = s.cmds := by unfold addLog; dsimp only; split <;> (try split) <;> (try split) <;> simp
@[simp] theorem addLog_nextCmd (code : Half) (o u c : Word) (d : List Nat) : (addLog code o u c d s).nextCmd = s.nextCmd := by unfold addLog; dsimp only; split <;> (try split) <;> (try split) <;> simp
@[simp] theorem addLog_tasks (code : Half) (o u c : Word) (d : List Nat) : (addLog code o u c d s).tasks = s.tasks := by unfold addLog; dsimp only; split <;> (try split) <;> (try split) <;> simp
@[simp] theorem addLog_nextTask (code : Half) (o u c : Word) (d : List Nat) : (addLog code o u c d s).nextTask = s.nextTask := by unfold addLog; dsimp only; split <;> (try split) <;> (try split) <;> simp
@[simp] theorem addLog_scanHeld (code : Half) (o u c : Word) (d : List Nat) : (addLog code o u c d s).scanHeld = s.scanHeld := by unfold addLog; dsimp only; split <;> (try split) <;> (try split) <;> simp
@[simp] theorem addLog_dies (code : Half) (o u c : Word) (d : List Nat) : (addLog code o u c d s).dies = s.dies := by unfold addLog; dsimp only; split <;> (try split) <;> (try split) <;> simp
@[simp] theorem addLog_programs (code : Half) (o u c : Word) (d : List Nat) : (addLog code o u c d s).programs = s.programs := by unfold addLog; dsimp only; split <;> (try split) <;> (try split) <;> simp
@[simp] theorem addLog_parts (code : Half) (o u c : Word) (d : List Nat) : (addLog code o u c d s).parts = s.parts := by unfold addLog; dsimp only; split <;> (try split) <;> (try split) <;> simp
@[simp] theorem addLog_ctxs (code : Half) (o u c : Word) (d : List Nat) : (addLog code o u c d s).ctxs = s.ctxs := by unfold addLog; dsimp only; split <;> (try split) <;> (try split) <;> simp
@[simp] theorem addLog_endpoints (code : Half) (o u c : Word) (d : List Nat) : (addLog code o u c d s).endpoints = s.endpoints := by unfold addLog; dsimp only; split <;> (try split) <;> (try split) <;> simp
@[simp] theorem addLog_nextEndpoint (code : Half) (o u c : Word) (d : List Nat) : (addLog code o u c d s).nextEndpoint = s.nextEndpoint := by unfold addLog; dsimp only; split <;> (try split) <;> (try split) <;> simp
@[simp] theorem addLog_stores (code : Half) (o u c : Word) (d : List Nat) : (addLog code o u c d s).stores = s.stores := by unfold addLog; dsimp only; split <;> (try split) <;> (try split) <;> simp
@[simp] theorem addLog_shards (code : Half) (o u c : Word) (d : List Nat) : (addLog code o u c d s).shards = s.shards := by unfold addLog; dsimp only; split <;> (try split) <;> (try split) <;> simp
@[simp] theorem addLog_media (code : Half) (o u c : Word) (d : List Nat) : (addLog code o u c d s).media = s.media := by unfold addLog; dsimp only; split <;> (try split) <;> (try split) <;> simp
@[simp] theorem addLog_vols (code : Half) (o u c : Word) (d : List Nat) : (addLog code o u c d s).vols = s.vols := by unfold addLog; dsimp only; split <;> (try split) <;> (try split) <;> simp
@[simp] theorem addLog_leases (code : Half) (o u c : Word) (d : List Nat) : (addLog code o u c d s).leases = s.leases := by unfold addLog; dsimp only; split <;> (try split) <;> (try split) <;> simp
@[simp] theorem addLog_cols (code : Half) (o u c : Word) (d : List Nat) : (addLog code o u c d s).cols = s.cols := by unfold addLog; dsimp only; split <;> (try split) <;> (try split) <;> simp
@[simp] theorem addLog_queries (code : Half) (o u c : Word) (d : List Nat) : (addLog code o u c d s).queries = s.queries := by unfold addLog; dsimp only; split <;> (try split) <;> (try split) <;> simp
@[simp] theorem addLog_scans (code : Half) (o u c : Word) (d : List Nat) : (addLog code o u c d s).scans = s.scans := by unfold addLog; dsimp only; split <;> (try split) <;> (try split) <;> simp
@[simp] theorem addLog_links (code : Half) (o u c : Word) (d : List Nat) : (addLog code o u c d s).links = s.links := by unfold addLog; dsimp only; split <;> (try split) <;> (try split) <;> simp
@[simp] theorem addLog_fabric (code : Half) (o u c : Word) (d : List Nat) : (addLog code o u c d s).fabric = s.fabric := by unfold addLog; dsimp only; split <;> (try split) <;> (try split) <;> simp
@[simp] theorem addLog_errs (code : Half) (o u c : Word) (d : List Nat) : (addLog code o u c d s).errs = s.errs := by unfold addLog; dsimp only; split <;> (try split) <;> (try split) <;> simp
@[simp] theorem addLog_rcv (code : Half) (o u c : Word) (d : List Nat) : (addLog code o u c d s).rcv = s.rcv := by unfold addLog; dsimp only; split <;> (try split) <;> (try split) <;> simp
@[simp] theorem addLog_power (code : Half) (o u c : Word) (d : List Nat) : (addLog code o u c d s).power = s.power := by unfold addLog; dsimp only; split <;> (try split) <;> (try split) <;> simp
@[simp] theorem addLog_free (code : Half) (o u c : Word) (d : List Nat) : (addLog code o u c d s).free = s.free := by unfold addLog; dsimp only; split <;> (try split) <;> (try split) <;> simp

/-! ### `setStatus` -/

@[simp] theorem setStatus_pending (k : Nat) (v : Bool) : (setStatus k v s).pending = s.pending := by unfold setStatus; split <;> simp
@[simp] theorem setStatus_log (k : Nat) (v : Bool) : (setStatus k v s).log = s.log := by unfold setStatus; split <;> simp
@[simp] theorem setStatus_cmds (k : Nat) (v : Bool) : (setStatus k v s).cmds = s.cmds := by unfold setStatus; split <;> simp
@[simp] theorem setStatus_nextCmd (k : Nat) (v : Bool) : (setStatus k v s).nextCmd = s.nextCmd := by unfold setStatus; split <;> simp
@[simp] theorem setStatus_tasks (k : Nat) (v : Bool) : (setStatus k v s).tasks = s.tasks := by unfold setStatus; split <;> simp
@[simp] theorem setStatus_nextTask (k : Nat) (v : Bool) : (setStatus k v s).nextTask = s.nextTask := by unfold setStatus; split <;> simp
@[simp] theorem setStatus_scanHeld (k : Nat) (v : Bool) : (setStatus k v s).scanHeld = s.scanHeld := by unfold setStatus; split <;> simp
@[simp] theorem setStatus_dies (k : Nat) (v : Bool) : (setStatus k v s).dies = s.dies := by unfold setStatus; split <;> simp
@[simp] theorem setStatus_programs (k : Nat) (v : Bool) : (setStatus k v s).programs = s.programs := by unfold setStatus; split <;> simp
@[simp] theorem setStatus_parts (k : Nat) (v : Bool) : (setStatus k v s).parts = s.parts := by unfold setStatus; split <;> simp
@[simp] theorem setStatus_ctxs (k : Nat) (v : Bool) : (setStatus k v s).ctxs = s.ctxs := by unfold setStatus; split <;> simp
@[simp] theorem setStatus_endpoints (k : Nat) (v : Bool) : (setStatus k v s).endpoints = s.endpoints := by unfold setStatus; split <;> simp
@[simp] theorem setStatus_nextEndpoint (k : Nat) (v : Bool) : (setStatus k v s).nextEndpoint = s.nextEndpoint := by unfold setStatus; split <;> simp
@[simp] theorem setStatus_stores (k : Nat) (v : Bool) : (setStatus k v s).stores = s.stores := by unfold setStatus; split <;> simp
@[simp] theorem setStatus_shards (k : Nat) (v : Bool) : (setStatus k v s).shards = s.shards := by unfold setStatus; split <;> simp
@[simp] theorem setStatus_media (k : Nat) (v : Bool) : (setStatus k v s).media = s.media := by unfold setStatus; split <;> simp
@[simp] theorem setStatus_vols (k : Nat) (v : Bool) : (setStatus k v s).vols = s.vols := by unfold setStatus; split <;> simp
@[simp] theorem setStatus_leases (k : Nat) (v : Bool) : (setStatus k v s).leases = s.leases := by unfold setStatus; split <;> simp
@[simp] theorem setStatus_cols (k : Nat) (v : Bool) : (setStatus k v s).cols = s.cols := by unfold setStatus; split <;> simp
@[simp] theorem setStatus_queries (k : Nat) (v : Bool) : (setStatus k v s).queries = s.queries := by unfold setStatus; split <;> simp
@[simp] theorem setStatus_scans (k : Nat) (v : Bool) : (setStatus k v s).scans = s.scans := by unfold setStatus; split <;> simp
@[simp] theorem setStatus_links (k : Nat) (v : Bool) : (setStatus k v s).links = s.links := by unfold setStatus; split <;> simp
@[simp] theorem setStatus_fabric (k : Nat) (v : Bool) : (setStatus k v s).fabric = s.fabric := by unfold setStatus; split <;> simp
@[simp] theorem setStatus_errs (k : Nat) (v : Bool) : (setStatus k v s).errs = s.errs := by unfold setStatus; split <;> simp
@[simp] theorem setStatus_rcv (k : Nat) (v : Bool) : (setStatus k v s).rcv = s.rcv := by unfold setStatus; split <;> simp
@[simp] theorem setStatus_power (k : Nat) (v : Bool) : (setStatus k v s).power = s.power := by unfold setStatus; split <;> simp
@[simp] theorem setStatus_free (k : Nat) (v : Bool) : (setStatus k v s).free = s.free := by unfold setStatus; split <;> simp

/-! ### `degrade` -/

@[simp] theorem degrade_pending (x : Degrade) : (degrade x s).pending = s.pending := by simp [degrade]
@[simp] theorem degrade_log (x : Degrade) : (degrade x s).log = s.log := by simp [degrade]
@[simp] theorem degrade_cmds (x : Degrade) : (degrade x s).cmds = s.cmds := by simp [degrade]
@[simp] theorem degrade_nextCmd (x : Degrade) : (degrade x s).nextCmd = s.nextCmd := by simp [degrade]
@[simp] theorem degrade_tasks (x : Degrade) : (degrade x s).tasks = s.tasks := by simp [degrade]
@[simp] theorem degrade_nextTask (x : Degrade) : (degrade x s).nextTask = s.nextTask := by simp [degrade]
@[simp] theorem degrade_scanHeld (x : Degrade) : (degrade x s).scanHeld = s.scanHeld := by simp [degrade]
@[simp] theorem degrade_dies (x : Degrade) : (degrade x s).dies = s.dies := by simp [degrade]
@[simp] theorem degrade_programs (x : Degrade) : (degrade x s).programs = s.programs := by simp [degrade]
@[simp] theorem degrade_parts (x : Degrade) : (degrade x s).parts = s.parts := by simp [degrade]
@[simp] theorem degrade_ctxs (x : Degrade) : (degrade x s).ctxs = s.ctxs := by simp [degrade]
@[simp] theorem degrade_endpoints (x : Degrade) : (degrade x s).endpoints = s.endpoints := by simp [degrade]
@[simp] theorem degrade_nextEndpoint (x : Degrade) : (degrade x s).nextEndpoint = s.nextEndpoint := by simp [degrade]
@[simp] theorem degrade_stores (x : Degrade) : (degrade x s).stores = s.stores := by simp [degrade]
@[simp] theorem degrade_shards (x : Degrade) : (degrade x s).shards = s.shards := by simp [degrade]
@[simp] theorem degrade_media (x : Degrade) : (degrade x s).media = s.media := by simp [degrade]
@[simp] theorem degrade_vols (x : Degrade) : (degrade x s).vols = s.vols := by simp [degrade]
@[simp] theorem degrade_leases (x : Degrade) : (degrade x s).leases = s.leases := by simp [degrade]
@[simp] theorem degrade_cols (x : Degrade) : (degrade x s).cols = s.cols := by simp [degrade]
@[simp] theorem degrade_queries (x : Degrade) : (degrade x s).queries = s.queries := by simp [degrade]
@[simp] theorem degrade_scans (x : Degrade) : (degrade x s).scans = s.scans := by simp [degrade]
@[simp] theorem degrade_links (x : Degrade) : (degrade x s).links = s.links := by simp [degrade]
@[simp] theorem degrade_fabric (x : Degrade) : (degrade x s).fabric = s.fabric := by simp [degrade]
@[simp] theorem degrade_errs (x : Degrade) : (degrade x s).errs = s.errs := by simp [degrade]
@[simp] theorem degrade_rcv (x : Degrade) : (degrade x s).rcv = s.rcv := by simp [degrade]
@[simp] theorem degrade_power (x : Degrade) : (degrade x s).power = s.power := by simp [degrade]
@[simp] theorem degrade_free (x : Degrade) : (degrade x s).free = s.free := by simp [degrade]

/-! ### `undegrade` -/

@[simp] theorem undegrade_pending (x : Degrade) : (undegrade x s).pending = s.pending := by simp [undegrade]
@[simp] theorem undegrade_log (x : Degrade) : (undegrade x s).log = s.log := by simp [undegrade]
@[simp] theorem undegrade_cmds (x : Degrade) : (undegrade x s).cmds = s.cmds := by simp [undegrade]
@[simp] theorem undegrade_nextCmd (x : Degrade) : (undegrade x s).nextCmd = s.nextCmd := by simp [undegrade]
@[simp] theorem undegrade_tasks (x : Degrade) : (undegrade x s).tasks = s.tasks := by simp [undegrade]
@[simp] theorem undegrade_nextTask (x : Degrade) : (undegrade x s).nextTask = s.nextTask := by simp [undegrade]
@[simp] theorem undegrade_scanHeld (x : Degrade) : (undegrade x s).scanHeld = s.scanHeld := by simp [undegrade]
@[simp] theorem undegrade_dies (x : Degrade) : (undegrade x s).dies = s.dies := by simp [undegrade]
@[simp] theorem undegrade_programs (x : Degrade) : (undegrade x s).programs = s.programs := by simp [undegrade]
@[simp] theorem undegrade_parts (x : Degrade) : (undegrade x s).parts = s.parts := by simp [undegrade]
@[simp] theorem undegrade_ctxs (x : Degrade) : (undegrade x s).ctxs = s.ctxs := by simp [undegrade]
@[simp] theorem undegrade_endpoints (x : Degrade) : (undegrade x s).endpoints = s.endpoints := by simp [undegrade]
@[simp] theorem undegrade_nextEndpoint (x : Degrade) : (undegrade x s).nextEndpoint = s.nextEndpoint := by simp [undegrade]
@[simp] theorem undegrade_stores (x : Degrade) : (undegrade x s).stores = s.stores := by simp [undegrade]
@[simp] theorem undegrade_shards (x : Degrade) : (undegrade x s).shards = s.shards := by simp [undegrade]
@[simp] theorem undegrade_media (x : Degrade) : (undegrade x s).media = s.media := by simp [undegrade]
@[simp] theorem undegrade_vols (x : Degrade) : (undegrade x s).vols = s.vols := by simp [undegrade]
@[simp] theorem undegrade_leases (x : Degrade) : (undegrade x s).leases = s.leases := by simp [undegrade]
@[simp] theorem undegrade_cols (x : Degrade) : (undegrade x s).cols = s.cols := by simp [undegrade]
@[simp] theorem undegrade_queries (x : Degrade) : (undegrade x s).queries = s.queries := by simp [undegrade]
@[simp] theorem undegrade_scans (x : Degrade) : (undegrade x s).scans = s.scans := by simp [undegrade]
@[simp] theorem undegrade_links (x : Degrade) : (undegrade x s).links = s.links := by simp [undegrade]
@[simp] theorem undegrade_fabric (x : Degrade) : (undegrade x s).fabric = s.fabric := by simp [undegrade]
@[simp] theorem undegrade_errs (x : Degrade) : (undegrade x s).errs = s.errs := by simp [undegrade]
@[simp] theorem undegrade_rcv (x : Degrade) : (undegrade x s).rcv = s.rcv := by simp [undegrade]
@[simp] theorem undegrade_power (x : Degrade) : (undegrade x s).power = s.power := by simp [undegrade]
@[simp] theorem undegrade_free (x : Degrade) : (undegrade x s).free = s.free := by simp [undegrade]

/-! ### `refreshFenced` -/

@[simp] theorem refreshFenced_pending : (refreshFenced s).pending = s.pending := by simp [refreshFenced]
@[simp] theorem refreshFenced_log : (refreshFenced s).log = s.log := by simp [refreshFenced]
@[simp] theorem refreshFenced_cmds : (refreshFenced s).cmds = s.cmds := by simp [refreshFenced]
@[simp] theorem refreshFenced_nextCmd : (refreshFenced s).nextCmd = s.nextCmd := by simp [refreshFenced]
@[simp] theorem refreshFenced_tasks : (refreshFenced s).tasks = s.tasks := by simp [refreshFenced]
@[simp] theorem refreshFenced_nextTask : (refreshFenced s).nextTask = s.nextTask := by simp [refreshFenced]
@[simp] theorem refreshFenced_scanHeld : (refreshFenced s).scanHeld = s.scanHeld := by simp [refreshFenced]
@[simp] theorem refreshFenced_dies : (refreshFenced s).dies = s.dies := by simp [refreshFenced]
@[simp] theorem refreshFenced_programs : (refreshFenced s).programs = s.programs := by simp [refreshFenced]
@[simp] theorem refreshFenced_parts : (refreshFenced s).parts = s.parts := by simp [refreshFenced]
@[simp] theorem refreshFenced_ctxs : (refreshFenced s).ctxs = s.ctxs := by simp [refreshFenced]
@[simp] theorem refreshFenced_endpoints : (refreshFenced s).endpoints = s.endpoints := by simp [refreshFenced]
@[simp] theorem refreshFenced_nextEndpoint : (refreshFenced s).nextEndpoint = s.nextEndpoint := by simp [refreshFenced]
@[simp] theorem refreshFenced_stores : (refreshFenced s).stores = s.stores := by simp [refreshFenced]
@[simp] theorem refreshFenced_shards : (refreshFenced s).shards = s.shards := by simp [refreshFenced]
@[simp] theorem refreshFenced_media : (refreshFenced s).media = s.media := by simp [refreshFenced]
@[simp] theorem refreshFenced_vols : (refreshFenced s).vols = s.vols := by simp [refreshFenced]
@[simp] theorem refreshFenced_leases : (refreshFenced s).leases = s.leases := by simp [refreshFenced]
@[simp] theorem refreshFenced_cols : (refreshFenced s).cols = s.cols := by simp [refreshFenced]
@[simp] theorem refreshFenced_queries : (refreshFenced s).queries = s.queries := by simp [refreshFenced]
@[simp] theorem refreshFenced_scans : (refreshFenced s).scans = s.scans := by simp [refreshFenced]
@[simp] theorem refreshFenced_links : (refreshFenced s).links = s.links := by simp [refreshFenced]
@[simp] theorem refreshFenced_fabric : (refreshFenced s).fabric = s.fabric := by simp [refreshFenced]
@[simp] theorem refreshFenced_errs : (refreshFenced s).errs = s.errs := by simp [refreshFenced]
@[simp] theorem refreshFenced_rcv : (refreshFenced s).rcv = s.rcv := by simp [refreshFenced]
@[simp] theorem refreshFenced_power : (refreshFenced s).power = s.power := by simp [refreshFenced]
@[simp] theorem refreshFenced_free : (refreshFenced s).free = s.free := by simp [refreshFenced]

/-! ### `State.tick` -/

@[simp] theorem tick_pending (t : Nat) : (State.tick t s).pending = s.pending := by unfold State.tick; split <;> rfl
@[simp] theorem tick_log (t : Nat) : (State.tick t s).log = s.log := by unfold State.tick; split <;> rfl
@[simp] theorem tick_host (t : Nat) : (State.tick t s).host = s.host := by unfold State.tick; split <;> rfl
@[simp] theorem tick_cmds (t : Nat) : (State.tick t s).cmds = s.cmds := by unfold State.tick; split <;> rfl
@[simp] theorem tick_nextCmd (t : Nat) : (State.tick t s).nextCmd = s.nextCmd := by unfold State.tick; split <;> rfl
@[simp] theorem tick_tasks (t : Nat) : (State.tick t s).tasks = s.tasks := by unfold State.tick; split <;> rfl
@[simp] theorem tick_nextTask (t : Nat) : (State.tick t s).nextTask = s.nextTask := by unfold State.tick; split <;> rfl
@[simp] theorem tick_scanHeld (t : Nat) : (State.tick t s).scanHeld = s.scanHeld := by unfold State.tick; split <;> rfl
@[simp] theorem tick_dies (t : Nat) : (State.tick t s).dies = s.dies := by unfold State.tick; split <;> rfl
@[simp] theorem tick_programs (t : Nat) : (State.tick t s).programs = s.programs := by unfold State.tick; split <;> rfl
@[simp] theorem tick_parts (t : Nat) : (State.tick t s).parts = s.parts := by unfold State.tick; split <;> rfl
@[simp] theorem tick_ctxs (t : Nat) : (State.tick t s).ctxs = s.ctxs := by unfold State.tick; split <;> rfl
@[simp] theorem tick_endpoints (t : Nat) : (State.tick t s).endpoints = s.endpoints := by unfold State.tick; split <;> rfl
@[simp] theorem tick_nextEndpoint (t : Nat) : (State.tick t s).nextEndpoint = s.nextEndpoint := by unfold State.tick; split <;> rfl
@[simp] theorem tick_stores (t : Nat) : (State.tick t s).stores = s.stores := by unfold State.tick; split <;> rfl
@[simp] theorem tick_shards (t : Nat) : (State.tick t s).shards = s.shards := by unfold State.tick; split <;> rfl
@[simp] theorem tick_media (t : Nat) : (State.tick t s).media = s.media := by unfold State.tick; split <;> rfl
@[simp] theorem tick_vols (t : Nat) : (State.tick t s).vols = s.vols := by unfold State.tick; split <;> rfl
@[simp] theorem tick_leases (t : Nat) : (State.tick t s).leases = s.leases := by unfold State.tick; split <;> rfl
@[simp] theorem tick_cols (t : Nat) : (State.tick t s).cols = s.cols := by unfold State.tick; split <;> rfl
@[simp] theorem tick_queries (t : Nat) : (State.tick t s).queries = s.queries := by unfold State.tick; split <;> rfl
@[simp] theorem tick_scans (t : Nat) : (State.tick t s).scans = s.scans := by unfold State.tick; split <;> rfl
@[simp] theorem tick_links (t : Nat) : (State.tick t s).links = s.links := by unfold State.tick; split <;> rfl
@[simp] theorem tick_fabric (t : Nat) : (State.tick t s).fabric = s.fabric := by unfold State.tick; split <;> rfl
@[simp] theorem tick_errs (t : Nat) : (State.tick t s).errs = s.errs := by unfold State.tick; split <;> rfl
@[simp] theorem tick_rcv (t : Nat) : (State.tick t s).rcv = s.rcv := by unfold State.tick; split <;> rfl
@[simp] theorem tick_power (t : Nat) : (State.tick t s).power = s.power := by unfold State.tick; split <;> rfl
@[simp] theorem tick_sec (t : Nat) : (State.tick t s).sec = s.sec := by unfold State.tick; split <;> rfl
@[simp] theorem tick_free (t : Nat) : (State.tick t s).free = s.free := by unfold State.tick; split <;> rfl

/-! ### `advanceGen` -/

@[simp] theorem advanceGen_pending (u : HwUnit) : (advanceGen u s).pending = s.pending := rfl
@[simp] theorem advanceGen_sys (u : HwUnit) : (advanceGen u s).sys = s.sys := rfl
@[simp] theorem advanceGen_log (u : HwUnit) : (advanceGen u s).log = s.log := rfl
@[simp] theorem advanceGen_host (u : HwUnit) : (advanceGen u s).host = s.host := rfl
@[simp] theorem advanceGen_cmds (u : HwUnit) : (advanceGen u s).cmds = s.cmds := rfl
@[simp] theorem advanceGen_nextCmd (u : HwUnit) : (advanceGen u s).nextCmd = s.nextCmd := rfl
@[simp] theorem advanceGen_tasks (u : HwUnit) : (advanceGen u s).tasks = s.tasks := rfl
@[simp] theorem advanceGen_nextTask (u : HwUnit) : (advanceGen u s).nextTask = s.nextTask := rfl
@[simp] theorem advanceGen_scanHeld (u : HwUnit) : (advanceGen u s).scanHeld = s.scanHeld := rfl
@[simp] theorem advanceGen_dies (u : HwUnit) : (advanceGen u s).dies = s.dies := rfl
@[simp] theorem advanceGen_programs (u : HwUnit) : (advanceGen u s).programs = s.programs := rfl
@[simp] theorem advanceGen_parts (u : HwUnit) : (advanceGen u s).parts = s.parts := rfl
@[simp] theorem advanceGen_ctxs (u : HwUnit) : (advanceGen u s).ctxs = s.ctxs := rfl
@[simp] theorem advanceGen_endpoints (u : HwUnit) : (advanceGen u s).endpoints = s.endpoints := rfl
@[simp] theorem advanceGen_nextEndpoint (u : HwUnit) : (advanceGen u s).nextEndpoint = s.nextEndpoint := rfl
@[simp] theorem advanceGen_stores (u : HwUnit) : (advanceGen u s).stores = s.stores := rfl
@[simp] theorem advanceGen_shards (u : HwUnit) : (advanceGen u s).shards = s.shards := rfl
@[simp] theorem advanceGen_media (u : HwUnit) : (advanceGen u s).media = s.media := rfl
@[simp] theorem advanceGen_vols (u : HwUnit) : (advanceGen u s).vols = s.vols := rfl
@[simp] theorem advanceGen_leases (u : HwUnit) : (advanceGen u s).leases = s.leases := rfl
@[simp] theorem advanceGen_cols (u : HwUnit) : (advanceGen u s).cols = s.cols := rfl
@[simp] theorem advanceGen_queries (u : HwUnit) : (advanceGen u s).queries = s.queries := rfl
@[simp] theorem advanceGen_scans (u : HwUnit) : (advanceGen u s).scans = s.scans := rfl
@[simp] theorem advanceGen_links (u : HwUnit) : (advanceGen u s).links = s.links := rfl
@[simp] theorem advanceGen_fabric (u : HwUnit) : (advanceGen u s).fabric = s.fabric := rfl
@[simp] theorem advanceGen_errs (u : HwUnit) : (advanceGen u s).errs = s.errs := rfl
@[simp] theorem advanceGen_power (u : HwUnit) : (advanceGen u s).power = s.power := rfl
@[simp] theorem advanceGen_sec (u : HwUnit) : (advanceGen u s).sec = s.sec := rfl
@[simp] theorem advanceGen_free (u : HwUnit) : (advanceGen u s).free = s.free := rfl

/-! ### `armReset` -/

@[simp] theorem armReset_pending (r : ResetTarget) (hang : Bool) (cause : Half) : (armReset r hang cause s).pending = s.pending := rfl
@[simp] theorem armReset_sys (r : ResetTarget) (hang : Bool) (cause : Half) : (armReset r hang cause s).sys = s.sys := rfl
@[simp] theorem armReset_log (r : ResetTarget) (hang : Bool) (cause : Half) : (armReset r hang cause s).log = s.log := rfl
@[simp] theorem armReset_host (r : ResetTarget) (hang : Bool) (cause : Half) : (armReset r hang cause s).host = s.host := rfl
@[simp] theorem armReset_cmds (r : ResetTarget) (hang : Bool) (cause : Half) : (armReset r hang cause s).cmds = s.cmds := rfl
@[simp] theorem armReset_nextCmd (r : ResetTarget) (hang : Bool) (cause : Half) : (armReset r hang cause s).nextCmd = s.nextCmd := rfl
@[simp] theorem armReset_tasks (r : ResetTarget) (hang : Bool) (cause : Half) : (armReset r hang cause s).tasks = s.tasks := rfl
@[simp] theorem armReset_nextTask (r : ResetTarget) (hang : Bool) (cause : Half) : (armReset r hang cause s).nextTask = s.nextTask := rfl
@[simp] theorem armReset_scanHeld (r : ResetTarget) (hang : Bool) (cause : Half) : (armReset r hang cause s).scanHeld = s.scanHeld := rfl
@[simp] theorem armReset_dies (r : ResetTarget) (hang : Bool) (cause : Half) : (armReset r hang cause s).dies = s.dies := rfl
@[simp] theorem armReset_programs (r : ResetTarget) (hang : Bool) (cause : Half) : (armReset r hang cause s).programs = s.programs := rfl
@[simp] theorem armReset_parts (r : ResetTarget) (hang : Bool) (cause : Half) : (armReset r hang cause s).parts = s.parts := rfl
@[simp] theorem armReset_ctxs (r : ResetTarget) (hang : Bool) (cause : Half) : (armReset r hang cause s).ctxs = s.ctxs := rfl
@[simp] theorem armReset_endpoints (r : ResetTarget) (hang : Bool) (cause : Half) : (armReset r hang cause s).endpoints = s.endpoints := rfl
@[simp] theorem armReset_nextEndpoint (r : ResetTarget) (hang : Bool) (cause : Half) : (armReset r hang cause s).nextEndpoint = s.nextEndpoint := rfl
@[simp] theorem armReset_stores (r : ResetTarget) (hang : Bool) (cause : Half) : (armReset r hang cause s).stores = s.stores := rfl
@[simp] theorem armReset_shards (r : ResetTarget) (hang : Bool) (cause : Half) : (armReset r hang cause s).shards = s.shards := rfl
@[simp] theorem armReset_media (r : ResetTarget) (hang : Bool) (cause : Half) : (armReset r hang cause s).media = s.media := rfl
@[simp] theorem armReset_vols (r : ResetTarget) (hang : Bool) (cause : Half) : (armReset r hang cause s).vols = s.vols := rfl
@[simp] theorem armReset_leases (r : ResetTarget) (hang : Bool) (cause : Half) : (armReset r hang cause s).leases = s.leases := rfl
@[simp] theorem armReset_cols (r : ResetTarget) (hang : Bool) (cause : Half) : (armReset r hang cause s).cols = s.cols := rfl
@[simp] theorem armReset_queries (r : ResetTarget) (hang : Bool) (cause : Half) : (armReset r hang cause s).queries = s.queries := rfl
@[simp] theorem armReset_scans (r : ResetTarget) (hang : Bool) (cause : Half) : (armReset r hang cause s).scans = s.scans := rfl
@[simp] theorem armReset_links (r : ResetTarget) (hang : Bool) (cause : Half) : (armReset r hang cause s).links = s.links := rfl
@[simp] theorem armReset_fabric (r : ResetTarget) (hang : Bool) (cause : Half) : (armReset r hang cause s).fabric = s.fabric := rfl
@[simp] theorem armReset_errs (r : ResetTarget) (hang : Bool) (cause : Half) : (armReset r hang cause s).errs = s.errs := rfl
@[simp] theorem armReset_power (r : ResetTarget) (hang : Bool) (cause : Half) : (armReset r hang cause s).power = s.power := rfl
@[simp] theorem armReset_sec (r : ResetTarget) (hang : Bool) (cause : Half) : (armReset r hang cause s).sec = s.sec := rfl
@[simp] theorem armReset_free (r : ResetTarget) (hang : Bool) (cause : Half) : (armReset r hang cause s).free = s.free := rfl

/-! ### `resetMover` -/

@[simp] theorem resetMover_pending (d k : Nat) : (resetMover d k s).pending = s.pending := by unfold resetMover; dsimp only; split <;> rfl
@[simp] theorem resetMover_sys (d k : Nat) : (resetMover d k s).sys = s.sys := by unfold resetMover; dsimp only; split <;> rfl
@[simp] theorem resetMover_log (d k : Nat) : (resetMover d k s).log = s.log := by unfold resetMover; dsimp only; split <;> rfl
@[simp] theorem resetMover_host (d k : Nat) : (resetMover d k s).host = s.host := by unfold resetMover; dsimp only; split <;> rfl
@[simp] theorem resetMover_cmds (d k : Nat) : (resetMover d k s).cmds = s.cmds := by unfold resetMover; dsimp only; split <;> rfl
@[simp] theorem resetMover_nextCmd (d k : Nat) : (resetMover d k s).nextCmd = s.nextCmd := by unfold resetMover; dsimp only; split <;> rfl
@[simp] theorem resetMover_tasks (d k : Nat) : (resetMover d k s).tasks = s.tasks := by unfold resetMover; dsimp only; split <;> rfl
@[simp] theorem resetMover_nextTask (d k : Nat) : (resetMover d k s).nextTask = s.nextTask := by unfold resetMover; dsimp only; split <;> rfl
@[simp] theorem resetMover_scanHeld (d k : Nat) : (resetMover d k s).scanHeld = s.scanHeld := by unfold resetMover; dsimp only; split <;> rfl
@[simp] theorem resetMover_dies (d k : Nat) : (resetMover d k s).dies = s.dies := by unfold resetMover; dsimp only; split <;> rfl
@[simp] theorem resetMover_programs (d k : Nat) : (resetMover d k s).programs = s.programs := by unfold resetMover; dsimp only; split <;> rfl
@[simp] theorem resetMover_parts (d k : Nat) : (resetMover d k s).parts = s.parts := by unfold resetMover; dsimp only; split <;> rfl
@[simp] theorem resetMover_ctxs (d k : Nat) : (resetMover d k s).ctxs = s.ctxs := by unfold resetMover; dsimp only; split <;> rfl
@[simp] theorem resetMover_endpoints (d k : Nat) : (resetMover d k s).endpoints = s.endpoints := by unfold resetMover; dsimp only; split <;> rfl
@[simp] theorem resetMover_nextEndpoint (d k : Nat) : (resetMover d k s).nextEndpoint = s.nextEndpoint := by unfold resetMover; dsimp only; split <;> rfl
@[simp] theorem resetMover_stores (d k : Nat) : (resetMover d k s).stores = s.stores := by unfold resetMover; dsimp only; split <;> rfl
@[simp] theorem resetMover_shards (d k : Nat) : (resetMover d k s).shards = s.shards := by unfold resetMover; dsimp only; split <;> rfl
@[simp] theorem resetMover_media (d k : Nat) : (resetMover d k s).media = s.media := by unfold resetMover; dsimp only; split <;> rfl
@[simp] theorem resetMover_vols (d k : Nat) : (resetMover d k s).vols = s.vols := by unfold resetMover; dsimp only; split <;> rfl
@[simp] theorem resetMover_leases (d k : Nat) : (resetMover d k s).leases = s.leases := by unfold resetMover; dsimp only; split <;> rfl
@[simp] theorem resetMover_cols (d k : Nat) : (resetMover d k s).cols = s.cols := by unfold resetMover; dsimp only; split <;> rfl
@[simp] theorem resetMover_queries (d k : Nat) : (resetMover d k s).queries = s.queries := by unfold resetMover; dsimp only; split <;> rfl
@[simp] theorem resetMover_scans (d k : Nat) : (resetMover d k s).scans = s.scans := by unfold resetMover; dsimp only; split <;> rfl
@[simp] theorem resetMover_links (d k : Nat) : (resetMover d k s).links = s.links := by unfold resetMover; dsimp only; split <;> rfl
@[simp] theorem resetMover_fabric (d k : Nat) : (resetMover d k s).fabric = s.fabric := by unfold resetMover; dsimp only; split <;> rfl
@[simp] theorem resetMover_errs (d k : Nat) : (resetMover d k s).errs = s.errs := by unfold resetMover; dsimp only; split <;> rfl
@[simp] theorem resetMover_power (d k : Nat) : (resetMover d k s).power = s.power := by unfold resetMover; dsimp only; split <;> rfl
@[simp] theorem resetMover_sec (d k : Nat) : (resetMover d k s).sec = s.sec := by unfold resetMover; dsimp only; split <;> rfl
@[simp] theorem resetMover_free (d k : Nat) : (resetMover d k s).free = s.free := by unfold resetMover; dsimp only; split <;> rfl

/-- An entry is added to the log with the module time and the next sequence number (R361, R362). -/
theorem addLog_next (code : Half) (o u c : Word) (d : List Nat) : (addLog code o u c d s).log.next = s.log.next + 1 := by
  unfold addLog LogRing.add; dsimp only; split <;> (try split) <;> (try split) <;> simp [setFlag, signalVector] <;>
    (repeat' split) <;> rfl

theorem addLog_last (code : Half) (o u c : Word) (d : List Nat) :
    (addLog code o u c d s).log.entries.getLast? =
      some { seq := s.log.next, time := s.sys.time, code := code, severity := logSeverity code, origin := o, unit := u,
             context := c, detail := d } := by
  unfold addLog LogRing.add; dsimp only; split <;> (try split) <;> (try split) <;> simp [setFlag, signalVector] <;>
    (repeat' split) <;> simp

end Sys2Proof.Machine
end

