-- ==== Sys2Proof/WellFormed.lean ====
section
/-! DEFINITION. Which commands are well formed: the sizes and ranges of operands that their Lean types leave wide and the
manual fixes.  The meanings are total and take any operand; a claim about an ill-formed command is no claim about the
module. -/

namespace Sys2Proof

/-- Why a command is ill-formed. -/
inductive Problem where
  /-- A flit is not 256 bytes (R287). -/
  | flitSize
  /-- A corrected byte count of a flit exceeds its 256 bytes (R287). -/
  | correctedBytes
  /-- A batch credit return does not have 16 fields of 16 bits (R288). -/
  | creditFields
  /-- A data segment is empty or over 1 MiB (R314). -/
  | segmentSize
  /-- A control command packet is not 64 bytes (R346, R347). -/
  | packetSize
  /-- A page number lies outside the 2^27 pages of a store space (R140). -/
  | pageNumber
  /-- A shard's chunk, or group of 256 elements, lies outside its 2^36 elements (R120, R124). -/
  | chunkNumber
  /-- An ECC test port operation has not the data words of its target (R374). -/
  | eccWords
  /-- Partition power figures are not one for each of the four partitions (R427). -/
  | partFigures
  /-- A nonce is not 32 bytes (R447). -/
  | nonceSize
  /-- A superblock block index is named twice (R270). -/
  | slotsTwice
  /-- A use of power is over 100 % (R294). -/
  | percent
deriving DecidableEq, Repr

/-- The page number lies in a store space. -/
def pageOk (page : Nat) : Option Problem := if page < 134217728 then none else some .pageNumber

/-- The chunk number lies in a shard. -/
def chunkOk (chunk : Nat) : Option Problem := if chunk < 262144 then none else some .chunkNumber

/-- The data words of a test port operation. -/
def EccReq.problem (r : EccReq) : Option Problem :=
  if r.data.length = (if r.target = .hbm then 8 else 1) then none else some .eccWords

/-- What is wrong with a waiter. -/
def Waiter.problem : Waiter → Option Problem
  | .chunk _ k => chunkOk k
  | _ => none

/-- What is wrong with a command, if anything. -/
def Instr.problem : Instr → Option Problem
  | .payloadFlitReceive _ flit chk =>
    if flit.length ≠ 256 then some .flitSize
    else if chk.correctedBy.all fun e => decide (e.2 ≤ 256) then none else some .correctedBytes
  | .creditReturnReceive _ slots =>
    if slots.length = 16 ∧ slots.all (fun n => decide (n < 65536)) = true then none else some .creditFields
  | .dataSegmentReceive _ _ _ _ data _ =>
    if 1 ≤ data.length ∧ data.length ≤ 1048576 then none else some .segmentSize
  | .sqEntryTake _ packet => if packet.length = 64 then none else some .packetSize
  | .pageFetchStart _ page => pageOk page
  | .pageFetchComplete _ page _ _ => pageOk page
  | .writebackComplete _ page _ => pageOk page
  | .idleAgeExpiry _ page _ => pageOk page
  | .frameRetire _ _ page => pageOk page
  | .tierDeadline w _ => w.problem
  | .update _ _ _ chunk group _ => if group < 1024 then chunkOk chunk else some .chunkNumber
  | .chunkStepComplete _ chunk => chunkOk chunk
  | .stepLate _ chunk _ => chunkOk chunk
  | .eccReadRaw _ r => r.problem
  | .eccWriteSplit _ r => r.problem
  | .eccWrite _ r => r.problem
  | .eccRead _ r => r.problem
  | .capLoopTick _ partMw _ => if partMw.length = 4 then none else some .partFigures
  | .challenge _ _ nonce => if nonce.length = 32 then none else some .nonceSize
  | .getMeasurements _ _ nonce => if nonce.length = 32 then none else some .nonceSize
  | .blockEraseComplete _ failed => if failed.Nodup then none else some .slotsTwice
  | .powerShedTick _ percent => if percent ≤ 100 then none else some .percent
  | _ => none

/-- A command is well formed. -/
def Instr.wf (i : Instr) : Bool := i.problem.isNone

end Sys2Proof
end

