-- ==== Sys2Proof/Tests/Slice0.lean ====
section
/-! SUPPORT. The row's own tests: an ill-formed command for every check of WellFormed, and for the statements of
Obligations a state and operands that meet the hypotheses of their clauses.  No witness is given
for what rests on functions that outside standards define and the model leaves open (a signature that verifies, a root
key's digest), or on images of 98 KB. -/

namespace Sys2Proof.Tests

set_option Elab.async false

open Sys2Proof.Machine

/-! ## A small module to test on -/

/-- A command of the secure channel with index 0, in context 1 of partition 0, for the module. -/
def cap : Capsule :=
  { origin := .secure 0, tag := 1, completion := 0, atomic := false, barrier := false, reservedZero := true,
    partition := 0, context := 1, object := 0xF0000000, offset := 0, length := 0, dataLen := 0, p0 := 0, p1 := 0, p2 := 0,
    p3 := 0, p4 := 0, p5 := 0, slotEn := false, slot := 0, dataAddr := 0 }

/-- A context of partition 0. -/
def ctx0 : Ctx :=
  { part := 0, prio := 1, affinity := 0, mode := 0, onPreempt := false, saveMiB := 8, depth := 256, held := false,
    shardDie := none, search := false, ctr := {} }

/-- A page in a state, on die 0. -/
def page (st : PgState) : Page :=
  { st := st, pinned := false, die := 0, stamp := 0, stuck := false, pinAfter := false,
    released := false, lastCtx := 1 }

/-- Store space: 16 pages from 0; pages 1 to 6 in the states after ZERO, page 7 pinned. -/
def store0 : Store :=
  { ranges := [{ base := 0, pages := 16, hint := 0, die := 0 }],
    pages := [(1, page .clean), (2, page .dirty), (3, page .flash), (4, page .fetching), (5, page .writing),
      (6, page .poisoned), (7, { page .clean with pinned := true })],
    mem := [] }

/-- A volume of one sheet that completes writes as DURABLE or ABSORBED. -/
def vol0 (mode : BitVec 2) : Vol :=
  { part := 0, size := 8388608, mode := mode, absorbMiB := 2, absorbPin := none, keySource := false, keyId := 0,
    keyLost := false, mem := [], plat := [], absorbNext := 1, watermark := 0, absorbed := [] }

/-- A shard of two chunks, the second of 256 elements, with two states and two contributors. -/
def shard0 : Shard :=
  { part := 0, die := 0, n := 262400, states := 2, bf16 := true, pub := 0, contributors := 2, deadline := 5,
    apply := false, spill := false, frames := 4,
    settings := [{ step := 1, groups := [{ start := 0, entry := 0 }], curves := [(0, [(0, 0x3F800000)])] }],
    begun := 0, w := [], s1 := [], s2 := [], chunks := [], creator := .fabric 5 0, stepSent := none, stepHeld := false,
    attnSent := none, announced := 0 }

/-- The bytes of a program of 12 clusters, one entry and a save of 2 MiB: one row, then the first entry of both descriptor
tables. -/
def imageOf (row desc : List Byte) : List Byte :=
  leBytes 4 0xCA2E0208 ++ leBytes 2 1 ++ [12, 1] ++ leBytes 4 128 ++ leBytes 4 row.length ++ leBytes 4 (128 + row.length) ++
    leBytes 4 98304 ++ leBytes 4 (128 + row.length) ++ leBytes 4 8192 ++ List.replicate 16 0 ++ leBytes 4 2097152 ++
    List.replicate 76 0 ++ row ++ desc

/-- A program whose one row has no slots. -/
def prog0 : Program := { part := 0, image := imageOf (List.replicate 12 0) [], frames := 1, die := 0, slots := 0, damaged := false }

/-- A serving endpoint of context 1 with one sequence that waits. -/
def end0 : Endpoint :=
  { part := 0, prog := 0x40000001, entry := 0, ctx := 1, region := 0x1000000, chunk := 512, budget := 4096, limit := 4,
    seqs := [{ id := 0, cmd := none, scan := none, prompt := 0, promptLen := 3, out := 0, maxNew := 1, done := 0, made := 0,
               cancelled := false }],
    nextSeq := 1, step := 0, running := none, finished := none }

/-- A collection of 8 dimensions in BF16, inner product, one parcel, one attribute word. -/
def col0 : Col :=
  newCol { cap with length := 100, p0 := 0x08000008, p1 := 0x00200001, p2 := 0xFFFF00FF, p3 := 0xFFFFFFFF, p4 := 0xFFFFFFFF }

/-- A span that an engine holds. -/
def span0 : Span := { pos := 0, placed := true, done := false, released := false, out := [] }

/-- A scan of a volume whose command has tag 9. -/
def scan0 : Scan :=
  { cmd := 5, vol := 0x10000001, base := 0, len := 4096, sink := 1, flags := 0, keyField := 0, tokField := 0, scores := 0,
    col := 0, endpoint := 0, outBase := 0, outLen := 0, limit := 10, threshold := 0, topN := 0, window := 4, kind := 0,
    fixed := 0, fields := [], terms := [], proj := [], spans := [(0, span0)], sum := {}, written := 0, unreturned := 3, segment := [], seqs := [], nextSeq := 0,
    top := [], stop := none, frames := 0 }

/-- A command of the table that runs. -/
def run0 (op : Half) (c : Capsule) : Live :=
  { op := op, c := c, admitted := 0, phase := .running, granted := 0, grantAt := 0, grantBase := 0, landed := 0, segs := [],
    epoch := 0, waitSince := none, discard := false, sent := 0, recalls := [], applied := false, detail := 0,
    streamEnds := [] }

/-- A lease of the first sheet of the first volume, held by node 5 on link 0. -/
def lease0 : Lease :=
  { inc := 1, st := 1, vol := 0x10000001, first := 0, count := 1, holder := 5, link := 0, expiry := 1000, recallAt := 0 }

/-- The module after reset with a session, two partitions, contexts, store space, volumes, collections, a shard, programs,
endpoints, a running scan, a lease, a dump and a link that is UP. -/
def world : State :=
  let r := State.reset
  { r with
    sec := { r.sec with
      spdm := [(16, { step := 3, session := some (0, false) })]
      access := r.sec.access ++ [{ kind := 3, id := 5, mask := 0xFFFFF, rights := 0xFFF, admin := true }] }
    parts := [(0, { Part.fresh with dies := 3, scan := 0x00FF }), (1, { Part.fresh with dies := 4, scan := 0xFF00 })]
    ctxs := [(1, ctx0), (2, { ctx0 with onPreempt := true }), (3, { ctx0 with held := true })]
    stores := [(0, store0)]
    vols := [(0x10000001, vol0 1), (0x10000002, vol0 2)]
    shards := [(0x30000001, shard0)]
    programs := [(0x40000001, prog0), (0x40000002, prog0)]
    endpoints := [(0, end0), (1, { end0 with seqs := [] })]
    nextEndpoint := 2
    cols := [(0x20000001, { col0 with codebook := some (List.replicate 2048 0), centroids := some (List.replicate 8 0) }),
             (0x20000002, col0)]
    cmds := [(5, run0 0x0520 { cap with tag := 9, object := 0x10000001 })]
    nextCmd := 6
    scans := [(5, scan0)]
    leases := [(0, lease0)]
    rcv := { r.rcv with area := [{ seq := 1, time := 0, trigger := 2, part := 0, cause := 0, units := [], unreadable := [], flags := 0 }] }
    fabric := { r.fabric with manager := true, dir := [{ object := 0x10000001, first := 0, stop := 8, owner := 5, gen := 1 }] }
    links := [(0, { Link.fresh with st := .up, peer := 5 })] }

/-- A command of node 5 over link 0. -/
def far : Capsule := { cap with origin := .fabric 5 0 }

/-- A command for the store space of partition 0. -/
def sto : Capsule := { cap with object := 0xF0000100 }

/-- Commands that the small module takes up at once, one or more of an opcode. -/
def taken0 : List (Nat × Capsule) :=
  [(0x0120, { cap with p0 := 0x82 }),
   (0x0121, { cap with p0 := 1 }),
   (0x0122, { cap with p0 := 0, p1 := 8, p4 := 50 }),
   (0x0123, { cap with p0 := 1, p1 := 2 }),
   (0x0124, cap),
   (0x0130, { cap with p0 := 1 }),
   (0x0131, { cap with p0 := 2 }),
   (0x0132, { cap with p0 := 1, p1 := 3, p2 := 1 }),
   (0x0133, { cap with p0 := 1, p1 := 1 }),
   (0x0134, { cap with p0 := 1 }),
   (0x0140, { sto with offset := 0x4000000, length := 0x200000 }),
   (0x0141, { sto with offset := 0x200000, length := 0x200000 }),
   (0x0142, { sto with offset := 0x200000, length := 0x200000 }),
   (0x0143, { sto with offset := 0xE00000, length := 0x200000 }),
   (0x0144, { sto with offset := 0x200000, length := 16 }),
   (0x0145, { sto with offset := 0x200000, length := 16, dataLen := 16 }),
   (0x0146, { sto with offset := 0x800000, length := 0x200000 }),
   (0x0147, { sto with length := 0x200000 }),
   (0x0148, { sto with p0 := 4, p1 := 0xFFFFFFFF, p2 := 10, p3 := 3, p4 := 1 }),
   (0x0201, { cap with object := 0x10000003, length := 0x800000, p0 := 1 }),
   (0x0202, { cap with object := 0x10000002 }),
   (0x0203, { cap with object := 0x10000001 }),
   (0x0210, { cap with object := 0x10000001, length := 4096 }),
   (0x0211, { cap with object := 0x10000002 }),
   (0x0220, { cap with object := 0x10000001, length := 4096 })]

/-- Commands that the small module takes up at once, one or more of an opcode, continued. -/
def taken1 : List (Nat × Capsule) :=
  [(0x0221, { cap with object := 0x10000002, length := 4096, dataLen := 4096 }),
   (0x0301, { cap with object := 0x20000003, length := 100, p0 := 0x08000008, p1 := 0x00200001, p2 := 0xFFFF00FF, p3 := 0xFFFFFFFF, p4 := 0xFFFFFFFF }),
   (0x0302, { cap with object := 0x20000002 }),
   (0x0303, { cap with object := 0x20000002, length := 8192, dataLen := 8192 }),
   (0x0304, { cap with object := 0x20000002, length := 32, dataLen := 32 }),
   (0x0310, { cap with object := 0x20000001, length := col0.entryBytes, dataLen := BitVec.ofNat 32 col0.entryBytes }),
   (0x0311, { cap with object := 0x20000001, length := 8, dataLen := 8 }),
   (0x0312, { cap with object := 0x20000001 }),
   (0x0320, { cap with object := 0x20000001, length := 96, dataLen := 96 }),
   (0x0321, { cap with object := 0x20000001, length := 8, dataLen := 8, p0 := 0xFFFFFFFF }),
   (0x0330, { cap with object := 0x20000001 }),
   (0x0331, { cap with object := 0x20000001 }),
   (0x0401, { cap with object := 0x30000002, length := 256, p0 := 0x10, p1 := 1 }),
   (0x0402, { cap with object := 0x30000001 }),
   (0x0403, { cap with object := 0x30000001, dataLen := 72, p0 := 1 }),
   (0x0404, { cap with object := 0x30000001, dataLen := 576 }),
   (0x0405, { cap with object := 0x30000001, offset := 262144, length := 256, p0 := 0x200000 }),
   (0x0406, { cap with object := 0x30000001, offset := 262144, length := 256, p0 := 0x200000 }),
   (0x0410, { cap with object := 0x30000001, offset := 262144, length := 512, dataLen := 512, p0 := 1, p1 := 1, p2 := 1 }),
   (0x0411, { cap with object := 0x30000001, p0 := 1 }),
   (0x0412, { cap with object := 0x30000001, length := 2 }),
   (0x0420, { cap with object := 0x30000001, length := 256, p0 := 0 }),
   (0x0501, { cap with object := 0x40000003, offset := 0x200000, length := 128 }),
   (0x0502, { cap with object := 0x40000001 }),
   (0x0503, { cap with object := 0x40000002 })]

/-- Commands that the small module takes up at once, one or more of an opcode, continued. -/
def taken2 : List (Nat × Capsule) :=
  [(0x0510, { cap with object := 0x40000001, offset := 0x1000000, p3 := 4 }),
   (0x0511, { cap with offset := 0, p2 := 3, p5 := 1 }),
   (0x0512, { cap with offset := 0, p0 := 0 }),
   (0x0513, { cap with offset := 1 }),
   (0x0520, { cap with object := 0x10000001, length := 4096, dataLen := 144 }),
   (0x0521, { cap with p0 := 9 }),
   (0x0522, { cap with p0 := 9 }),
   (0x0523, { cap with p0 := 9, p1 := 2 }),
   (0x0601, { cap with length := 64 }),
   (0x0602, { cap with length := 64 }),
   (0x0610, { cap with dataLen := 64 }),
   (0x0611, cap),
   (0x0612, cap),
   (0x0613, cap),
   (0x0620, { cap with length := 64 }),
   (0x0621, { cap with dataLen := 128 }),
   (0x0622, { cap with p0 := 1 }),
   (0x0623, { cap with dataLen := 16 }),
   (0x0630, { cap with offset := 0xA0, dataLen := 4 }),
   (0x0640, cap),
   (0x0641, { cap with dataLen := 32 }),
   (0x0650, { cap with p0 := 7 }),
   (0x0651, { cap with dataLen := 64 }),
   (0x0652, cap),
   (0x0653, cap)]

/-- Commands that the small module takes up at once, one or more of an opcode, continued. -/
def taken3 : List (Nat × Capsule) :=
  [(0x0654, cap),
   (0x0660, { cap with p0 := 0, p1 := 1 }),
   (0x0660, { cap with p0 := 1, p1 := 0x10 }),
   (0x0660, { cap with p0 := 2, p1 := 1 }),
   (0x0660, { cap with p0 := 3 }),
   (0x0661, cap),
   (0x0662, { cap with p0 := 3 }),
   (0x0663, { cap with p0 := 1, p1 := 0x10 }),
   (0x0664, { cap with p0 := 1, length := 64 }),
   (0x0670, cap),
   (0x0671, { cap with dataLen := 80 }),
   (0x0672, { cap with p0 := 1, p1 := 1 }),
   (0x0672, { cap with p0 := 4, p1 := 1 }),
   (0x0672, { cap with p0 := 4 }),
   (0x0710, { cap with p0 := 1 }),
   (0x0711, { cap with p0 := 1, p1 := 1 }),
   (0x0712, { cap with p0 := 1, dataLen := 32 }),
   (0x0713, { cap with dataLen := 4 }),
   (0x0714, { cap with dataLen := 72 }),
   (0x0715, { cap with p0 := 1 }),
   (0x0715, { cap with p0 := 1, p1 := 4 }),
   (0x0720, { cap with object := 0x10000001 }),
   (0x0721, { cap with object := 0xF0000200, dataLen := 32 }),
   (0x0722, { cap with object := 0xF0000200, length := 1 }),
   (0x0723, { cap with object := 0xF0000200 })]

/-- Commands that the small module takes up at once, one or more of an opcode, continued. -/
def taken4 : List (Nat × Capsule) :=
  [(0x0740, { far with object := 0x10000001, length := 0x800000 }),
   (0x0741, { far with object := 0x10000001, p0 := 0x10000 }),
   (0x0742, { far with object := 0x10000001, length := 4096, p0 := 0x10000 })]

/-- The small module with every HBM frame of dies 0 to 2 pinned; a page of die 0 is being written back. -/
def full : State :=
  foldOver [0, 1, 2] (fun d s => s.modDie d fun x => { x with otherFrames := 49152 }) world

/-- The same without the write-back. -/
def packed : State := { full with stores := [] }

/-- A state's command table after a command has entered. -/
def enter (op : Nat) (c : Capsule) (s : State) : State := s.entered op c

/-- Hypotheses of RefusedCommands that can be met. -/
theorem witness_refused :
    refusal 0x0120 cap (checkOf 0x0120 cap) world = some (0x0101, 0) ∧
    refusal 0x0740 { far with object := 1 } (checkOf 0x0740 { far with object := 1 }) world = some (0x0102, 0) ∧
    refusal 0x0740 { far with reservedZero := false } (checkOf 0x0740 { far with reservedZero := false }) world = some (0x0103, 0) ∧
    dropped 0x0740 far world = false ∧
    dropped 0x0740 { far with tag := 7 } { world with cmds := [(5, run0 0x0742 { far with tag := 7 })] } = true ∧
    dropped 0x0740 far { world with links := [] } = true := by decide +kernel

/-- Hypotheses of PartitionAndContextCommands that can be met. -/
theorem witness_contexts :
    (pinSaves 8 0 (diesOf (world.entered 0x0130 cap) 0) (world.entered 0x0130 cap)).2 = some true ∧
    (pinSaves 8 0 (diesOf (packed.entered 0x0130 cap) 0) (packed.entered 0x0130 cap)).2 = none ∧
    (pinSaves 8 0 (diesOf (full.entered 0x0130 cap) 0) (full.entered 0x0130 cap)).2 = some false ∧
    accepted 0x0130 cap packed = true ∧ accepted 0x0130 cap full = true ∧
    freeCtx (world.entered 0x0130 cap) = some 0 ∧ (world.ctx? 1).isSome = true := by decide +kernel

/-- The endpoint's first step, running for command 5 and ended with a status. -/
def endRan (st : Half) : State :=
  { world with endpoints := [(0, { end0 with
      running := some ([{ seq := 0, prefill := true, last := true, pos := 0, tokens := 3 }], 5), finished := some st })] }

/-- Hypotheses of Serving that can be met. -/
theorem witness_serving :
    ((Tbl.get? world.endpoints 0).any fun e => e.running.isNone && !(batchOf e).isEmpty) = true ∧
    ((Tbl.get? (endRan 0).endpoints 0).any fun e => e.running.isSome && e.finished.isSome) = true ∧
    world.power.chargedAt + 1000000 ≤ (world.tick 1000000).sys.time ∧ end0.inStep 0 = false := by decide +kernel

/-- Hypotheses of StoreSpace that can be met. -/
theorem witness_store :
    (readRange 0 (pagesOf 0x200000 16) 1 (world.entered 0x0144 { sto with offset := 0x200000, length := 16 })).2 = .ok ∧
    (readRange 0 (pagesOf 0x600000 16) 1 (world.entered 0x0144 { sto with offset := 0x600000, length := 16 })).2 = .wait ∧
    accepted 0x0144 { sto with offset := 0x600000, length := 16 } world = true ∧
    accepted 0x0142 { sto with offset := 0x200000, length := 0x200000 } (world.modPart 0 fun p => { p with pinLimit := 1 }) = true ∧
    1 < pinnedPages world 0 + (world.part 0).pinned + 1 ∧ pinnedPages world 0 + (world.part 0).pinned + 1 ≤ 2 ∧
    ([1].foldl (fun acc g => if acc.2 = .ok then pinPage 6 0 g 1 acc.1 else acc)
      (world.entered 0x0142 { sto with offset := 0x200000, length := 0x200000 }, PageAccess.ok)).2 = .ok := by decide +kernel

/-- A range of one page from an address. -/
def onePage (off : BitVec 64) : Capsule := { sto with offset := off, length := 0x200000 }

/-- Hypotheses of StoreSpace that can be met. -/
theorem witness_store_ranges :
    accepted 0x0146 (onePage 0x800000) world = true ∧
    rangeBusy (world.entered 0x0146 (onePage 0x800000)) world.nextCmd (Capsule.entry 0x0146 (onePage 0x800000) world) = true ∧
    accepted 0x0146 (onePage 0x200000) world = true ∧
    rangeBusy (world.entered 0x0146 (onePage 0x200000)) world.nextCmd (Capsule.entry 0x0146 (onePage 0x200000) world) = false ∧
    rangePinned (world.entered 0x0146 (onePage 0x200000)) (onePage 0x200000) = false ∧
    accepted 0x0141 (onePage 0x200000) world = true ∧
    rangeBusy (world.entered 0x0141 (onePage 0x200000)) world.nextCmd (Capsule.entry 0x0141 (onePage 0x200000) world) = false ∧
    rangePinned (world.entered 0x0141 (onePage 0x200000)) (onePage 0x200000) = false := by decide +kernel

/-- A die with some frames left free. -/
def leave (n : Nat) : State := world.modDie 0 fun x => { x with otherFrames := 49152 - 2304 - 5 - n }

/-- Hypotheses of PageTransfers that can be met. -/
theorem witness_pages :
    (world.store 0).mapped 3 = true ∧ ((world.store 0).page 3).st = .flash ∧ (findFrame 0 3 0 world).2.isSome = true ∧
    ((world.store 0).page 4).st = .fetching ∧ ((world.store 0).page 5).st = .writing ∧
    freeFrames (leave 255) 0 = 255 ∧ freeFrames (leave 512) 0 = 512 := by decide +kernel

/-- A stream of context 1 on die 0, on clusters 0 to 11, whose command is number 4. -/
def stream0 : Stream :=
  { ctx := 1, cmd := 4, prog := 0x40000001, core := Core.fresh, cycle := 100, since := 0, map := List.range 12, row := 0,
    plan := 7, stall := none, ended := false, fault := false, halted := [], image := none, older := none,
    entry := Core.fresh, preempt := false, placedAt := 0, layer := none, passes := [], swatch := none, mismatches := 0,
    replayTo := none, noSwatch := false }

/-- The small module with a stream on die 0 that runs a program. -/
def playing (img : List Byte) (x : Stream) : State :=
  let s := world.modDie 0 fun y => { y with stream := some x }
  { s with programs := [(0x40000001, { prog0 with image := img })],
           cmds := (4, run0 0x0502 { cap with tag := 8, object := 0x40000001 }) :: s.cmds }

/-- The small module with the stream on die 0. -/
def plays (x : Stream) : State := playing prog0.image x

/-- A program with a layer schedule of two entries: pages 1 and 2, then page 3 with a lead of 5 µs. -/
def layers : List Byte :=
  leBytes 4 0xCA2E0208 ++ leBytes 2 1 ++ [12, 1] ++ leBytes 4 128 ++ leBytes 4 12 ++ List.replicate 24 0 ++
    leBytes 4 140 ++ leBytes 4 80 ++ leBytes 4 2097152 ++ List.replicate 76 0 ++ List.replicate 12 0 ++
    (leBytes 4 2 ++ List.replicate 12 0) ++
    (leBytes 8 0x200000 ++ leBytes 4 2 ++ List.replicate 20 0) ++
    (leBytes 8 0x600000 ++ leBytes 4 1 ++ leBytes 4 5 ++ List.replicate 16 0)

/-- The same with its second entry written whole. -/
def wholeLayers : List Byte := layers.take 204 ++ [0x02] ++ layers.drop 205

/-- The small module with a command of the table. -/
def withLive (l : Live) : State := { world with cmds := [(4, l)] }

/-- Hypotheses of PageTransfers that can be met. -/
theorem witness_tiers :
    evictable world 0 0 ((world.store 0).page 1) = true ∧
    ((world.tick 86400001000000).part 0).idleH * 3600000 <
      (world.tick 86400001000000).sys.time / 1000000 - ((world.store 0).page 1).stamp ∧
    needTime (playing layers { stream0 with layer := some (0, 10) }) { stream0 with layer := some (0, 10) } 1 = some 5010 ∧
    wholeEntry world 0 3 = false ∧ wholeEntry (playing wholeLayers { stream0 with layer := some (0, 10) }) 0 3 = true ∧
    (findFrame 0 3 256 (playing wholeLayers { stream0 with layer := some (0, 10) })).2.isSome = true ∧
    schedPages layers 1 = 1 ∧ schedBase layers 1 = 3 ∧ ((world.store 0).page 3).st = .flash ∧
    ((withLive { run0 0x0144 sto with phase := .pages, waitSince := some 0 }).live? 4).isSome = true ∧
    0 + 1000000 * (world.part 0).tierMs ≤ (world.tick 50000000).sys.time := by decide +kernel

/-- The small module whose store space holds some bytes from 2 MiB on. -/
def holding (bs : List Byte) : State :=
  { world with stores := [(0, { store0 with mem := Mem.writeBytes 0x200000 bs [] })] }

/-- Hypotheses of ProgramCommands that can be met. -/
theorem witness_programs :
    (readRange 0 (pagesOf 0x200000 128) 1 world).2 = .ok ∧ loadCheck (List.replicate 128 0) = 1 ∧
    (pinFrames (lowestDie world 0) 1 0 world).2 = some true ∧ (Tbl.get? world.programs 0x40000002).isSome = true := by
  decide +kernel

/-- Hypotheses of ShardSetup that can be met. -/
theorem witness_shard_setup :
    (pinFrames 0 (shardPins (newShard { cap with length := 256, p0 := 0x10, p1 := 1 }) + 512) 0 world).2 = some true ∧
    (world.shard? 0x30000001).isSome = true ∧ startsOk shard0 [{ start := 0, entry := 0 }, { start := 262144, entry := 0 }] = true ∧
    badEntry shard0 0 = false ∧
    startsOk shard0 (groupsOf (run0 0x0403 { cap with p0 := 1 }).data 1) = true ∧
    fieldAt (leBytes 4 2 ++ List.replicate 60 0 ++ leBytes 8 1 ++ leBytes 8 5) 0 4 = 2 ∧
    curveOf (leBytes 4 2 ++ List.replicate 60 0 ++ leBytes 8 1 ++ leBytes 8 5) = [(1, 0), (5, 0)] := by decide +kernel

/-- Hypotheses of ShardData that can be met. -/
theorem witness_shard_data :
    (readRange 0 (pagesOf 0x200000 3072) 1 world).2 = .ok ∧
    stepMeets shard0 { cap with offset := 262144, length := 256 } 0 = some true ∧
    (writeRange 0 0x200000 (List.replicate 3072 0) 1 (pagesOf 0x200000 3072) 0 world).2.2 = .ok := by decide +kernel

/-- A chunk that waits for its second contributor since time 0, and one that runs with two. -/
def waitingChunk : Chunk := { Chunk.fresh with bits := [0], added := [0], sum := List.replicate 256 0, firstAt := some 0 }

/-- The small module with that chunk as the second of its shard. -/
def chunked (k : Chunk) : State := { world with shards := [(0x30000001, { shard0 with chunks := [(1, k)] })] }

/-- The small module whose shard has a step event and an attention event out since time 0. -/
def evented : State := { world with shards := [(0x30000001, { shard0 with stepSent := some 0, attnSent := some 0 })] }

/-- Hypotheses of ShardSteps that can be met. -/
theorem witness_shard_steps :
    ((withLive (run0 0x0410 { cap with object := 0x30000001, offset := 262144 })).live? 4).isSome = true ∧
    (((chunked waitingChunk).tick 5000000).shard? 0x30000001).isSome = true ∧
    0 + 1000000 * shard0.deadline ≤ ((chunked waitingChunk).tick 5000000).sys.time ∧
    0 + 10000000 ≤ (evented.tick 10000000).sys.time ∧ accepted 0x0411 { cap with object := 0x30000001, p0 := 1, p1 := 1 } world = true ∧
    accepted 0x0411 { cap with object := 0x30000001, p0 := 1, p1 := 0 } world = true := by decide +kernel

/-- The module while engine 0 of die 0 has the second chunk's step and its coefficients. -/
def updating : State :=
  ({ world with shards := [(0x30000001, { shard0 with chunks := [(1, { waitingChunk with running := some 2 })] })] }).modDie 0
    fun x => x.modEngine 0 fun e =>
      { e with chunk := some (0x30000001, 1),
               coef := some { eta := 0, b1 := 0, b2 := 0, shard := 0x30000001, group := 0, t := 1 } }

/-- The same once the chunk's only group has been computed. -/
def updated : State :=
  { updating with shards := [(0x30000001, { shard0 with chunks := [(1, { waitingChunk with
      running := some 2, updated := [(0, ([], [], []))] })] })] }

/-- Hypotheses of ShardUpdates that can be met. -/
theorem witness_updates :
    ((settingsAt shard0 1).any fun x => x.groups.length == 1) = true ∧ ((updating.die 0).engine 0).coef.isSome = true ∧
    ((updating.shard? 0x30000001).any fun h => ((h.chunk 1).n == 0) && ((h.chunk 1).running == some 2) &&
      (256 * 0 < h.elems 1) && (groupIndex [{ start := 0, entry := 0 }] (1 * 262144) == some 0)) = true ∧
    ((updating.die 0).engine 0).chunk = some (0x30000001, 1) ∧
    ((updated.shard? 0x30000001).any fun h => (h.chunk 1).updated.length == (h.elems 1 + 255) / 256) = true := by decide +kernel

/-- A sync slot on token 3. -/
def tok3 : SyncSlot := { tokA := 3, tokB := 0, bEn := false, any := false, timeout := 2 }

/-- A row with a WAIT on token 3; its slot is 8 bytes after the header. -/
def waitRow : List Byte := leBytes 12 (2^24 + 2^44) ++ leBytes 8 (1 + 16 * 3 + 67108864 * 2)

/-- A stream whose token 3 is SET, and one whose token 3 is FAILED. -/
def set3 : Stream := { stream0 with core := { Core.fresh with tokens := [(3, .set)] } }
def failed3 : Stream :=
  { stream0 with core := { Core.fresh with tokens := [(3, .failed)], firstFailed := some (3, 0x0301), failSt := [(3, 0x0301)] } }

/-- A control slot that always branches to row 0, or that takes its count from its immediate. -/
def ctl (imm : Word) : CtlSlot := { fa := 0, fb := 0, flag := 0, imm := imm, target := 0 }

/-- A stream with eight loop levels. -/
def deep : Stream := { stream0 with core := { Core.fresh with loops := List.replicate 8 { remaining := 1, start := 0, stop := 0 } } }

/-- Hypotheses of ControlRows that can be met. -/
theorem witness_control :
    ((plays stream0).die 0).stream.isSome = true ∧ branchTaken stream0.core (ctl 0) = true ∧
    branchTaken stream0.core { ctl 0 with fa := 2 } = false ∧ loopCount stream0.core (ctl 0) = 0 ∧
    loopCount stream0.core (ctl 1) = 1 ∧ deep.core.loops.length = 8 ∧
    (((plays stream0).ctx? 1).any fun q => !q.onPreempt) = true ∧ (((plays stream0).ctx? 2).any fun q => q.onPreempt) = true := by
  decide +kernel

/-- Hypotheses of SyncAndWaits that can be met. -/
theorem witness_waits :
    waitFor set3.core tok3 = .ok ∧ waitFor stream0.core tok3 = .held ∧ waitFor failed3.core tok3 = .failed 3 ∧
    rowAt prog0.image 6 = none ∧ 0 + 1000 * tok3.timeout.toNat ≤ ((plays stream0).tick 2000).sys.time := by decide +kernel

/-- A row with a pass on cluster 0. -/
def passRow : List Byte := leBytes 12 (1 + 2^44) ++ leBytes 6 1

/-- A pass over 64 rows, 64 columns and one vector in BF16 from the foot of the scratchpad. -/
def pass0 : Pass :=
  { d := descOf 0 0, descIx := 0, logical := 0, arrival := 0, first := 128, started := true, held := [], entered := [[]],
    next := 0, token := some 3, plan := 0, ordinal := 0, mirror := none, mode := 0, span := 5 }

/-- A die's cluster 0 changed. -/
def withCluster (c : Cluster) (x : Stream) : State := (playing (imageOf passRow []) x).modDie 0 fun y => y.modCluster 0 fun _ => c

/-- A stream stalled for cluster 0. -/
def stalled : Stream := { stream0 with stall := some (.structural (some 0) none 0) }

/-- Hypotheses of RowIssueAndStalls that can be met. -/
theorem witness_rows :
    ((rowAt prog0.image 0).any fun r => rowInRange prog0.image stream0.core.ix r && (rowWait r).isNone &&
      (rowBlocked ((plays stream0).die 0) stream0 r).isNone) = true ∧
    ((rowAt (imageOf passRow []) 0).any fun r => (rowWait r).isNone && rowInRange (imageOf passRow []) stream0.core.ix r &&
      (rowBlocked ((withCluster { Cluster.fresh with waiting := some pass0 } stream0).die 0) stream0 r).isSome) = true ∧
    ((rowAt (imageOf waitRow []) 0).any fun r => (rowWait r).any fun y => waitFor set3.core y.2 == .ok) = true ∧
    (((plays stalled).die 0).cluster 0).waiting.isNone = true ∧ ((plays { stream0 with ended := true }).die 0).drained = true := by
  decide +kernel

/-- A stream task of command 4 for any die, or to resume the stream that is parked on die 0. -/
def task0 : Task :=
  { id := 1, kind := .stream, part := 0, ctx := 1, service := false, cmd := 4, admitted := 0, dies := [], resumed := false,
    item := 0, starved := false }

/-- The small module with one waiting task. -/
def tasked (k : Task) : State :=
  { world with tasks := [k], cmds := (4, run0 0x0502 { cap with tag := 8, object := 0x40000001 }) :: world.cmds }

/-- A save image of the stream's start. -/
def image1 : Image := { core := Core.fresh, data := [], regs := [], marker := 0, plan := 0 }

/-- The module with the stream parked on die 0 and a task that resumes it. -/
def resuming : State :=
  (tasked { task0 with dies := [0], resumed := true }).modDie 0 fun x => { x with parked := [{ stream0 with image := some image1 }] }

/-- Hypotheses of PlacementAndPreemption that can be met. -/
theorem witness_placement :
    (choosePlace (tasked task0) (orderedTasks (tasked task0) .stream 0) []).isSome = true ∧
    ((tasked task0).die 0).pstate = .run ∧ ((tasked task0).die 1).pstate = .run ∧
    orderedTasks (tasked { task0 with kind := .update }) .update 0 ≠ [] ∧
    ((List.range 4).find? (fun j => world.inService (.vector 0 (engIx j)) && ((world.die 0).engine j).chunk.isNone)) = some 0 ∧
    (((orderedTasks (tasked { task0 with kind := .scan, cmd := 5 }) .scan 0).findSome? fun t =>
      ((List.range 16).find? fun e => engineTakes world 0 e t).map fun e => (t, e))).isSome = true ∧
    0 + 1000 * ((world.tick 2000000).part 0).sliceUs ≤ (world.tick 2000000).sys.time ∧
    waitsFor { plays stream0 with tasks := [task0] } 0 1 = true ∧
    ((taskDies (tasked task0) task0).find? (fun d => task0.resumed || hostable (tasked task0) d (cmdProg (tasked task0) task0.cmd))).isSome = true ∧ task0.admitted + 1000 * (world.part 0).starveUs ≤ (world.tick 100000000).sys.time ∧
    ((plays { stream0 with stall := some (.marker 0 0 0) }).die 0).drained = true ∧
    ((orderedTasks resuming .stream ((ownerOf resuming 0).getD 4)).filter (fun t => t.resumed && decide (t.dies = [0]))) ≠ [] ∧
    (resuming.die 0).parked.find? (fun z => decide (z.cmd = 4)) ≠ none ∧ (resuming.die 0).stream = none ∧
    moverBusy resuming 0 = false ∧ resuming.errs.retired = [] ∧
    (makeResident (resuming.die 0) 0x40000001 (rowSegments prog0.image) 0).isSome = true := by decide +kernel

/-- An array slot on descriptor 0 that sets token 3. -/
def slot0 : ArraySlot := { desc := 0, ix := 0, token := 3, tokenEn := true }

/-- A descriptor whose output lies past the scratchpad. -/
def badDesc : List Byte := leBytes 32 (8388544 * 2 ^ 96 + 127 * 2 ^ 23 + 65535 * 2 ^ 32 + 65535 * 2 ^ 136)

/-- The small module whose partition 0 mirrors one pass in fifteen. -/
def mirrored : State := (plays { stream0 with map := List.range 15 }).modPart 0 fun p => { p with swatch := 1 }

/-- Hypotheses of PassesStart that can be met. -/
theorem witness_passes_start :
    (descOf (descBits prog0.image 0 0) 0).regions.all inPad = true ∧
    (descOf (descBits (imageOf [] badDesc) 0 0) 0).regions.all inPad = false ∧ stream0.phys 0 = 0 ∧
    chooseMirror (plays stream0) 0 stream0 [0] 0 100 = none ∧
    (chooseMirror mirrored 0 { stream0 with map := List.range 15 } [0] 0 100).isSome = true ∧
    ((plays stream0).die 0).cluster 0 = Cluster.fresh ∧
    (((withCluster { Cluster.fresh with flight := [pass0] } stream0).die 0).cluster 0).flight ≠ [] := by decide +kernel

/-- A pass in INT8 whose result is over the largest sum. -/
def done0 : Pass := { pass0 with next := 1 }

/-- Hypotheses of PassesRun that can be met. -/
theorem witness_passes_run :
    (({ Cluster.fresh with waiting := some pass0 } : Cluster).flight.any fun p => !p.started) = false ∧
    (({ Cluster.fresh with flight := [{ pass0 with started := false }] } : Cluster).flight.any fun p => !p.started) = true ∧
    pass0.next < pass0.d.results ∧ pass0.entered ≠ [] ∧
    (resultVector ((withCluster { Cluster.fresh with flight := [pass0] } stream0).die 0) 0 pass0 0).bad = false ∧
    done0.d.results ≤ done0.next ∧ done0.started = true := by decide +kernel

/-- A stream in a swatch procedure that searches for a third cluster, that executes on it, or that is decided. -/
def swatching (step : Nat) (third : Option Nat) : Stream :=
  let w : Swatch :=
    { prim := 0, dup := 12, primBytes := [], dupBytes := [1], logical := 0, ordinal := 0, vec := 0, step := step, third := third }
  { stream0 with swatch := some w }

/-- Hypotheses of SwatchProcedure that can be met. -/
theorem witness_swatch :
    ((inServiceClusters world 0).filter (fun c => decide (0 < c)) ++ inServiceClusters world 0) ≠ [] ∧
    (swatching 1 none).map.length ≤
      ((List.range 16).filter fun c => ((inServiceClusters world 0).contains c || c == 12) && c != 1).length + 1 ∧
    (thirdVector ((plays (swatching 2 (some 1))).modDie 0 fun y => y.modCluster 1 fun k => { k with flight := [pass0] }) 0
      { prim := 0, dup := 12, primBytes := [], dupBytes := [1], logical := 0, ordinal := 0, vec := 0, step := 2, third := some 1 }
      1).isSome = true ∧
    (clusterMap world 0 12 false).isSome = true := by decide +kernel

/-- A vector slot with a memory operand at some address of the scratchpad of cluster 0. -/
def vslot (addr : BitVec 23) : VecSlot :=
  { fmt := 1, dst := 1, srcA := 2, srcB := 3, srcC := 4, ix := 1, memEn := true, memCluster := 0, memAddr := addr, ixStride := 1,
    imm := 0, token := 3, tokenEn := true, flag := 0, flagEn := false }

/-- A vector operation that writes register 1 of its engine. -/
def vop : VecOp :=
  { retireAt := 110, eff := .reg 1 (List.replicate 256 0), token := some 3, flag := none, sats := 0, nans := 0, row := 0,
    plan := 0, op := 0x10 }

/-- Hypotheses of VectorOperations that can be met. -/
theorem witness_vectors :
    inPad (vecAddr (vslot 0) (List.replicate 16 0), vecMemBytes 1 (vslot 0)) = true ∧
    inPad (vecAddr (vslot 0x7FFE00) (List.replicate 16 0), vecMemBytes 1 (vslot 0)) = true ∧
    inPad (vecAddr (vslot 0x7FFFC0) (List.replicate 16 0), vecMemBytes 1 (vslot 0)) = false ∧
    inPad (vecAddr (vslot 0x7FFC00) (List.replicate 16 0), vecMemBytes 3 (vslot 0)) = true ∧
    inPad (vecAddr (vslot 0) (List.replicate 16 0), vecMemBytes 0x39 { vslot 0 with fmt := 3 }) = true ∧
    (nextRetire [{ vop with retireAt := 120 }, vop]).map VecOp.retireAt = some 110 := by decide +kernel

/-- A move slot on move descriptor 0 of 64 bytes. -/
def mslot : MoveSlot := { mdesc := 0, ix := 0, len := 1, token := 3, tokenEn := true }

/-- A move descriptor from store space to the foot of cluster 0's scratchpad, and one past its end. -/
def toPad (at_ : Nat) : List Byte := leBytes 32 (0x200000 + at_ * 2 ^ 48 + 2 ^ 97 + 64 * 2 ^ 128)

/-- A move of 64 bytes from an address of store space. -/
def move0 (src : Int) : Move :=
  { op := 1, src := src, dst := 0, srcPad := false, dstPad := true, len := 64, token := some 3, notify := none, queuedAt := 0, waitSince := none }

/-- Hypotheses of Moves that can be met. -/
theorem witness_moves :
    (let r := (moveOf 1 (moveDescBits (imageOf [] (toPad 8388544)) 0) mslot 0).1
     (!r.srcPad && r.dstPad && inPad (r.dst, r.len)) = true) ∧
    (let r := (moveOf 1 (moveDescBits (imageOf [] (toPad 8388544)) 0) { mslot with len := 2 } 0).1
     (r.dstPad && !inPad (r.dst, r.len)) = true) ∧
    moveInSpace (move0 281474976710592) = true ∧ moveInSpace (move0 281474976710656) = false ∧
    (movePerform 0 0 1 (move0 0x200000) world).2 = .ok ∧ (movePerform 0 0 1 (move0 0x1000000) world).2 = .ok ∧
    (movePerform 0 0 1 (move0 0x600000) world).2 = .wait ∧ (movePerform 0 0 1 (move0 0xC00000) world).2 = .poisoned ∧
    (movePerform 0 0 1 (move0 0x4000000) world).2 = .unmapped := by decide +kernel

/-- Two items of the collection, the second deleted at epoch 1. -/
def item0 (id del : Nat) : Item :=
  { id := id, norm := 0, attrs := [3], vec := List.replicate 16 0, parcel := 0, ins := 0, del := del, rho := 0, nu := 0,
    code := List.replicate 8 0 }

/-- The collection with those items, the first of them not yet linked. -/
def col1 : Col :=
  { col0 with codebook := some (List.replicate 2048 0), centroids := some (List.replicate 8 0),
              items := [(0, item0 7 0xFFFFFFFF), (1, item0 8 1)], nextItem := 2, epoch := 1, pending := 2, floor := 1,
              dir := [(0, { radius := 0, nuMax := 0, held := 2 })], unlinked := [0] }

/-- The small module with that collection, and a command on it whose data has landed. -/
def colWorld (op : Half) (c : Capsule) (data : List Byte) : State :=
  { world with cols := [(0x20000001, col1)],
               cmds := [(4, { run0 op { c with object := 0x20000001, dataLen := BitVec.ofNat 32 data.length } with segs := [(0, data)] })] }

/-- The entry of an item: id 9, one attribute word, and 8 dimensions. -/
def entry0 : List Byte := leBytes 8 9 ++ List.replicate (col1.entryBytes - 8) 0

/-- The payload of a query: k = 2, an epoch, no terms, and 8 dimensions in BF16. -/
def query0 (epoch : Nat) : List Byte :=
  leBytes 4 2 ++ leBytes 4 epoch ++ leBytes 2 8 ++ [1, 0] ++ leBytes 2 0xFFFF ++ leBytes 2 0 ++ List.replicate 48 0 ++ List.replicate 64 0

/-- A query that runs on the collection with one parcel on an engine. -/
def query1 : Query :=
  { cmd := 4, col := 0x20000001, k := 2, epoch := 1, terms := [], q := List.replicate 8 0, flags := 0, heap := [], order := [],
    started := [0], survivors := [0], scanned := 0, nodes := 0, bounded := 0, evaluated := 0 }

/-- The small module while that query runs. -/
def querying : State :=
  { colWorld 0x0320 cap [] with queries := [(4, query1)], scanHeld := [(0, { task0 with kind := .scan, item := 0 })] }

/-- Hypotheses of CollectionCommands and CollectionData that can be met. -/
theorem witness_collections :
    (pinFrames (lowestDie world 0) col0.frames 0 world).2 = some true ∧ (world.col? 0x20000001).isSome = true ∧
    world.statusBit 2 = false ∧ anyNonfinite [0x7F800000] = true ∧ anyNonfinite [0x7F7FFFFF] = false ∧
    0 < col1.entryBytes ∧ ((readEntries col1 1 0 entry0).toOption.isSome) = true ∧
    ((readEntries col1 1 0 (leBytes 8 9 ++ List.replicate (col1.entryBytes - 8) 0xFF)).toOption.isSome) = false ∧
    98 ≤ col1.limit - col1.items.length ∧ col1.limit - col1.items.length < 99 ∧
    col1.publishMs ≠ 0 ∧ col1.publishAt + col1.publishMs * 1000000 ≤ (world.tick 100000000).sys.time ∧
    epochBusy world 0x20000001 2 = false ∧ 0 ∈ col1.unlinked ∧
    col1.mutated = false ∧ col0.mutated = false ∧ ({ col1 with mutated := true } : Col).mutated = true := by decide +kernel

/-- Hypotheses of Queries that can be met. -/
theorem witness_queries :
    queryLegal col1 cap.origin (query0 1) (query0 1).length = true ∧ queryLegal col1 cap.origin (query0 2) (query0 2).length = true ∧
    queryLegal col1 cap.origin (query0 0) (query0 0).length = true ∧ col1.epoch < 2 ∧ 0 < col1.floor ∧ col1.floor ≤ 1 ∧
    querying.scanHeld.any (fun h => decide (h.2.cmd = 4 ∧ h.2.item = 0)) = true ∧ enginePaused 4 0 querying = false ∧
    (Tbl.get? col1.items 0).isSome = true := by decide +kernel

/-- A scan page of records of 8 bytes: one record. -/
def recordPage : List Byte :=
  leBytes 4 0x5CA29A6E ++ [0, 0, 0, 0] ++ leBytes 4 8 ++ leBytes 4 8 ++ leBytes 4 1 ++ List.replicate 12 0 ++ leBytes 8 42

/-- The small module with a scan, a volume whose first bytes are given, and the scan's span on engine 0. -/
def scanning (q : Scan) (bs : List Byte) : State :=
  { world with vols := [(0x10000001, { vol0 1 with mem := Mem.writeBytes 0 bs [] })], scans := [(5, q)],
               scanHeld := [(0, { task0 with kind := .scan, cmd := 5 })] }

/-- The scan with records of 8 bytes, and the same with its span at the range's end, done, or stopped. -/
def scan1 : Scan := { scan0 with fixed := 8 }
def scanEnd : Scan := { scan1 with spans := [(0, { span0 with pos := 4096 })] }
def scanOver : Scan := { scan1 with spans := [(0, { span0 with pos := 4096, done := true })] }
def scanStop : Scan := { scan1 with stop := some (0x0701, 1) }

/-- A sequence of a scan that has ended. -/
def seq0 : ScanSeq :=
  { attrs := [], key := 0, page := 0, index := 0, proj := [], tokens := 0, fed := true, ended := some 0 }

/-- The payload of a scan into records: one field of 8 bytes, records of 8 bytes. -/
def scanData (sink : Nat) : List Byte :=
  [BitVec.ofNat 8 sink, 0, 0, 0, 0xFF, 0xFF, 0, 0] ++ List.replicate 24 0 ++ leBytes 8 10 ++ leBytes 4 0 ++ leBytes 4 0 ++ leBytes 2 4 ++
    List.replicate 14 0 ++ [0, 0] ++ leBytes 2 8 ++ [1] ++ List.replicate 11 0 ++ leBytes 2 0 ++ leBytes 2 8 ++ [3, 0, 0, 0] ++
    List.replicate 40 0 ++ List.replicate 16 0xFF

/-- Hypotheses of ScanCommands that can be met. -/
theorem witness_scan_commands :
    scanNamed (world.entered 0x0521 { cap with p0 := 9 }) cap.origin 9 = some 5 ∧
    (Tbl.get? (world.entered 0x0522 { cap with p0 := 9 }).scans 5).isSome = true ∧ scan0.unreturned = 3 ∧
    readScan 4 { cap with length := 4096, dataLen := 144 } (List.replicate 144 0) = none ∧
    ((readScan 4 { cap with length := 4096, dataLen := 144 } (scanData 0)).any fun q =>
      (scanTargets world cap q).isNone && decide (q.sink < 3)) = true ∧
    ((readScan 4 { cap with length := 4096, dataLen := 144 } (scanData 2)).any fun q => (scanTargets world cap q).isSome) = true := by decide +kernel

/-- Hypotheses of ScanRuns that can be met. -/
theorem witness_scan_runs :
    enginePaused 5 0 (scanning scan1 []) = false ∧
    (let s := feedScan 5 65536 (flushScan 5 false (scanning scan1 recordPage))
     (Tbl.get? s.scans 5).any (fun q => !scanPaused q && q.stop.isNone && decide (q.sink = 1)) = true ∧ (s.live? 5).isSome = true ∧
     s.scanHeld.any (fun h => decide (h.2.cmd = 5 ∧ h.2.item = 0)) = true) ∧
    (vol0 1).unreadable 0 4096 = false ∧ pageFound (vol0 1) scan1 0 = .empty ∧
    pageFound { vol0 1 with mem := Mem.writeBytes 0 [1] [] } scan1 0 = .bad ∧
    (pageFound { vol0 1 with mem := Mem.writeBytes 0 recordPage [] } scan1 0 matches .page 8 8 [_]) = true ∧
    min scanEnd.len ((0 + 1) * 67108864) ≤ 4096 ∧ scanEnded { scanning scanOver [] with scanHeld := [] } 5 scanOver = true ∧
    scanEnded { scanning scanStop [] with scanHeld := [] } 5 scanStop = true ∧
    (let u := flushScan 5 true { scanning scanOver [] with scans := [(5, { scanOver with top := [] })] }
     (Tbl.get? u.scans 5).any (fun q => q.segment.isEmpty && q.stop.isNone) = true) := by decide +kernel

/-- A volume with an absorbed write, and one whose first unit is LOST. -/
def volAbs : Vol := { vol0 2 with absorbNext := 3, watermark := 1, absorbed := [{ seq := 2, off := 0, data := [1] }] }
def volLost : Vol := { vol0 1 with plat := [(0, platLost)] }

/-- The small module with one volume and no lease. -/
def volWorld (v : Vol) : State := { world with vols := [(0x10000001, v)], leases := [], cmds := [], scans := [] }

/-- A command on that volume. -/
def onVol (len : Dword) (dataLen : Word) : Capsule := { cap with object := 0x10000001, length := len, dataLen := dataLen }

/-- Hypotheses of VolumeCommands that can be met. -/
theorem witness_volumes :
    accepted 0x0202 { cap with object := 0x10000001 } (volWorld (vol0 1)) = true ∧
    (heldLeases (recallRange 6 0x10000001 0 8388608 (world.entered 0x0202 { cap with object := 0x10000001 })) 0x10000001 0 8388608).isEmpty
      = false ∧
    (heldLeases (recallRange 6 0x10000001 0 8388608 ((volWorld (vol0 1)).entered 0x0202 { cap with object := 0x10000001 })) 0x10000001 0
      8388608).isEmpty = true ∧
    accepted 0x0202 { cap with object := 0x10000001 } { world with cmds := [], scans := [] } = true ∧
    accepted 0x0220 (onVol 4096 0) (volWorld volLost) = true ∧ volLost.unreadable 0 4096 = true ∧ (vol0 1).unreadable 0 4096 = false ∧
    accepted 0x0221 (onVol 4096 4096) (volWorld (vol0 1)) = true ∧
    absorbedWrite ((volWorld (vol0 1)).entered 0x0221 (onVol 4096 4096)) (Capsule.entry 0x0221 (onVol 4096 4096) (volWorld (vol0 1))) = false ∧
    accepted 0x0210 (onVol 20480 0) (volWorld (vol0 1)) = true ∧
    (let b := recallRange 6 0x10000001 0 20480 ((volWorld (vol0 1)).entered 0x0210 (onVol 20480 0))
     (heldLeases b 0x10000001 0 20480).isEmpty = true ∧ mustYield 6 (Capsule.entry 0x0210 (onVol 20480 0) (volWorld (vol0 1))) b = false ∧
     b.statusBit 2 = false) ∧ lostMerge (vol0 1) 0 20480 = none ∧ volAbs.watermark + 1 ≠ volAbs.absorbNext := by decide +kernel

/-- A write of a volume whose data has landed, with the leases that it recalls. -/
def landed (recalls : List Nat) : Live :=
  { run0 0x0221 (onVol 4096 4096) with phase := .collecting, segs := [(0, List.replicate 4096 7)], recalls := recalls }

/-- The small module with that write, alone or after an earlier one on the same bytes. -/
def landedIn (v : Vol) (l : Live) (more : Tbl Live) : State :=
  { world with vols := [(0x10000001, v)], cmds := more ++ [(4, l)], leases := [(0, { lease0 with st := 2 })] }

/-- Hypotheses of VolumeData and CommandsAwaitTheirData that can be met. -/
theorem witness_volume_writes :
    recallsOpen (landedIn (vol0 1) (landed [0]) []) (landed [0]) = true ∧ recallsOpen (landedIn (vol0 1) (landed []) []) (landed []) = false ∧
    mustYield 4 (landed []) (landedIn (vol0 1) (landed []) []) = false ∧
    mustYield 4 (landed []) (landedIn (vol0 1) (landed []) [(3, { landed [] with segs := [] })]) = true ∧
    absorbedWrite (landedIn (vol0 2) (landed []) []) (landed []) = true ∧ absorbedWrite (landedIn (vol0 1) (landed []) []) (landed []) = false ∧
    lostMerge (vol0 1) 0 4096 = none := by decide +kernel

/-- A superblock of blocks 0 whose first unit is unit 0 of the volume, open for writes. -/
def super0 : Super :=
  { blocks := List.replicate 16 0, isOpen := true, fill := 1, closedWl := 0, lastProg := 0, closedAt := 0, patrolAt := 0,
    refresh := false, units := [(0, (0x10000001, 0))], erasing := false, suspended := 0, suspends := [], resumedAt := [] }

/-- Parity group 0 with one superblock of serial 0. -/
def group0 (sb : Super) : PGroup :=
  { PGroup.fresh with
    blocks := (List.range 16).map fun i => (4096 * i, { Block.fresh with st := 1 }), supers := [(0, sb)], nextSerial := 1 }

/-- The small module with that group, and the volume's unit 0 mapped to the superblock's first unit. -/
def grouped (g : PGroup) : State :=
  { world with media := { world.media with groups := [(0, g)] },
               vols := [(0x10000001, { vol0 1 with plat := [(0, 0x0010000002000000)] })] }

/-- A read of that unit under the lease, with its plat entry. -/
def farRead : Capsule := { far with object := 0x10000001, length := 4096, p0 := 0x10000, p1 := 0x02000000, p2 := 0x00100000 }

/-- Hypotheses of Leases that can be met. -/
theorem witness_leases :
    accepted 0x0742 farRead (grouped (group0 super0)) = true ∧
    (lseVerdict farRead ((grouped (group0 super0)).entered 0x0742 farRead)).1 = none ∧
    rangeHeld (world.entered 0x0740 far) 6 0x10000001 0 8388608 = false ∧
    (rangeHeld ({ world with cmds := [(5, { landed [0] with phase := .running })] }.entered 0x0740 far) 6 0x10000001 0 8388608) = true ∧
    (List.range 65536).find? (fun k => !Tbl.has world.leases k) = some 1 ∧
    (lseVerdict { far with object := 0x10000001, length := 4096, p0 := 0x10000 }
      (world.entered 0x0742 { far with object := 0x10000001, length := 4096, p0 := 0x10000 })).1 ≠ none ∧
    lease0.recallAt + world.media.pol.recallUs * 1000 ≤ (world.tick 10000000).sys.time ∧ lease0.expiry ≤ (world.tick 1000).sys.time := by
  decide +kernel

/-- The same superblock closed, and one whose erase is under way. -/
def superShut : Super := { super0 with isOpen := false, fill := 69120, closedWl := 1 <<< 6144 - 1 }
def superErasing : Super := { superShut with units := [], erasing := true }

/-- The group with that superblock as its victim. -/
def victim0 (sb : Super) : State := grouped { group0 sb with victim := some 0 }

/-- Hypotheses of MediaCommands and MediaWrites that can be met. -/
theorem witness_media :
    platState 0x0010000002000000 = 1 ∧ ((grouped (group0 super0)).vol? 0x10000001).isSome = true ∧
    (Tbl.find? (fun _ x => x.isOpen && (nextWordline x 0).isSome) (group0 { super0 with fill := 69120 }).supers).isSome = true ∧
    superShut.closed = true ∧
    (List.find? (fun q : Nat × Super => q.2.refresh) ((group0 { superShut with refresh := true }).supers.filter fun e => e.2.closed)).isSome
      = true ∧
    (List.find? (fun q : Nat × Super => q.2.refresh) ((group0 superShut).supers.filter fun e => e.2.closed)) = none ∧
    freeSupers (group0 superShut) < 4000 ∧ world.media.pol.low ≤ freeSupers (group0 superShut) ∧
    superValid (group0 superShut) superShut = 0 ∧
    0 < superValid { group0 superShut with blocks := [(0, { Block.fresh with valid := 1 })] } superShut ∧
    (Tbl.find? (fun _ q => q.erasing && decide (q.suspended = 0)) (group0 superErasing).supers).isSome = true := by decide +kernel

/-- The small module in need of collection, with that group. -/
def needy : State := { grouped (group0 superShut) with media := { (grouped (group0 superShut)).media with pol := { world.media.pol with low := 4000 } } }

/-- A group whose blocks are worn unevenly, read often, or both. -/
def worn : PGroup := { group0 superShut with blocks := [(0, { Block.fresh with erases := 0, reads := 60000 }), (1, { Block.fresh with erases := 301 })] }

/-- Hypotheses of MediaUpkeep that can be met. -/
theorem witness_media_upkeep :
    freeSupers (needy.pgroup 0) < needy.media.pol.low ∧
    (bestOf (fun a b : Nat × Super => scoreLt (gcScore needy (needy.pgroup 0) b.2) (gcScore needy (needy.pgroup 0) a.2))
      ((needy.pgroup 0).supers.filter fun e => e.2.closed)).isSome = true ∧
    world.media.pol.wear < eraseSpread worn ∧ eraseSpread (group0 superShut) ≤ world.media.pol.wear ∧
    (superShut.blocks.mapIdx fun i b => (worn.block i b).reads).any (fun r => decide (60000 ≤ r)) = true ∧
    superShut.patrolAt + world.media.pol.patrolDays * 86400000000000 ≤ (world.tick 604800000000000).sys.time ∧
    superShut.closedAt + 7776000000000000 ≤ (world.tick 7776000000000000).sys.time ∧
    (erasingSuper (grouped (group0 superErasing)) 0).isSome = true ∧ superErasing.suspended.getLsbD 0 = false ∧
    Tbl.getD superErasing.suspends 0 0 < 16 ∧ Tbl.getD ({ superErasing with suspends := [(0, 16)] } : Super).suspends 0 0 = 16 ∧
    ({ superErasing with suspended := 1 } : Super).suspended.getLsbD 0 = true := by decide +kernel

/-- A link that is UP towards node 5, changed. -/
def up0 : Link := { Link.fresh with st := .up, peer := 5, credits := [(0, 4), (12, 4)], rxSeq := 0xFFF, laser := 3, txMask := 0xFFF, rxMask := 0xFFF }
def linked (k : Link) : State := { world with links := [(0, k)] }

/-- A flit whose header and slots are given, with its CRC. -/
def flitOf (h : Nat) : List Byte :=
  let b := leBytes 16 h ++ List.replicate 224 0
  b ++ leBytes 4 (crc32c b).toNat ++ List.replicate 12 0

/-- A unit of the module's own that waits to leave. -/
def waits0 (since : Nat) : OutUnit := { OutUnit.base 1 3 1 5 1 with since := since }

/-- A command of node 5 that waits for a grant of 4096 bytes, or for its data. -/
def awaits0 : Live := { run0 0x0221 { far with object := 0x10000002, length := 4096, dataLen := 4096 } with phase := .granting }
def collects0 : Live := { awaits0 with phase := .collecting, granted := 4096 }

/-- The small module with such a command. -/
def asks (l : Live) : State := { world with cmds := [(4, l)] }

/-- Hypotheses of LinkAndGroupCommands that can be met. -/
theorem witness_link_commands :
    lnkPolicyOk [8, 32, 0, 5000, 16, 1000, 0, 1000] = true ∧ lnkPolicyOk [8, 33, 0, 5000, 16, 1000, 0, 1000] = false ∧
    (dirFind (world.entered 0x0720 { cap with object := 0x10000001 }) 0x10000001 0).isSome = true ∧
    (∀ e ∈ [2 ^ 25 + 5], e < 2 ^ 26 ∧ bits e 20 5 < 24) ∧
    (accepted 0x0715 { cap with p0 := 1, p1 := 2 } world && accepted 0x0715 { cap with p0 := 1, p1 := 3 } world &&
      accepted 0x0715 { cap with p0 := 0xFFFFFF } world) = true := by decide +kernel

/-- Hypotheses of LinkTraffic that can be met. -/
theorem witness_flits :
    (linked up0).links = [(0, up0)] ∧ BitVec.ofNat 12 (bits (fieldAt (flitOf 1) 0 16) 4 12) = up0.rxSeq + 1 ∧
    BitVec.ofNat 12 (bits (fieldAt (flitOf 33) 0 16) 4 12) ≠ up0.rxSeq + 1 ∧
    ((List.range 7).any fun i => decide ((slotDesc 1 i).1 = 1) && decide (32 * i < (flitSlots up0 (flitOf 1)).length) &&
      decide (fieldAt (flitSlots up0 (flitOf 1)) (32 * i + 7) 1 ≠ 0)) = false := by decide +kernel

set_option maxRecDepth 100000 in
/-- Hypotheses of LinkTraffic that can be met. -/
theorem witness_crc : (crc32c (sliceBytes (flitOf 1) 0 240)).toNat = fieldAt (flitOf 1) 240 4 := by decide +kernel

/-- Hypotheses of LinkTraffic that can be met. -/
theorem witness_link_sending :
    pickSlot up0 = none ∧ (pickSlot { up0 with waiting := [waits0 0] }).isSome = true ∧ up0.replay.length < 2047 ∧
    up0.ackSentAt + 50 ≤ (world.tick 50).sys.time ∧ up0.ackAt + 2000 ≤ (world.tick 2000).sys.time ∧
    awaits0.awaits = true ∧ (grantDecision 4 awaits0 (asks awaits0) matches .ok _) = true ∧
    (grantDecision 4 awaits0 { asks awaits0 with parts := [(0, { Part.fresh with fencedAt := some 0 })] } matches .ok _) = false ∧
    findTag (asks collects0) (.fabric 5 0) 1 = some 4 ∧ collects0.hasLanded 0 4096 = false ∧
    { collects0 with landed := 4096 }.full = true ∧ collects0.grantAt + 100000000 ≤ (world.tick 100000000).sys.time ∧
    (world.fabric.issued.any fun i => decide (i.tag = 3)) = false ∧
    Tbl.getD { up0 with credits := [] }.credits 12 0 = 0 ∧ 0 + up0.stallUs * 1000 ≤ (world.tick 1000000).sys.time := by decide +kernel

/-- A training link, and one frame of a peer with every wavelength usable. -/
def training0 : Link := { up0 with st := .training, trying := true, nextFull := false }

/-- Hypotheses of LinkStates that can be met. -/
theorem witness_link_states :
    up0.flitAt + 1000 ≤ (world.tick 1000).sys.time ∧ (2 ^ 48 : Nat) ≤ { up0 with encrypted := true, flitCtr := 2 ^ 48 }.flitCtr ∧
    Link.fresh.nextTry ≤ world.sys.time ∧ training0.laser ≠ 0 ∧
    (some 0 : Option Nat).any (fun q => decide (q + 1 * 1000000000 ≤ (world.tick 1000000000).sys.time)) = true ∧
    world.fabric.pkgDown.getLsbD 21 = false ∧ (up0.ring 63).failed = false ∧ (up0.ring 63).hopping = false ∧
    lightLimited (linked up0) 0 = false ∧ (List.range 32).reverse.find? (fun i => up0.txMask.getLsbD i) = some 11 ∧
    up0.minWidth < maskWidth up0.txMask ∧ up0.laneAsk ≠ some 0xFF := by decide +kernel

/-- A test port operation on a word of compute die 1's scratchpads. -/
def req0 : EccReq :=
  { target := .scratchpad, unit := 0, addr := 0, data := [5], chk := 0, futis := none }

/-- The same operation over its die's memories, in other ways: of a Futis core of partition 0, of the vector engine's file,
outside the scratchpad, and with check bits. -/
def reqFutis : EccReq := { req0 with futis := some 0 }
def reqFile : EccReq := { req0 with target := .vectorFile }
def reqFar : EccReq := { req0 with addr := 1048576 }

/-- The small module with 16 injected words of die 0. -/
def inj0 (k : Nat) : Injected := { die := 0, target := 0, unit := 0, addr := k + 1, data := [], chk := 0 }
def fullList : State := { world with errs := { world.errs with injected := (List.range 16).map inj0 } }

/-- Hypotheses of TestPort that can be met. -/
theorem witness_test_port :
    eccUnit 0 req0 = some (.cluster 0 0) ∧ world.enabled (.cluster 0 0) = true ∧
    { world with power := { world.power with blockEn := [(0, 0)] } }.enabled (.cluster 0 0) = false ∧
    eccPermitted 0 { reqFutis with futis := some 1 } world = false ∧ eccPermitted 0 reqFutis world = true ∧
    eccPermitted 0 req0 world = true ∧ eccInRange req0 = true ∧ eccInRange reqFar = false ∧
    eccBusy 0 req0 (plays stream0) = true ∧ eccBusy 0 req0 world = false ∧
    16 ≤ (fullList.errs.injected.filter fun e => decide (e.die = 0)).length ∧
    fullList.errs.injected.any (fun e => e.names 0 req0) = false ∧
    (world.errs.injected.filter fun e => decide (e.die = 0)).length < 16 ∧
    req0.target ≠ .hbm ∧ { req0 with target := .hbm }.target = .hbm ∧
    eccListed 0 req0 (eccData 0 req0 world).2 world = none := by decide +kernel

/-- The small module with cluster 3 of die 0 and 5 frames of die 1 retired. -/
def retired0 : State :=
  let w : State := { world with errs := { world.errs with retired := [.cluster 0 3] } }
  w.modDie 1 fun x => { x with retired := 5 }

/-- Hypotheses of ErrorCommands that can be met. -/
theorem witness_error_commands :
    (injectReq { cap with p1 := 0 } (List.replicate 64 0)).isSome = true ∧
    injectReq { cap with p1 := 0x8000 } (List.replicate 64 0) = none ∧
    reinstated 0 retired0 = none ∧ reinstated 0x310 retired0 = some (.inl (.cluster 0 3)) ∧
    reinstated 0x81 retired0 = some (.inr 1) ∧ unitOfWord 0x310 = some (.cluster 0 3) ∧ unitOfWord 0 = none ∧
    scannable world (.cluster 0 3) = true ∧ scannable (plays stream0) (.cluster 0 3) = false ∧
    (accepted 0x0653 { cap with p0 := 0x310 } retired0 && accepted 0x0653 { cap with p0 := 0x81 } retired0 &&
      accepted 0x0654 { cap with p0 := 0x310 } retired0 && accepted 0x0654 { cap with p0 := 0 } retired0) = true := by decide +kernel

/-- The small module whose cluster 3 of die 0 has had eight words remapped in one macro. -/
def worn8 : State := { world with errs := { world.errs with remaps := (List.range 8).map fun a => (0, 7, a) } }

/-- Hypotheses of HardFaultsAndScans that can be met. -/
theorem witness_hard_faults :
    (0, 7, 3) ∈ worn8.errs.remaps ∧ (0, 7, 8) ∉ worn8.errs.remaps ∧
    8 ≤ (worn8.errs.remaps.filter fun e => decide (e.1 = 0 ∧ e.2.1 = 7)).length ∧
    (worn8.errs.remaps.filter fun e => decide (e.1 = 0 ∧ e.2.1 = 8)).length < 8 ∧
    Tbl.get? (world.store 0).pages 6 = some (page .poisoned) ∧ Tbl.get? (world.store 0).pages 15 = none ∧
    Tbl.get? (world.store 0).pages 2 = some (page .dirty) ∧ (page .dirty).framed = true ∧ 0 < freeFrames world 0 ∧
    scannable world (.cluster 0 3) = true ∧ HwUnit.cluster 0 3 ∉ world.errs.retired ∧ HwUnit.cluster 0 3 ∈ retired0.errs.retired ∧
    world.inService (.cluster 0 3) = true ∧ retired0.inService (.cluster 0 3) = false ∧
    (let v := world.tick 86400000000000
     (v.die 0).stream = none ∧ (v.die 0).parked = [] ∧ scannedAt v (.cluster 0 3) + 1000000000 * v.errs.idlePeriod ≤ v.sys.time ∧
     scannedAt v (.vector 0 1) + 1000000000 * v.errs.idlePeriod ≤ v.sys.time) ∧
    (let v := (mirrored.tick 86400000000000)
     (swatchClusters v 0) ≠ [] ∧ (swatchClusters v 0).all (fun i => v.inService (.cluster 0 (clusterIx i)) &&
       decide (scannedAt v (.cluster 0 (clusterIx i)) + 1000000000 * v.errs.swatchPeriod ≤ v.sys.time))) ∧
    scannedAt world (.vector 0 1) + 1000000000 * world.errs.idlePeriod > world.sys.time := by decide +kernel

/-- A module in whose engine, context, partition or whole a reset runs, with an owner and a deadline. -/
def rst (x : ResetTarget) (hang : Bool) : Reset := { target := x, deadline := 10000000, started := 0, hang := hang, cause := 0x0501 }
def resetting0 (x : ResetTarget) (hang : Bool) : State := { world with rcv := { world.rcv with resets := [rst x hang] } }

/-- The suspicion of a command's stream on cluster 0 of die 0. -/
def suspect0 : Suspect := { ctx := 1, cmd := 5, unit := .cluster 0 0, pos := 2 }
def suspecting (s : State) : State := { s with rcv := { s.rcv with suspects := [suspect0] } }

/-- Hypotheses of EngineResets that can be met. -/
theorem witness_engine_resets :
    (resetOf world .whole).isSome = false ∧ world.resetting (.cluster 0 0) = false ∧
    (resetting0 .whole false |> fun s => (resetOf s .whole).isSome) = true ∧
    isEngine (.cluster 0 0) = true ∧ isEngine (.sequencer 0) = false ∧
    (unitOwner world (.cluster 0 0)).any (fun p => (resetOf world (.partition (partIx p))).isSome) = false ∧
    (Tbl.get? world.rcv.resetAt (unitKey (.cluster 0 0))).any (fun z => decide (world.sys.time < z + 100000)) = false ∧
    ((plays stream0).die 0).stream = some stream0 ∧ resetOf world (.engine (.cluster 0 0)) = none ∧
    resetOf (resetting0 (.engine (.cluster 0 0)) true) (.engine (.cluster 0 0)) = some (rst (.engine (.cluster 0 0)) true) ∧
    (suspecting world).rcv.suspects.any (fun x => decide (x.unit = .cluster 0 0)) = true ∧
    mayHang (withCluster { Cluster.fresh with flight := [pass0] } stream0) (.cluster 0 0) = true ∧
    mayHang world (.cluster 0 0) = false ∧ mayHang (plays stream0) (.sequencer 0) = true ∧ ownerOf world 0 = some 0 ∧
    world.rcv.suspects.find? (fun x => decide (x.unit = .cluster 0 0)) = none ∧
    (suspecting world).rcv.suspects.find? (fun x => decide (x.unit = .cluster 0 0)) = some suspect0 ∧
    (world.resetting (.cluster 0 0) || (streamDie (.cluster 0 0)).any fun d => (world.die d).stream.isSome) = false ∧
    ((plays stream0).resetting (.cluster 0 0) || (streamDie (.cluster 0 0)).any fun d => ((plays stream0).die d).stream.isSome) = true ∧
    streamDie (.cluster 0 0) = some 0 := by decide +kernel

/-- The small module whose partition 0 is fenced. -/
def fenced0 : State := world.modPart 0 fun x => { x with fencedAt := some 0 }

/-- The small module while a module reset is held by a commit, is due, or asks for a power cycle. -/
def held0 : State := { world with sys := { world.sys with heldReset := true }, sec := { world.sec with commitStep := 3 } }
def due0 : State := { resetting0 .whole false with rcv := { (resetting0 .whole false).rcv with whole := some (1, true) } }
def cycling0 : State := { resetting0 .whole false with sys := { world.sys with pwrCycleReq := some 0 } }

/-- Hypotheses of DomainResets that can be met. -/
theorem witness_domain_resets :
    (world.part? 0).isSome = true ∧ (world.part? 3) = none ∧ resetOf world (.partition 0) = none ∧
    (resetOf (resetting0 (.partition 0) false) (.partition 0)).isSome = true ∧
    ((fenced0.part? 0).map Part.fencedAt) = some (some 0) ∧ ((world.part? 0).map Part.fencedAt) = some none ∧
    (∀ d, d < 4 → (world.die d).stream = none) ∧ (0 : Nat) + 10000000 ≤ (fenced0.tick 10000000).sys.time ∧
    held0.sys.heldReset = true ∧ held0.sec.commitStep ≠ 0 ∧
    (let s := { held0 with sys := { held0.sys with heldReset := false } }
     s.sys.heldReset = false ∧ resetOf s .whole = none ∧ s.rcv.whole = none ∧ s.sec.commitStep ≠ 0) ∧
    (resetOf (resetting0 .whole false) .whole = some (rst .whole false) ∧ (resetting0 .whole false).rcv.whole = none) ∧
    (resetOf due0 .whole = some (rst .whole false) ∧ due0.rcv.whole = some (1, true) ∧ due0.sys.heldReset = false ∧
      due0.sys.thermalOff = false) ∧
    ([.context 1, .engine (.cluster 0 0), .engine (.link 0), .partition 0, .whole].all fun r =>
      decide ((resetOf ((resetting0 r false).tick 10000000) r).map Reset.deadline = some 10000000) &&
      decide (10000000 ≤ ((resetting0 r false).tick 10000000).sys.time)) = true ∧
    unitOwner world (.cluster 0 0) = some 0 ∧ unitOwner world (.link 0) = none ∧ world.sys.pwrCycleReq = none ∧
    (cycling0.sys.pwrCycleReq = some 0 ∧ cycling0.sys.main = true ∧
      (0 : Nat) + 10000000000 ≤ (cycling0.tick 10000000000).sys.time ∧ (cycling0.tick 1).sys.time < 0 + 10000000000) := by decide +kernel

/-- Hypotheses of ErrorCommands that can be met. -/
theorem witness_recovery_commands :
    unitOfWord 0x10 = some (.cluster 0 0) ∧ dumpSource { cap with p0 := 1, length := 64 } (world.entered 0x0664 { cap with p0 := 1, length := 64 }) ≠ none
      := by decide +kernel

/-- The small module without auxiliary power, or without main power. -/
def noAux : State := { world with sys := { world.sys with aux := false } }
def noMain : State := { world with sys := { world.sys with main := false } }

/-- The small module while cast-on runs a step. -/
def casting (k : BitVec 4) : State :=
  setStatus 7 true (setStatus 0 false { world with sys := { world.sys with castStep := k } })

/-- Hypotheses of SuppliesAndCastOn that can be met. -/
theorem witness_supplies :
    world.sys.aux = true ∧ noAux.sys.aux = false ∧ noAux.sys.main = true ∧ world.sys.main = true ∧ noMain.sys.main = false ∧
    (2 ≤ world.sys.castStep.toNat ∧ world.sys.thermalOff = false ∧ world.statusBit 5 = false) ∧
    (casting 1).sys.castStep.toNat < 2 ∧ (setStatus 5 true world).statusBit 5 = true ∧
    (let v := noMain.tick 5; v.sys.main = false ∧ v.sys.aux = true ∧ v.sys.cycled = false ∧ v.statusBit 5 = false) ∧
    (let v := ({ noMain with sys := { noMain.sys with cycled := true } } : State).tick 5; v.sys.main = false ∧ v.sys.cycled = true) ∧
    (let v := ({ noAux with sys := { noAux.sys with main := false } } : State).tick 5; v.sys.main = false ∧ v.sys.aux = false) ∧
    world.sys.lowLogged = none ∧ world.sys.highLogged = none := by decide +kernel

/-- The module after reset with a flash that holds no bundle, or some bundle. -/
def bundle0 : Bundle := State.reset.sec.running

/-- Hypotheses of SuppliesAndCastOn that can be met. -/
theorem witness_cast_on :
    (casting 0).sys.castStep = 0 ∧ (setStatus 7 false (casting 0)).statusBit 4 = false ∧ world.sys.castStep ≠ 0 ∧
    world.sys.refclk = true ∧ (casting 1).statusBit 7 = true ∧ (casting 1).sys.stepFailed = false ∧
    (casting 1).sec.committed ≠ none ∧
    { casting 1 with sec := { world.sec with committed := none } }.sec.committed = none ∧
    StepResult.imageFailed ∈ [StepResult.imageFailed] ∧ StepResult.imageFailed ∉ ([] : List StepResult) ∧
    stepStops 2 [.fatalDieFailed] = true ∧ stepStops 8 [.journalFailed] = true ∧ stepStops 3 [.lightDieFailed 0] = false ∧
    stepStops 8 [] = false ∧ (casting 8).sys.dataOn = true ∧ world.statusBit 7 = false ∧
    (setStatus 4 true world).statusBit 4 = true ∧ (setStatus 4 true (casting 0)).sys.castStep = 0 ∧ world.statusBit 4 = false := by
  decide +kernel

/-- The small module whose dies have left step 8, whose cap is 1,000 W and which has been well below its caps since time 0. -/
def capped : State :=
  { world with power := { world.power with capW := 1000, belowSince := some 0 }
               dies := (List.range 4).map fun d => (d, { world.die d with k := 12, capK := 12, kmax := 16 }) }

/-- Hypotheses of PowerLoopsAndStates that can be met. -/
theorem witness_power_loops :
    (let w : State := { world.tick 5 with power := { world.power with inputMw := 2000000 } }
     let c : State := { capped.tick 5 with power := { capped.power with inputMw := 2000000 } }
     moduleCap c * 1000 < 2000000 ∧ bestDie (fun a b => decide (b < a)) (fun d => decide (8 < (c.die d).k)) [0, 1, 2, 3] c = some 0 ∧
     2000000 ≤ moduleCap w * 1000 ∧ overParts [0, 0, 0, 0] w = [] ∧ wellBelow 2000000 [0, 0, 0, 0] w = true ∧
     world.power.belowSince = none) ∧
    (let c : State := { capped.tick 1000000 with power := { capped.power with inputMw := 900000 } }
     900000 ≤ moduleCap c * 1000 ∧ overParts [0, 0, 0, 0] c = [] ∧ wellBelow 900000 [0, 0, 0, 0] c = true ∧
     c.power.belowSince = some 0 ∧ 0 + 1000000 ≤ (capped.tick 1000000).sys.time ∧
     bestDie (fun a b => decide (a < b)) (fun d => decide ((c.die d).capK < (c.die d).kmax)) [0, 1, 2, 3] c = some 0) ∧
    (let c : State := { capped with power := { capped.power with inputMw := 980000 } }; wellBelow 980000 [0, 0, 0, 0] c = false) ∧
    (105000 : Int) ≤ hardLimit (.compute 0) ∧ (109000 : Int) < tripLimit (.light 0) ∧ tripLimit (.hbm 0) ≤ (105000 : Int) ∧
    (setTemp (.light 0) 111000 world).sys.thermalOff = false ∧
    (setTemp (.light 0) 111000 { world with sys := { world.sys with thermalOff := true } }).sys.thermalOff = true ∧
    { world with power := { world.power with lowFlow := true } }.power.lowFlow = true ∧ world.power.lowFlow = false := by decide +kernel

/-- A die's state set, in the small module. -/
def dieIn (p : PState) (w : Option Nat) : State := ({ world with stores := [] } : State).modDie 0 fun x => { x with pstate := p, wakingAt := w, idleAt := some 0 }

/-- Hypotheses of PowerLoopsAndStates that can be met. -/
theorem witness_die_states :
    (let v := ({ world with stores := [] } : State).tick 3600000000000
     v.sys.dataOn = true ∧ (v.die 0).pstate = .run ∧ (v.die 0).wakingAt = none ∧ dieIdle v 0 = true ∧
     idleSince v 0 + v.power.gateUs * 1000 ≤ v.sys.time) ∧
    (let v := (dieIn .run none).tick 1
     (v.die 0).pstate = .run ∧ dieIdle v 0 = true ∧ v.sys.time < idleSince v 0 + v.power.gateUs * 1000) ∧
    dieIdle (plays stream0) 0 = false ∧ ((dieIn .gate none).die 0).pstate = .gate ∧
    (let s : State := { dieIn .gate none with power := { world.power with retainMs := some 10 } }
     s.power.retainMs = some 10 ∧ (s.die 0).wakingAt = none ∧
     idleSince (s.tick 10000000) 0 + 10 * 1000000 ≤ (s.tick 10000000).sys.time ∧
     (s.tick 1).sys.time < idleSince (s.tick 1) 0 + 10 * 1000000) ∧
    (((dieIn .gate (some 5)).tick 5).die 0).wakingAt = some 5 ∧ ((world.die 0).wakingAt = none) := by decide +kernel

/-- The 20 words of power settings that are in range, that are clipped, and that are out of range. -/
def pwrWords (cap : Nat) : List Nat :=
  [cap, 0xFFFFFFFF, 0xFFFFFFFF, 0xFFFFFFFF, 0xFFFFFFFF, 8, 16, 8, 16, 8, 16, 8, 16, 85, 100, 0xFFFFFFFF, 0, 63, 0, 63]

/-- Hypotheses of PowerCommands that can be met. -/
theorem witness_power_commands :
    pwrOk (pwrWords 2000) = true ∧ pwrClips (pwrWords 2000) = false ∧ pwrClips (pwrWords 3000) = true ∧ pwrOk (pwrWords 500) = false ∧
    (accepted 0x0672 { cap with p0 := 2, p1 := 0 } world && accepted 0x0672 { cap with p0 := 2, p1 := 1 } world &&
      accepted 0x0672 { cap with p0 := 4, p1 := 1 } world && accepted 0x0672 { cap with p0 := 4, p1 := 0 } world) = true ∧
    (let c : Capsule := { cap with p0 := 4, p1 := 1 }; (world.entered 0x0672 c).sys.off = false ∧ (world.entered 0x0672 c).sys.offAsked = false) ∧
    (let s : State := { world with sys := { world.sys with offAsked := true } }
     let c : Capsule := { cap with p0 := 4, p1 := 1 }
     accepted 0x0672 c s = true ∧ (s.entered 0x0672 c).sys.offAsked = true) ∧
    (let s : State := { world with sys := { world.sys with off := true } }
     let c : Capsule := { cap with p0 := 4, p1 := 0 }
     accepted 0x0672 c s = true ∧ (s.entered 0x0672 c).sys.off = true) ∧
    (let s : State := { world with sys := { world.sys with shutdownAt := some 0 } }
     (s.tick 60000000000).sys.shutdownAt = some 0 ∧ 0 + 60000000000 ≤ (s.tick 60000000000).sys.time ∧
     (s.tick 1).sys.time < 0 + 60000000000) := by decide +kernel

/-- The small module whose queue 1 is enabled with a depth of 4, changed. -/
def withQ (f : CtlQ → CtlQ) : State := world.modQueue 1 fun q => f { q with cfg := 1 + 3 * 2 }

/-- A finished command of queue 1 that answers to slot 2. -/
def done1 (wasLive slotEn : Bool) : CqDone :=
  { seq := 5, slotEn := slotEn, slot := 2, opcode := 0x0601, tag := 1, status := 0, detail := 0, data := [], wasLive := wasLive }

/-- A live command of queue 1 that reads 16 bytes of the host. -/
def reads1 : State :=
  asks { run0 0x0611 { cap with origin := .ctlq 1, dataLen := 16, length := 16 } with phase := .granting }

/-- Hypotheses of ControlQueues that can be met. -/
theorem witness_control_queues :
    world.sys.pcieUp = true ∧ { world with sys := { world.sys with pcieUp := false } }.sys.pcieUp = false ∧
    (world.queue 1).served = false ∧ ((withQ id).queue 1).served = true ∧ ((withQ id).queue 1).depth ≤ (4095#32).toNat % 4096 ∧
    (0#32).toNat % 4096 < ((withQ id).queue 1).depth ∧ ((withQ id).queue 1).depth + 64 ≤ (8191#32).toNat % 8192 ∧
    (world.queue 1).enable = false ∧ (world.queue 1).error = false ∧ (world.queue 1).outstanding = 0 ∧
    ((world.modQueue 1 fun q => { q with error := true }).queue 1).error = true ∧ ((withQ id).queue 1).enable = true ∧
    mayTake 1 (withQ id) = false ∧ mayTake 1 (withQ fun q => { q with tail := 1 }) = true ∧
    fieldAt (List.replicate 8 0 ++ [1]) 8 1 = 1 ∧ fieldAt [] 8 1 ≠ 1 ∧
    (let v := (withQ fun q => { q with done := [done1 true true] }).tick 5
     (v.queue 1).done = [done1 true true] ∧ v.sys.d3hot = false ∧ v.sys.pcieUp = true ∧ (v.queue 1).cqDead = false) ∧
    ((withQ fun q => { q with done := [done1 true true], cqDead := true }).queue 1).cqDead = true ∧
    (let v := (withQ fun q => { q with cfg := q.cfg ||| 0x10080000, unsignalled := 1, cqDead := false }).tick 1000000
     (v.queue 1).irqEn = true ∧ 0 < (v.queue 1).aggTime ∧ 0 < (v.queue 1).unsignalled ∧ (v.queue 1).firstAt + 4000 * (v.queue 1).aggTime ≤ v.sys.time) ∧
    ((withQ fun q => { q with events := [(1, 2, 3)] }).queue 1).load + 1 ≤ ((withQ fun q => { q with events := [(1, 2, 3)] }).queue 1).cqSize ∧
    reads1.live? 4 ≠ none ∧ reads1.live? 3 = none ∧
    (reads1.live? 4).any (fun l => decide (fabricOf l.c.origin = none) && l.awaits) = true := by decide +kernel

/-- Hypotheses of ReleaseOfASlot, TimeRegisters and FunctionRegisters that can be met. -/
theorem witness_slots_and_time :
    (let s := world.modSlot 7 fun x => { x with state := 2, length := 4, payload := [1, 2, 3, 4] }
     s.sys.pcieUp = true ∧ (s.slot (7#32).toNat).state = 2) ∧ (world.slot 7).state ≠ 2 ∧ world.sys.timeLatch = none ∧
    { world with sys := { world.sys with timeLatch := some 7 } }.sys.timeLatch = some 7 ∧
    ((world.modMailbox 3 fun x => { x with full := true }).mailbox 3).full = true ∧ (world.mailbox 3).full = false ∧
    noAux.sys.aux = false := by decide +kernel

/-- A whole program sequence of a sector, and an erase of a block. -/
def progSeq : List (BitVec 28 × Byte) :=
  unlock 0xA0 ++ (List.range 1024).map (fun i => (BitVec.ofNat 28 (0x10000 + i), 0x0F)) ++ [(0x10000, 0x29)]
def eraseSeq (a : BitVec 28) : List (BitVec 28 × Byte) := unlock 0x80 ++ [(0xAAA, 0xAA), (0x554, 0x55), (a, 0x30)]

/-- The small module's configuration flash changed. -/
def flashed (f : Cfl → Cfl) : State := world.modCfl f

set_option maxRecDepth 100000 in
/-- Hypotheses of ConfigurationFlash that can be met. -/
theorem witness_program_sequence :
    programAt progSeq = some 0x10000 ∧ programAt (unlock 0xA0) = none ∧ progSeq.length = 1028 := by decide +kernel

/-- Hypotheses of ConfigurationFlash that can be met. -/
theorem witness_configuration_flash :
    eraseAtOf (eraseSeq 0x20004) = some 0x20000 ∧ eraseAtOf [] = none ∧ (cflNow world).sec.cfl.active = false ∧
    (cflNow world).sec.cfl.otp = false ∧ cflProtected 0x20000 = false ∧ cflProtected 0x4100000 = true ∧
    (flashed fun c => { c with progAt := some 0 }).sec.cfl.active = true ∧
    (flashed fun c => { c with eraseAt := some 0 }).sec.cfl.eraseAt = some 0 ∧
    (let s := flashed fun c => { c with eraseAt := some 0, suspended := true }
     (cflNow s).sec.cfl.eraseAt.isSome = true ∧ (cflNow s).sec.cfl.suspended = true ∧ (cflNow s).sec.cfl.progAt = none) ∧
    (let s := flashed fun c => { c with eraseAt := some 0, suspended := true, fetchAt := some 0 }
     s.sec.cfl.fetchAt = some 0 ∧ (cflNow (s.tick 50)).sec.cfl.suspended = true ∧ (cflNow (s.tick 100000)).sec.cfl.suspended = false) ∧
    (let s := flashed fun c => { c with progAt := some 0x10000, data := List.replicate 1024 0x0F }
     (cflNow s).sec.cfl.progAt = some 0x10000 ∧ (cflNow s).sec.cfl.otp = false) ∧
    (let s := flashed fun c => { c with eraseAt := some 0x20000 }
     (cflNow s).sec.cfl = s.sec.cfl ∧ s.sec.cfl.progAt = none ∧ s.sec.cfl.suspended = false) ∧
    world.sec.cfl.progAt = none ∧ world.sec.cfl.eraseAt = none ∧ world.sec.commitStep = 0 := by decide +kernel

/-- The identity row programmed with a word that sets a bit, or that would clear one. -/
def rowProg (v : Byte) : State :=
  flashed fun c => { c with progAt := some 0, data := v :: (otpBytes world 0 1024).drop 1, otp := true }

set_option maxRecDepth 100000 in
/-- Hypotheses of ConfigurationFlash and IdentityRowOnlyGainsOnes that can be met. -/
theorem witness_identity_row :
    (let s := rowProg 0xFF
     ((List.zip (otpBytes (cflNow s) 0 1024) (cflNow s).sec.cfl.data).any fun e => decide (e.1 &&& ~~~e.2 ≠ 0)) = false) ∧
    (let s : State := { rowProg 0 with sec := { (rowProg 0).sec with otp := [[(0, 1)], [(0, 1)], [(0, 1)]] } }
     ((List.zip (otpBytes (cflNow s) 0 1024) (cflNow s).sec.cfl.data).any fun e => decide (e.1 &&& ~~~e.2 ≠ 0)) = true) := by
  decide +kernel

/-- A log entry, and the small module with 1 or 16 of them to copy to the lasting log. -/
def logged0 : LogEntry :=
  { seq := 1, time := 0, code := 0x0501, severity := 0, origin := 0, unit := 0, context := 0, detail := [] }
def logging (n : Nat) : State := { world with log := { world.log with buffer := List.replicate n logged0 } }

/-- The small module that stages an image, or commits one. -/
def staged0 : State := { world with sec := { world.sec with staging := some (.secure 0, [], 0) } }
def step0 (k : Nat) : State := { staged0 with sec := { staged0.sec with commitStep := k } }

/-- Hypotheses of ConfigurationFlash that can be met. -/
theorem witness_firmware :
    ((logging 16).tick 5).log.buffer = logged0 :: List.replicate 15 logged0 ∧ ((logging 1).tick 5).sys.time < logged0.time + 1000000000 ∧
    logged0.time + 1000000000 ≤ ((logging 1).tick 1000000000).sys.time ∧ world.sec.staging = none ∧ world.statusBit 5 = false ∧
    staged0.sec.staging.isSome = true ∧ staged0.sec.commitStep = 0 ∧
    (accepted 0x0611 cap staged0 && accepted 0x0612 cap staged0) = true ∧
    ((step0 5).sec.commitStep = 5 ∧ (step0 5).sec.commitAgain = false ∧ (step0 5).sec.cfl.progAt = none ∧
      (step0 5).sec.cfl.eraseAt = none) ∧
    (bundleCheck (stagedBytes staged0) staged0).isSome = true ∧
    (staged0.entered 0x0612 cap).sec = staged0.sec := by decide +kernel

/-- A base image with one item, the node id 7, and its digest as Python's hashlib gives it; and an access table of one
administrator of a secure origin. -/
def nodeItem : List Byte := leBytes 2 1 ++ leBytes 2 4 ++ leBytes 4 7
def image0 : List Byte :=
  leBytes 4 0xC0F90C28 ++ leBytes 4 0 ++ leBytes 8 0 ++ leBytes 4 8 ++ leBytes 12 0 ++ leBytes 64
    0xD0B38C644994CE5EEB8E0F217E6335FC37DC7659ED8F324B98D5FA8F1BC7E5BD073D446A35ECCCA388237190D2DBA107F61EF39D2B505D0381E7646C783BB5B5 ++ leBytes 32 0 ++ nodeItem
def access0 : List Byte := leBytes 16 (6 + 2 ^ 60)

set_option maxRecDepth 100000 in
/-- Hypotheses of ConfigurationCommands that can be met. -/
theorem witness_images :
    imageItems 0 image0 = some [(1, leBytes 4 7)] ∧ imageItems 0 (image0.set 0 0) = none ∧ imageSigned image0 world = true ∧
    imageSigned image0 { world with sec := { world.sec with otp := [[(0xA0, 2)], [(0xA0, 2)], [(0xA0, 2)]] } } = false := by
  decide +kernel

/-- The small module whose first overlay is unsigned where the policy wants a signature. -/
def unsigned0 : State :=
  { world with sec := { world.sec with
      otp := [[(0xA0, 2)], [(0xA0, 2)], [(0xA0, 2)]], overlays := [(0, [{ gen := 1, items := [], raw := List.replicate 128 0 }])] } }

/-- Hypotheses of ConfigurationCommands that can be met. -/
theorem witness_configuration_commands :
    accessShape access0 = true ∧ accessKeeps (accessTable access0) = true ∧ accessKeeps (accessTable (leBytes 16 3)) = false ∧
    accessShape (leBytes 16 3) = true ∧ accessShape (leBytes 16 15) = false ∧
    (let c : Capsule := { cap with p0 := 1 }
     accepted 0x0622 c unsigned0 = true ∧ accepted 0x0622 c world = true ∧
     (((List.range 16).filter fun i => (1#16).getLsbD i).any fun i =>
       (newestImage (Tbl.getD (unsigned0.entered 0x0622 c).sec.overlays i [])).any fun x => !imageSigned x.raw unsigned0) = true ∧
     (((List.range 16).filter fun i => (1#16).getLsbD i).any fun i =>
       (newestImage (Tbl.getD (world.entered 0x0622 c).sec.overlays i [])).any fun x => !imageSigned x.raw world) = false) ∧
    ((List.zip (otpBytes world 0xA0 4) [1, 0, 0, 0]).any fun e => decide (e.1 &&& ~~~e.2 ≠ 0)) = false ∧
    ((List.zip (otpBytes unsigned0 0xA0 1) [0]).any fun e => decide (e.1 &&& ~~~e.2 ≠ 0)) = true ∧
    leNat ([8] : List Byte) ≥ 8 ∧ leNat ([1] : List Byte) < 8 := by decide +kernel

/-- The digest of the key [1], as Python's hashlib gives it. -/
def key1 : List Byte :=
  leBytes 64
    0xEFCD7F4EA3D2303F852297BC5AF5451BA0FE410C48C5742C7F58EA6EE156C35CBA77D9036885906179AF8B745B3D1577FD01B30FDFCFB22A6AEA40B28062DA94

/-- The connection of an endpoint at a step of the attestation flow, in a module with that key for sessions. -/
def talking (k : Nat) : State :=
  { world with sec := { world.sec with spdm := [(16, { step := k, session := none })], sessionKeys := [key1] } }
def owned0 : State := { talking 4 with sec := { (talking 4).sec with otp := [[(0x60, 1)], [(0x60, 1)], [(0x60, 1)]] } }

set_option maxRecDepth 100000 in
/-- Hypotheses of TrustAndSideband that can be met. -/
theorem witness_trust :
    ((talking 0).conn 16).step = 0 ∧ ((talking 1).conn 16).step = 1 ∧ ((talking 2).conn 16).step = 2 ∧
    ((talking 3).conn 16).step = 3 ∧ ((talking 4).conn 16).step = 4 ∧ owned owned0 = true ∧ owned (talking 4) = false ∧
    keyIndex (shake256 [1] 64) (talking 4) = some 1 ∧ keyIndex (shake256 [2] 64) world = none ∧
    32 ≤ freeFrames world 0 ∧ world.sys.slotId = 3 := by decide +kernel

/-- Hypotheses of the statements over every state and step, and of FloatCodesAreTheirValues and BytesReadBack that can be met. -/
theorem witness_states :
    world.quiet = true ∧ Tbl.wf world.cmds = true ∧ (∀ e ∈ world.cmds, e.1 < world.nextCmd) ∧
    (world.log.entries.map LogEntry.seq = List.range' world.log.first world.log.entries.length) ∧
    world.log.first + world.log.entries.length = world.log.next ∧ world.pending = [] ∧ world.sys.aux = true ∧
    (∀ t, step { world with pending := [.parQuery { cap with p0 := 0 }] } = .next t → t.pending = []) ∧
    (floatFmt 3).decode 0x7E ≠ .nan ∧ 0x7E < 2 ^ (floatFmt 3).width ∧ Mem.wf [(4, 1), (9, 2)] = true := by
  refine ⟨by decide +kernel, by decide +kernel, by decide +kernel, by decide +kernel, by decide +kernel, rfl, rfl, ?_, by decide +kernel,
    by decide +kernel, by decide +kernel⟩
  intro t h
  cases h
  rfl

/-! ## Commands that are taken up -/

/-- Whether the small module takes up every command of a list. -/
def allTaken (xs : List (Nat × Capsule)) : Bool := xs.all fun x => accepted x.1 x.2 world

/-- Commands that meet `accepted`, which the statements about commands ask. -/
theorem witness_accepted_first : allTaken taken0 = true := by decide +kernel
theorem witness_accepted_second : allTaken taken1 = true := by decide +kernel
theorem witness_accepted_third : allTaken taken2 = true := by decide +kernel
theorem witness_accepted_fourth : allTaken taken3 = true := by decide +kernel
theorem witness_accepted_fifth : allTaken taken4 = true := by decide +kernel

/-- Commands that meet `accepted`, which the statements about commands ask. -/
theorem witness_accepted_format :
    accepted 0x0642 { cap with dataLen := 0 } { world with cmds := [], scans := [] } = true := by decide +kernel

/-! ## An ill-formed command for each check -/

/-- A word of no scratchpad, with two data words. -/
def twoWords : EccReq := { req0 with data := [1, 2] }

theorem test_ill_formed :
    Instr.problem (.payloadFlitReceive 0 [] { correctedBy := [], fecOk := true, tagOk := true }) = some .flitSize ∧
    Instr.problem (.payloadFlitReceive 0 (List.replicate 256 0) { correctedBy := [(0, 300)], fecOk := true, tagOk := true }) =
      some .correctedBytes ∧
    Instr.problem (.creditReturnReceive 0 [1]) = some .creditFields ∧
    Instr.problem (.sqEntryTake 0 []) = some .packetSize ∧
    Instr.problem (.frameRetire 0 0 134217728) = some .pageNumber ∧
    Instr.problem (.chunkStepComplete 0x30000001 262144) = some .chunkNumber ∧
    Instr.problem (.eccWrite 0 twoWords) = some .eccWords ∧
    Instr.problem (.capLoopTick 0 [1] 0) = some .partFigures ∧
    Instr.problem (.challenge 16 0 []) = some .nonceSize ∧
    Instr.problem (.blockEraseComplete 0 [1, 1]) = some .slotsTwice ∧
    Instr.problem (.powerShedTick 0 101) = some .percent ∧
    Instr.problem (.dataSegmentReceive 0 5 1 0 [] 0) = some .segmentSize ∧
    Instr.wf (.eccWrite 0 req0) = true ∧ Instr.wf (.powerShedTick 0 100) = true := by decide +kernel

/-! ## Values from outside the model -/

/-- The check value of CRC-32C: the digits 1 to 9. -/
theorem test_crc_check : crc32c [0x31, 0x32, 0x33, 0x34, 0x35, 0x36, 0x37, 0x38, 0x39] = 0xE3069283 := by decide +kernel

/-- A block that liblz4 made of "abc" eight times and "-end-of". -/
theorem test_lz4 :
    lz4 30 [0x3F, 0x61, 0x62, 0x63, 0x03, 0x00, 0x02, 0x70, 0x2D, 0x65, 0x6E, 0x64, 0x2D, 0x6F, 0x66] [] =
      some ((List.replicate 8 [0x61, 0x62, 0x63]).flatten ++ [0x2D, 0x65, 0x6E, 0x64, 0x2D, 0x6F, 0x66]) := by decide +kernel

/-- The words of a text of 83 bytes, and the frame with checksum that libzstd makes of it. -/
def zText : List Byte := leBytes 83
  0x2E73656761702030303320736461657220656C75646F6D20656874203B73656761702030303220736461657220656C75646F6D20656874203B73656761702030303120736461657220656C75646F6D20656854
def zFrame : List Byte := leBytes 56
  0x471BF52E4E991EDE10108000032E333274203B73656761702030303120736461657220656C75646F6D20656854020400015D5324FD2FB528

set_option maxRecDepth 100000 in
theorem test_zstd : zstd zFrame = some zText ∧ zstd (zFrame.set 20 0x21) = none := by decide +kernel

/-- Sums, products and conversions by hand: ties to even, a product that saturates (R98), the largest E4M3 value. -/
theorem test_floats :
    f32Add 0x3F800000 0x33800000 = (0x3F800000, false) ∧ f32Add 0x3F800001 0x33800000 = (0x3F800002, false) ∧
    f32Mul 0x7F7FFFFF 0x40000000 = (0x7F7FFFFF, true) ∧ f32Div 0x3F800000 0x40400000 = (0x3EAAAAAB, false) ∧
    f32Sqrt 0x40000000 = (0x3FB504F3, false) ∧ (floatFmt 3).encode .near (f32 0x43E00000) = (0x7E, false) ∧
    (floatFmt 1).encode .near (f32 0x3F808000) = (0x3F80, false) := by decide +kernel

/-! ## The manual's worked examples -/

/-- The rows L, X, Y and Z of the worked schedule fragment, as its table gives their slots. -/
def rowL : List Byte := leBytes 12 (2 ^ 25 + 2 ^ 44) ++ leBytes 12 (3 + 32 * 2 ^ 32 + 27 * 2 ^ 64)
def rowX : List Byte := leBytes 12 (1 + 2 ^ 20 + 1022 * 2 ^ 26 + 2 ^ 44 + 2 ^ 48) ++ leBytes 6 0x10C2 ++ leBytes 12 0x40500001031
def rowY : List Byte := leBytes 12 (2 ^ 24 + 2 ^ 25 + 2 ^ 44 + 1024 * 2 ^ 48) ++ leBytes 8 (2 + 16 * 5) ++ leBytes 12 (0x1105 + 2 ^ 32)
def rowZ : List Byte := leBytes 12 (2 ^ 25 + 2 ^ 44 + 32769 * 2 ^ 48) ++ leBytes 12 (6 + 2 * 2 ^ 32)
def fragment : List Byte := imageOf (rowL ++ rowX ++ rowY ++ rowZ) []

theorem test_worked_rows :
    (rowAt fragment 0).map Row.size = some 12 ∧ (rowAt fragment 12).map Row.size = some 15 ∧
    (rowAt fragment 27).map Row.size = some 16 ∧ (rowAt fragment 43).map Row.size = some 12 ∧
    (rowAt fragment 12).map Row.rest = some 1022 ∧ (rowAt fragment 43).map Row.plan = some 32769 ∧
    arraySlotOf 0x10C2 = (2, { desc := 12, ix := 1, token := 0, tokenEn := false }) ∧
    moveSlotOf 0x40500001031 = (1, { mdesc := 3, ix := 1, len := 0, token := 5, tokenEn := true }) := by decide +kernel

/-- Descriptors 20 and 21 of the worked product, behind twenty empty ones. -/
def desc20 (acc : Nat) : List Byte :=
  leBytes 32 (0xCC + acc * 2 ^ 14 + 127 * 2 ^ 16 + 127 * 2 ^ 23 + 4095 * 2 ^ 32 + 0x400000 * 2 ^ 48 + 0x500000 * 2 ^ 96 + 2 * 2 ^ 120 +
    8 * 2 ^ 136 + 264 * 2 ^ 152 + 8448 * 2 ^ 168)
def product : List Byte := imageOf [] (List.replicate 640 0 ++ desc20 0 ++ desc20 1)

/-- An array slot on a descriptor, and the module as its stream issues in a cycle. -/
def onDesc (k : Byte) (ix : BitVec 4) : ArraySlot := { desc := k, ix := ix, token := 0, tokenEn := false }
def issues (cycle : Nat) (s : State) : State := s.modDie 0 (Die.modStream fun x => { x with cycle := cycle })

/-- The passes of cluster 0, each with its arrival, the cycles in which its first and last vectors enter, and its last result
written. -/
def passTimes (o : Host.Outcome State Fault Refusal) : List (Nat × Nat × Nat) :=
  match o with
  | .next t =>
    let c := (t.die 0).cluster 0
    (c.flight ++ c.waiting.toList).map fun p => (p.arrival, p.first, p.lastEntry)
  | _ => []

/-- Pass 0 arrives in cycle 0 and its vectors enter from 128 to 4,223; pass 1, arriving in cycle 1, follows from 4,224 to
8,319. -/
theorem test_worked_product :
    passTimes (exec (.pass 0 0 (onDesc 20 0) .clean) (issues 0 (playing product stream0))) = [(0, 128, 4223)] ∧
    (match exec (.pass 0 0 (onDesc 20 0) .clean) (issues 0 (playing product stream0)) with
      | .next t => passTimes (exec (.passChain 0 0 (onDesc 21 0) .clean) (issues 1 t))
      | _ => []) = [(0, 128, 4223), (1, 4224, 8319)] := by decide +kernel

end Sys2Proof.Tests
end

section
/-! The obligations on reset and on memories: what a memory reads after runs of bytes are written and ranges are zeroed, the
little-endian fields of R4, and the state right after reset. -/

namespace Sys2Proof.Machine

/-! ## Reads of a memory after a run of writes and after a zeroed range -/

/-- Keeping the entries of some keys keeps what these keys read and takes away the rest. -/
theorem Tbl.get?_keep_keys {α : Type} (p : Nat → Bool) (t : Tbl α) (j : Nat) :
    Tbl.get? (Tbl.keep (fun k _ => p k) t) j = if p j then Tbl.get? t j else none := by
  induction t with
  | nil => simp [Tbl.keep, Tbl.get?]
  | cons e t ih =>
    obtain ⟨k, v⟩ := e
    by_cases hjk : j = k
    · subst hjk
      cases hp : p j <;> simp [Tbl.keep, Tbl.get?, hp, ih]
    · cases hp : p k <;> simp [Tbl.keep, Tbl.get?, hp, hjk, ih]

/-- A zeroed range reads as zero, and every byte outside it as before. -/
theorem Mem.read_zeroRange (a n k : Nat) (m : Mem) :
    Mem.read (Mem.zeroRange a n m) k = if k < a ∨ a + n ≤ k then Mem.read m k else 0 := by
  simp only [Mem.read, Mem.zeroRange, Tbl.getD, Tbl.get?_keep_keys, decide_eq_true_eq]
  split <;> rfl

/-- A run of writes leaves every byte outside it as it was. -/
theorem Mem.read_writeBytes_outside {bs : List Byte} {a k : Nat} {m : Mem} (h : k < a ∨ a + bs.length ≤ k) :
    Mem.read (Mem.writeBytes a bs m) k = Mem.read m k := by
  induction bs generalizing a m with
  | nil => rfl
  | cons b bs ih =>
    rw [List.length_cons] at h
    have hk : k ≠ a := by omega
    rw [Mem.writeBytes, ih (by omega), Mem.read_write, if_neg hk]

/-- A run of writes reads back: the first byte lies below the rest of the run, which therefore leaves it alone. -/
theorem Mem.readBytes_writeBytes (bs : List Byte) (a : Nat) (m : Mem) :
    Mem.readBytes (Mem.writeBytes a bs m) a bs.length = bs := by
  induction bs generalizing a m with
  | nil => rfl
  | cons b bs ih =>
    have hfirst : Mem.read (Mem.writeBytes (a + 1) bs (Mem.write a b m)) a = b := by
      rw [Mem.read_writeBytes_outside (Or.inl a.lt_succ_self), Mem.read_write, if_pos rfl]
    rw [List.length_cons, Mem.readBytes, Mem.writeBytes, hfirst, ih]

/-! ## Little-endian fields (R4) -/

/-- A field of `n` bytes holds a value modulo 256 ^ n. -/
theorem leNat_leBytes (n v : Nat) : leNat (leBytes n v) = v % 256 ^ n := by
  induction n generalizing v with
  | zero => simp [leBytes, leNat, Nat.mod_one]
  | succ n ih =>
    have hbyte : (BitVec.ofNat 8 (v % 256)).toNat = v % 256 := by simp
    rw [leBytes, leNat, hbyte, ih, Nat.pow_succ', Nat.mod_mul]

/-! ## The state right after reset -/

/-- The log, its copies and the command table are empty at reset, so they are in order. -/
theorem State.reset_inv : State.reset.Inv := by
  have hlog : State.reset.log.Ok := by simp [LogRing.Ok, State.reset]
  have hcmds : State.reset.CmdsOk := by simp [State.CmdsOk, State.reset, Tbl.wf, Tbl.risingFrom]
  exact ⟨hlog, hcmds⟩

/-- Partition 0 is the only one at reset. -/
theorem State.reset_part?_eq_none {p : Nat} (hp : p ≠ 0) : State.reset.part? p = none := by
  simp [State.part?, State.reset, Tbl.get?, hp]

end Sys2Proof.Machine

namespace Sys2Proof

open Sys2Proof.Machine

/-- Settles O60, by induction on the run of bytes: what is written at an address is not touched by the writes behind it. -/
theorem bytesReadBack : Obligations.BytesReadBack := by
  intro bs a m hm
  refine ⟨Mem.wf_writeBytes hm, Mem.readBytes_writeBytes bs a m, fun _ hk => Mem.read_writeBytes_outside hk,
    leNat_leBytes, fun n v k hk => ?_⟩
  rw [Mem.read_zeroRange, if_pos hk, Mem.read_write, if_pos rfl]

/-- Settles O3, field by field of `State.reset`. Where the manual leaves the state after reset open, the obligation states the
model's choice of log rows 3 and 4: cast-on has ended with `ready` alone set, no object exists, the node id is 1, and partition 0 owns
every die. -/
theorem resetState : Obligations.ResetState :=
  ⟨State.reset_inv, rfl, rfl, rfl, rfl, rfl, rfl, rfl, rfl, rfl, rfl, rfl, rfl, fun _ hp => State.reset_part?_eq_none hp,
    fun _ => rfl, fun _ => rfl⟩

end Sys2Proof
end

section
/-! The obligations on the row stream (chapter 2): control rows, sync slots and waits, move slots and movers, and the commands
that load, run and unload programs. -/

namespace Sys2Proof.Machine

variable {s : State} {d : Nat} {x : Stream}

/-- The passing of time changes no die. -/
@[simp] theorem die_tick (s : State) (t d : Nat) : (s.tick t).die d = s.die d := by simp [State.die]

/-- Rows that answer one state answer alike. -/
theorem next_congr {u v : State} (h : u = v) : (.next u : Host.Outcome State Fault Refusal) = .next v := by rw [h]

/-- Rows that leave one state, and let others go on, answer alike. -/
theorem next_settle_congr {u v : State} (h : u = v) :
    (.next (settle u) : Host.Outcome State Fault Refusal) = .next (settle v) := by rw [h]

/-! ## Control slots (R55 to R60) -/

section Control

variable {op next : Nat} {k : CtlSlot}

/-- ix0 takes no write, and every other register takes the word (R55). -/
theorem setIx_toNat (f : BitVec 4) (w : Word) (c : Core) :
    setIx f.toNat w c = if f = 0 then c else { c with ix := c.ix.set f.toNat w } := by
  simp [setIx, BitVec.toNat_eq]

theorem ctlCore_branch_taken {img : List Byte} {c : Core} (h : branchTaken c k = true) :
    ctlCore img next 0x02 k c = (c, some k.target.toNat) := by
  simp [ctlCore, h]

theorem ctlCore_branch_not_taken {img : List Byte} {c : Core} (h : branchTaken c k = false) :
    ctlCore img next 0x02 k c = (c, none) := by
  simp [ctlCore, h]

theorem ctlCore_loop_zero {img : List Byte} {c : Core} (h : loopCount c k = 0) :
    ctlCore img next 0x03 k c = (c, some (k.target.toNat + ((rowAt img k.target.toNat).map Row.size).getD 0)) := by
  simp [ctlCore, h]

theorem ctlCore_loop_push {img : List Byte} {c : Core} (h : loopCount c k ≠ 0) :
    ctlCore img next 0x03 k c =
      ({ c with loops := { remaining := loopCount c k, start := next, stop := k.target.toNat } :: c.loops }, none) := by
  simp [ctlCore, h]

theorem ctlCore_ixSet (img : List Byte) (c : Core) :
    ctlCore img next 0x04 k c = (if k.fa = 0 then c else { c with ix := c.ix.set k.fa.toNat k.imm }, none) := by
  simp [ctlCore, setIx_toNat]

theorem ctlCore_ixAdd (img : List Byte) (c : Core) :
    ctlCore img next 0x05 k c =
      (if k.fa = 0 then c else
        { c with ix := c.ix.set k.fa.toNat ((if k.fb = 0 then 0 else c.ix.getD k.fb.toNat 0) + k.imm) }, none) := by
  simp [ctlCore, setIx_toNat]

theorem ctlCore_flagClear (img : List Byte) (c : Core) :
    ctlCore img next 0x09 k c = ({ c with flags := putFlag c.flags k.flag.toNat false }, none) := by
  simp [ctlCore]

/-- Control goes on at a row's offset, at the three cycles of a taken target (R57). -/
def jumpTo (d row : Nat) (s : State) : State :=
  s.modDie d (Die.modStream fun y =>
    { y with core := { y.core with pc := row }, cycle := y.cycle + 3, since := y.since + 3 })

theorem ctlRow_of_no_target {u : State} (hx : (s.die d).stream = some x)
    (h : ctlSlot d op x.core.pc k s = (u, none)) : ctlRow d op k s = u := by
  simp [ctlRow, hx, h]

theorem ctlRow_of_target {u : State} {row : Nat} (hx : (s.die d).stream = some x)
    (h : ctlSlot d op x.core.pc k s = (u, some row)) : ctlRow d op k s = jumpTo d row u := by
  simp [ctlRow, hx, h, jumpTo]

theorem stitchMark_recorded {list row : Nat} {q : Ctx} (hx : (s.die d).stream = some x)
    (hq : s.ctx? x.ctx.toNat = some q) (hpre : q.onPreempt = true) (hreq : x.preempt = false) :
    stitchMark d list row s = s.modDie d (Die.modStream fun y => { y with since := 0, passes := [] }) := by
  simp [stitchMark, hx, hq, hpre, hreq]

theorem stitchMark_saves {list row : Nat} {q : Ctx} (hx : (s.die d).stream = some x)
    (hq : s.ctx? x.ctx.toNat = some q) (h : q.onPreempt = false ∨ x.preempt = true) :
    stitchMark d list row s =
      (s.modDie d (Die.modStream fun y =>
        { y with cycle := drainCycle (s.die d) x.cycle, stall := some (.marker list row x.plan) })).count x.ctx.toNat
          fun n => { n with marker := n.marker + (drainCycle (s.die d) x.cycle - x.cycle) } := by
  have hdue : (q.onPreempt && !x.preempt) = false := by
    obtain h | h := h <;> simp [h]
  simp [stitchMark, hx, hq, hdue]

section Running

variable (hx : (s.die d).stream = some x) (hlive : x.ended = false)
include hx hlive

theorem ctlRow_end : ctlRow d 0x01 k s = s.modDie d (Die.modStream fun y => { y with ended := true }) :=
  ctlRow_of_no_target hx (by simp [ctlSlot, hx, hlive])

theorem ctlRow_stitch : ctlRow d 0x06 k s = stitchMark d (k.imm.toNat % 256) x.row s :=
  ctlRow_of_no_target hx (by simp [ctlSlot, hx, hlive])

theorem ctlRow_trap : ctlRow d 0x07 k s = trapWith d 0x08 [k.imm.toNat % 65536] St.computeFault s :=
  ctlRow_of_no_target hx (by simp [ctlSlot, hx, hlive])

theorem ctlRow_mark :
    ctlRow d 0x08 k s = s.modDie d fun y => { y with trace := y.trace ++ [(k.imm, x.plan, s.sys.time)] } :=
  ctlRow_of_no_target hx (by simp [ctlSlot, hx, hlive])

theorem ctlRow_loop_full (hn : loopCount x.core k ≠ 0) (hfull : 8 ≤ x.core.loops.length) :
    ctlRow d 0x03 k s = trapStream d 0x04 St.computeFault s :=
  ctlRow_of_no_target hx (by simp [ctlSlot, hx, hlive, hn, hfull])

/-- Every control slot but END, STITCH, TRAP, MARK and a LOOP that finds the stack full changes the core alone. -/
theorem ctlSlot_eq_ctlCore (hop : op ∉ [0x01, 0x06, 0x07, 0x08])
    (hroom : op ≠ 0x03 ∨ loopCount x.core k = 0 ∨ x.core.loops.length < 8) :
    ctlSlot d op next k s =
      (modCore d (fun _ => (ctlCore (progImage s x.prog) next op k x.core).1) s,
        (ctlCore (progImage s x.prog) next op k x.core).2) := by
  simp only [List.mem_cons, List.not_mem_nil, or_false, not_or] at hop
  obtain ⟨hend, hstitch, htrap, hmark⟩ := hop
  have hfull : ¬ (op = 0x03 ∧ 8 ≤ x.core.loops.length ∧ loopCount x.core k ≠ 0) := by omega
  simp only [ctlSlot, hx, hlive, if_neg hend, if_neg hstitch, if_neg htrap, if_neg hmark, if_neg hfull, Bool.false_eq_true,
    if_false]

theorem ctlRow_eq_modCore {c : Core} (hop : op ∉ [0x01, 0x06, 0x07, 0x08])
    (hroom : op ≠ 0x03 ∨ loopCount x.core k = 0 ∨ x.core.loops.length < 8)
    (h : ctlCore (progImage s x.prog) x.core.pc op k x.core = (c, none)) :
    ctlRow d op k s = modCore d (fun _ => c) s :=
  ctlRow_of_no_target hx (by rw [ctlSlot_eq_ctlCore hx hlive hop hroom, h])

theorem ctlRow_eq_jumpTo {c : Core} {row : Nat} (hop : op ∉ [0x01, 0x06, 0x07, 0x08])
    (hroom : op ≠ 0x03 ∨ loopCount x.core k = 0 ∨ x.core.loops.length < 8)
    (h : ctlCore (progImage s x.prog) x.core.pc op k x.core = (c, some row)) :
    ctlRow d op k s = jumpTo d row (modCore d (fun _ => c) s) :=
  ctlRow_of_target hx (by rw [ctlSlot_eq_ctlCore hx hlive hop hroom, h])

end Running

end Control

/-! ## Sync slots and waits (R49 to R51) -/

section Waits

variable {y : SyncSlot}

theorem syncAct_eq_modCore (v : Tok) (hx : (s.die d).stream = some x) (hlive : x.ended = false) :
    syncAct d v y s = modCore d (actAll v y) s := by
  simp [syncAct, hx, hlive]

section Running

variable (clear : Bool) (hx : (s.die d).stream = some x) (hlive : x.ended = false)
include hx hlive

theorem waitSlot_satisfied (hw : waitFor x.core y = .ok) :
    waitSlot d y clear s = if clear then modCore d (clearSet y) s else s := by
  simp [waitSlot, hx, hlive, hw]

theorem waitSlot_failed {tok : Nat} (hw : waitFor x.core y = .failed tok) :
    waitSlot d y clear s = trapToken d tok x s := by
  simp [waitSlot, hx, hlive, hw]

theorem waitSlot_held (hw : waitFor x.core y = .held) :
    waitSlot d y clear s = stallOn d (.wait y clear s.sys.time) s := by
  simp [waitSlot, hx, hlive, hw]

end Running

/-- A held wait that no row stands behind ends: its cycles are counted, and the SET tokens of a WAIT_CLEAR are cleared
(R49, R54). -/
theorem waitSatisfied_without_row {clear : Bool} {since : Nat} (hx : (s.die d).stream = some x)
    (hstall : x.stall = some (.wait y clear since)) (hw : waitFor x.core y = .ok)
    (hrow : rowAt (progImage s x.prog) x.core.pc = none) :
    waitSatisfied d s =
      let n := cyclesIn (s.die d) (s.sys.time - since)
      let v := (s.modDie d (Die.modStream fun z => { z with stall := none, cycle := z.cycle + n })).count x.ctx.toNat
        fun k => { k with waitStall := k.waitStall + n }
      if clear then modCore d (clearSet y) v else v := by
  simp [waitSatisfied, hx, hstall, hw, hrow]

theorem waitTimeout_passed {clear : Bool} {since : Nat} (hx : (s.die d).stream = some x)
    (hstall : x.stall = some (.wait y clear since)) (hlimit : y.timeout ≠ 0)
    (hpast : since + 1000 * y.timeout.toNat ≤ s.sys.time) :
    waitTimeout d s = trapStream d 0x06 St.computeFault s := by
  simp only [waitTimeout, hx, hstall, if_pos (And.intro hlimit hpast)]

end Waits

/-! ## Move slots and movers (R45 to R47) -/

section Moves

variable {k op : Nat} {a : MoveSlot} {m : Move} {r : List Move}

/-- A slot acts where its operands lie in the scratchpad (R40). -/
theorem inRange_of_ok {ok : Stream → Bool} {f : State → State} (hx : (s.die d).stream = some x) (hlive : x.ended = false)
    (hok : ok x = true) : inRange d ok f s = f s := by
  simp [inRange, hx, hlive, hok]

/-- A slot whose operands do not lie in the scratchpad traps (R40). -/
theorem inRange_of_not_ok {ok : Stream → Bool} {f : State → State} (hx : (s.die d).stream = some x)
    (hlive : x.ended = false) (hok : ok x = false) : inRange d ok f s = trapStream d 0x03 St.computeFault s := by
  simp [inRange, hx, hlive, hok]

/-- The move of a slot of the stream, and the logical clusters of its scratchpad ends. -/
def slotMove (s : State) (x : Stream) (op : Nat) (a : MoveSlot) : Move × Nat × Nat :=
  moveOf op (moveDescBits (progImage s x.prog) a.mdesc.toNat) a (ixValue x.core.ix a.ix.toNat)

/-- The scratchpad ends of a move lie in the scratchpad. -/
def movePadsIn (op : Nat) (m : Move) : Bool :=
  (!m.srcPad || op == 2 || inPad (m.src, m.len)) && (!m.dstPad || op == 3 || inPad (m.dst, m.len))

/-- The move of a slot as a mover holds it: its scratchpad ends in the stream's physical clusters, and its time. -/
def physicalMove (s : State) (x : Stream) (op : Nat) (a : MoveSlot) : Move :=
  let r := slotMove s x op a
  { r.1 with
    src := if r.1.srcPad then (padKey (x.phys r.2.1) r.1.src : Nat) else r.1.src
    dst := if r.1.dstPad then (padKey (x.phys r.2.2) r.1.dst : Nat) else r.1.dst
    queuedAt := s.sys.time }

/-- The state with a slot's move at the end of a mover's queue. -/
def queueMove (d k op : Nat) (a : MoveSlot) (x : Stream) (s : State) : State :=
  s.modDie d fun y => y.setMover k ((s.die d).mover k ++ [physicalMove s x op a])

section Running

variable (hx : (s.die d).stream = some x) (hlive : x.ended = false)
include hx hlive

theorem moveRow_eq_moveSlot (hin : movePadsIn op (slotMove s x op a).1 = true) :
    moveRow d k op a s = moveSlot d k op a s :=
  inRange_of_ok hx hlive hin

theorem moveRow_traps (hout : movePadsIn op (slotMove s x op a).1 = false) :
    moveRow d k op a s = trapStream d 0x03 St.computeFault s :=
  inRange_of_not_ok hx hlive hout

theorem moveSlot_queues (hrun : x.halted.contains k = false) (hroom : ((s.die d).mover k).length < 4) :
    moveSlot d k op a s =
      if ((s.die d).mover k).isEmpty then headMove d k (queueMove d k op a x s) else queueMove d k op a x s := by
  have hnotFull : ¬ 4 ≤ ((s.die d).mover k).length := by omega
  simp only [moveSlot, hx, hlive, hrun, if_neg hnotFull, Bool.false_eq_true, if_false]
  rfl

theorem moveRow_queues_behind (hrun : x.halted.contains k = false) (hbusy : (s.die d).mover k ≠ [])
    (hroom : ((s.die d).mover k).length < 4) (hin : movePadsIn op (slotMove s x op a).1 = true) :
    moveRow d k op a s = queueMove d k op a x s := by
  rw [moveRow_eq_moveSlot hx hlive hin, moveSlot_queues hx hlive hrun hroom, if_neg (by simpa using hbusy)]

theorem moveRow_begins (hrun : x.halted.contains k = false) (hidle : (s.die d).mover k = [])
    (hin : movePadsIn op (slotMove s x op a).1 = true) :
    moveRow d k op a s = headMove d k (queueMove d k op a x s) := by
  rw [moveRow_eq_moveSlot hx hlive hin, moveSlot_queues hx hlive hrun (by simp [hidle]), if_pos (by simp [hidle])]

end Running

/-- The counters of a context whose move completes: its bytes in frames, and its wait on pages (R185). -/
def countMove (s : State) (p : Nat) (m : Move) (n : Counters) : Counters :=
  { n with
    hbmRead := n.hbmRead + (if m.op = 1 && !m.srcPad then framedBytes s p m.src.toNat m.len else 0)
    hbmWrite := n.hbmWrite + (if m.op ≠ 3 && !m.dstPad then m.len else 0)
    tierWait := n.tierWait + (match m.waitSince with
      | some t0 => s.sys.time - t0
      | none => 0) }

/-- The head of a mover waits for its pages, from now where it did not wait before (R155). -/
def waitHead (k now : Nat) (y : Die) : Die :=
  match y.mover k with
  | h :: r => y.setMover k ({ h with waitSince := some (h.waitSince.getD now) } :: r)
  | [] => y

section Head

variable (hx : (s.die d).stream = some x) (hm : (s.die d).mover k = m :: r)
include hx hm

theorem moveComplete_outside_space (hout : moveInSpace m = false) :
    moveComplete d k .clean s = popMove d k (moveFailed d m St.badParam s) := by
  simp [moveComplete, hx, hm, readEcc, hout]

variable {v : State} (hin : moveInSpace m = true)
include hin

theorem moveComplete_ok (hp : movePerform d (streamPart s x) x.ctx m s = (v, .ok)) :
    moveComplete d k .clean s =
      popMove d k (moveDone d x m (v.count x.ctx.toNat (countMove s (streamPart s x) m))) := by
  simp only [moveComplete, hx, hm, readEcc, hin, hp]
  rfl

theorem moveComplete_wait (hp : movePerform d (streamPart s x) x.ctx m s = (v, .wait)) :
    moveComplete d k .clean s =
      v.modDie d (waitHead k s.sys.time) := by
  simp only [moveComplete, hx, hm, readEcc, hin, hp]
  rfl

theorem moveComplete_unmapped (hp : movePerform d (streamPart s x) x.ctx m s = (v, .unmapped)) :
    moveComplete d k .clean s = popMove d k (moveFailed d m St.badParam v) := by
  simp [moveComplete, hx, hm, readEcc, hin, hp]

theorem moveComplete_poisoned (hp : movePerform d (streamPart s x) x.ctx m s = (v, .poisoned)) :
    moveComplete d k .clean s = popMove d k (moveFailed d m St.lowerTierFailed v) := by
  simp [moveComplete, hx, hm, readEcc, hin, hp]

end Head

end Moves

/-! ## Programs (R67, R68) -/

section Programs

variable {n : Nat} {c : Capsule} {l : Live} {a f : State}

/-- A command's entry in the table changes no program. -/
@[simp] theorem entered_programs (op : Nat) (c : Capsule) (s : State) : (s.entered op c).programs = s.programs := by
  simp only [State.entered, State.modLive, enterTable]
  split
  · split <;> rfl
  · rfl

/-- The image that PRG_LOAD finds in store space. -/
def loadImage (s : State) (c : Capsule) : List Byte :=
  storeRead s c.partition.toNat c.offset.toNat c.length.toNat

/-- Frames of an image. -/
def imageFrames (img : List Byte) : Nat := (img.length + pageBytes - 1) / pageBytes

theorem imageFrames_eq (img : List Byte) : imageFrames img = (img.length + 2097151) / 2097152 :=
  congrArg (· / 2097152) (Nat.add_sub_assoc (by decide) img.length)

/-- The state with an image in frames of a die that are pinned for it, its wait charged. -/
def programLoaded (c : Capsule) (d : Nat) (img : List Byte) (n : Nat) (s : State) : State :=
  let u := chargeWait n (s.modDie d fun x => { x with progFrames := x.progFrames + imageFrames img })
  let g : Program :=
    { part := c.partition.toFin, image := img, frames := imageFrames img, die := d, slots := vecSlotsUsed img,
      damaged := false }
  { u with programs := Tbl.set c.object.toNat g u.programs }

/-- The task of a PRG_RUN joins those that wait, under the next number. -/
theorem addTask_runTask (n now : Nat) (c : Capsule) (s : State) :
    addTask (runTask n c now) s =
      { s with
        tasks := s.tasks ++ [{
          id := s.nextTask, kind := .stream, part := partIx c.partition.toNat, ctx := c.context, service := false, cmd := n,
          admitted := now, dies := runDies c, resumed := false, item := 0, starved := false }]
        nextTask := s.nextTask + 1 } := rfl

/-- A command goes on when its frames are at hand (R154). -/
theorem withFrames_at_hand (n : Nat) (go : State → State) (s : State) : withFrames n go (s, some true) = go s := rfl

section Start

variable (hl : s.live? n = some l) (hc : l.c = c)
include hl hc

section Load

variable (hread : readRange c.partition.toNat (pagesOf c.offset.toNat c.length.toNat) c.context s = (a, .ok))
include hread

theorem prgLoadStart_bad_image (hbad : loadCheck (loadImage s c) ≠ 0) :
    prgLoadStart n s = fail n St.badParam (loadCheck (loadImage s c)) a := by
  subst hc
  simp only [prgLoadStart, hl, hread]
  exact (if_neg (not_not_intro rfl)).trans (if_pos hbad)

theorem prgLoadStart_pinned (hgood : loadCheck (loadImage s c) = 0)
    (hpin : pinFrames (lowestDie s c.partition.toNat) (imageFrames (loadImage s c)) c.partition.toNat a = (f, some true)) :
    prgLoadStart n s = succeed n 0 [] (programLoaded c (lowestDie s c.partition.toNat) (loadImage s c) n f) := by
  subst hc
  simp only [prgLoadStart, hl, hread]
  refine (if_neg (not_not_intro rfl)).trans ((if_neg (not_not_intro hgood)).trans ?_)
  rw [imageFrames, loadImage] at hpin
  rw [hpin, withFrames_at_hand, programLoaded, imageFrames, loadImage]

end Load

theorem prgRunStart_eq :
    prgRunStart n s =
      dropUnplaceable (addTask (runTask n c l.admitted) (s.modLive n fun x => { x with phase := .running })) := by
  simp only [prgRunStart, hl, hc]

theorem prgUnloadStart_eq {g : Program} (hg : Tbl.get? s.programs c.object.toNat = some g) :
    prgUnloadStart n s =
      let u := foldOver [0, 1, 2, 3] (fun d acc =>
        acc.modDie d fun x => { x with rows := x.rows.filter fun r => decide (r.1 ≠ c.object) })
          (s.modDie g.die fun x => { x with progFrames := x.progFrames - g.frames })
      succeed n 0 [] { u with programs := Tbl.erase c.object.toNat u.programs } := by
  simp only [prgUnloadStart, hl, hc, hg]

end Start

theorem exec_prgLoad_of_accepted (h : accepted 0x0501 c s = true) :
    exec (.prgLoad c) s = .next (settle (prgLoadStart s.nextCmd (s.entered 0x0501 c))) :=
  next_settle_congr (deliver_accepted h)

theorem exec_prgRun_of_accepted (h : accepted 0x0502 c s = true) :
    exec (.prgRun c) s = .next (settle (prgRunStart s.nextCmd (s.entered 0x0502 c))) :=
  next_settle_congr (deliver_accepted h)

theorem exec_prgUnload_of_accepted (h : accepted 0x0503 c s = true) :
    exec (.prgUnload c) s = .next (settle (prgUnloadStart s.nextCmd (s.entered 0x0503 c))) :=
  next_settle_congr (deliver_accepted h)

end Programs

end Sys2Proof.Machine

namespace Sys2Proof

open Sys2Proof.Machine

/-- Settles O20, slot by slot: the slots that change the core alone through `ctlCore`, each other slot by its own lemma. That a
LOOP of count 0 goes on even where the stack is full, and that a TRAP logs the low 16 bits of its immediate, are the model's
choices (log rows 14 and 22). -/
theorem controlRows : Obligations.ControlRows := by
  intro s d k x hx hlive
  refine ⟨next_congr (ctlRow_end hx hlive), fun htaken => next_congr ?_, fun hnot => next_congr ?_, next_congr ?_,
    next_congr ?_, next_congr ?_, fun hzero => next_settle_congr ?_, fun hn hroom => next_settle_congr ?_,
    fun hn hfull => next_settle_congr (ctlRow_loop_full hx hlive hn hfull), next_settle_congr (ctlRow_trap hx hlive),
    next_congr (ctlRow_mark hx hlive), fun q hq hpre hreq => ?_, fun q hq hdue => ?_⟩
  · exact ctlRow_eq_jumpTo hx hlive (by decide) (.inl (by decide)) (ctlCore_branch_taken htaken)
  · exact ctlRow_eq_modCore hx hlive (by decide) (.inl (by decide)) (ctlCore_branch_not_taken hnot)
  · exact ctlRow_eq_modCore hx hlive (by decide) (.inl (by decide)) (ctlCore_ixSet _ _)
  · exact ctlRow_eq_modCore hx hlive (by decide) (.inl (by decide)) (ctlCore_ixAdd _ _)
  · exact ctlRow_eq_modCore hx hlive (by decide) (.inl (by decide)) (ctlCore_flagClear _ _)
  · exact ctlRow_eq_jumpTo hx hlive (by decide) (.inr (.inl hzero)) (ctlCore_loop_zero hzero)
  · exact ctlRow_eq_modCore hx hlive (by decide) (.inr (.inr hroom)) (ctlCore_loop_push hn)
  · exact next_congr ((ctlRow_stitch hx hlive).trans (stitchMark_recorded hx hq hpre hreq))
  · exact next_congr ((ctlRow_stitch hx hlive).trans (stitchMark_saves hx hq hdue))

/-- Settles O21, by what the wait finds: satisfied, a FAILED token, or neither. -/
theorem syncAndWaits : Obligations.SyncAndWaits := by
  intro s d y x t hx hlive
  have hxt : ((s.tick t).die d.val).stream = some x := by rw [die_tick, hx]
  refine ⟨next_congr (syncAct_eq_modCore .set hx hlive), next_congr (syncAct_eq_modCore .clear hx hlive),
    fun hok => ?_, fun hheld => ?_, fun tok hfailed => ?_, fun clear since hstall hok hrow => ?_,
    fun clear since hstall hlimit hpast => ?_⟩
  · exact ⟨next_settle_congr (waitSlot_satisfied false hxt hlive hok),
      next_settle_congr (waitSlot_satisfied true hxt hlive hok)⟩
  · exact ⟨next_settle_congr (waitSlot_held false hxt hlive hheld), next_settle_congr (waitSlot_held true hxt hlive hheld)⟩
  · exact ⟨next_settle_congr (waitSlot_failed false hxt hlive hfailed),
      next_settle_congr (waitSlot_failed true hxt hlive hfailed)⟩
  · exact next_settle_congr (congrArg (waitFailed d.val) (waitSatisfied_without_row hx hstall hok hrow))
  · exact next_settle_congr (waitTimeout_passed hxt hstall hlimit hpast)

/-- Settles O28: a slot's move by the room of its mover, and the head of a mover by what its pages allow. -/
theorem moves : Obligations.Moves := by
  intro s d k a x hx hlive
  refine ⟨fun hrun hbusy hroom => ?_, fun hrun hidle => ?_, fun hout => next_settle_congr (moveRow_traps hx hlive hout),
    fun m r t hm => ?_⟩
  · have hbehind (op : Nat) (hin : movePadsIn op (slotMove s x op a).1 = true) :=
      next_settle_congr (moveRow_queues_behind hx hlive hrun hbusy hroom hin)
    exact ⟨hbehind 1, hbehind 2, hbehind 3⟩
  · have hbegins (op : Nat) (hin : movePadsIn op (slotMove s x op a).1 = true) :=
      next_settle_congr (moveRow_begins hx hlive hrun hidle hin)
    exact ⟨hbegins 1, hbegins 2, hbegins 3⟩
  · have hxt : ((s.tick t).die d.val).stream = some x := by rw [die_tick, hx]
    have hmt : ((s.tick t).die d.val).mover k.val = m :: r := by rw [die_tick]; exact hm
    exact ⟨fun hout => next_congr (moveComplete_outside_space hxt hmt hout),
      fun v hin hp => next_congr (moveComplete_ok hxt hmt hin hp),
      fun v hin hp => next_congr (moveComplete_wait hxt hmt hin hp),
      fun v hin hp => next_congr (moveComplete_unmapped hxt hmt hin hp),
      fun v hin hp => next_congr (moveComplete_poisoned hxt hmt hin hp)⟩

/-- Settles O15: each command is taken up at once, and acts on the state that holds its entry. -/
theorem programCommands : Obligations.ProgramCommands := by
  intro s c
  refine ⟨fun a hacc => ?_, fun hacc => ?_, fun g hacc hg => ?_⟩
  · intro b p img hread
    have hl : b.live? s.nextCmd = some (Capsule.entry 0x0501 c s) := entered_live 0x0501 c s
    rw [exec_prgLoad_of_accepted hacc]
    refine ⟨fun hbad => ?_, fun f hgood => ?_⟩
    · exact next_settle_congr (prgLoadStart_bad_image hl rfl hread hbad)
    · intro need hpin
      have hneed : imageFrames img = need := imageFrames_eq img
      rw [← hneed] at hpin ⊢
      exact next_settle_congr (prgLoadStart_pinned hl rfl hread hgood hpin)
  · rw [exec_prgRun_of_accepted hacc, prgRunStart_eq (entered_live 0x0502 c s) rfl, addTask_runTask]
    rfl
  · have hprog : Tbl.get? (s.entered 0x0503 c).programs c.object.toNat = some g := by rw [entered_programs, hg]
    rw [exec_prgUnload_of_accepted hacc]
    exact next_settle_congr (prgUnloadStart_eq (entered_live 0x0503 c s) rfl hprog)

end Sys2Proof
end

section
/-! The obligations on array passes (chapter 3): how a pass starts on its cluster, how its vectors enter and its results are
written, and what its completion sets. -/

namespace Sys2Proof.Machine

variable {s : State} {d i c : Nat} {x : Stream} {p : Pass}

/-- A change of a die depends on what it does to the die that stands there. -/
theorem modDie_congr {f g : Die → Die} (h : f (s.die d) = g (s.die d)) : s.modDie d f = s.modDie d g :=
  congrArg (s.setDie d) h

/-- A change of a die's stream depends on what it does to the stream that runs there. -/
theorem modStream_congr {y : Die} {f g : Stream → Stream} (hy : y.stream = some x) (h : f x = g x) :
    y.modStream f = y.modStream g := by
  simp only [Die.modStream, hy, Option.map_some, h]

/-! ## Array slots (R42, R43, R80, R83) -/

section Slots

variable {a : ArraySlot} {chain : Bool} {arrivals : List Nat}

/-- The regions of the pass that a slot of the stream starts lie in the scratchpad. -/
def passRegionsIn (s : State) (i : Nat) (a : ArraySlot) (x : Stream) : Bool :=
  (descOf (descBits (progImage s x.prog) i a.desc.toNat) (ixValue x.core.ix a.ix.toNat)).regions.all inPad

/-- The pass that a slot starts, with the swatch cluster that samples it (R88). -/
def slotPass (s : State) (d : Nat) (x : Stream) (i : Nat) (a : ArraySlot) (chain : Bool) (arrivals : List Nat) : Pass :=
  buildPass s d x i a chain (chooseMirror s d x arrivals i x.cycle)

/-- The state with a pass on its cluster: in the waiting place while the newest pass still has vectors to enter, else casting
on. The stream counts it among the passes of its logical cluster. -/
def takePass (d i : Nat) (x : Stream) (p : Pass) (s : State) : State :=
  s.modDie d fun y =>
    (y.modCluster (x.phys i) fun k =>
      if k.newest.any (fun q => decide (x.cycle ≤ q.lastEntry)) then { k with waiting := some p }
      else { k with flight := k.flight ++ [p] }).modStream fun z =>
        { z with passes := Tbl.set i (Tbl.getD x.passes i 0 + 1) z.passes }

/-- The state with a pass sampled by a swatch cluster until its last vector has entered (R88). -/
def samplePass (d i sw : Nat) (p : Pass) (s : State) : State :=
  s.modDie d fun y => y.modCluster sw fun k => { k with sampledUntil := p.lastEntry + 1, sampledLast := i }

section Running

variable (hx : (s.die d).stream = some x) (hlive : x.ended = false)
include hx hlive

theorem passRow_traps (hout : passRegionsIn s i a x = false) :
    passRow d i a chain .clean s = trapStream d 0x03 St.computeFault s :=
  inRange_of_not_ok hx hlive hout

theorem passRow_eq_startPass (hin : passRegionsIn s i a x = true) :
    passRow d i a chain .clean s = startPass d i a chain [i] s :=
  (inRange_of_ok hx hlive hin).trans (by simp only [passSlot, hx, readEcc])

section Free

variable (hphys : x.phys i < 16) (hfree : ((s.die d).cluster (x.phys i)).waiting = none)
include hphys hfree

omit hx in
/-- A slot of a running stream whose cluster is on the die and has its waiting place free is not held back. -/
theorem slot_due : (x.ended || decide (16 ≤ x.phys i) || ((s.die d).cluster (x.phys i)).waiting.isSome) = false := by
  simp [hlive, hphys, hfree]

theorem startPass_unmirrored (hm : chooseMirror s d x arrivals i x.cycle = none) :
    startPass d i a chain arrivals s = takePass d i x (slotPass s d x i a chain arrivals) s := by
  simp only [startPass, slotPass, hx, slot_due hlive hphys hfree, hm, Bool.false_eq_true, if_false]
  exact modDie_congr (modStream_congr hx rfl)

theorem startPass_mirrored {sw : Nat} (hm : chooseMirror s d x arrivals i x.cycle = some sw) :
    startPass d i a chain arrivals s =
      samplePass d i sw (slotPass s d x i a chain arrivals) (takePass d i x (slotPass s d x i a chain arrivals) s) := by
  simp only [startPass, slotPass, hx, slot_due hlive hphys hfree, hm, Bool.false_eq_true, if_false]
  exact congrArg (samplePass d i sw _) (modDie_congr (modStream_congr hx rfl))

end Free

theorem drainSlot_idle (htok : a.tokenEn = true) (hflight : ((s.die d).cluster (x.phys i)).flight = [])
    (hfree : ((s.die d).cluster (x.phys i)).waiting = none) :
    drainSlot d i a s = produceToken d (some a.token.toNat) s := by
  simp [drainSlot, hx, hlive, htok, hflight, hfree]

theorem drainSlot_behind_passes (htok : a.tokenEn = true) (hflight : ((s.die d).cluster (x.phys i)).flight ≠ []) :
    drainSlot d i a s = s.modDie d fun y => y.modCluster (x.phys i) fun k =>
      { k with drains := k.drains ++ [(a.token.toNat, ((s.die d).cluster (x.phys i)).flight.length +
        (if ((s.die d).cluster (x.phys i)).waiting.isSome then 1 else 0))] } := by
  simp [drainSlot, hx, hlive, htok, hflight]

end Running

/-- An array slot by itself, chained or not, with no memory error. -/
theorem exec_pass_or_passChain (d : DieIx) (i : ClusterIx) (a : ArraySlot) (chain : Bool) (s : State) :
    exec (if chain then .passChain d i a .clean else .pass d i a .clean) s =
      .next (settle (passRow d.val i.val a chain .clean s)) := by
  cases chain <;> rfl

end Slots

/-! ## Vectors that enter (R42, R80) -/

theorem firstVectorEnters_waiting (hall : ((s.die d).cluster c).flight.any (fun p => !p.started) = false)
    (hwait : ((s.die d).cluster c).waiting = some p) :
    firstVectorEnters d c s =
      s.setDie d ((s.die d).modCluster c fun k =>
        { k with flight := k.flight.map (Pass.allEntered (s.die d) c) ++
                   [(if p.chained then p else p.recast (s.die d) c).enters (s.die d) c]
                 waiting := none }) := by
  simp only [firstVectorEnters, hall, hwait, Bool.false_eq_true, if_false]

theorem firstVectorEnters_casting (hcast : ((s.die d).cluster c).flight.any (fun p => !p.started) = true) :
    firstVectorEnters d c s =
      s.setDie d ((s.die d).modCluster c fun k =>
        { k with flight := k.flight.map fun p => if p.started then p else p.enters (s.die d) c
                 waiting := k.waiting.map fun p => if p.chained then p.recast (s.die d) c else p }) :=
  if_pos hcast

/-! ## Results and completion (R82, R83) -/

section Oldest

variable {r : List Pass} (hk : ((s.die d).cluster c).flight = p :: r) (hstart : p.started = true)

section Results

variable {f g : List Byte} (hleft : p.next < p.d.results) (hin : p.d.output = true ∨ p.entered ≠ [])

include hk in
theorem resultWrite_clean : resultWrite d c f g .clean s = writeResult d c f g s := by
  simp only [resultWrite, hk, readEcc]

include hstart hleft hin in
/-- A started pass with results left, whose next vector has entered, is not held back. -/
theorem result_due : (!p.started || decide (p.d.results ≤ p.next) || (!p.d.output && p.entered.isEmpty)) = false := by
  obtain hout | hne := hin
  · simp [hstart, hleft, hout]
  · simp [hstart, hleft, hne]

include hk hstart hleft hin

theorem writeResult_traps (hbad : (resultVector (s.die d) c p p.next).bad = true) :
    writeResult d c f g s = trapStream d 0x09 St.computeFault s := by
  simp only [writeResult, hk, result_due hstart hleft hin, hbad, Bool.false_eq_true, if_false, if_true]

theorem writeResult_unmirrored (hgood : (resultVector (s.die d) c p p.next).bad = false) (hm : p.mirror = none) :
    writeResult d c f g s =
      (s.setDie d
        (((s.die d).padWrite (padKey c (p.d.outAddr + (p.next * p.d.outStride : Nat)))
          (flipped (resultVector (s.die d) c p p.next).bytes f)).modCluster c fun k =>
            { k with flight := p.advanced (s.die d) c :: r })).count (((s.die d).stream.map Stream.ctx).getD 0).toNat fun n =>
              { n with saturations := n.saturations + (resultVector (s.die d) c p p.next).conv.sats
                       nanToInt := n.nanToInt + (resultVector (s.die d) c p p.next).conv.nans } := by
  simp only [writeResult, hk, result_due hstart hleft hin, hgood, hm, Bool.false_eq_true, if_false]

end Results

include hk hstart in
theorem passComplete_of_last_written (hdone : p.d.results ≤ p.next) :
    passComplete d c s =
      let drains := ((s.die d).cluster c).drains.map fun q => (q.1, q.2 - 1)
      let u := s.setDie d ((s.die d).modCluster c fun k =>
        { k with flight := r, drains := drains.filter fun q => decide (0 < q.2) })
      (foldOver (drains.filter fun q => decide (q.2 = 0)) (fun q => produceToken d (some q.1))
        (produceToken d p.token u)).count (((s.die d).stream.map Stream.ctx).getD 0).toNat fun n =>
          { n with arrayCycles := n.arrayCycles + p.span
                   swatchCycles := n.swatchCycles + (if p.mirror.isSome then p.span else 0) } := by
  simp only [passComplete, hk, hstart, hdone, decide_true, Bool.and_self, if_true]

end Oldest

/-! ## A result that uses a malformed rescale entry (R78, R108) -/

/-- A started pass in INT8 of one row, one column and one vector, which rescales its result by entry 0 of the table. -/
def rescalingPass : Pass :=
  { d := { descOf 0 0 with fmtA := 9, fmtB := 9, fmtOut := 9, rescale := true, rows := 1, cols := 1 }
    descIx := 0, logical := 0, arrival := 0, first := 128, started := true, held := [[1]], entered := [[1]], next := 0
    token := none, plan := 0, ordinal := 0, mirror := none, mode := 0, span := 129 }

/-- The pass on cluster 0 of die 0, whose rescale table has the reserved field of entry 0 set. -/
def badRescaleDie : Die :=
  ((State.reset.die 0).modCluster 0 fun k => { k with flight := [rescalingPass] }).padWrite (padKey 0 0x7FC000)
    (leBytes 4 (2 ^ 22))

/-- The hypotheses of `writeResult_traps` can be met. -/
theorem witness_writeResult_traps :
    (badRescaleDie.cluster 0).flight = [rescalingPass] ∧ rescalingPass.started = true ∧
    rescalingPass.next < rescalingPass.d.results ∧ rescalingPass.entered ≠ [] ∧
    (resultVector badRescaleDie 0 rescalingPass rescalingPass.next).bad = true := by decide +kernel

end Sys2Proof.Machine

namespace Sys2Proof

open Sys2Proof.Machine

/-- Settles O24: a slot's pass by its regions and by the swatch cluster that is free for it, and a DRAIN by the passes before
it. -/
theorem passesStart : Obligations.PassesStart := by
  intro s d i a x chain hx hlive row ds c
  have hrow : exec row s = .next (settle (passRow d.val i.val a chain .clean s)) := exec_pass_or_passChain d i a chain s
  refine ⟨fun hout => ?_, fun hin hphys hfree => ?_, fun htok hidle hfree => ?_, fun htok hbusy => ?_⟩
  · exact hrow.trans (next_settle_congr (passRow_traps hx hlive hout))
  · rw [hrow, passRow_eq_startPass hx hlive hin]
    exact ⟨fun hm => next_settle_congr (startPass_unmirrored hx hlive hphys hfree hm),
      fun sw hm => next_settle_congr (startPass_mirrored hx hlive hphys hfree hm)⟩
  · exact next_congr (drainSlot_idle hx hlive htok hidle hfree)
  · exact next_congr (drainSlot_behind_passes hx hlive htok hbusy)

/-- Settles O25: the entry of a first vector by what waits, then the oldest pass by whether a result is left to write. -/
theorem passesRun : Obligations.PassesRun := by
  intro s d c x k
  refine ⟨fun p hall hwait => next_congr (firstVectorEnters_waiting hall hwait),
    fun hcast => next_congr (firstVectorEnters_casting hcast), fun p r hk hstart hleft hin hgood hm => ?_,
    fun p r f hk hstart hleft hin hbad => ?_, fun p r hk hstart hdone => ?_⟩
  · exact next_settle_congr ((resultWrite_clean hk).trans (writeResult_unmirrored hk hstart hleft hin hgood hm))
  · exact next_settle_congr ((resultWrite_clean hk).trans (writeResult_traps hk hstart hleft hin hbad))
  · exact next_congr (passComplete_of_last_written hk hstart hdone)

end Sys2Proof
end

section
/-! The obligation on number formats (chapter 4): what a code of a floating-point format stands for, and that encoding its value
gives it back. -/

namespace Sys2Proof.Machine

/-! ## Values on the grid of a format (R90) -/

/-- The number of bits of a nonzero number. -/
theorem bitLen_of_ne_zero {m : Nat} (hm : m ≠ 0) : bitLen m = Nat.log2 m + 1 := if_neg hm

/-- A number that already lies on the grid is not rounded, whatever the direction. -/
@[simp] theorem roundGrid_self (r : Rnd) (neg : Bool) (m : Nat) (e : Int) : roundGrid r neg m e e = m := by
  simp [roundGrid]

variable {f : FloatFmt} {a c : Nat}

/-- A magnitude with no more bits than the mantissa, on the grid of the subnormals, is its own code. -/
theorem FloatFmt.magnitude_subnormal (r : Rnd) (neg : Bool) (ha : a < 2 ^ f.mant) : f.magnitude r neg a f.sub = a := by
  by_cases h0 : a = 0
  · simp [FloatFmt.magnitude, h0]
  · have hlog : Nat.log2 a < f.mant := (Nat.log2_lt h0).2 ha
    have hlead : (bitLen a : Int) - 1 + f.sub - f.mant < f.sub := by
      rw [bitLen_of_ne_zero h0]
      omega
    simp [FloatFmt.magnitude, h0, hlead]

/-- A mantissa with its leading one, `x` binades above the smallest, has the code that counts `x` binades of `2 ^ mant` codes
and then the mantissa. -/
theorem FloatFmt.magnitude_normal (r : Rnd) (neg : Bool) (x : Nat) (ha : a < 2 ^ f.mant) :
    f.magnitude r neg (a + 2 ^ f.mant) (f.sub + x) = x * 2 ^ f.mant + (a + 2 ^ f.mant) := by
  have h0 : a + 2 ^ f.mant ≠ 0 := by
    have hpos := Nat.two_pow_pos f.mant
    omega
  have hlog : Nat.log2 (a + 2 ^ f.mant) = f.mant := (Nat.log2_eq_iff h0).2 (by omega)
  have hlead : (bitLen (a + 2 ^ f.mant) : Int) - 1 + (f.sub + x) - f.mant = f.sub + x := by
    rw [bitLen_of_ne_zero h0, hlog]
    omega
  have hsub : ¬ f.sub + (x : Int) < f.sub := by omega
  have hbinade : (f.sub + (x : Int) - f.sub).toNat = x := by omega
  simp only [FloatFmt.magnitude, if_neg h0, hlead, if_neg hsub, roundGrid_self, hbinade]

/-! ## The value of a code -/

/-- The sign bit and the bits below it are the code. -/
theorem FloatFmt.signed_testBit (hw : 0 < f.width) (hc : c < 2 ^ f.width) :
    f.signed (c.testBit (f.width - 1)) (c % 2 ^ (f.width - 1)) = c := by
  have hc' : c < 2 ^ (f.width - 1 + 1) := by rwa [Nat.sub_add_cancel hw]
  by_cases hlow : c < 2 ^ (f.width - 1)
  · simp [FloatFmt.signed, Nat.testBit_lt_two_pow hlow, Nat.mod_eq_of_lt hlow]
  · have hhigh : 2 ^ (f.width - 1) ≤ c := Nat.le_of_not_lt hlow
    have hmod : c % 2 ^ (f.width - 1) = c - 2 ^ (f.width - 1) := by
      rw [Nat.mod_eq_sub_mod hhigh, Nat.mod_eq_of_lt (by omega)]
    simp [FloatFmt.signed, Nat.testBit_of_two_pow_le_and_two_pow_add_one_gt hhigh hc', hmod, hhigh]

/-- What a code can stand for: a subnormal or a zero, a normal value, an infinity or a NaN. -/
theorem FloatFmt.decode_cases (f : FloatFmt) (c : Nat) :
    let neg := c.testBit (f.width - 1)
    let a := c % 2 ^ (f.width - 1)
    (a ≤ f.top ∧ a < 2 ^ f.mant ∧ f.decode c = .fin neg a f.sub) ∨
    (a ≤ f.top ∧ ∃ x : Nat, x * 2 ^ f.mant + (a % 2 ^ f.mant + 2 ^ f.mant) = a ∧
      f.decode c = .fin neg (a % 2 ^ f.mant + 2 ^ f.mant) (f.sub + x)) ∨
    (f.infCode = some a ∧ f.decode c = .inf neg) ∨ f.decode c = .nan := by
  intro neg a
  simp only [FloatFmt.decode, Nat.shiftRight_eq_div_pow]
  by_cases htop : a ≤ f.top
  · by_cases hex : a / 2 ^ f.mant = 0
    · exact .inl ⟨htop, Nat.lt_of_div_eq_zero (Nat.two_pow_pos _) hex, by rw [if_pos htop, if_pos hex]⟩
    · obtain ⟨x, hx⟩ := Nat.exists_eq_succ_of_ne_zero hex
      have hcode : x * 2 ^ f.mant + (a % 2 ^ f.mant + 2 ^ f.mant) = a := by
        have hdiv := Nat.div_add_mod' a (2 ^ f.mant)
        rw [hx, Nat.succ_mul] at hdiv
        omega
      have hexp : f.sub + ((x + 1 : Nat) : Int) - 1 = f.sub + x := by omega
      exact .inr (.inl ⟨htop, x, hcode, by rw [if_pos htop, if_neg hex, hx, hexp]⟩)
  · by_cases hinf : f.infCode = some a
    · exact .inr (.inr (.inl ⟨hinf, by rw [if_neg htop, if_pos hinf]⟩))
    · exact .inr (.inr (.inr (by rw [if_neg htop, if_neg hinf])))

/-- A finite value whose magnitude code is not above the largest finite one is encoded without saturation (R98). -/
theorem FloatFmt.encode_fin_of_magnitude {r : Rnd} {neg : Bool} {m : Nat} {e : Int} (hm : f.magnitude r neg m e = a)
    (ha : a ≤ f.top) : f.encode r (.fin neg m e) = (f.signed neg a, false) := by
  simp [FloatFmt.encode, hm, ha]

/-- An infinity of a format that has one is encoded as itself. -/
theorem FloatFmt.encode_inf_of_infCode (r : Rnd) (neg : Bool) (h : f.infCode = some a) :
    f.encode r (.inf neg) = (f.signed neg a, false) := by
  simp [FloatFmt.encode, h]

/-- In every format with a sign bit, encoding the value of a code that is no NaN gives the code. -/
theorem FloatFmt.encode_decode (r : Rnd) (hw : 0 < f.width) (hc : c < 2 ^ f.width) (hnan : f.decode c ≠ .nan) :
    f.encode r (f.decode c) = (c, false) := by
  have hsign : f.signed (c.testBit (f.width - 1)) (c % 2 ^ (f.width - 1)) = c := signed_testBit hw hc
  obtain ⟨htop, hlow, hdec⟩ | ⟨htop, x, hcode, hdec⟩ | ⟨hinf, hdec⟩ | hdec := f.decode_cases c
  · rw [hdec, encode_fin_of_magnitude (magnitude_subnormal r _ hlow) htop, hsign]
  · have hmant : c % 2 ^ (f.width - 1) % 2 ^ f.mant < 2 ^ f.mant := Nat.mod_lt _ (Nat.two_pow_pos f.mant)
    rw [hdec, encode_fin_of_magnitude ((magnitude_normal r _ x hmant).trans hcode) htop, hsign]
  · rw [hdec, encode_inf_of_infCode r _ hinf, hsign]
  · exact absurd hdec hnan

/-- Every format of R90 has a sign bit. -/
theorem floatFmt_width_pos (k : Nat) : 0 < (floatFmt k).width := by
  unfold floatFmt
  split <;> decide

end Sys2Proof.Machine

namespace Sys2Proof

open Sys2Proof.Machine

/-- Settles O59: a subnormal, a normal value and an infinity are each encoded as the code they come from, in every format with
a sign bit. -/
theorem floatCodesAreTheirValues : Obligations.FloatCodesAreTheirValues :=
  fun k _ r hc hnan => FloatFmt.encode_decode r (floatFmt_width_pos k) hc hnan

end Sys2Proof
end

section
/-! The obligations on shards, parameter updates and vector engines (chapter 5): the commands on a shard, the steps of its chunks,
COEF and UPDATE, and what vector operations compute at issue. -/

namespace Sys2Proof.Machine

variable {s : State} {n : Nat} {l : Live} {h : Shard}

/-! ## Commands on a shard as they start (R315 to R319) -/

/-- A command's entry in the table changes no shard. -/
@[simp] theorem entered_shards (op : Nat) (c : Capsule) (s : State) : (s.entered op c).shards = s.shards := by
  simp only [State.entered, State.modLive, enterTable]
  split
  · split <;> rfl
  · rfl

theorem entered_shard? (op : Nat) (c : Capsule) (s : State) (k : Nat) : (s.entered op c).shard? k = s.shard? k := by
  simp only [State.shard?, entered_shards]

/-- A row whose command is taken up at once leaves what the command's start does to the state that holds its entry. -/
theorem settle_deliver_accepted {op : Nat} {c : Capsule} {u : State} (hacc : accepted op c s = true)
    (hstart : startOf op s.nextCmd (s.entered op c) = u) :
    (.next (settle (deliver op c s)) : Host.Outcome State Fault Refusal) = .next (settle u) :=
  next_settle_congr ((deliver_accepted hacc).trans hstart)

/-- A command with request data waits for it (R318). -/
theorem withData_awaits {landed : Nat → State → State} (hl : s.live? n = some l) (hdata : l.c.dataLen ≠ 0) :
    withData awaitData landed n s = s := by
  simp only [withData, hl, if_neg hdata, awaitData]

/-! ## Creating and deleting (R119 to R122, R129) -/

/-- Frames that the landing pool of a die still needs. -/
def landingNeed (s : State) (d : Nat) : Nat := if (s.die d).landingFrames = 0 then 512 else 0

/-- The state with the shard of a SHD_CREATE in its pinned frames, `land` of them for the landing pool. -/
def placeShard (c : Capsule) (land : Nat) (s : State) : State :=
  let h := newShard c
  let u := s.modDie h.die.val fun x =>
    { x with shardFrames := x.shardFrames + shardPins h, landingFrames := x.landingFrames + land }
  { u with shards := Tbl.set c.object.toNat { h with frames := shardPins h } u.shards }

/-- The state with the shard service of a shard's die, in the lowest free context where it did not run. -/
def startService (h : Shard) (s : State) : State :=
  match serviceOf s h.die.val, freeCtx s with
  | none, some i => { s with ctxs := Tbl.set i (serviceCtx h.part (some h.die.val) false) s.ctxs }
  | _, _ => s

/-- The state without a shard, its frames free. -/
def removeShard (k : Nat) (h : Shard) (s : State) : State :=
  let u := s.modDie h.die.val fun x => { x with shardFrames := x.shardFrames - h.frames }
  { u with shards := Tbl.erase k u.shards }

/-- The state without the shard service of a die on which no shard is left. -/
def endIdleService (d : Nat) (s : State) : State :=
  if s.shards.any fun e => decide (e.2.die.val = d) then s
  else { s with ctxs := Tbl.keep (fun _ x => decide (x.shardDie ≠ some d)) s.ctxs }

theorem shdCreateStart_pinned {f : State} (hl : s.live? n = some l)
    (hpin : pinFrames (newShard l.c).die.val (shardPins (newShard l.c) + landingNeed s (newShard l.c).die.val)
      l.c.partition.toNat s = (f, some true)) :
    shdCreateStart n s =
      succeed n 0 [] (startService (newShard l.c) (placeShard l.c (landingNeed s (newShard l.c).die.val) f)) := by
  rw [landingNeed] at hpin
  simp only [shdCreateStart, hl, hpin, withFrames_at_hand]
  rfl

theorem shdDeleteStart_eq (hl : s.live? n = some l) (hh : s.shard? l.c.object.toNat = some h) :
    shdDeleteStart n s = succeed n 0 [] (endIdleService h.die.val (removeShard l.c.object.toNat h s)) := by
  simp only [shdDeleteStart, hl, hh]
  rfl

/-! ## Groups and curves (R123 to R127) -/

theorem shdGroupsLanded_of_ok (hl : s.live? n = some l) (hh : s.shard? l.c.object.toNat = some h)
    (hstarts : startsOk h (groupsOf l.data l.c.p0.toNat) = true)
    (hentries : ∀ g ∈ groupsOf l.data l.c.p0.toNat, badEntry h g.entry = false) :
    shdGroupsLanded n s = succeed n (h.begun + 1) [] (s.modShard l.c.object.toNat fun x =>
      newSettings x fun y => { y with groups := groupsOf l.data l.c.p0.toNat }) := by
  have hnone : (groupsOf l.data l.c.p0.toNat).any (fun g => badEntry h g.entry) = false := by simpa using hentries
  simp only [shdGroupsLanded, hl, hh, hstarts, hnone, Bool.not_true, Bool.or_self, Bool.false_eq_true, if_false]

theorem shdCurveLanded_of_ok (hl : s.live? n = some l) (hlow : 1 ≤ fieldAt l.data 0 4) (hhigh : fieldAt l.data 0 4 ≤ 64)
    (hzero : fieldAt l.data 4 60 = 0)
    (hrise : ∀ q ∈ (curveOf l.data).zip ((curveOf l.data).drop 1), q.1.1 < q.2.1) :
    shdCurveLanded n s = succeed n 0 [] (s.modShard l.c.object.toNat fun x =>
      newSettings x fun y => { y with curves := Tbl.set l.c.p0.toNat (curveOf l.data) y.curves }) := by
  have hall : ((curveOf l.data).zip ((curveOf l.data).drop 1)).all (fun q => decide (q.1.1 < q.2.1)) = true :=
    List.all_eq_true.2 fun q hq => decide_eq_true (hrise q hq)
  have hhead : decide (1 ≤ fieldAt l.data 0 4 ∧ fieldAt l.data 0 4 ≤ 64 ∧ fieldAt l.data 4 60 = 0) = true :=
    decide_eq_true ⟨hlow, hhigh, hzero⟩
  simp only [shdCurveLanded, hl, hall, hhead, Bool.and_self, if_true]

/-! ## Weights and states (R119, R134, R135) -/

section Weights

/-- The FP32 words of the tensor of index `i` that SHD_IMPORT finds in store space. -/
def importWords (s : State) (c : Capsule) (i : Nat) : List Word :=
  bytesWords (storeRead s c.partition.toNat (capDword c 0 + 4 * c.length.toNat * i) (4 * c.length.toNat)) c.length.toNat

/-- The shard with the tensors of an import in its range, and the chunks of the range whole again (R119, R368). -/
def importShard (c : Capsule) (ws : Nat → List Word) (y : Shard) : Shard :=
  (chunksIn c).foldl (fun y k => y.modChunk k fun x => { x with damaged := false, lost := false, nonfinite := false })
    { y with
      w := putElems c.offset.toNat (ws 0) y.w
      s1 := if 1 ≤ y.states then putElems c.offset.toNat (throughFormat y.stateFmt (ws 1)) y.s1 else y.s1
      s2 := if y.states = 2 then putElems c.offset.toNat (throughFormat y.stateFmt (ws 2)) y.s2 else y.s2 }

/-- The bytes of a range that SHD_EXPORT copies out: the weights, then each state tensor. -/
def exportBytes (h : Shard) (c : Capsule) : List Byte :=
  wordsBytes (elemsAt h.w c.offset.toNat c.length.toNat) ++
    (if 1 ≤ h.states then wordsBytes (elemsAt h.s1 c.offset.toNat c.length.toNat) else []) ++
    (if h.states = 2 then wordsBytes (elemsAt h.s2 c.offset.toNat c.length.toNat) else [])

/-- The 8 bytes that SHD_STEP_STATUS answers of a chunk (R135). -/
def chunkRecord (x : Chunk) : List Byte :=
  leBytes 4 x.n ++ leBytes 2 x.bits.length ++
    leBytes 2 ((if x.late then 1 else 0) + (if x.nonfinite then 2 else 0) + (if x.lost then 4 else 0))

variable (hl : s.live? n = some l) (hh : s.shard? l.c.object.toNat = some h)
include hl hh

theorem shdImportStart_read {a : State}
    (hread : readRange l.c.partition.toNat (pagesOf (capDword l.c 0) (copyBytes h l.c)) l.c.context s = (a, .ok)) :
    shdImportStart n s =
      succeed n 0 [] ((chargeWait n a).modShard l.c.object.toNat (importShard l.c (importWords s l.c))) := by
  simp only [shdImportStart, hl, hh, hread]
  exact if_neg (not_not_intro rfl)

theorem shdExportStart_written {a : State} {m : Nat} (hstep : stepMeets h l.c l.c.p2.toNat = some true)
    (hwrite : writeRange l.c.partition.toNat (capDword l.c 0) (exportBytes h l.c) l.c.context
      (pagesOf (capDword l.c 0) (exportBytes h l.c).length) l.sent s = (a, m, .ok)) :
    shdExportStart n s = succeed n 0 [] (chargeWait n
      ((a.modLive n fun x => { x with sent := m }).modLive n fun x => { x with sent := 0 })) := by
  rw [exportBytes] at hwrite
  simp only [shdExportStart, hl, hh, hstep, hwrite, if_true]

theorem shdStatusStart_eq :
    shdStatusStart n s =
      succeed n 0 [(0, leBytes 8 h.step ++
        (List.range l.c.length.toNat).flatMap fun i => chunkRecord (h.chunk (l.c.offset.toNat + i)))] s := by
  simp only [shdStatusStart, hl, hh]
  rfl

theorem shdReadStart_at_step (hstep : stepMeets h l.c l.c.p0.toNat = some true) :
    shdReadStart n s =
      succeed n 0 [(0, formatBytes h.pubFmt (elemsAt h.w l.c.offset.toNat l.c.length.toNat))] s := by
  simp only [shdReadStart, hl, hh, hstep]

theorem shdReadStart_past_step (hstep : stepMeets h l.c l.c.p0.toNat = some false) :
    shdReadStart n s = fail n St.epochRetired 0 s := by
  simp only [shdReadStart, hl, hh, hstep]

theorem shdReadStart_before_step (hstep : stepMeets h l.c l.c.p0.toNat = none) :
    shdReadStart n s = s.modLive n fun x => { x with phase := .ordered } := by
  simp only [shdReadStart, hl, hh, hstep]

end Weights

/-! ## Steps of a chunk (R129 to R131) -/

section Steps

/-- The state with the data of a contribution added to its chunk's sum, and the command answered ST_OK. -/
def addContribution (n : Nat) (l : Live) (h : Shard) (s : State) : State :=
  let k := l.c.offset.toNat / chunkElems
  let v := contribution (l.c.p2.toNat % 16) (h.elems k) l.data
  let place := if (h.chunk k).place = .none then takePlace s h.die.val else (h.chunk k).place
  succeed n 0 [] ((s.modShard l.c.object.toNat fun x => x.modChunk k fun y =>
    { Chunk.accept l.c.p1.toNat place s.sys.time y with
      sum := if y.sum.isEmpty then v else List.zipWith (fun a b => (f32Add a b).1) y.sum v
      added := y.added ++ [l.c.p1.toNat] }).modLive n fun x => { x with applied := true })

/-- The step of a chunk starts where every contributor of the shard has been added. -/
def startIfComplete (shard k : Nat) (s : State) : State :=
  match (s.shard? shard).map fun x => (x.chunk k, x.contributors) with
  | some (y, m) => if y.added.length = m ∧ y.running.isNone then startStep shard k m s else s
  | none => s

/-- The chunks that SHD_CLOSE_STEP of step `t` acts on: those that have completed the step before and do not run. -/
def closingChunks (h : Shard) (t : Nat) : List Nat :=
  (List.range h.count).filter fun k => decide ((h.chunk k).n + 1 = t) && (h.chunk k).running.isNone

/-- A chunk's step ends without its contributions. -/
def abandonStep (shard t k : Nat) (s : State) : State :=
  s.modShard shard fun y => y.modChunk k (Chunk.advance t)

section Command

variable (hl : s.live? n = some l) (hh : s.shard? l.c.object.toNat = some h)
include hl hh

theorem shdPushLanded_eq :
    shdPushLanded n s =
      let ch := h.chunk (l.c.offset.toNat / chunkElems)
      if l.c.p0.toNat ≠ ch.n + 1 ∨ ch.running.isSome then fail n St.epochRetired 0 s
      else if ch.added.contains l.c.p1.toNat then fail n St.violation 0 s
      else startIfComplete l.c.object.toNat (l.c.offset.toNat / chunkElems) (addContribution n l h s) := by
  simp only [shdPushLanded, hl, hh]
  rfl

theorem shdClose_abandon :
    shdClose n false s = succeed n 0 [] (raiseStep l.c.object.toNat h.step
      (foldOver (closingChunks h l.c.p0.toNat) (abandonStep l.c.object.toNat l.c.p0.toNat) s)) := by
  simp only [shdClose, hl, hh]
  rfl

theorem shdClose_partial :
    shdClose n true s = succeed n 0 [] (raiseStep l.c.object.toNat h.step
      (foldOver (closingChunks h l.c.p0.toNat) (fun k acc =>
        if 0 < (h.chunk k).added.length then startStep l.c.object.toNat k (h.chunk k).added.length acc
        else abandonStep l.c.object.toNat l.c.p0.toNat k acc) s)) := by
  simp only [shdClose, hl, hh, Bool.true_and, decide_eq_true_eq]
  rfl

end Command

/-- SHD_CLOSE_STEP closes with the contributions present where its parameter says so. -/
theorem startOf_shdCloseStep (hl : s.live? n = some l) :
    startOf 0x0411 n s = shdClose n (decide (l.c.p1 = 1)) s := by
  change shdClose n ((s.live? n).any fun l => decide (l.c.p1 = 1)) s = _
  rw [hl, Option.any_some]

/-- A late step's first report: logged with the missing indices, and the creator's attention raised (R131, R136). -/
def reportLate (shard k : Nat) (h : Shard) (s : State) : State :=
  let missing := (List.range h.contributors).filter fun i => !(h.chunk k).bits.contains i
  raiseAttention shard k (addLog Lc.stepLate 0x50000000 noUnit (ctxWord none (some h.part.val))
    ([k, (h.chunk k).n + 1] ++ missing.take 6) (s.modShard shard fun y => y.modChunk k fun c => { c with late := true }))

/-- The reads that are held for a chunk's next step (R134). -/
def heldReads (s : State) (shard k : Nat) (h : Shard) : List Nat :=
  (s.cmds.filter fun e =>
    decide (e.2.op = 0x0420 ∧ e.2.c.object.toNat = shard ∧ (h.chunk k).n < e.2.c.p0.toNat ∧
      e.2.c.offset.toNat / chunkElems ≤ k ∧ k ≤ (e.2.c.offset.toNat + e.2.c.length.toNat - 1) / chunkElems)).map Prod.fst

section Events

variable {shard k code t0 : Nat} (hh : s.shard? shard = some h)
include hh

theorem stepLate_first_report (hfirst : (h.chunk k).firstAt = some t0) (hlimit : h.deadline ≠ 0)
    (hpast : t0 + 1000000 * h.deadline ≤ s.sys.time) (hidle : (h.chunk k).running = none)
    (hnew : (h.chunk k).late = false) :
    stepLate shard k s =
      foldOver (heldReads s shard k h) (fun m acc => fail m St.pending 0 acc) (reportLate shard k h s) := by
  have hdue : h.deadline ≠ 0 ∧ t0 + 1000000 * h.deadline ≤ s.sys.time ∧ (h.chunk k).running.isNone = true :=
    ⟨hlimit, hpast, by rw [hidle]; rfl⟩
  simp only [stepLate, hh, hfirst, if_pos hdue, hnew, Bool.false_eq_true, if_false]
  rfl

theorem eventTimeout_passed {node : BitVec 20} {i : LinkIx}
    (hsent : (if code = 1 then h.stepSent else h.attnSent) = some t0) (hfar : h.creator = .fabric node i)
    (hpast : t0 + 10000000 ≤ s.sys.time) :
    eventTimeout shard code s = eventOver shard code
      (addLog Lc.cqEventLost 0x50000000 noUnit (ctxWord none (some h.part.val)) [node.toNat] s) := by
  simp only [eventTimeout, hh, hsent, hfar, if_pos hpast]

theorem eventReply_of_sent (hsent : (if code = 1 then h.stepSent else h.attnSent) ≠ none) :
    eventReply shard code s = eventOver shard code s := by
  simp only [eventReply, hh, if_pos (Option.isSome_iff_ne_none.2 hsent)]

end Events

/-- When the event of a row's code was sent: `eventTimeout` and `eventReply` take the code as a number. -/
theorem eventSent_toNat (h : Shard) (code : Half) :
    (if code.toNat = 1 then h.stepSent else h.attnSent) = if code = 1#16 then h.stepSent else h.attnSent := by
  have hcode : code.toNat = 1 ↔ code = 1#16 := BitVec.toNat_inj (y := 1#16)
  simp only [hcode]

end Steps

/-! ## COEF and UPDATE (R124, R127, R133) -/

section Updates

/-- The coefficients of a group at a step: its curves evaluated, the rate scaled by its entry. -/
def coefAt (x : Settings) (g : Group) (shard : Word) (group : Nat) (t : Word) : Coef :=
  let e := g.entry.toNat
  let curve (k : Nat) : Word := curveAt (Tbl.getD x.curves k []) t.toNat
  { eta := (f32Mul (coefWord g.entry 9) (curve (bits e 336 12))).1
    b1 := if bit e 324 then curve (bits e 348 12) else f32One
    b2 := if bit e 324 ∧ bits e 322 2 = 0 then curve (bits e 360 12) else f32One
    shard := shard, group := group, t := t }

/-- An operation of the shard service enters an engine's pipeline behind those in flight, to retire its latency after them. -/
def enterService (d j op lat sats : Nat) (eff : VecEffect) (s : State) : State :=
  s.modDie d fun y => y.modEngine j fun v =>
    { v with flight := v.flight ++
        [{ retireAt := (v.flight.foldl (fun m o => max m o.retireAt) 0) + lat, eff := eff, token := none, flag := none,
           sats := sats, nans := 0, row := 0, plan := 0, op := op }] }

/-- The update groups of a chunk that are held are written to a tensor of the shard. -/
def writeGroups (h : Shard) (k : Nat) (sel : List Word × List Word × List Word → List Word) (t : Tbl Word) : Tbl Word :=
  (h.chunk k).updated.foldl (fun t g => putElems (k * chunkElems + 256 * g.1) (sel g.2) t) t

/-- The shard once a chunk's step is complete: its new weights and states are written, and the chunk has advanced. -/
def completeChunk (h : Shard) (k : Nat) (y : Shard) : Shard :=
  { y.modChunk k (Chunk.advance ((h.chunk k).n + 1)) with
    w := writeGroups h k (fun g => g.1) y.w
    s1 := writeGroups h k (fun g => g.2.1) y.s1
    s2 := writeGroups h k (fun g => g.2.2) y.s2 }

variable {j group chunk q r : Nat} {shard t : Word} {x : Settings}

theorem coefSlot_eq {g : Group} (hh : s.shard? shard.toNat = some h) (hx : settingsAt h t.toNat = some x)
    (hg : x.groups[group]? = some g) :
    coefSlot h.die.val j shard group t s = enterService h.die.val j 0x50 40 0 (.coef (coefAt x g shard group t)) s := by
  simp only [coefSlot, hh, hx, hg]
  exact if_neg (not_not_intro rfl)

theorem updateSlot_eq {k : Coef} (hh : s.shard? shard.toNat = some h)
    (hk : ((s.die h.die.val).engine j).coef = some k) (hx : settingsAt h ((h.chunk chunk).n + 1) = some x)
    (hr : (h.chunk chunk).running = some r) (hshard : k.shard = shard) (ht : k.t.toNat = (h.chunk chunk).n + 1)
    (hq : 256 * q < h.elems chunk) (hgroup : groupIndex x.groups (chunk * chunkElems + 256 * q) = some k.group)
    (hchunk : ((s.die h.die.val).engine j).chunk = some (shard, chunk)) :
    updateSlot h.die.val j shard chunk q s =
      let u := updateGroup h x k chunk q r
      (enterService h.die.val j 0x51 48 u.2.2.2 (.group shard (chunk * chunkElems + 256 * q) u.1 u.2.1 u.2.2.1) s).modShard
        shard.toNat fun y => y.modChunk chunk fun z => { z with waitSince := none } := by
  simp only [updateSlot, hh, hk, hx, hr]
  exact if_pos ⟨trivial, hshard, ht, hq, hgroup, hchunk⟩

theorem chunkComplete_of_all_held {shard k : Nat} (hh : s.shard? shard = some h)
    (hrun : (h.chunk k).running.isSome = true) (hheld : (h.chunk k).updated.length = (h.elems k + 255) / 256) :
    chunkComplete shard k s =
      raiseStep shard h.step (dropChunk shard k (s.modShard shard (completeChunk h k))) := by
  simp only [chunkComplete, hh]
  exact if_pos ⟨hrun, hheld⟩

end Updates

/-! ## Vector operations (R114 to R118) -/

section Vectors

variable {d j op lat : Nat} {v : VecSlot} {x : Stream}

/-- The state with an operation of the running stream in an engine's pipeline, to retire its latency later with what it computed
at issue; its engine-cycles are counted for the stream's context (R114, R185). -/
def enterPipeline (d j op lat : Nat) (v : VecSlot) (x : Stream) (r : VecResult) (s : State) : State :=
  let busy := ((s.die d).engine j).flight.foldl (fun m o => max m o.retireAt) x.cycle
  let o : VecOp :=
    { retireAt := x.cycle + lat, eff := r.eff, token := if v.tokenEn then some v.token.toNat else none,
      flag := if v.flagEn then some (v.flag.toNat, r.flag) else none, sats := r.sats, nans := r.nans, row := x.row,
      plan := x.plan, op := op }
  (s.modDie d fun y => y.modEngine j fun e => { e with flight := e.flight ++ [o] }).count x.ctx.toNat fun n =>
    { n with vectorCycles := n.vectorCycles + (x.cycle + lat - busy) }

theorem vecSlot_load (extra : Nat) : vecSlot d j 0x01 extra v = vLoad d j extra v := rfl
theorem vecSlot_store (extra : Nat) : vecSlot d j 0x02 extra v = vStore d j extra v := rfl
theorem vecSlot_loadp (extra : Nat) : vecSlot d j 0x03 extra v = vLoadp d j extra v := rfl
theorem vecSlot_storep (extra : Nat) : vecSlot d j 0x04 extra v = vStorep d j extra v := rfl
theorem vecSlot_convert (extra : Nat) : vecSlot d j 0x39 extra v = vConvert d j extra v := rfl

section Running

variable (hx : (s.die d).stream = some x) (hlive : x.ended = false)
include hx hlive

/-- An operation that issues by itself enters the pipeline with its value of the operands of its issue cycle. -/
theorem issueVec_running (f : VecIn → VecResult) (bytes : Nat) :
    issueVec d j op lat 0 v f bytes s = enterPipeline d j op lat v x (f (vecIn s d j x v bytes)) s := by
  simp only [issueVec, hx, hlive, Bool.false_eq_true, if_false]
  rfl

theorem vecMemRow_in_pad (hin : inPad (vecAddr v x.core.ix, vecMemBytes op v) = true) :
    vecMemRow d j op v .clean s = vecSlot d j op 0 v s :=
  inRange_of_ok hx hlive hin

theorem vecMemRow_traps (hout : inPad (vecAddr v x.core.ix, vecMemBytes op v) = false) :
    vecMemRow d j op v .clean s = trapStream d 0x03 St.computeFault s :=
  inRange_of_not_ok hx hlive hout

/-- A slot with a memory operand in the scratchpad issues as the operation of its code. -/
theorem vecMemRow_issues {f : VecIn → VecResult} {bytes : Nat}
    (hop : vecSlot d j op 0 v = issueVec d j op lat 0 v f bytes)
    (hin : inPad (vecAddr v x.core.ix, vecMemBytes op v) = true) :
    vecMemRow d j op v .clean s = enterPipeline d j op lat v x (f (vecIn s d j x v bytes)) s := by
  rw [vecMemRow_in_pad hx hlive hin, hop, issueVec_running hx hlive]

end Running

theorem vectorRetire_clean {o : VecOp} (residueOk : Bool) (ho : nextRetire ((s.die d).engine j).flight = some o) :
    vectorRetire d j residueOk .clean s = if residueOk then retireOk d j o s else residueFails d j o s := by
  simp only [vectorRetire, ho, readEcc]
  split <;> rfl

end Vectors

end Sys2Proof.Machine

namespace Sys2Proof

open Sys2Proof.Machine

/-- Settles O16: each command is taken up at once, and acts on the state that holds its entry; the settings of groups and curves
are judged once their data has landed. -/
theorem shardSetup : Obligations.ShardSetup := by
  intro s c
  refine ⟨fun f hacc => ?_, fun h hacc hh => ?_, fun hacc hdata => ?_, fun hacc hdata => ?_,
    fun n l h hl hh hstarts hentries => shdGroupsLanded_of_ok hl hh hstarts hentries,
    fun n l hl => shdCurveLanded_of_ok hl⟩
  · intro h d land hpin
    have hstart := shdCreateStart_pinned (entered_live 0x0401 c s) hpin
    exact settle_deliver_accepted hacc hstart
  · have hshard : (s.entered 0x0402 c).shard? c.object.toNat = some h := by rw [entered_shard?, hh]
    have hstart := shdDeleteStart_eq (entered_live 0x0402 c s) hshard
    exact settle_deliver_accepted hacc hstart
  · exact settle_deliver_accepted hacc (withData_awaits (entered_live 0x0403 c s) hdata)
  · exact settle_deliver_accepted hacc (withData_awaits (entered_live 0x0404 c s) hdata)

/-- Settles O17: each command acts on the state that holds its entry; a read of weights by where its chunks stand against its
step. -/
theorem shardData : Obligations.ShardData := by
  intro s c h hh p at_ lo len
  have hshard (op : Nat) : (s.entered op c).shard? c.object.toNat = some h := by rw [entered_shard?, hh]
  refine ⟨fun a hacc hread => ?_, fun a n hacc hstep => ?_, fun hacc => ?_, fun hacc => ?_⟩
  · have hstart := shdImportStart_read (entered_live 0x0405 c s) (hshard 0x0405) hread
    exact settle_deliver_accepted hacc hstart
  · intro bs hwrite
    have hstart := shdExportStart_written (entered_live 0x0406 c s) (hshard 0x0406) hstep hwrite
    exact settle_deliver_accepted hacc hstart
  · have hstart := shdStatusStart_eq (entered_live 0x0412 c s) (hshard 0x0412)
    exact settle_deliver_accepted hacc hstart
  · have hl := entered_live 0x0420 c s
    match hstep : stepMeets h c c.p0.toNat with
    | some true =>
      have hstart := shdReadStart_at_step hl (hshard 0x0420) hstep
      exact settle_deliver_accepted hacc hstart
    | some false =>
      have hstart := shdReadStart_past_step hl (hshard 0x0420) hstep
      exact settle_deliver_accepted hacc hstart
    | none =>
      have hstart := shdReadStart_before_step hl (hshard 0x0420) hstep
      exact settle_deliver_accepted hacc hstart

/-- Settles O18: a contribution by whether its step is open and whether it is its contributor's first, a close by its form, and a
late step and the events of a shard by what has passed. -/
theorem shardSteps : Obligations.ShardSteps := by
  refine ⟨fun s c => ⟨fun hacc hdata => ?_, fun n l h hl hh => shdPushLanded_eq hl hh, fun h hacc hh => ?_,
      fun h hacc hh => ?_⟩,
    fun s shard h t hh => ⟨fun k t0 hfirst hlimit hpast hidle hnew => ?_, fun code t0 node i hsent hfar hpast => ?_,
      fun code status hh' hsent => ?_⟩⟩
  · exact settle_deliver_accepted hacc (withData_awaits (entered_live 0x0410 c s) hdata)
  · have hl := entered_live 0x0411 { c with p1 := 0 } s
    have hshard := (entered_shard? 0x0411 { c with p1 := 0 } s c.object.toNat).trans hh
    exact settle_deliver_accepted hacc ((startOf_shdCloseStep hl).trans (shdClose_abandon hl hshard))
  · have hl := entered_live 0x0411 { c with p1 := 1 } s
    have hshard := (entered_shard? 0x0411 { c with p1 := 1 } s c.object.toNat).trans hh
    exact settle_deliver_accepted hacc ((startOf_shdCloseStep hl).trans (shdClose_partial hl hshard))
  · exact next_settle_congr (stepLate_first_report hh hfirst hlimit hpast hidle hnew)
  · exact next_congr (eventTimeout_passed hh ((eventSent_toNat h code).trans hsent) hfar hpast)
  · exact next_congr (eventReply_of_sent hh' (by rwa [eventSent_toNat]))

/-- Settles O19: what COEF and UPDATE put into their engine's pipeline, and what a chunk's last held group completes. -/
theorem shardUpdates : Obligations.ShardUpdates := by
  intro s j shard h hh
  refine ⟨fun group t x g hx hg => next_congr (coefSlot_eq hh hx hg),
    fun chunk q r k x hk hx hr hshard ht hq hgroup hchunk => ?_,
    fun k hrun hheld => next_settle_congr (chunkComplete_of_all_held hh hrun hheld)⟩
  exact next_congr (updateSlot_eq hh hk hx hr hshard ht hq hgroup hchunk)

/-- Settles O27: every operation enters the pipeline through `issueVec`, one with a memory operand where that lies in the
scratchpad; the next operation to retire, by its residue. -/
theorem vectorOperations : Obligations.VectorOperations := by
  refine ⟨fun s d j v x hx hlive => ?_, fun s d j v x hx hlive => ?_⟩
  · intro i busy issued dst reg
    have hissue {op lat : Nat} {f : VecIn → VecResult} :
        .next (issueVec d.val j.val op lat 0 v f 0 s) = issued op lat (f i) :=
      next_congr (issueVec_running hx hlive f 0)
    exact ⟨hissue, hissue, hissue, hissue, hissue, hissue, hissue, hissue, hissue, hissue, hissue, hissue, hissue, hissue,
      hissue, hissue, hissue, hissue, hissue, hissue, hissue, hissue, hissue⟩
  · intro i busy issued dst inside
    have hissue {op lat bytes : Nat} {f : VecIn → VecResult}
        (hop : vecSlot d.val j.val op 0 v = issueVec d.val j.val op lat 0 v f bytes) (hin : inside op = true) :
        .next (settle (vecMemRow d.val j.val op v .clean s)) = issued op lat (f (i bytes)) :=
      next_settle_congr (vecMemRow_issues hx hlive hop hin)
    have hload := hissue (vecSlot_load 0)
    have hstore := hissue (vecSlot_store 0)
    have hloadp := hissue (vecSlot_loadp 0)
    have hstorep := hissue (vecSlot_storep 0)
    have hconvert := hissue (vecSlot_convert 0)
    exact ⟨hload, hstore, hloadp, hstorep, hconvert, fun hout => next_settle_congr (vecMemRow_traps hx hlive hout),
      fun hout => next_settle_congr (vecMemRow_traps hx hlive hout),
      fun o ho => ⟨next_settle_congr (vectorRetire_clean true ho), next_settle_congr (vectorRetire_clean false ho)⟩⟩

end Sys2Proof
end

section
/-! The obligation on page transfers (chapter 6): how fetches start and end, how write-backs end, and the timers of the tiers. -/

namespace Sys2Proof.Machine

variable {s f : State} {p pg d : Nat}

/-- The passing of time changes no store space. -/
@[simp] theorem store_tick (s : State) (t p : Nat) : (s.tick t).store p = s.store p := by simp [State.store]

/-! ## Page fetches (R147, R148, R150) -/

section FetchStart

variable (hmap : (s.store p).mapped pg = true) (hst : ((s.store p).page pg).st = .flash)
include hmap hst

theorem fetchStart_fetches (hpart : wholeEntry s p pg = false) (hframe : findFrame p pg 0 s = (f, some d))
    (hroom : fetchesOn f d < 256) :
    fetchStart p pg s =
      setPage p pg { (s.store p).page pg with
        st := .fetching, die := d
        lastCtx := ((windowOwner s p pg).map Prod.fst).getD ((s.store p).page pg).lastCtx } f := by
  simp only [fetchStart, if_pos (And.intro hmap hst), hpart, Bool.false_eq_true, if_false, hframe, if_pos hroom]

theorem fetchStart_opens (hwhole : wholeEntry s p pg = true) (hframe : findFrame p pg 256 s = (f, some d)) :
    fetchStart p pg s =
      openPage p pg (setPage p pg { (s.store p).page pg with st := .dirty, die := d, stamp := stampNow s } f) := by
  simp only [fetchStart, if_pos (And.intro hmap hst), if_pos hwhole, hframe]

end FetchStart

/-- What a context's counters gain by a page that was fetched for it (R160). -/
def countFetch (k : Counters) : Counters :=
  { k with fetchPages := k.fetchPages + 1, flashRead := k.flashRead + pageBytes }

section FetchEnd

variable (hst : ((s.store p).page pg).st = .fetching)
include hst

theorem fetchEnd_readable :
    fetchEnd p pg true s =
      let g := (s.store p).page pg
      setPage p pg { g with st := .clean, pinned := g.pinned || g.pinAfter, pinAfter := false, stamp := stampNow s }
        (s.count g.lastCtx.toNat countFetch) := by
  simp only [fetchEnd, if_pos hst, if_true]
  rfl

theorem fetchEnd_unreadable :
    fetchEnd p pg false s =
      addLog Lc.pagePoisoned 0x50000000 noUnit (ctxWord none (some p)) [p, pg]
        (setPage p pg { Page.zero with st := .poisoned }
          (s.count ((s.store p).page pg).lastCtx.toNat countFetch)) := by
  simp only [fetchEnd, if_pos hst, Bool.false_eq_true, if_false]
  rfl

end FetchEnd

/-! ## Write-backs (R149) -/

/-- What a context's counters gain by a page that was written back for it (R160). -/
def countWriteback (k : Counters) : Counters :=
  { k with writebackPages := k.writebackPages + 1, flashWrite := k.flashWrite + pageBytes }

section WritebackEnd

variable (hst : ((s.store p).page pg).st = .writing)
include hst

theorem writebackEnd_held :
    writebackEnd p pg .held s =
      let g := (s.store p).page pg
      setPage p pg { g with st := .flash, die := 0 } (s.count g.lastCtx.toNat countWriteback) := by
  simp only [writebackEnd, if_pos hst]
  rfl

theorem writebackEnd_channelFailed :
    writebackEnd p pg .channelFailed s =
      addLog Lc.writebackFailed 0x50000000 noUnit (ctxWord none (some p)) [p, pg]
        (setPage p pg { (s.store p).page pg with st := .dirty, stuck := true } s) := by
  simp only [writebackEnd, if_pos hst]

theorem writebackEnd_hbmError :
    writebackEnd p pg .hbmError s =
      eccUncorrectable (.tierDma (dieIx ((s.store p).page pg).die)) pg none
        (setPage p pg { Page.zero with st := .poisoned } s) := by
  simp only [writebackEnd, if_pos hst]

end WritebackEnd

/-! ## Eviction (R152, R158) -/

theorem reserveEvict_low (hlow : freeFrames s d < 256) :
    reserveEvict d s = evictAhead d 512 (s.modDie d fun x => { x with evicting := true }) := by
  simp [reserveEvict, hlow]

theorem reserveEvict_enough (henough : 512 ≤ freeFrames s d) :
    reserveEvict d s = s.modDie d fun x => { x with evicting := false } := by
  have hnotLow : ¬ freeFrames s d < 256 := by omega
  have hnotBelow : ¬ freeFrames s d < 512 := by omega
  simp [reserveEvict, hnotLow, hnotBelow]

theorem idleAge_passed (hev : evictable s p p ((s.store p).page pg) = true)
    (hidle : (s.part p).idleH * 3600000 < stampNow s - ((s.store p).page pg).stamp) :
    idleAge p pg s = evictPage (p, pg, (s.store p).page pg) p s := by
  simp only [idleAge, if_pos (And.intro hev hidle)]

/-! ## Late prefetches and requests (R151, R155) -/

/-- Some page of a schedule entry is mapped and has not come from flash. -/
def EntryLate (s : State) (x : Stream) (entry : Nat) : Prop :=
  let img := progImage s x.prog
  let t := s.store (streamPart s x)
  ∃ k, k < schedPages img entry ∧ t.mapped (schedBase img entry + k) = true ∧
    ((t.page (schedBase img entry + k)).st = .flash ∨ (t.page (schedBase img entry + k)).st = .fetching)

/-- What a context's counters gain by a late schedule entry, up to the largest count (R151). -/
def countLate (k : Counters) : Counters := { k with prefetchLate := min (k.prefetchLate + 1) 4294967295 }

theorem prefetchLate_passed {x : Stream} {entry need : Nat} (hx : (s.die d).stream = some x)
    (hneed : needTime s x entry = some need) (hpast : need < s.sys.time) (hlate : EntryLate s x entry) :
    prefetchLate d entry s = s.count x.ctx.toNat countLate := by
  obtain ⟨k, hk, hmapped, hst⟩ := hlate
  simp only [prefetchLate, hx, hneed]
  refine if_pos ⟨hpast, List.any_eq_true.2 ⟨k, List.mem_range.2 hk, ?_⟩⟩
  rw [hmapped]
  simpa using hst

theorem lateCommand_passed {n t0 : Nat} {l : Live} (hl : s.live? n = some l) (hwait : l.waitSince = some t0)
    (hphase : l.phase = .pages) (hpast : t0 + 1000000 * (s.part l.c.partition.toNat).tierMs ≤ s.sys.time) :
    lateCommand n s =
      abort n St.lowerTierFailed
        (addLog Lc.lowerTierLate 0x50000000 noUnit (ctxWord (some l.c.context.toNat) (some l.c.partition.toNat))
          [l.c.partition.toNat, l.c.offset.toNat / pageBytes] s) := by
  simp only [lateCommand, hl, hwait, if_pos (And.intro hphase hpast)]

end Sys2Proof.Machine

namespace Sys2Proof

open Sys2Proof.Machine

/-- Settles O14: fetches and write-backs by how they start and end, and each timer by what has passed. That a fetch may start
for any FLASH page is the model's choice (log row 15). -/
theorem pageTransfers : Obligations.PageTransfers := by
  refine ⟨fun s p pg => ⟨fun f d hmap hst hpart hframe hroom => ?_, fun f d hmap hst hwhole hframe => ?_,
      fun readable t hst => ?_⟩,
    fun s p pg hst => ⟨next_settle_congr (writebackEnd_held hst), next_settle_congr (writebackEnd_channelFailed hst),
      next_settle_congr (writebackEnd_hbmError hst)⟩,
    fun s t => ⟨fun d hlow => next_congr (reserveEvict_low hlow), fun d henough => next_congr (reserveEvict_enough henough),
      fun p pg hev hidle => next_congr (idleAge_passed hev hidle),
      fun d entry x need hx hneed hpast hlate => next_congr (prefetchLate_passed hx hneed hpast hlate),
      fun n l t0 hl hwait hphase hpast => next_settle_congr (lateCommand_passed hl hwait hphase hpast)⟩⟩
  · exact next_congr (fetchStart_fetches hmap hst hpart hframe hroom)
  · exact next_congr (fetchStart_opens hmap hst hwhole hframe)
  · have hst' : (((s.tick t).store p.val).page pg).st = .fetching := by rwa [store_tick]
    cases readable with
    | true =>
      have hend := fetchEnd_readable hst'
      rw [store_tick] at hend
      exact next_settle_congr hend
    | false =>
      have hend := fetchEnd_unreadable hst'
      rw [store_tick] at hend
      exact next_settle_congr hend

end Sys2Proof
end

section
/-! The obligation on partitions and contexts (chapter 7): what a command's entry in the table leaves as it is, and the commands
on partitions and contexts as they start. -/

namespace Sys2Proof.Machine

variable {s f : State} {n : Nat} {l : Live}

/-! ## What a command's entry in the table leaves as it is (R315) -/

/-- An admitted command changes the command table, and the queue and the result slot it came through. -/
theorem entered_eq_with (op : Nat) (c : Capsule) (s : State) :
    ∃ cmds host, s.entered op c = { s with cmds := cmds, nextCmd := s.nextCmd + 1, host := host } := by
  simp only [State.entered, State.modLive, enterTable]
  split
  · split <;> exact ⟨_, _, rfl⟩
  · exact ⟨_, _, rfl⟩

@[simp] theorem entered_sys (op : Nat) (c : Capsule) (s : State) : (s.entered op c).sys = s.sys := by
  obtain ⟨cmds, host, h⟩ := entered_eq_with op c s
  rw [h]

@[simp] theorem entered_ctxs (op : Nat) (c : Capsule) (s : State) : (s.entered op c).ctxs = s.ctxs := by
  obtain ⟨cmds, host, h⟩ := entered_eq_with op c s
  rw [h]

@[simp] theorem entered_endpoints (op : Nat) (c : Capsule) (s : State) : (s.entered op c).endpoints = s.endpoints := by
  obtain ⟨cmds, host, h⟩ := entered_eq_with op c s
  rw [h]

theorem entered_ctx? (op : Nat) (c : Capsule) (s : State) (k : Nat) : (s.entered op c).ctx? k = s.ctx? k := by
  simp only [State.ctx?, entered_ctxs]

/-- A field of a parameter as a vector of the field's width needs no mask. -/
theorem ofNat_bits (v lo w : Nat) : BitVec.ofNat w (bits v lo w) = BitVec.ofNat w (v / 2 ^ lo) := by
  apply BitVec.eq_of_toNat_eq
  simp [bits, Nat.shiftRight_eq_div_pow]

/-! ## Partitions (R161 to R163) -/

/-- The partition that a PAR_CREATE makes. -/
def newPart (c : Capsule) : Part :=
  { Part.fresh with dies := BitVec.ofNat 4 (c.p0.toNat / 16), swatch := BitVec.ofNat 2 (c.p0.toNat / 256),
                    scan := BitVec.ofNat 16 c.p1.toNat }

/-- The state with the partition of a PAR_CREATE and its scan engines: those it names, or all of them dealt again. -/
def placePart (c : Capsule) (s : State) : State :=
  if c.p0.getLsbD 10 then
    { s with parts := Tbl.set (c.p0.toNat % 4) (newPart c)
                        (Tbl.mapVals (fun _ x => { x with scan := x.scan &&& ~~~(newPart c).scan }) s.parts) }
  else dealScan { s with parts := Tbl.set (c.p0.toNat % 4) (newPart c) s.parts }

/-- The state without a partition, its contexts, its store space and the backing of its ranges. -/
def removePart (p : Nat) (s : State) : State :=
  { s with
    parts := Tbl.erase p s.parts
    ctxs := Tbl.keep (fun _ x => decide (x.part.val ≠ p)) s.ctxs
    stores := Tbl.set p Store.fresh s.stores
    media := { s.media with mapped := s.media.mapped - ((s.store p).ranges.map Range.pages).sum * 2097152 } }

/-- A time in µs as PAR_SET_SHARES sets it: within its range, and 0 leaves it as it is (R176, R177). -/
def policyUs (lo : Nat) (w : Word) (old : Nat) : Nat := if w = 0 then old else max lo (min 1000000 w.toNat)

/-- The state with the shares and the policy values that a PAR_SET_SHARES gives its partition. -/
def setShares (c : Capsule) (s : State) : State :=
  let p := c.p0.toNat % 4
  let slice := policyUs 100 c.p4 (s.part p).sliceUs
  let starve := policyUs 1000 c.p5 (s.part p).starveUs
  s.modPart p fun x =>
    { x with
      shareFlash := if c.p1 = 0 then x.shareFlash else c.p1.toNat
      shareLinks := if c.p2 = 0 then x.shareLinks else c.p2.toNat
      sharePool := if c.p3 = 0 then x.sharePool else c.p3.toNat
      prioPreempt := !c.p0.getLsbD 8
      sliceUs := slice
      starveUs := starve }

/-- The state with a log entry for a policy value that was asked for and clipped. -/
def logPolicy (c : Capsule) (setting : Nat) (asked : Word) (got : Nat) (s : State) : State :=
  if asked = 0 ∨ asked.toNat = got then s
  else addLog Lc.policyClipped (originWord c.origin) noUnit (ctxWord none (some (c.p0.toNat % 4))) [setting, asked.toNat, got] s

/-- A policy value that is 0 is not set, so nothing of it is clipped. -/
theorem logPolicy_eq_logClipped (c : Capsule) (setting : Nat) (asked : Word) (got : Nat) (s : State) :
    logPolicy c setting asked got s =
      if asked = 0 then s else logClipped c.origin (some (c.p0.toNat % 4)) setting asked.toNat got s := by
  by_cases hasked : asked = 0
  · rw [if_pos hasked, logPolicy, if_pos (.inl hasked)]
  · rw [if_neg hasked, logPolicy, logClipped]
    by_cases hgot : asked.toNat = got
    · rw [if_pos hgot, if_pos (.inr hgot)]
    · rw [if_neg hgot, if_neg (not_or.2 ⟨hasked, hgot⟩)]

section Partitions

variable (hl : s.live? n = some l)
include hl

theorem parCreateStart_eq : parCreateStart n s = succeed n 0 [] (logPart l.c (placePart l.c s)) := by
  simp only [parCreateStart, hl, parMask, ofNat_bits]
  rfl

theorem parDeleteStart_eq :
    parDeleteStart n s =
      succeed n 0 [] (refreshFenced (logPart l.c (dealScan (removePart (l.c.p0.toNat % 4) s)))) := by
  simp only [parDeleteStart, hl]
  rfl

theorem parSharesStart_eq :
    parSharesStart n s =
      let old := s.part (l.c.p0.toNat % 4)
      succeed n 0 [] (logPart l.c (logPolicy l.c 5 l.c.p5 (policyUs 1000 l.c.p5 old.starveUs)
        (logPolicy l.c 4 l.c.p4 (policyUs 100 l.c.p4 old.sliceUs) (setShares l.c s)))) := by
  simp only [parSharesStart, hl, logPolicy_eq_logClipped]
  rfl

theorem parSwatchStart_eq :
    parSwatchStart n s = succeed n 0 [] (dropUnplaceable (logPart l.c
      (s.modPart (l.c.p0.toNat % 4) fun x => { x with swatch := BitVec.ofNat 2 l.c.p1.toNat }))) := by
  simp only [parSwatchStart, hl]

end Partitions

/-! ## Contexts (R165 to R168, R175, R185) -/

/-- The context that a CTX_CREATE makes, its affinity within its partition's dies. -/
def newCtx (c : Capsule) (s : State) : Ctx :=
  { part := c.partition.toFin, prio := BitVec.ofNat 2 c.p0.toNat,
    affinity := BitVec.ofNat 4 (c.p0.toNat / 4) &&& (s.part c.partition.toNat).dies, mode := c.p1,
    onPreempt := c.p0.getLsbD 6, saveMiB := ctxSave c, depth := ctxDepth c, held := false, shardDie := none, search := false,
    ctr := {} }

/-- The state `f` with a context under id `i`, and its save area on each of the dies. -/
def placeCtx (i need : Nat) (dies : List Nat) (x : Ctx) (f : State) : State :=
  let g := foldOver dies (fun d acc => acc.modDie d fun y => { y with saveFrames := y.saveFrames + need }) f
  { g with ctxs := Tbl.set i x g.ctxs }

/-- The state with the priority and the affinity that a CTX_SET gives its context. -/
def setCtx (c : Capsule) (s : State) : State :=
  s.modCtx c.p0.toNat fun x =>
    { x with prio := if c.p1 = 0xFFFFFFFF then x.prio else BitVec.ofNat 2 c.p1.toNat
             affinity := if c.p2 = 0xFFFFFFFF then x.affinity
               else BitVec.ofNat 4 c.p2.toNat &&& (s.part c.partition.toNat).dies }

section Contexts

variable (hl : s.live? n = some l)
include hl

section Create

variable {r : Option Bool}
  (hpin : pinSaves (ctxSave l.c) l.c.partition.toNat (diesOf s l.c.partition.toNat) s = (f, r))
include hpin

theorem ctxCreateStart_without_frames (hr : r = none) : ctxCreateStart n s = fail n St.noResource 0 f := by
  simp only [ctxCreateStart, hl, hpin, hr]

theorem ctxCreateStart_waits (hr : r = some false) : ctxCreateStart n s = waitOnPage n f := by
  simp only [ctxCreateStart, hl, hpin, hr]

theorem ctxCreateStart_pinned {i : Nat} (hr : r = some true) (hfree : freeCtx s = some i) :
    ctxCreateStart n s =
      succeed n i [] (logAffinity l.c.origin l.c.partition.toNat i (BitVec.ofNat 4 (l.c.p0.toNat / 4))
        (logCtx 0x0130 i l.c (placeCtx i (ctxSave l.c) (diesOf s l.c.partition.toNat) (newCtx l.c s) f))) := by
  simp only [ctxCreateStart, hl, hpin, hr, hfree, ctxAffinity, ofNat_bits]
  rfl

end Create

theorem ctxDeleteStart_eq :
    ctxDeleteStart n s = succeed n 0 [] (logCtx 0x0131 l.c.p0.toNat l.c (dropCtx l.c.p0.toNat s)) := by
  simp only [ctxDeleteStart, hl]

theorem ctxSetStart_eq :
    ctxSetStart n s = succeed n 0 [] (dropUnplaceable (logCtx 0x0132 l.c.p0.toNat l.c
      (if l.c.p2 = 0xFFFFFFFF then setCtx l.c s
      else logAffinity l.c.origin l.c.partition.toNat l.c.p0.toNat (BitVec.ofNat 4 l.c.p2.toNat) (setCtx l.c s)))) := by
  simp only [ctxSetStart, hl]
  rfl

theorem ctxCountersStart_eq {x : Ctx} (hx : s.ctx? l.c.p0.toNat = some x) :
    ctxCountersStart n s =
      succeed n 0 [(0, counterRecord x.ctr s.sys.time)]
        (if l.c.p1.getLsbD 0 then clearCounters l.c.p0.toNat x s else s) := by
  simp only [ctxCountersStart, hl, hx]

theorem ctxQueryStart_eq :
    ctxQueryStart n s =
      let xs := (s.ctxs.filter fun e => decide (e.2.part.val = l.c.partition.toNat ∧ l.c.p0.toNat ≤ e.1)).take 64
      succeed n 0 [(0, xs.flatMap fun e => ctxRecord s e.1 e.2)] s := by
  simp only [ctxQueryStart, hl]

end Contexts

end Sys2Proof.Machine

namespace Sys2Proof

open Sys2Proof.Machine

/-- Settles O11: each command is taken up at once and acts on the state that holds its entry; CTX_CREATE by what the frames of its
save areas allow. The places of PAR_SET_SHARES's parameters, that all ones in CTX_SET keeps a value, and that the CTX_* commands
are logged PARTITION_CHANGED are the model's choices (log rows 11 and 30). -/
theorem partitionAndContextCommands : Obligations.PartitionAndContextCommands := by
  refine ⟨fun s c => ⟨fun hacc => ?_, fun hacc => ?_, fun hacc => ?_, fun hacc => ?_, fun hacc => ?_⟩,
    fun s f c r hacc => ?_, fun s c => ⟨fun hacc => ?_, fun hacc => ?_, fun x hacc hx => ?_, fun hacc => ?_⟩⟩
  · have hstart := parCreateStart_eq (entered_live 0x0120 c s)
    exact settle_deliver_accepted hacc hstart
  · have hstart := parDeleteStart_eq (entered_live 0x0121 c s)
    exact settle_deliver_accepted hacc hstart
  · have hstart := parSharesStart_eq (entered_live 0x0122 c s)
    exact settle_deliver_accepted hacc hstart
  · have hstart := parSwatchStart_eq (entered_live 0x0123 c s)
    exact settle_deliver_accepted hacc hstart
  · exact settle_deliver_accepted hacc rfl
  · intro p cap hpin
    have hl := entered_live 0x0130 c s
    refine ⟨fun hr => ?_, fun hr => ?_, fun i hr hfree => ?_⟩
    · exact settle_deliver_accepted hacc (ctxCreateStart_without_frames hl hpin hr)
    · exact settle_deliver_accepted hacc (ctxCreateStart_waits hl hpin hr)
    · exact settle_deliver_accepted hacc (ctxCreateStart_pinned hl hpin hr hfree)
  · have hstart := ctxDeleteStart_eq (entered_live 0x0131 c s)
    exact settle_deliver_accepted hacc hstart
  · have hstart := ctxSetStart_eq (entered_live 0x0132 c s)
    exact settle_deliver_accepted hacc hstart
  · have hctx : (s.entered 0x0133 c).ctx? c.p0.toNat = some x := by rw [entered_ctx?, hx]
    have hstart := ctxCountersStart_eq (entered_live 0x0133 c s) hctx
    rw [entered_sys] at hstart
    exact settle_deliver_accepted hacc hstart
  · have hstart := ctxQueryStart_eq (entered_live 0x0134 c s)
    exact settle_deliver_accepted hacc hstart

end Sys2Proof
end

section
/-! The obligation on serving and energy (chapter 7): the commands on an endpoint as they start, the batch of a step, what a step
that has ended does to its sequences, and when energy is charged. -/

namespace Sys2Proof.Machine

variable {s : State} {n k : Nat} {l : Live} {e : Endpoint}

/-! ## Commands on an endpoint (R181, R184) -/

/-- The endpoint that an SRV_OPEN opens. -/
def newEndpoint (c : Capsule) : Endpoint :=
  { part := c.partition.toFin, prog := c.object, entry := c.p0.toNat, ctx := c.context, region := c.offset.toNat,
    chunk := srvChunk c, budget := srvBudget c, limit := c.p3.toNat, seqs := [], nextSeq := 0, step := 0, running := none,
    finished := none }

/-- The endpoint with one of its sequences marked to end after the running step. -/
def markSeq (id : Nat) (e : Endpoint) : Endpoint :=
  { e with seqs := e.seqs.map fun q => if q.id = id then { q with cancelled := true } else q }

/-- The endpoint without one of its sequences. -/
def withoutSeq (id : Nat) (e : Endpoint) : Endpoint := { e with seqs := e.seqs.filter fun q => decide (q.id ≠ id) }

/-- The state in which a sequence of an endpoint is cancelled: marked while it is in the running step, else ended (R184). -/
def cancelSeq (k id : Nat) (e : Endpoint) (s : State) : State :=
  if e.inStep id then { s with endpoints := Tbl.set k (markSeq id e) s.endpoints }
  else
    endSeqs (e.seqs.filter fun q => decide (q.id = id)) St.abortedReset 1
      { s with endpoints := Tbl.set k (withoutSeq id e) s.endpoints }

section Commands

variable (hl : s.live? n = some l)
include hl

theorem srvOpenStart_eq :
    srvOpenStart n s = succeed n s.nextEndpoint []
      { s with endpoints := Tbl.set s.nextEndpoint (newEndpoint l.c) s.endpoints, nextEndpoint := s.nextEndpoint + 1 } := by
  simp only [srvOpenStart, hl, newEndpoint]

theorem srvSubmitStart_eq :
    srvSubmitStart n s = addSeq l.c.offset.toNat (some n) none (capDword l.c 0) l.c.p2.toNat (capDword l.c 3) l.c.p5.toNat
      (s.modLive n fun x => { x with phase := .running }) := by
  simp only [srvSubmitStart, hl]

theorem srvCancelStart_eq (he : Tbl.get? s.endpoints l.c.offset.toNat = some e) :
    srvCancelStart n s = succeed n 0 [] (cancelSeq l.c.offset.toNat l.c.p0.toNat e s) := by
  simp only [srvCancelStart, hl, he, cancelSeq, markSeq, withoutSeq, apply_ite (succeed n 0 [])]

theorem srvCloseStart_eq :
    srvCloseStart n s = succeed n 0 [] { s with endpoints := Tbl.erase l.c.offset.toNat s.endpoints } := by
  simp only [srvCloseStart, hl]

end Commands

/-! ## Steps of an endpoint (R182, R183) -/

/-- The endpoint after a step: its remaining sequences, advanced where the step ended with ST_OK. -/
def afterStep (st : Half) (items : List BatchItem) (out : List (SrvSeq × Option (Half × Nat))) (e : Endpoint) : Endpoint :=
  { e with seqs := (out.filter fun x => x.2.isNone).map fun x => if st = 0 then advanceSeq items x.1 else x.1
           step := e.step + 1, running := none, finished := none }

/-- The sequences that end with a step. -/
def endStepSeq (x : SrvSeq × Option (Half × Nat)) (s : State) : State :=
  match x.2 with
  | some v => endSeqs [x.1] v.1 v.2 s
  | none => s

section Steps

variable (he : Tbl.get? s.endpoints k = some e)
include he

theorem batchAssemble_idle (hidle : e.running = none) (hwork : batchOf e ≠ []) :
    batchAssemble k s =
      let bs := batchBytes e.step (batchOf e)
      let a := writeRange e.part.val e.batchAddr bs e.ctx (pagesOf e.batchAddr bs.length) 0 s
      batchWritten k e (batchOf e) a.2.2 a.1 := by
  simp [batchAssemble, he, hidle, hwork]

theorem servingStepComplete_ended {items : List BatchItem} {cmd : Nat} {st : Half} (hrun : e.running = some (items, cmd))
    (hend : e.finished = some st) :
    servingStepComplete k s =
      let bs := storeRead s e.part.val e.batchAddr (32 + 20 * items.length)
      let out := e.seqs.map fun q => (q, seqOutcome e st bs items q)
      foldOver out endStepSeq { s with endpoints := Tbl.set k (afterStep st items out e) s.endpoints } := by
  simp only [servingStepComplete, he, hrun, hend]
  rfl

end Steps

/-! ## Energy (R186) -/

theorem execEnergyChargeTick_due {t : Nat} (units : List (Nat × Nat))
    (hdue : s.power.chargedAt + 1000000 ≤ (s.tick t).sys.time) :
    execEnergyChargeTick units t s = .next (energyTick units (s.tick t)) := by
  simp only [execEnergyChargeTick, if_pos hdue]

end Sys2Proof.Machine

namespace Sys2Proof

open Sys2Proof.Machine

/-- Settles O12: each command is taken up at once and acts on the state that holds its entry; a step by its batch and by how its
command ended. That an endpoint stands in the offset and its chunk, budget and limit in p1 to p3 is the model's choice (log
row 11). -/
theorem serving : Obligations.Serving := by
  refine ⟨fun s c => ⟨fun hacc => ?_, fun hacc => ?_, fun e hacc he => ?_, fun hacc => ?_⟩,
    fun s k => ⟨fun e he hidle hwork => next_settle_congr (batchAssemble_idle he hidle hwork),
      fun e items cmd st he hrun hend => ?_, fun units t hdue => execEnergyChargeTick_due units hdue⟩⟩
  · have hstart := srvOpenStart_eq (entered_live 0x0510 c s)
    exact settle_deliver_accepted hacc hstart
  · have hstart := srvSubmitStart_eq (entered_live 0x0511 c s)
    exact settle_deliver_accepted hacc hstart
  · have hendpoint : Tbl.get? (s.entered 0x0512 c).endpoints c.offset.toNat = some e := by rw [entered_endpoints, he]
    have hstart := srvCancelStart_eq (entered_live 0x0512 c s) hendpoint
    exact settle_deliver_accepted hacc hstart
  · have hstart := srvCloseStart_eq (entered_live 0x0513 c s)
    exact settle_deliver_accepted hacc hstart
  · exact next_settle_congr (congrArg feedScans (servingStepComplete_ended he hrun hend))

end Sys2Proof
end

section
/-! The obligation on placement and pre-emption (chapter 7): how the placement engine fills engines, what makes a request for
pre-emption, and how a stream is saved at a marker and resumed. -/

namespace Sys2Proof.Machine

variable {s : State} {d p : Nat} {k : Task} {r : List Task} {x : Stream}

/-! ## Placement (R172) -/

/-- The state without a waiting task. -/
def dropTask (id : Nat) (s : State) : State := { s with tasks := s.tasks.filter fun u => decide (u.id ≠ id) }

/-- What a context's counters gain by the wait of a task (R185). -/
def countWait (wait : Nat) (q : Counters) : Counters := { q with queueWait := q.queueWait + wait }

theorem placeStreamTask_awake {ds : List Nat} (hchoose : choosePlace s (orderedTasks s .stream p) [] = some (k, ds))
    (hawake : ∀ d ∈ ds, (s.die d).pstate = .run) :
    placeStreamTask p s =
      foldOver ds (placeStream k.cmd) ((dropTask k.id s).count k.ctx.toNat (countWait (s.sys.time - k.admitted))) := by
  have hnone : ds.filter (fun d => decide ((s.die d).pstate ≠ .run)) = [] := by simpa using hawake
  simp only [placeStreamTask, hchoose, hnone, List.isEmpty_nil, Bool.not_true, Bool.false_eq_true, if_false]
  rfl

/-- The first vector engine of a die that is in service and has no chunk in flight. -/
def idleEngine (s : State) (d : Nat) : Option Nat :=
  (List.range 4).find? fun j => s.inService (.vector (dieIx d) (engIx j)) && ((s.die d).engine j).chunk.isNone

theorem placeUpdateTask_first {j : Nat} (hfirst : orderedTasks s .update p = k :: r)
    (hidle : idleEngine s (k.dies.headD 0) = some j) :
    placeUpdateTask p s =
      dropTask k.id (s.modDie (k.dies.headD 0) fun x =>
        x.modEngine j fun e => { e with chunk := some (BitVec.ofNat 32 k.cmd, k.item) }) := by
  rw [idleEngine] at hidle
  simp only [placeUpdateTask, hfirst, hidle]
  rfl

/-- The first scan task of a partition that a scan engine takes, with that engine. -/
def chooseScan (s : State) (p : Nat) : Option (Task × Nat) :=
  (orderedTasks s .scan p).findSome? fun t =>
    ((List.range 16).find? fun e => engineTakes s p e t).map fun e => (t, e)

theorem placeScanTask_chosen {e : Nat} (hchoose : chooseScan s p = some (k, e)) :
    placeScanTask p s =
      let wait := if firstPlacement s k.cmd then s.sys.time - k.admitted else 0
      { dropTask k.id (s.count k.ctx.toNat (countWait wait)) with
        scanHeld := s.scanHeld ++ [(e, { k with admitted := s.sys.time })]
        scans := Tbl.modify k.cmd (fun q =>
          { q with spans := Tbl.modify k.item (fun z => { z with placed := true }) q.spans }) s.scans } := by
  rw [chooseScan] at hchoose
  simp only [placeScanTask, hchoose]
  rfl

/-! ## Requests for pre-emption (R176, R177) -/

theorem preemptRequest_running (hrun : (s.die d).replaying = false) :
    preemptRequest d s = s.modDie d (Die.modStream fun x => { x with preempt := true }) := by
  simp [preemptRequest, hrun]

theorem timeSlice_expired (hx : (s.die d).stream = some x)
    (hpast : x.placedAt + 1000 * (s.part (streamPart s x)).sliceUs ≤ s.sys.time)
    (hwaits : waitsFor s d (((s.ctx? x.ctx.toNat).map fun c => c.prio.toNat).getD 3) = true) :
    timeSlice d s = preemptRequest d s := by
  simp only [timeSlice, hx, if_pos (And.intro hpast hwaits)]

theorem starvation_reached {id e : Nat} (hk : s.tasks.find? (fun k => decide (k.id = id)) = some k) (hkind : k.kind = .stream)
    (hdie : (taskDies s k).find? (fun d => k.resumed || hostable s d (cmdProg s k.cmd)) = some e)
    (hpast : k.admitted + 1000 * (s.part k.part.val).starveUs ≤ s.sys.time) :
    starvation id s =
      preemptRequest e { s with tasks := s.tasks.map fun q => if q.id = id then { q with starved := true } else q } := by
  simp only [starvation, hk, if_pos (And.intro hkind hpast), hdie]

/-! ## Saving at a marker and resuming (R59, R179) -/

/-- The cycles that a marker's save takes, at 2,000 bytes in three cycles. -/
def saveCycles (s : State) (x : Stream) (list : Nat) : Nat := (saveBytes s x list * 3 + 1999) / 2000

/-- The stream after its save at a marker: it stalls no more, and holds the new image and the one before. -/
def savedStream (s : State) (d : Nat) (x : Stream) (list row : Nat) (plan : Word) : Stream :=
  { x with stall := none, since := 0, passes := [], image := some (takeImage s d x list row plan), older := x.image,
           cycle := x.cycle + saveCycles s x list }

/-- The state with a stream on its die, its marker's cycles counted. -/
def goOnAfterSave (d : Nat) (y : Stream) (cycles : Nat) (s : State) : State :=
  (s.modDie d fun z => { z with stream := some y }).count y.ctx.toNat fun q => { q with marker := q.marker + cycles }

theorem markerSaved_drained {list row : Nat} {plan : Word} (hx : (s.die d).stream = some x)
    (hstall : x.stall = some (.marker list row plan)) (hdrained : (s.die d).drained = true) :
    markerSaved d s =
      let y := savedStream s d x list row plan
      let u := goOnAfterSave d y (saveCycles s x list) s
      if x.preempt then leaveDie d y u else u := by
  simp only [markerSaved, hx, hstall, if_pos hdrained]
  rfl

/-- No cluster that a parked stream had mapped is retired, and no vector engine of its die. -/
def UnitsStand (s : State) (d : Nat) (x : Stream) : Prop :=
  (∀ c ∈ x.map, HwUnit.cluster (dieIx d) (clusterIx c) ∉ s.errs.retired) ∧
    ∀ j : EngIx, HwUnit.vector (dieIx d) j ∉ s.errs.retired

/-- The state in which a parked stream and its task wait no more. -/
def unpark (d : Nat) (k : Task) (s : State) : State :=
  dropTask k.id (s.modDie d fun z => { z with parked := z.parked.filter fun q => decide (q.cmd ≠ k.cmd) })

/-- The tasks of the pre-empted streams that wait for a die, in their order (R173). -/
def resumable (s : State) (d : Nat) : List Task :=
  (orderedTasks s .stream ((ownerOf s d).getD 4)).filter fun t => t.resumed && decide (t.dies = [d])

section Resume

variable (hmine : resumable s d = k :: r) (hparked : (s.die d).parked.find? (fun z => decide (z.cmd = k.cmd)) = some x)
  (hfree : (s.die d).stream = none) (hreplay : (s.die d).replaying = false) (hmovers : moverBusy s d = false)
  (hawake : (s.die d).pstate = .run) (hunits : UnitsStand s d x)
include hmine hparked hfree hreplay hmovers hawake hunits

theorem resumeStream_restores {g : Image} {y : Die} (himage : x.image = some g)
    (hrows : makeResident ((unpark d k s).die d) x.prog (rowSegments (progImage (unpark d k s) x.prog)) s.sys.time = some y) :
    resumeStream d .clean s =
      (restoreOn d { x with placedAt := s.sys.time } ((unpark d k s).setDie d y)).modDie d fun z =>
        { z with idleAt := none } := by
  obtain ⟨hclusters, hvectors⟩ := hunits
  rw [resumable] at hmine
  simp only [unpark, dropTask, modDie_sys, modDie_tasks] at hrows ⊢
  simp only [resumeStream, hmine, hparked]
  refine (if_neg ?_).trans ((if_neg (not_not_intro hawake)).trans ((if_neg ?_).trans ?_))
  · simp [hfree, hreplay, hmovers]
  · simpa [hvectors] using hclusters
  · simp only [readEcc, modDie_sys, himage, hrows]

end Resume

end Sys2Proof.Machine

namespace Sys2Proof

open Sys2Proof.Machine

/-- Settles O23: each kind of task by the engine that it is given, a request for pre-emption by what makes it, and a stream by
how it leaves its die and returns. -/
theorem placementAndPreemption : Obligations.PlacementAndPreemption := by
  refine ⟨fun s p => ⟨fun k ds hchoose hawake => next_settle_congr (placeStreamTask_awake hchoose hawake),
      fun k r j hfirst hidle => next_settle_congr (placeUpdateTask_first hfirst hidle),
      fun k e hchoose => next_settle_congr (placeScanTask_chosen hchoose)⟩,
    fun s d => ⟨fun hrun => next_congr (preemptRequest_running hrun), fun x t hx hrun => ?_, fun id k t e => ?_,
      fun x list row plan hx hstall hdrained => next_congr (markerSaved_drained hx hstall hdrained),
      fun k r x g y hmine hparked hfree hreplay hmovers hawake hclusters hvectors himage => ?_⟩⟩
  · intro u hpast hwaits
    have hxu : (u.die d.val).stream = some x := by rw [die_tick, hx]
    have hrunu : (u.die d.val).replaying = false := by rw [die_tick, hrun]
    exact next_congr ((timeSlice_expired hxu hpast hwaits).trans (preemptRequest_running hrunu))
  · intro u hk hkind hdie hpast
    exact next_congr (starvation_reached hk hkind hdie hpast)
  · intro u hrows
    have hd : dieIx d.val = d := Fin.ext (Nat.mod_eq_of_lt d.isLt)
    have hunits : UnitsStand s d.val x := by rw [UnitsStand, hd]; exact ⟨hclusters, hvectors⟩
    exact next_settle_congr (resumeStream_restores hmine hparked hfree hreplay hmovers hawake hunits himage hrows)

end Sys2Proof
end

section
/-! The obligations on what follows a row and on exact vector search (chapter 8): the commands on a collection as they start, what
their data does once it has landed, the timers of a collection, and the parcels and survivors of a query. -/

namespace Sys2Proof.Machine

variable {s : State} {n : Nat} {l : Live} {k : Col}

/-! ## What follows a row (R217, R325, R425) -/

@[simp] theorem foldOver_nil {α : Type} (f : α → State → State) (s : State) : foldOver [] f s = s := rfl

theorem publishReady_of_none_closing (h : ∀ e ∈ s.cols, e.2.closing.isEmpty = true) : publishReady s = s := by
  have hnone : (s.cols.filter fun e => !e.2.closing.isEmpty) = [] := by simpa using h
  simp only [publishReady, hnone, List.flatMap_nil, foldOver_nil]

theorem shutdownGoesOn_of_not_asked (h : s.sys.offAsked = false) : shutdownGoesOn s = s := by
  simp [shutdownGoesOn, h]

/-- Where no command waits, a row is followed by the closed epochs and the shutdown alone. -/
theorem settle_of_none_waits (h : ∀ e ∈ s.cmds, e.2.waits = false) : settle s = shutdownGoesOn (publishReady s) := by
  have hnone : (s.cmds.filter fun e => e.2.waits) = [] := by simpa using h
  simp only [settle, hnone, List.map_nil, foldOver_nil]

theorem quiet_iff (s : State) :
    s.quiet = true ↔
      (∀ e ∈ s.cmds, e.2.waits = false) ∧ (∀ e ∈ s.cols, e.2.closing.isEmpty = true) ∧ s.sys.offAsked = false := by
  simp only [State.quiet, Bool.and_eq_true, List.all_eq_true, Bool.not_eq_true', and_assoc]

/-! ## Commands on a collection as they start (R188 to R191, R217, R221) -/

/-- A command's entry in the table changes no collection. -/
@[simp] theorem entered_cols (op : Nat) (c : Capsule) (s : State) : (s.entered op c).cols = s.cols := by
  obtain ⟨cmds, host, h⟩ := entered_eq_with op c s
  rw [h]

theorem entered_col? (op : Nat) (c : Capsule) (s : State) (o : Nat) : (s.entered op c).col? o = s.col? o := by
  simp only [State.col?, entered_cols]

theorem entered_statusBit (op : Nat) (c : Capsule) (s : State) (b : Nat) :
    (s.entered op c).statusBit b = s.statusBit b := by
  simp only [State.statusBit, entered_sys]

/-- The state with a collection under object id `o`, its frames pinned on die `d` of partition `p` and its flash space reserved;
its first publish interval begins at `t`. -/
def placeCol (o p d t : Nat) (k : Col) (f : State) : State :=
  let u := (f.modDie d fun x => { x with otherFrames := x.otherFrames + k.frames }).modPart p fun x =>
    { x with pinned := x.pinned + k.frames }
  { u with
    cols := Tbl.set o { k with publishAt := t } u.cols
    media := { u.media with colReserved := u.media.colReserved + k.reserved } }

/-- The state without a collection, its frames and its flash space returned. -/
def removeCol (o : Nat) (k : Col) (s : State) : State :=
  let u := (s.modDie (lowestDie s k.part.val) fun x => { x with otherFrames := x.otherFrames - k.frames }).modPart k.part.val
    fun x => { x with pinned := x.pinned - k.frames }
  { u with
    cols := Tbl.erase o u.cols
    media := { u.media with colReserved := u.media.colReserved - k.reserved } }

/-- The search service of a partition ends where no collection is left to it (R208). -/
def endSearch (p : Nat) (s : State) : State :=
  if s.cols.any fun e => decide (e.2.part.val = p) then s
  else { s with ctxs := Tbl.keep (fun _ x => !(x.search && decide (x.part.val = p))) s.ctxs }

/-- The collection with its pending epoch closed, for a command that waits for its publication or for none, and the next one
pending (R217). -/
def closeEpoch (cmd : Option Nat) (k : Col) : Col :=
  { k with closing := k.closing ++ [(k.pending, cmd)], pending := k.pending + 1, mutated := false }

/-- Open commands on a collection with one of some opcodes. -/
def openOn (s : State) (o : Word) (ops : List Half) : Nat :=
  (s.cmds.filter fun e => decide (e.2.op ∈ ops ∧ e.2.c.object = o) && e.2.open).length

/-- What COL_STATUS answers of a collection. -/
def colStatusBytes (s : State) (o : Word) (k : Col) : List Byte :=
  let dead := (k.items.filter fun e => decide (e.2.del ≤ k.epoch)).length
  leBytes 8 k.items.length ++ leBytes 8 (k.items.length - dead) ++ leBytes 4 k.epoch ++ leBytes 4 k.pending ++
    leBytes 4 k.floor ++ leBytes 4 (if k.items.isEmpty then 0 else 100 * dead / k.items.length) ++
    leBytes 8 k.unlinked.length ++ leBytes 4 k.entries.length ++ leBytes 4 (openOn s o [0x0320, 0x0321]) ++
    leBytes 4 (openOn s o [0x0310, 0x0311]) ++ leBytes 4 0

theorem compact_of_writable {o : Word} (h : s.statusBit Sb.readOnly = false) :
    compact o s = s.modCol o.toNat fun k => compactTo (compactFloor s o k) k := by
  simp [compact, h]

section Commands

variable (hl : s.live? n = some l)
include hl

theorem colCreateStart_pinned {f : State}
    (hpin : pinFrames (lowestDie s l.c.partition.toNat) (newCol l.c).frames l.c.partition.toNat s = (f, some true)) :
    colCreateStart n s =
      succeed n 0 [] (chargeWait n (openSearch (newCol l.c).part
        (placeCol l.c.object.toNat l.c.partition.toNat (lowestDie s l.c.partition.toNat) s.sys.time (newCol l.c) f))) := by
  simp only [colCreateStart, hl, makeCol, hpin, withFrames_at_hand, placeCol]

theorem colDeleteStart_eq (hk : s.col? l.c.object.toNat = some k) :
    colDeleteStart n s = succeed n 0 [] (endSearch k.part.val (removeCol l.c.object.toNat k s)) := by
  simp only [colDeleteStart, hl, hk]
  rfl

theorem colPublishStart_eq :
    colPublishStart n s =
      publishReady ((s.modCol l.c.object.toNat (closeEpoch (some n))).modLive n fun x => { x with phase := .running }) := by
  simp only [colPublishStart, hl]
  rfl

theorem colCompactStart_of_writable (hwrite : s.statusBit Sb.readOnly = false) :
    colCompactStart n s =
      succeed n 0 [] (s.modCol l.c.object.toNat fun k => compactTo (compactFloor s l.c.object k) k) := by
  simp only [colCompactStart, hl, compact_of_writable hwrite]

theorem colStatusStart_eq (hk : s.col? l.c.object.toNat = some k) :
    colStatusStart n s = succeed n 0 [(0, colStatusBytes s l.c.object k)] s := by
  simp only [colStatusStart, hl, hk, colStatusBytes, openOn]

end Commands

/-! ## The data of a collection command (R194, R198, R215, R218) -/

/-- The FP32 words that a codebook or the centroids land as. -/
def landedWords (l : Live) : List Word := bytesWords l.data (l.c.dataLen.toNat / 4)

/-- The ids that a COL_REMOVE or a COL_FETCH names. -/
def landedIds (l : Live) : List Nat := (List.range (l.c.dataLen.toNat / 8)).map fun i => fieldAt l.data (8 * i) 8

/-- The collection with its codebook or its centroids set. -/
def setTable (parcels : Bool) (ws : List Word) (k : Col) : Col :=
  if parcels then { k with centroids := some ws } else { k with codebook := some ws }

/-- The item entries that a COL_INSERT carries. -/
def entryCount (k : Col) (l : Live) : Nat := l.c.dataLen.toNat / k.entryBytes

theorem div_max_entryBytes (l : Live) (hsize : 0 < k.entryBytes) :
    l.c.dataLen.toNat / max 1 k.entryBytes = entryCount k l := by
  rw [entryCount, Nat.max_eq_right hsize]

/-- A collection and a count of ids that were not live, after the removal of one more id at an epoch. -/
def removeId (epoch : Nat) (a : Col × Nat) (id : Nat) : Col × Nat :=
  if a.1.items.any fun e => decide (e.2.id = id) && e.2.live then
    ({ a.1 with items :=
        Tbl.mapVals (fun _ y => if y.id = id ∧ y.live = true then { y with del := epoch } else y) a.1.items }, a.2)
  else (a.1, a.2 + 1)

/-- The epoch that a COL_FETCH reads at: the one it names, or the one it was pinned to. -/
def fetchEpoch (l : Live) : Nat := if l.c.p0 = 0xFFFFFFFF then l.epoch.toNat else l.c.p0.toNat

/-- What COL_FETCH answers for one id. -/
def fetchOne (k : Col) (epoch id : Nat) : List Byte :=
  match List.find? (fun x : Nat × Item => decide (x.2.id = id) && x.2.visible epoch) k.items with
  | some x => fullRecord k x.2
  | none => leBytes 8 id ++ List.replicate 56 0xFF

/-- The ids with a record that is visible at an epoch. -/
def fetched (k : Col) (epoch : Nat) (ids : List Nat) : List Nat :=
  ids.filter fun id => k.items.any fun y => decide (y.2.id = id) && y.2.visible epoch

section Landed

variable (hl : s.live? n = some l)
include hl

theorem colSetLanded_of_nonfinite (parcels : Bool) (hbad : anyNonfinite (landedWords l) = true) :
    colSetLanded parcels n s = fail n St.badParam 0 s := by
  rw [landedWords] at hbad
  simp only [colSetLanded, hl, if_pos hbad]

variable (hk : s.col? l.c.object.toNat = some k)
include hk

theorem colSetLanded_of_finite (parcels : Bool) (hfinite : anyNonfinite (landedWords l) = false) (hempty : k.items = []) :
    colSetLanded parcels n s = succeed n 0 [] (s.modCol l.c.object.toNat (setTable parcels (landedWords l))) := by
  rw [landedWords] at hfinite ⊢
  simp only [colSetLanded, hl]
  exact (if_neg (by simp [hfinite])).trans (if_neg (by simp [hk, hempty]))

section Insert

variable (hsize : 0 < k.entryBytes)
include hsize

theorem colInsertLanded_of_bad_entry {i : Nat} (hread : readEntries k (entryCount k l) 0 l.data = .error i) :
    colInsertLanded n s = fail n St.badParam (min i (k.limit - k.items.length)) s := by
  simp only [colInsertLanded, hl, hk, div_max_entryBytes l hsize, hread]

variable {es : List NewItem} (hread : readEntries k (entryCount k l) 0 l.data = .ok es)
include hread

theorem colInsertLanded_of_room (hroom : entryCount k l ≤ k.limit - k.items.length) :
    colInsertLanded n s =
      succeed n 0 [] ((s.modCol l.c.object.toNat fun x => { insertItems l.epoch.toNat es x with mutated := true }).count
        l.c.context.toNat fun x => { x with flashWrite := x.flashWrite + entryCount k l * (k.fullBytes + k.codeBytes) }) := by
  simp only [colInsertLanded, hl, hk, div_max_entryBytes l hsize, hread, if_neg (Nat.not_lt.2 hroom)]

theorem colInsertLanded_of_full (hfull : k.limit - k.items.length < entryCount k l) :
    colInsertLanded n s = fail n St.badParam (k.limit - k.items.length) s := by
  simp only [colInsertLanded, hl, hk, div_max_entryBytes l hsize, hread, if_pos hfull]

end Insert

theorem colRemoveLanded_eq :
    colRemoveLanded n s =
      let r := (landedIds l).foldl (removeId l.epoch.toNat) (k, 0)
      succeed n r.2 [] (s.modCol l.c.object.toNat fun _ => { r.1 with mutated := true }) := by
  simp only [colRemoveLanded, hl, hk]
  rfl

theorem colFetchLanded_eq :
    colFetchLanded n s =
      succeed n 0 [(0, (landedIds l).flatMap (fetchOne k (fetchEpoch l)))] (s.count l.c.context.toNat fun x =>
        { x with flashRead := x.flashRead + (fetched k (fetchEpoch l) (landedIds l)).length * k.recordRead }) := by
  simp only [colFetchLanded, hl, hk]
  rfl

end Landed

/-! ## Publish intervals and links of the graph (R211, R217) -/

theorem col?_tick (s : State) (t o : Nat) : (s.tick t).col? o = s.col? o := by simp only [State.col?, tick_cols]

/-- The nearest items that a traverse finds for an item, itself left out. -/
def nearItems (k : Col) (item : Nat) (it : Item) : List Nat :=
  (((walk k (k.words it.vec) 256).filter fun e => decide (e.2 ≠ item)).take k.degree).map Prod.snd

/-- The graph with an item among the edges of node `m`, which drops its farthest edge when it has no room. -/
def linkBack (k : Col) (item : Nat) (es : Tbl (List Nat)) (m : Nat) : Tbl (List Nat) :=
  let old := Tbl.getD es m []
  match Tbl.get? k.items m with
  | none => es
  | some b =>
    let ordered := (evaluateNodes k (k.words b.vec) (old.length + 1) old []).map Prod.snd
    if item ∈ old then es else Tbl.set m ((if k.degree ≤ old.length then ordered.take (k.degree - 1) else old) ++ [item]) es

section Timers

variable {o : Nat} (hk : s.col? o = some k)
include hk

section Interval

variable (hon : k.publishMs ≠ 0) (hpast : k.publishAt + k.publishMs * 1000000 ≤ s.sys.time)
include hon hpast

/-- At a publish interval the pending epoch is closed if it holds a mutation and is not the last. -/
theorem autoPublish_of_due :
    autoPublish o s =
      let u := s.modCol o fun x => { x with publishAt := s.sys.time }
      if ((k.mutated || epochBusy s o k.pending) && decide (k.pending < 0xFFFFFFFF)) = true then
        publishReady (u.modCol o (closeEpoch none))
      else u := by
  have hdue : ¬ (k.publishMs = 0 ∨ s.sys.time < k.publishAt + k.publishMs * 1000000) :=
    not_or.2 ⟨hon, Nat.not_lt.2 hpast⟩
  simp only [autoPublish, hk, if_neg hdue]
  rfl

theorem autoPublish_of_mutated (hmutated : (k.mutated || epochBusy s o k.pending) = true) (hroom : k.pending < 0xFFFFFFFF) :
    autoPublish o s =
      publishReady ((s.modCol o fun x => { x with publishAt := s.sys.time }).modCol o (closeEpoch none)) :=
  (autoPublish_of_due hk hon hpast).trans (if_pos (by rw [hmutated, decide_eq_true hroom, Bool.and_self]))

theorem autoPublish_of_unmutated (hunmutated : (k.mutated || epochBusy s o k.pending) = false) :
    autoPublish o s = s.modCol o fun x => { x with publishAt := s.sys.time } :=
  (autoPublish_of_due hk hon hpast).trans (if_neg (by rw [hunmutated, Bool.false_and]; exact Bool.false_ne_true))

end Interval

theorem graphLink_of_unlinked {item : Nat} {it : Item} (hit : Tbl.get? k.items item = some it) (hnew : item ∈ k.unlinked) :
    graphLink o item s = s.modCol o fun x =>
      { x with
        unlinked := x.unlinked.filter fun m => decide (m ≠ item)
        edges := (nearItems k item it).foldl (linkBack k item) (Tbl.set item (nearItems k item it) x.edges) } := by
  simp only [graphLink, hk, hit, if_pos hnew]
  rfl

end Timers

/-! ## A query's payload (R205, R209, R212, R213) -/

/-- The epoch that a query's payload asks for: the one it names, or the one the query was pinned to. -/
def queryEpoch (l : Live) : Nat := if fieldAt l.data 4 4 = 0xFFFFFFFF then l.epoch.toNat else fieldAt l.data 4 4

/-- The query vector of a payload, divided by its norm where the collection asks for it. -/
def queryVector (k : Col) (l : Live) : List Word :=
  let fmt := fieldAt l.data 10 1
  let raw := (List.range k.dim).map fun i =>
    (readElem fmt (elemCode fmt (l.data.drop (queryVecAt (fieldAt l.data 11 1))) i)).1
  if k.dist = 1 then normalised raw else raw

/-- The traverse of a query: none without a graph or without a budget. -/
def queryWalk (k : Col) (l : Live) : List (Word × Nat) × Nat :=
  let bud := orDefault (fieldAt l.data 12 2) 0xFFFF k.budget
  if k.degree = 0 ∨ bud = 0 then ([], 0) else walkAll k (queryVector k l) bud

/-- A query as its payload gives it, its heap empty. -/
def newQuery (n : Nat) (k : Col) (l : Live) : Query :=
  let nodes := (queryWalk k l).1
  { cmd := n, col := l.c.object, k := fieldAt l.data 0 4, epoch := queryEpoch l,
    terms := (List.range (fieldAt l.data 11 1)).map fun i => (readTerm (l.data.drop (64 + 24 * i))).1, q := queryVector k l,
    flags := fieldAt l.data 14 2, heap := [], order := parcelOrder k (queryVector k l), started := [], survivors := [],
    scanned := 0, nodes := nodes.length, bounded := 0, evaluated := nodes.length }

/-- A node that a traverse evaluated is offered to the heap, if it is visible and passes the filter. -/
def offerNode (k : Col) (epoch : Nat) (terms : List Term) (q : Query) (x : Word × Nat) : Query :=
  match Tbl.get? k.items x.2 with
  | some it => if it.visible epoch && it.passes terms then q.offer x.1 it.id x.2 else q
  | none => q

/-- A new query with its traverse's items in its heap. -/
def seededQuery (n : Nat) (k : Col) (l : Live) : Query :=
  (queryWalk k l).1.foldl (fun q x => offerNode k (queryEpoch l) q.terms q x) (newQuery n k l)

/-- The state with a query running at its epoch. -/
def runQuery (n : Nat) (q : Query) (epoch : Nat) (s : State) : State :=
  { s with queries := Tbl.set n q s.queries }.modLive n fun x =>
    { x with phase := .running, epoch := BitVec.ofNat 32 epoch, segs := [] }

/-- The state with bytes read from flash counted to the search service of a collection's partition. -/
def countSearch (k : Col) (bytes : Nat) (s : State) : State :=
  s.count ((searchOf s k.part.val).getD 256) fun x => { x with flashRead := x.flashRead + bytes }

section Payload

variable (hl : s.live? n = some l) (hk : s.col? l.c.object.toNat = some k)
include hl hk

theorem colQueryLanded_of_future (hfuture : k.epoch < queryEpoch l) : colQueryLanded n s = fail n St.badParam 0 s := by
  rw [queryEpoch] at hfuture
  simp [colQueryLanded, hl, hk, hfuture]

variable (hlegal : queryLegal k l.c.origin l.data l.c.dataLen.toNat = true) (hcurrent : queryEpoch l ≤ k.epoch)
include hlegal hcurrent

theorem colQueryLanded_of_retired (hretired : queryEpoch l < k.floor) : colQueryLanded n s = fail n St.epochRetired 0 s := by
  rw [queryEpoch] at hcurrent hretired
  simp only [colQueryLanded, hl, hk]
  exact (if_neg (by simp [hlegal, hcurrent])).trans (if_pos hretired)

theorem colQueryLanded_starts (hkept : k.floor ≤ queryEpoch l) :
    colQueryLanded n s =
      queryGo n (runQuery n (seededQuery n k l) (queryEpoch l) (countSearch k (k.walkRead (queryWalk k l)) s)) := by
  rw [queryEpoch] at hcurrent hkept
  simp only [colQueryLanded, hl, hk]
  exact (if_neg (by simp [hlegal, hcurrent])).trans (if_neg (Nat.not_lt.2 hkept))

end Payload

/-! ## Parcels and survivors of a query (R205, R207, R223) -/

/-- The records of a parcel. -/
def parcelItems (k : Col) (p : Nat) : Tbl Item := k.items.filter fun e => decide (e.2.parcel = p)

/-- The records of a parcel that a query sees: visible at its epoch, and passing its filter. -/
def seenItems (k : Col) (q : Query) (p : Nat) : Tbl Item :=
  (parcelItems k p).filter fun e => e.2.visible q.epoch && e.2.passes q.terms

/-- The query after one of its parcels was read: what it saw with no bound above the k-th distance waits to be evaluated. -/
def scanParcel (k : Col) (p : Nat) (q : Query) : Query :=
  let keep := (seenItems k q p).filter fun e => !Num.lt (f32 q.tau) (f32 (itemBound k q.q e.2))
  { q with started := q.started.filter fun x => decide (x ≠ p), survivors := q.survivors ++ keep.map Prod.fst,
           scanned := q.scanned + 1, bounded := q.bounded + (seenItems k q p).length }

/-- The query after its oldest survivor was evaluated and offered to its heap. -/
def evaluateSurvivor (k : Col) (i : Nat) (r : List Nat) (it : Item) (q : Query) : Query :=
  { q with survivors := r, evaluated := q.evaluated + 1 }.offer (evaluate k.dist q.q (k.words it.vec)) it.id i

section Running

variable {q : Query} {p : Nat} (hq : Tbl.get? s.queries n = some q) (hk : s.col? q.col.toNat = some k)
include hq hk

section Parcel

variable (hl : s.live? n = some l) (hheld : s.scanHeld.any (fun h => decide (h.2.cmd = n ∧ h.2.item = p)) = true)
include hl hheld

theorem parcelScanned_unreadable : parcelScanned n p false s = queryUnreadable n p (releaseScan n p s) := by
  simp only [parcelScanned, hq, hl, hk, if_pos hheld, Bool.not_false, if_true]

theorem parcelScanned_read :
    parcelScanned n p true s =
      let u := (releaseScan n p s).count l.c.context.toNat fun x =>
        { x with flashRead := x.flashRead + (parcelItems k p).length * k.codeBytes }
      queryGo n { u with queries := Tbl.set n (scanParcel k p q) u.queries } := by
  simp only [parcelScanned, hq, hl, hk, if_pos hheld, Bool.not_true, Bool.false_eq_true, if_false, scanParcel, seenItems,
    parcelItems]

end Parcel

section Survivor

variable {i : Nat} {r : List Nat} {it : Item} (hnext : q.survivors = i :: r) (hit : Tbl.get? k.items i = some it)
include hnext hit

theorem survivorEvaluated_unreadable :
    survivorEvaluated n false s = fail n St.mediaUncorrectable it.parcel (stopWork n s) := by
  simp only [survivorEvaluated, hq, hk, hnext, hit, Bool.not_false, if_true]

theorem survivorEvaluated_read :
    survivorEvaluated n true s =
      let u := countSearch k k.recordRead s
      queryGo n { u with queries := Tbl.set n (evaluateSurvivor k i r it q) u.queries } := by
  simp only [survivorEvaluated, hq, hk, hnext, hit, Bool.not_true, Bool.false_eq_true, if_false, countSearch,
    evaluateSurvivor]

end Survivor

end Running

/-- A row for a parcel acts where its engine is not paused. -/
theorem exec_parcelScanComplete_of_running {p : Nat} {readable : Bool} {u : State} (hrun : enginePaused n p s = false)
    (h : parcelScanned n p readable s = u) :
    exec (.parcelScanComplete n p readable) s = .next (settle u) := by
  subst h
  exact next_congr (if_neg (by rw [hrun]; exact Bool.false_ne_true))

end Sys2Proof.Machine

namespace Sys2Proof

open Sys2Proof.Machine

/-- Settles O8: each of the three parts of `settle` finds nothing to do. That what follows a row is one pass over the commands
that wait, then the closed epochs, then the shutdown, is the model's choice (log row 18). -/
theorem quietStateSettlesToItself : Obligations.QuietStateSettlesToItself := by
  intro s hquiet
  obtain ⟨hwaits, hclosing, hoff⟩ := (quiet_iff s).1 hquiet
  calc settle s = shutdownGoesOn (publishReady s) := settle_of_none_waits hwaits
    _ = shutdownGoesOn s := by rw [publishReady_of_none_closing hclosing]
    _ = s := shutdownGoesOn_of_not_asked hoff

/-- Settles O30: each command is taken up at once and acts on the state that holds its entry. The places of COL_CREATE's
parameters are the model's choice (log row 11), and so is the byte layout of COL_STATUS's answer (as in log row 22). -/
theorem collectionCommands : Obligations.CollectionCommands := by
  refine fun s c => ⟨fun f k hacc hnew => ?_, fun k hacc hk => ?_, fun hacc => ?_, fun hacc hwrite => ?_,
    fun k hacc hk => ?_⟩
  · intro d hpin
    subst hnew
    have hstart := colCreateStart_pinned (entered_live 0x0301 c s) hpin
    rw [entered_sys] at hstart
    exact settle_deliver_accepted hacc hstart
  · have hcol : (s.entered 0x0302 c).col? c.object.toNat = some k := by rw [entered_col?, hk]
    have hstart := colDeleteStart_eq (entered_live 0x0302 c s) hcol
    exact settle_deliver_accepted hacc hstart
  · have hstart := colPublishStart_eq (entered_live 0x0312 c s)
    exact settle_deliver_accepted hacc hstart
  · have hwritable : (s.entered 0x0330 c).statusBit Sb.readOnly = false := by rw [entered_statusBit]; exact hwrite
    have hstart := colCompactStart_of_writable (entered_live 0x0330 c s) hwritable
    exact settle_deliver_accepted hacc hstart
  · have hcol : (s.entered 0x0331 c).col? c.object.toNat = some k := by rw [entered_col?, hk]
    have hstart := colStatusStart_eq (entered_live 0x0331 c s) hcol
    exact settle_deliver_accepted hacc hstart

/-- Settles O31: the landing of each command by what its data holds, and each timer by what it finds. That
COL_FETCH names its epoch in p0 is the model's choice (log row 11). -/
theorem collectionData : Obligations.CollectionData := by
  refine ⟨fun s n l k hl hk => ⟨fun hbad => ?_, fun hfinite hempty => ?_, fun es hsize hread => ?_, fun j hsize hread => ?_,
      colRemoveLanded_eq hl hk, colFetchLanded_eq hl hk⟩,
    fun s o k t hk => ⟨?_, fun item it hit hnew => next_congr (graphLink_of_unlinked hk hit hnew)⟩⟩
  · exact ⟨colSetLanded_of_nonfinite hl false hbad, colSetLanded_of_nonfinite hl true hbad⟩
  · exact ⟨colSetLanded_of_finite hl hk false hfinite hempty, colSetLanded_of_finite hl hk true hfinite hempty⟩
  · exact ⟨fun hroom => colInsertLanded_of_room hl hk hsize hread hroom,
      fun hfull => colInsertLanded_of_full hl hk hsize hread hfull⟩
  · exact colInsertLanded_of_bad_entry hl hk hsize hread
  · intro u hon hpast hroom
    have hcol : u.col? o.toNat = some k := by rw [col?_tick, hk]
    exact ⟨fun hmutated => next_settle_congr (autoPublish_of_mutated hcol hon hpast hmutated hroom),
      fun hunmutated => next_settle_congr (autoPublish_of_unmutated hcol hon hpast hunmutated)⟩

/-- Settles O32: a landed payload by where its epoch stands, a parcel and a survivor by whether they could be read. That
a query's parts run in the order of their rows, one parcel or survivor at a time, is the model's choice (log row 32). -/
theorem queries : Obligations.Queries := by
  refine fun s n l k hl => ⟨fun hk hlegal => ?_, fun q p hq hk hheld hrun => ?_, fun q i r it hq hk hnext hit => ?_⟩
  · exact ⟨fun hfuture => colQueryLanded_of_future hl hk hfuture,
      fun hcurrent hretired => colQueryLanded_of_retired hl hk hlegal hcurrent hretired,
      fun hcurrent hkept => colQueryLanded_starts hl hk hlegal hcurrent hkept⟩
  · exact ⟨exec_parcelScanComplete_of_running hrun (parcelScanned_unreadable hq hk hl hheld),
      exec_parcelScanComplete_of_running hrun (parcelScanned_read hq hk hl hheld)⟩
  · exact ⟨next_settle_congr (survivorEvaluated_unreadable hq hk hnext hit),
      next_settle_congr (survivorEvaluated_read hq hk hnext hit)⟩

end Sys2Proof
end

section
/-! The obligations on near-flash scans (chapter 9): the commands that cancel, watch and credit a scan, the start of a scan whose
data has landed, and the timers of a running scan: its pages, its spans, its sequences and its end. -/

namespace Sys2Proof.Machine

variable {s : State} {n k : Nat} {l : Live} {q : Scan}

/-! ## Cancelling, watching and crediting a scan (R232, R239, R246) -/

/-- The scan with as many of its segments returned as are outstanding (R239). -/
def returnSegments (m : Nat) (q : Scan) : Scan := { q with unreturned := q.unreturned - m }

/-- The state in which scan `k` has had segments returned and sends what it now may, and its credit, command `n`, is answered. -/
def creditScan (n k m : Nat) (s : State) : State :=
  succeed n 0 [] (flushScan k false { s with scans := Tbl.modify k (returnSegments m) s.scans })

section Commands

variable (hl : s.live? n = some l) (hnamed : scanNamed s l.c.origin l.c.p0 = some k)
include hl hnamed

theorem scnCancelStart_named : scnCancelStart n s = succeed n 0 [] (stopScan k St.abortedReset 1 s) := by
  simp only [scnCancelStart, hl, hnamed]

variable (hq : Tbl.get? s.scans k = some q)
include hq

theorem scnStatusStart_named : scnStatusStart n s = succeed n 0 [(0, summaryBytes q)] s := by
  simp only [scnStatusStart, hl, hnamed, Option.bind_some, hq]

theorem scnCreditStart_of_outstanding (hout : l.c.p1.toNat ≤ q.unreturned) :
    scnCreditStart n s = creditScan n k l.c.p1.toNat s := by
  simp only [scnCreditStart, hl, hnamed, hq, Option.map_some, Option.getD_some, if_neg (Nat.not_lt.2 hout)]
  rfl

/-- More segments than are outstanding is a violation of the link that the credit came over (R246). -/
theorem scnCreditStart_of_excess {node : BitVec 20} {link : LinkIx} (hexcess : q.unreturned < l.c.p1.toNat)
    (horigin : l.c.origin = .fabric node link) :
    scnCreditStart n s = violation link.val 246 (creditScan n k l.c.p1.toNat s) := by
  rw [horigin] at hnamed
  simp only [scnCreditStart, hl, horigin, hnamed, hq, Option.map_some, Option.getD_some, if_pos hexcess, fabricOf]
  rfl

end Commands

/-! ## A scan whose data has landed (R233 to R235, R241) -/

/-- The state with `need` staging frames pinned on die `d` for a scan of partition `p`. -/
def pinStaging (d p need : Nat) (s : State) : State :=
  (s.modDie d fun x => { x with otherFrames := x.otherFrames + need }).modPart p fun x => { x with pinned := x.pinned + need }

/-- The state in which a scan's command runs, its staging pinned and a task added for each of its spans. -/
def startScan (n need : Nat) (l : Live) (q : Scan) (s : State) : State :=
  let p := l.c.partition.toNat
  let u := (pinStaging (endpointDie s q.endpoint) p need s).modLive n fun x => { x with phase := .running, segs := [] }
  foldOver (q.spans.map Prod.fst) (fun i acc => addTask (mkTask .scan p l.c.context false n l.admitted [] i) acc)
    { u with scans := Tbl.set n { q with frames := need } u.scans }

section Landed

variable (hl : s.live? n = some l)
include hl

theorem scnRunLanded_of_bad_payload (hread : readScan n l.c l.data = none) : scnRunLanded n s = fail n St.badParam 0 s := by
  simp only [scnRunLanded, hl, hread]

variable (hread : readScan n l.c l.data = some q)
include hread

theorem scnRunLanded_of_bad_target {v : Half × Nat} (hbad : scanTargets s l.c q = some v) :
    scnRunLanded n s = fail n v.1 v.2 s := by
  simp only [scnRunLanded, hl, hread, hbad]

/-- A sink that submits no sequences needs no staging (R241). -/
theorem scnRunLanded_without_staging (hgood : scanTargets s l.c q = none) (hsink : q.sink < 3) :
    scnRunLanded n s = startScan n 0 l q s := by
  simp only [scnRunLanded, hl, hread, hgood, if_neg (Nat.not_le.2 hsink), if_true, withFrames_at_hand]
  rfl

end Landed

/-! ## Pages (R228, R236, R239, R241) -/

/-- The state in which a scan has sent or written its accepted output, and then submitted what its endpoint has room for. -/
def flushAndFeed (n : Nat) (s : State) : State := feedScan n 65536 (flushScan n false s)

/-- The state with a scan whose spans release the output that they may, and which hands it on. -/
def putScan (n : Nat) (q : Scan) (s : State) : State :=
  flushAndFeed n { s with scans := Tbl.set n (releaseSpans q q.spans.length 0) s.scans }

/-- A span of a scan is on a scan engine. -/
def SpanHeld (s : State) (n span : Nat) : Prop := s.scanHeld.any (fun h => decide (h.2.cmd = n ∧ h.2.item = span)) = true

/-- Where a span of a scan ends. -/
def spanEnd (q : Scan) (span : Nat) : Nat := min q.len ((span + 1) * spanBytes)

/-- The engine that holds a span takes the span's next page: nothing stops or pauses the scan, and pages are left. -/
structure TakesPage (s : State) (n span : Nat) (q : Scan) (z : Span) : Prop where
  held : SpanHeld s n span
  notDone : z.done = false
  notStopped : q.stop = none
  notPaused : scanPaused q = false
  pagesLeft : z.pos < spanEnd q span
  writable : q.sink = 3 → s.statusBit Sb.readOnly = false

/-- What a scan stopped at a page carries as its detail: the page's 4 KiB index in the range. -/
def pageDetail (z : Span) : Nat := z.pos / 4096 % 4294967296

/-- The scan after an empty 4 KiB. -/
def countEmptyPage (span : Nat) (z : Span) (q : Scan) : Scan :=
  { q with
    spans := Tbl.set span { z with pos := z.pos + 4096 } q.spans
    sum := { q.sum with empty := q.sum.empty + 1, flash := q.sum.flash + 4096 } }

/-- Bytes of flash that a page of a stored length takes. -/
def pageStep (stored : Nat) : Nat := alignUp (32 + stored) 4096

/-- The scan after a page of records, none of which it has looked at. -/
def countGoodPage (span stored decoded : Nat) (z : Span) (q : Scan) : Scan :=
  { q with
    spans := Tbl.set span { z with pos := z.pos + pageStep stored } q.spans
    sum := { q.sum with
      pages := q.sum.pages + 1, flash := q.sum.flash + pageStep stored, decoded := q.sum.decoded + decoded } }

/-- The scan after a page of records: the page counted, its records handed to the sink one after the other. -/
def takePage (span stored decoded : Nat) (recs : List (List Byte)) (z : Span) (q : Scan) : Scan :=
  (recs.mapIdx fun i r => (i, r)).foldl (takeRecord span (q.base + z.pos)) (countGoodPage span stored decoded z q)

/-- The state in which bytes of a volume at an address were read for a context (R160). -/
def countScanRead (v : Vol) (addr bytes : Nat) (ctx : Nat) (s : State) : State :=
  (foldOver (unitsOf addr bytes) (fun u acc => countRead (v.entry u) acc) s).count ctx fun k =>
    { k with flashRead := k.flashRead + bytes }

/-- What a page that could not be read leaves: the scan without the rest of its span where it asked to skip such pages, else
stopped. -/
def pageUnread (n span : Nat) (z : Span) (q : Scan) (s : State) : State :=
  if bit q.flags 2 then putScan n (badPage span z.pos q) s else stopScan n St.mediaUncorrectable (pageDetail z) s

/-- What a page that was read leaves, by what lies at its place. -/
def pageRead (n span : Nat) (l : Live) (v : Vol) (z : Span) (q : Scan) (s : State) : PageFound → State
  | .empty => putScan n (countEmptyPage span z q) s
  | .bad => if bit q.flags 0 then stopScan n St.badParam (pageDetail z) s else putScan n (badPage span z.pos q) s
  | .page stored decoded recs =>
    if v.unreadable (q.base + z.pos) (pageStep stored) then pageUnread n span z q s
    else
      putScan n (takePage span stored decoded recs z q)
        (countScanRead v (q.base + z.pos) (pageStep stored) l.c.context.toNat s)

section Page

variable {s0 : State} {span : Nat} {z : Span} {v : Vol}

/-- None of the conditions holds under which an engine takes no page. -/
theorem TakesPage.not_idle (h : TakesPage s n span q z) :
    (!(s.scanHeld.any fun h => decide (h.2.cmd = n ∧ h.2.item = span)) || z.done || q.stop.isSome || scanPaused q ||
      decide (min q.len ((span + 1) * spanBytes) ≤ z.pos)) = false := by
  obtain ⟨hheld, hdone, hstop, hpaused, hleft, -⟩ := h
  rw [SpanHeld] at hheld
  rw [spanEnd] at hleft
  rw [hheld, hdone, hstop, hpaused, decide_eq_false (Nat.not_le.2 hleft)]
  rfl

/-- The media takes the items that the scan would insert. -/
theorem TakesPage.not_exhausted (h : TakesPage s n span q z) : ¬ (q.sink = 3 ∧ s.statusBit Sb.readOnly = true) :=
  fun ⟨hsink, hreadOnly⟩ => Bool.false_ne_true ((h.writable hsink).symm.trans hreadOnly)

variable (hs : flushAndFeed n s0 = s) (hq : Tbl.get? s.scans n = some q) (hl : s.live? n = some l)
  (hz : Tbl.get? q.spans span = some z) (hv : s.vol? q.vol.toNat = some v) (htakes : TakesPage s n span q z)
include hs hq hl hz hv htakes

theorem scanPage_unreadable : scanPage n span false s0 = pageUnread n span z q s := by
  rw [flushAndFeed] at hs
  simp only [scanPage, hs, hq, hl, hz, hv, htakes.not_idle, htakes.not_exhausted, Bool.false_eq_true, if_false, Bool.not_false,
    Bool.true_or, if_true]
  rfl

variable (hread : v.unreadable (q.base + z.pos) 4096 = false)
include hread

theorem scanPage_found {found : PageFound} (hfound : pageFound v q z.pos = found) :
    scanPage n span true s0 = pageRead n span l v z q s found := by
  subst hfound
  rw [flushAndFeed] at hs
  simp only [scanPage, hs, hq, hl, hz, hv, htakes.not_idle, htakes.not_exhausted, hread, Bool.false_eq_true, if_false,
    Bool.not_true, Bool.or_false]
  cases pageFound v q z.pos <;> rfl

theorem scanPage_records {stored decoded : Nat} {recs : List (List Byte)}
    (hfound : pageFound v q z.pos = .page stored decoded recs)
    (hwhole : v.unreadable (q.base + z.pos) (pageStep stored) = false) :
    scanPage n span true s0 =
      putScan n (takePage span stored decoded recs z q)
        (countScanRead v (q.base + z.pos) (pageStep stored) l.c.context.toNat s) :=
  (scanPage_found hs hq hl hz hv htakes hread hfound).trans (if_neg (by rw [hwhole]; exact Bool.false_ne_true))

end Page

/-- A row for a page acts where its engine is not paused. -/
theorem exec_scanPage_of_running {span : Nat} {readable : Bool} {u : State} (hrun : enginePaused n span s = false)
    (h : scanPage n span readable s = u) : exec (.scanPage n span readable) s = .next (settle u) := by
  subst h
  exact next_congr (if_neg (by rw [hrun]; exact Bool.false_ne_true))

/-! ## Spans, sequences and the end of a scan (R236, R242 to R246) -/

/-- The scan with one of its spans at its end. -/
def endSpan (span : Nat) (z : Span) (q : Scan) : Scan := { q with spans := Tbl.set span { z with done := true } q.spans }

/-- The state in which a span of a scan has left its engine, and the scan hands on the output that its spans release. -/
def leaveEngine (n span : Nat) (q : Scan) (s : State) : State :=
  flushScan n false (releaseScan n span { s with scans := Tbl.set n (releaseSpans q q.spans.length 0) s.scans })

/-- The scan without one of its sequences. -/
def withoutSequence (i : Nat) (q : Scan) : Scan := { q with seqs := Tbl.erase i q.seqs }

/-- The scan with one more record whose sequence failed, its first failure's status kept (R244). -/
def countFailure (st : Half) (q : Scan) : Scan :=
  { q with sum := { q.sum with
      failed := q.sum.failed + 1, status := if q.sum.status = 0 then st else q.sum.status } }

/-- What a sequence that ended with a status leaves: its outputs handed over, or a failure counted. -/
def sequenceResult (z : ScanSeq) (st : Half) (out : List Word) (q : Scan) (s : State) : Scan × State :=
  if st = 0 then takeResult z out q s else (countFailure st q, s)

/-- The scan, stopped where the table holds it as stopped. -/
def withTableStop (n : Nat) (r : Scan × State) : Scan :=
  { r.1 with stop := ((Tbl.get? r.2.scans n).map Scan.stop).getD none }

/-- The scan with its top records accepted as output (R243). -/
def acceptTop (q : Scan) : Scan := (q.top.map TopRec.bytes).foldl acceptOut { q with top := [] }

/-- The state in which a scan's last output, part of a segment or not, has left as far as it may. -/
def lastFlush (n : Nat) (q : Scan) (s : State) : State := flushScan n true { s with scans := Tbl.set n (acceptTop q) s.scans }

section Running

variable (hq : Tbl.get? s.scans n = some q)
include hq

theorem spanComplete_leaves {span : Nat} {z : Span} (hz : Tbl.get? q.spans span = some z) (hdone : z.done = false)
    (hheld : SpanHeld s n span) (hend : q.stop ≠ none ∨ spanEnd q span ≤ z.pos) :
    spanComplete n span s = leaveEngine n span (endSpan span z q) s := by
  have hover : (q.stop.isSome || decide (min q.len ((span + 1) * spanBytes) ≤ z.pos)) = true := by
    rwa [Bool.or_eq_true, Option.isSome_iff_ne_none, decide_eq_true_iff]
  rw [SpanHeld] at hheld
  simp only [spanComplete, hq, hz, hheld, hdone, hover, Bool.not_false, Bool.and_self, if_true]
  rfl

theorem scanSeqFinish_ended {i : Nat} {z : ScanSeq} {st : Half} (out : List Word) (hz : Tbl.get? q.seqs i = some z)
    (hended : z.ended = some st) (hwritable : ¬ (q.sink = 3 ∧ s.statusBit Sb.readOnly = true)) :
    scanSeqFinish n i out s =
      let r := sequenceResult z st out (withoutSequence i q) s
      putScan n (withTableStop n r) r.2 := by
  simp only [scanSeqFinish, hq, hz, hended, if_neg hwritable]
  rfl

section Complete

variable (hl : s.live? n = some l) (hended : scanEnded s n q = true)
include hl hended

theorem scanComplete_stopped {st : Half} {d : Nat} (hstop : q.stop = some (st, d)) :
    scanComplete n s = fail n st d (stopWork n s) := by
  simp only [scanComplete, hq, hl, hended, hstop, Bool.not_true, Bool.false_eq_true, if_false]

theorem scanComplete_answers {q2 : Scan} (hstop : q.stop = none) (hq2 : Tbl.get? (lastFlush n q s).scans n = some q2)
    (hsent : q2.segment = []) (hstop2 : q2.stop = none) :
    scanComplete n s =
      succeed n 0 [(if q2.sink = 1 ∧ isCtlq l.c.origin = false then q2.written else 0, summaryBytes q2)]
        (stopWork n (lastFlush n q s)) := by
  simp only [lastFlush, acceptTop, hstop] at hq2
  simp only [scanComplete, lastFlush, acceptTop, hq, hl, hended, hstop, hq2, hsent, hstop2, Bool.not_true, Bool.false_eq_true,
    if_false, List.isEmpty_nil, Option.isSome_none, Bool.or_self]

end Complete

end Running

end Sys2Proof.Machine

namespace Sys2Proof

open Sys2Proof.Machine

/-- Settles O33: each command is taken up at once and acts on the state that holds its entry; a landed payload by whether it
reads as a scan whose targets stand. That these commands name the scan's tag in p0 and the segments in p1 is the model's choice
(log row 11). -/
theorem scanCommands : Obligations.ScanCommands := by
  refine fun s c => ⟨fun k hacc hnamed => ?_, fun k q hacc hnamed hq => ?_, fun k q hacc hnamed hq => ?_, fun n l hl =>
    ⟨scnRunLanded_of_bad_payload hl, fun q v hread hbad => scnRunLanded_of_bad_target hl hread hbad,
      fun q hread hgood hsink => scnRunLanded_without_staging hl hread hgood hsink⟩⟩
  · exact settle_deliver_accepted hacc (scnCancelStart_named (entered_live 0x0521 c s) hnamed)
  · exact settle_deliver_accepted hacc (scnStatusStart_named (entered_live 0x0522 c s) hnamed hq)
  · have hl := entered_live 0x0523 c s
    exact ⟨fun hout => settle_deliver_accepted hacc (scnCreditStart_of_outstanding hl hnamed hq hout),
      fun node link hexcess horigin => settle_deliver_accepted hacc (scnCreditStart_of_excess hl hnamed hq hexcess horigin)⟩

/-- Settles O34: a page by what lies at its place, then a span, a sequence and the scan itself by how each ends. That an engine
at its die's temperature limit takes no page, and that a scan's parts run in the order of their rows, is the model's choice (log
rows 17 and 32). -/
theorem scanRuns : Obligations.ScanRuns := by
  refine ⟨fun s0 n span q l z v => ?_, fun s n q hq => ⟨fun span z hz hdone hheld hend => ?_,
    fun i z st out hz hended hwritable => ?_, fun l hl hended => ⟨fun st d hstop => ?_, fun q2 hstop => ?_⟩⟩⟩
  · intro s hrun hq hl hz hv hheld hdone hstop hpaused hleft hwritable
    have htakes : TakesPage s n span q z := ⟨hheld, hdone, hstop, hpaused, hleft, hwritable⟩
    exact ⟨exec_scanPage_of_running hrun (scanPage_unreadable rfl hq hl hz hv htakes),
      fun hread hfound => exec_scanPage_of_running hrun (scanPage_found rfl hq hl hz hv htakes hread hfound),
      fun hread hfound => exec_scanPage_of_running hrun (scanPage_found rfl hq hl hz hv htakes hread hfound),
      fun stored decoded recs hread hfound hwhole =>
        exec_scanPage_of_running hrun (scanPage_records rfl hq hl hz hv htakes hread hfound hwhole)⟩
  · exact next_settle_congr (spanComplete_leaves hq hz hdone hheld hend)
  · exact next_settle_congr (scanSeqFinish_ended hq out hz hended hwritable)
  · exact next_settle_congr (scanComplete_stopped hq hl hended hstop)
  · intro q1 u hq2 hsent hstop2
    exact next_settle_congr (scanComplete_answers hq hl hended hstop hq2 hsent hstop2)

end Sys2Proof
end

section
/-! The obligations on volumes and leases (chapter 10): the commands on a volume as they start, volume writes whose data has
landed, the absorb buffer, and a lease from its acquisition to its end. -/

namespace Sys2Proof.Machine

variable {s : State} {n : Nat} {l : Live} {v : Vol}

/-! ## Volumes at a command's start (R315, R318) -/

/-- A command's entry in the table changes no volume. -/
@[simp] theorem entered_vols (op : Nat) (c : Capsule) (s : State) : (s.entered op c).vols = s.vols := by
  obtain ⟨cmds, host, h⟩ := entered_eq_with op c s
  rw [h]

theorem entered_vol? (op : Nat) (c : Capsule) (s : State) (o : Nat) : (s.entered op c).vol? o = s.vol? o := by
  simp only [State.vol?, entered_vols]

/-- A command without request data goes on at once to what the landing of its data does. -/
theorem withData_of_no_data {pre landed : Nat → State → State} (hl : s.live? n = some l) (hdata : l.c.dataLen = 0) :
    withData pre landed n s = landed n s := by
  simp only [withData, hl, if_pos hdata]

/-- A command with request data does at its start what comes before the data. -/
theorem withData_of_data {pre landed : Nat → State → State} (hl : s.live? n = some l) (hdata : l.c.dataLen ≠ 0) :
    withData pre landed n s = pre n s := by
  simp only [withData, hl, if_neg hdata]

/-! ## Creating, querying, flushing and deleting (R252, R253, R267) -/

/-- The volume of a VOL_CREATE without an absorb buffer, its key under number `key`. -/
def newVol (key : Nat) (c : Capsule) : Vol :=
  { part := c.partition.toFin, size := c.length.toNat, mode := BitVec.ofNat 2 c.p0.toNat, absorbMiB := 0, absorbPin := none,
    keySource := c.p0.getLsbD 2, keyId := key, keyLost := false, mem := [], plat := [], absorbNext := 1, watermark := 0,
    absorbed := [] }

/-- The state with the volume of a VOL_CREATE, and its key under the next number of the key store. -/
def placeVol (key : List Byte) (c : Capsule) (s : State) : State :=
  { s with
    vols := Tbl.set c.object.toNat (newVol s.sec.nextKey c) s.vols
    sec := { s.sec with
      keys := Tbl.set s.sec.nextKey (c.object, key) s.sec.keys
      nextKey := s.sec.nextKey + 1 } }

/-- The state with a log entry for the key of the volume of a command, made or erased in partition `p`. -/
def logKey (c : Capsule) (p : Nat) (s : State) : State :=
  addLog Lc.keyChanged (originWord c.origin) noUnit (ctxWord none (some p)) [c.object.toNat] s

/-- What VOL_QUERY answers of a volume. -/
def volRecord (s : State) (o : Word) (v : Vol) : List Byte :=
  let held := (s.leases.filter fun e => decide (e.2.vol = o ∧ e.2.st ≠ 3)).length
  leBytes 8 v.size ++ leBytes 4 v.mode.toNat ++ leBytes 4 v.absorbMiB ++ leBytes 8 (v.absorbNext - 1) ++ leBytes 8 v.watermark ++
    leBytes 4 held ++ leBytes 4 0

/-- The state without a volume, its units, its absorb buffer and its key free. -/
def removeVol (o : Nat) (v : Vol) (s : State) : State :=
  let u := freeAbsorb v (foldOver (v.plat.map Prod.snd) dropValid s)
  { u with vols := Tbl.erase o u.vols, sec := { u.sec with keys := Tbl.erase v.keyId u.sec.keys } }

theorem makeVol_without_buffer (key : List Byte) (hbuffer : l.c.p1 = 0) :
    makeVol n l key s = succeed n 0 [] (logKey l.c l.c.partition.toNat (placeVol key l.c s)) := by
  have hmib : l.c.p1.toNat = 0 := by rw [hbuffer]; rfl
  simp only [makeVol, hmib, if_true]
  rfl

/-- The module's own key for a volume is a free value. -/
theorem volCreateStart_without_buffer (hl : s.live? n = some l) (hbuffer : l.c.p1 = 0) :
    volCreateStart n s =
      succeed n 0 [] (logKey l.c l.c.partition.toNat
        (placeVol (leBytes 64 (Config.freeNat s.free)) l.c { s with free := s.free + 1 })) := by
  simp only [volCreateStart, hl, makeVol_without_buffer _ hbuffer]

section Commands

variable (hl : s.live? n = some l) (hv : s.vol? l.c.object.toNat = some v)
include hl hv

theorem volQueryStart_eq : volQueryStart n s = succeed n 0 [(0, volRecord s l.c.object v)] s := by
  simp only [volQueryStart, hl, hv, volRecord]

theorem volFlushStart_eq :
    volFlushStart n s =
      flushReady l.c.object.toNat (s.modLive n fun x => { x with detail := v.absorbNext - 1, phase := .running }) := by
  simp only [volFlushStart, hl, hv, Option.map_some, Option.getD_some]

theorem volDeleteStart_waits {b : State} (hb : recallRange n l.c.object 0 v.size s = b)
    (hheld : (heldLeases b l.c.object 0 v.size).isEmpty = false) :
    volDeleteStart n s = b.modLive n fun x => { x with phase := .recalling } := by
  simp only [volDeleteStart, hl, hv, hb, hheld, Bool.not_false, if_true]

theorem volDeleteStart_of_none_held {b : State} (hb : recallRange n l.c.object 0 v.size s = b)
    (hnone : (heldLeases b l.c.object 0 v.size).isEmpty = true) :
    volDeleteStart n s = succeed n 0 [] (logKey l.c v.part.val (removeVol l.c.object.toNat v b)) := by
  simp only [volDeleteStart, hl, hv, hb, hnone, Bool.not_true, Bool.false_eq_true, if_false]
  rfl

end Commands

/-! ## Reading, writing and discarding (R256, R258, R267, R322 to R325) -/

/-- The state in which the units of a range of a volume were each read once. -/
def countUnits (v : Vol) (off len : Nat) (s : State) : State :=
  foldOver (unitsOf off len) (fun u acc => countRead (v.entry u) acc) s

/-- What a context's counters gain by bytes of a volume that were read for it. -/
def countFlashRead (len : Nat) (k : Counters) : Counters := { k with flashRead := k.flashRead + len }

/-- What a context's counters gain by bytes of a volume that were written for it. -/
def countFlashWrite (len : Nat) (k : Counters) : Counters := { k with flashWrite := k.flashWrite + len }

/-- The units that a range covers whole. -/
def wholeUnits (off len : Nat) : List Nat := ((coverage off len).filter fun u => u.2).map Prod.fst

/-- The parts of units that a range covers besides its whole units. -/
def unitParts (off len : Nat) : List (Nat × Nat) :=
  ((coverage off len).filter fun u => !u.2).map fun u => partOf off len u.1

/-- The ranges that a discard of a range makes zero: its whole units, then its parts of units. -/
def zeroedRanges (off len : Nat) : List (Nat × Nat) :=
  (wholeUnits off len).map (fun u => (u * unitBytes, unitBytes)) ++ unitParts off len

/-- The volume whose absorb buffer no longer holds bytes of a range. -/
def trimBuffer (off len : Nat) (x : Vol) : Vol := { x with absorbed := trimAbsorbed off len x.absorbed }

/-- The volume with a write in its absorb buffer under sequence `seq`, over what the buffer held. -/
def absorbWrite (seq off : Nat) (bs : List Byte) (x : Vol) : Vol :=
  { x with absorbed := trimAbsorbed off bs.length x.absorbed ++ [{ seq := seq, off := off, data := bs }]
           absorbNext := x.absorbNext + 1 }

/-- The state in which the data of a DURABLE write is on the media, its landing space free again. -/
def programWrite (l : Live) (s : State) : State :=
  ((writeMedia l.c.object.toNat l.c.offset.toNat l.data (freeLanding l s)).modVol l.c.object.toNat
    (trimBuffer l.c.offset.toNat l.data.length)).count l.c.context.toNat (countFlashWrite l.data.length)

/-- The state with a range of a volume discarded. -/
def discardRange (o off len : Nat) (s : State) : State :=
  (foldOver (unitParts off len) (fun p acc => writeMedia o p.1 (List.replicate p.2 0) acc)
    (zeroUnits o (wholeUnits off len) s)).modVol o fun x =>
      { x with absorbed := (zeroedRanges off len).foldl (fun a p => trimAbsorbed p.1 p.2 a) x.absorbed }

section Data

variable (hl : s.live? n = some l)
include hl

theorem volDiscardStart_of_writable {b : State} (hb : recallRange n l.c.object l.c.offset.toNat l.c.length.toNat s = b)
    (hnone : (heldLeases b l.c.object l.c.offset.toNat l.c.length.toNat).isEmpty = true) (hfirst : mustYield n l b = false)
    (hv : b.vol? l.c.object.toNat = some v) (hwrite : b.statusBit Sb.readOnly = false)
    (hmerge : lostMerge v l.c.offset.toNat l.c.length.toNat = none) :
    volDiscardStart n s = ackMedia n 0 (discardRange l.c.object.toNat l.c.offset.toNat l.c.length.toNat b) := by
  simp only [volDiscardStart, hl, hb, hnone, hfirst, hv, hwrite, hmerge, Bool.not_true, Bool.false_eq_true, if_false]
  rfl

variable (hv : s.vol? l.c.object.toNat = some v)
include hv

theorem volReadStart_readable (hread : v.unreadable l.c.offset.toNat l.c.length.toNat = false) :
    volReadStart n s =
      succeed n 0 [(0, v.bytes l.c.offset.toNat l.c.length.toNat)]
        ((countUnits v l.c.offset.toNat l.c.length.toNat s).count l.c.context.toNat (countFlashRead l.c.length.toNat)) := by
  simp only [volReadStart, hl, hv, hread, Bool.false_eq_true, if_false]
  rfl

theorem volReadStart_unreadable (hread : v.unreadable l.c.offset.toNat l.c.length.toNat = true) :
    volReadStart n s =
      finish n St.mediaUncorrectable (v.firstBad l.c.offset.toNat l.c.length.toNat)
        (if (fabricOf l.c.origin).isSome then v.readable l.c.offset.toNat l.c.length.toNat else [])
        (countUnits v l.c.offset.toNat l.c.length.toNat s) := by
  simp only [volReadStart, hl, hv, hread, if_true]
  rfl

theorem volWriteStart_durable (hdurable : absorbedWrite s l = false) :
    volWriteStart n s = recallRange n l.c.object l.c.offset.toNat l.c.length.toNat s := by
  simp only [volWriteStart, hl, hv, hdurable, Bool.false_and, Bool.false_eq_true, if_false]

theorem volWriteLanded_recalling (hopen : recallsOpen s l = true) :
    volWriteLanded n s = s.modLive n fun x => { x with phase := .recalling } := by
  simp only [volWriteLanded, hl, hv, hopen, if_true]

variable (hended : recallsOpen s l = false)
include hended

theorem volWriteLanded_yields (hyield : mustYield n l s = true) :
    volWriteLanded n s = s.modLive n fun x => { x with phase := .ordered } := by
  simp only [volWriteLanded, hl, hv, hended, hyield, Bool.false_eq_true, if_false, if_true]

variable (hfirst : mustYield n l s = false)
include hfirst

theorem volWriteLanded_absorbed (habsorbed : absorbedWrite s l = true) :
    volWriteLanded n s =
      ackMedia n (v.absorbNext % 4294967296)
        (s.modVol l.c.object.toNat (absorbWrite v.absorbNext l.c.offset.toNat l.data)) := by
  simp only [volWriteLanded, hl, hv, hended, hfirst, habsorbed, Bool.false_eq_true, if_false, if_true]
  rfl

theorem volWriteLanded_durable (hdurable : absorbedWrite s l = false)
    (hmerge : lostMerge v l.c.offset.toNat l.data.length = none) :
    volWriteLanded n s = ackMedia n 0 (programWrite l s) := by
  simp only [volWriteLanded, hl, hv, hended, hfirst, hdurable, hmerge, Bool.false_eq_true, if_false]
  rfl

end Data

/-- What the absorb buffer holds of the write of sequence `q` and can merge into the media. -/
def mergeable (v : Vol) (q : Nat) : List Absorbed :=
  (v.absorbed.filter fun a => decide (a.seq = q)).filter fun a => (lostMerge v a.off a.data.length).isNone

/-- The state in which the absorbed write of sequence `q` is committed and the watermark stands at it. -/
def commitAbsorbed (o q : Nat) (v : Vol) (s : State) : State :=
  (foldOver (mergeable v q) (fun a acc => writeMedia o a.off a.data acc) s).modVol o fun x =>
    { x with absorbed := x.absorbed.filter fun a => decide (a.seq ≠ q), watermark := q }

theorem absorbDestage_oldest {o : Nat} (hv : s.vol? o = some v) (hwaits : v.watermark + 1 ≠ v.absorbNext) :
    absorbDestage o s = flushReady o (commitAbsorbed o (v.watermark + 1) v s) := by
  simp only [absorbDestage, hv, if_neg hwaits]
  rfl

/-! ## Leases (R263 to R268) -/

/-- The lease that an LSE_ACQUIRE gives a node, which came in on a link. -/
def newLease (s : State) (c : Capsule) (node : BitVec 20) (link : Nat) : Lease :=
  { inc := incarnation s, st := 1, vol := c.object, first := c.offset.toNat / 8388608, count := c.length.toNat / 8388608,
    holder := node, link := link, expiry := s.sys.time + leaseSecs c * 1000000000, recallAt := 0 }

section LeaseCommands

variable (hl : s.live? n = some l)
include hl

theorem lseAcquireStart_granted {node : BitVec 20} {link : LinkIx} {k : Nat} (horigin : l.c.origin = .fabric node link)
    (hv : s.vol? l.c.object.toNat = some v)
    (hfree : rangeHeld s n l.c.object l.c.offset.toNat l.c.length.toNat = false)
    (hslot : (List.range 65536).find? (fun k => !Tbl.has s.leases k) = some k) :
    lseAcquireStart n s =
      let x := newLease s l.c node link.val
      succeed n (k + 65536 * x.inc) [(0, sheetBytes v x.first x.count)] { s with leases := Tbl.set k x s.leases } := by
  simp only [lseAcquireStart, hl, hfree, hv, horigin, fabricOf, hslot, Bool.false_eq_true, if_false]
  rfl

theorem lseAcquireStart_waits (hheld : rangeHeld s n l.c.object l.c.offset.toNat l.c.length.toNat = true) :
    lseAcquireStart n s = s.modLive n fun x => { x with phase := .recalling } := by
  simp only [lseAcquireStart, hl, hheld, if_true]

theorem lseReleaseStart_eq : lseReleaseStart n s = succeed n 0 [] (revokeSlot (l.c.p0.toNat % 65536) s) := by
  simp only [lseReleaseStart, hl]

theorem lseReadStart_passes (hpass : (lseVerdict l.c s).1 = none) (hv : s.vol? l.c.object.toNat = some v)
    (hkey : v.keyLost = false) :
    lseReadStart n s =
      succeed n 0 [(0, Mem.readBytes v.mem l.c.offset.toNat l.c.length.toNat)]
        ((countRead (readEntryOf l.c) s).count l.c.context.toNat (countFlashRead l.c.length.toNat)) := by
  obtain ⟨bad, hverdict⟩ : ∃ bad, lseVerdict l.c s = (none, bad) := ⟨_, Prod.ext hpass rfl⟩
  simp only [lseReadStart, hl, hverdict, hv, hkey, Bool.false_eq_true, if_false]
  rfl

theorem lseReadStart_fails {r : Half × Nat} {bad : Bool} {node : BitVec 20} {link : LinkIx}
    (hverdict : lseVerdict l.c s = (some r, bad)) (horigin : l.c.origin = .fabric node link) :
    lseReadStart n s = if bad then violation link.val 266 (fail n r.1 r.2 s) else fail n r.1 r.2 s := by
  simp only [lseReadStart, hl, hverdict, horigin, fabricOf]

end LeaseCommands

section LeaseEnds

variable {k : Nat} {x : Lease} (hx : Tbl.get? s.leases k = some x)
include hx

theorem recallAck_of_holder (hrecalled : x.st = 2) : recallAck k x.holder s = revokeSlot k s := by
  simp only [recallAck, hx, hrecalled, and_self, if_true]

theorem recallTimeout_passed (hrecalled : x.st = 2) (hpast : x.recallAt + s.media.pol.recallUs * 1000 ≤ s.sys.time) :
    recallTimeout k s =
      violation x.link 267 (revokeSlot k (logHw Lc.leaseRecallTimeout [x.holder.toNat, k] s)) := by
  simp only [recallTimeout, hx, if_pos (And.intro hrecalled hpast)]

theorem leaseExpiry_passed (hlive : x.st ≠ 3) (hpast : x.expiry ≤ s.sys.time) : leaseExpiry k s = revokeSlot k s := by
  simp only [leaseExpiry, hx, if_pos (And.intro hlive hpast)]

end LeaseEnds

end Sys2Proof.Machine

namespace Sys2Proof

open Sys2Proof.Machine

/-- Settles O35: each command is taken up at once and acts on the state that holds its entry, a deletion by whether a lease of
the volume is held. That a key of the module's own is a free value is the model's choice (log rows 7 and 17). -/
theorem volumeCommands : Obligations.VolumeCommands := by
  refine fun s c => ⟨fun hacc hdata hbuffer => ?_, fun v hacc hv => ?_, fun v hacc hv => ?_, fun v hacc hv => ?_⟩
  · have hl := entered_live 0x0201 c s
    have hstart := (withData_of_no_data (pre := awaitData) hl hdata).trans (volCreateStart_without_buffer hl hbuffer)
    exact settle_deliver_accepted hacc hstart
  · have hstart := volQueryStart_eq (entered_live 0x0203 c s) ((entered_vol? 0x0203 c s _).trans hv)
    exact settle_deliver_accepted hacc hstart
  · have hstart := volFlushStart_eq (entered_live 0x0211 c s) ((entered_vol? 0x0211 c s _).trans hv)
    exact settle_deliver_accepted hacc hstart
  · have hl := entered_live 0x0202 c s
    have hvol := (entered_vol? 0x0202 c s _).trans hv
    exact ⟨fun hheld => settle_deliver_accepted hacc (volDeleteStart_waits hl hvol rfl hheld),
      fun hnone => settle_deliver_accepted hacc (volDeleteStart_of_none_held hl hvol rfl hnone)⟩

/-- Settles O36: a read by whether its range can be read, a landed write by what it waits for and where its data goes. That
overlapping writes take effect in the order of their admission is the model's choice (log row 16). -/
theorem volumeData : Obligations.VolumeData := by
  refine fun s c v hv => ⟨fun hacc => ?_, fun hacc hdata => ?_, fun hacc => ?_, fun n l hl hc => ?_, fun hwaits => ?_⟩
  · have hl := entered_live 0x0220 c s
    have hvol := (entered_vol? 0x0220 c s _).trans hv
    refine ⟨fun hread => ?_, fun hread => ?_⟩
    · have hstart := volReadStart_readable hl hvol hread
      exact settle_deliver_accepted hacc hstart
    · have hstart := volReadStart_unreadable hl hvol hread
      exact settle_deliver_accepted hacc hstart
  · intro b hvol hdurable
    have hl := entered_live 0x0221 c s
    have hstart := (withData_of_data (landed := volWriteLanded) hl hdata).trans (volWriteStart_durable hl hvol hdurable)
    exact settle_deliver_accepted hacc hstart
  · intro b hnone hfirst hvol hwrite hmerge
    have hstart := volDiscardStart_of_writable (entered_live 0x0210 c s) rfl hnone hfirst hvol hwrite hmerge
    exact settle_deliver_accepted hacc hstart
  · subst hc
    exact ⟨fun hopen => volWriteLanded_recalling hl hv hopen, fun hended hyield => volWriteLanded_yields hl hv hended hyield,
      fun hended hfirst habsorbed => volWriteLanded_absorbed hl hv hended hfirst habsorbed,
      fun hended hfirst hdurable hmerge => volWriteLanded_durable hl hv hended hfirst hdurable hmerge⟩
  · exact next_settle_congr (absorbDestage_oldest hv hwaits)

/-- Settles O37: each command is taken up at once and acts on the state that holds its entry, a read by what the checks of R266
find; then each way in which a lease ends. That a recall acknowledgement ends the lease whatever its status, and that a unit that
is ZERO or LOST answers ST_LEASE_STALE, is the model's choice (log row 16). -/
theorem leases : Obligations.Leases := by
  refine fun s c => ⟨fun v node link k hacc horigin hv => ?_, fun hacc hheld => ?_, fun hacc => ?_,
    fun v hacc hpass hv hkey => ?_, fun r bad node link hacc hverdict horigin => ?_,
    fun k x status hx hrecalled => ?_, fun k x t hx hrecalled hpast => ?_, fun k x t hx hlive hpast => ?_⟩
  · intro b hfree hslot
    have hvol := (entered_vol? 0x0740 c s _).trans hv
    have hstart := lseAcquireStart_granted (entered_live 0x0740 c s) horigin hvol hfree hslot
    exact settle_deliver_accepted hacc hstart
  · have hstart := lseAcquireStart_waits (entered_live 0x0740 c s) hheld
    exact settle_deliver_accepted hacc hstart
  · have hstart := lseReleaseStart_eq (entered_live 0x0741 c s)
    exact settle_deliver_accepted hacc hstart
  · have hvol := (entered_vol? 0x0742 c s _).trans hv
    have hstart := lseReadStart_passes (entered_live 0x0742 c s) hpass hvol hkey
    exact settle_deliver_accepted hacc hstart
  · have hstart := lseReadStart_fails (entered_live 0x0742 c s) hverdict horigin
    exact settle_deliver_accepted hacc hstart
  · exact next_settle_congr (recallAck_of_holder hx hrecalled)
  · exact next_settle_congr (recallTimeout_passed hx hrecalled hpast)
  · exact next_settle_congr (leaseExpiry_passed hx hlive hpast)

end Sys2Proof
end

section
/-! The obligations on the flash media (chapter 10): the media commands, codewords, wordlines and the hold-up store, the
collection of a parity group, and its upkeep. -/

namespace Sys2Proof.Machine

variable {s : State} {gi serial slot : Nat} {sb : Super}

/-- The passing of time changes no parity group. -/
@[simp] theorem pgroup_tick (s : State) (t g : Nat) : (s.tick t).pgroup g = s.pgroup g := by
  simp only [State.pgroup, tick_media]

/-- The group with a superblock's record replaced. -/
def PGroup.setSuper (serial : Nat) (sb : Super) (g : PGroup) : PGroup := { g with supers := Tbl.set serial sb g.supers }

/-! ## Media commands (R275 to R277) -/

theorem medWearStart_eq (n : Nat) (s : State) : medWearStart n s = succeed n 0 [(0, wearRecord s)] s := rfl

/-- The state with a media policy that data asked for and that was held to its ranges, and what was done to it in the log. -/
def setMedPolicy (o : Origin) (p : MedPolicy × MedPolicy) (s : State) : State :=
  addLog Lc.policyChanged (originWord o) noUnit 0 [0x0641]
    (addLog (if p.1 = p.2 then Lc.loopHeld else Lc.policyClipped) (originWord o) noUnit 0 [0x0641]
      { s with media := { s.media with pol := p.2 } })

theorem medPolicyLanded_eq {n : Nat} {l : Live} (hl : s.live? n = some l) :
    medPolicyLanded n s = succeed n 0 [] (setMedPolicy l.c.origin (medPolicyOf l.data) s) := by
  simp only [medPolicyLanded, hl, setMedPolicy]

/-- The state in which MED_FORMAT has settled every mapped page (R275). -/
def formatPages (s : State) : State :=
  foldOver (s.stores.flatMap fun e => e.2.pages.map fun g => (e.1, g.1)) (fun x acc => formatPage x.1 x.2 acc) s

/-- The state in which the absorb buffer of every volume has returned its frames. -/
def returnBuffers (s : State) : State := foldOver (s.vols.map Prod.snd) freeAbsorb s

/-- The state in which every collection has returned its frames. -/
def returnColFrames (s : State) : State :=
  foldOver (s.cols.map Prod.snd) (fun k acc =>
    (acc.modDie (lowestDie acc k.part.val) fun x => { x with otherFrames := x.otherFrames - k.frames }).modPart k.part.val
      fun x => { x with pinned := x.pinned - k.frames }) s

/-- The state without volumes, collections, search services and keys, every parity group erased. -/
def eraseMedia (s : State) : State :=
  { s with
    vols := [], cols := [], ctxs := Tbl.keep (fun _ c => !c.search) s.ctxs
    media := { s.media with groups := Tbl.mapVals (fun _ g => formatGroup g) s.media.groups, colReserved := 0 }
    sec := { s.sec with keys := [] } }

theorem startOf_medFormat : startOf 0x0642 = medFormatStart := rfl

/-- MED_FORMAT: the frames of volumes and collections return and every lease ends before the media is erased, and then the
capacity is added up again. -/
theorem medFormatStart_eq (n : Nat) (s : State) :
    medFormatStart n s =
      succeed n 0 [] (checkCapacity (setStatus Sb.readOnly false (eraseMedia
        (revokeLeases (fun _ _ => true) (returnColFrames (returnBuffers (formatPages s))))))) := rfl

/-! ## Codewords (R249, R276) -/

/-- The state in which a codeword was read at a depth. -/
def countDepth (d : Nat) (s : State) : State := { s with media := { s.media with depths := bumpHour s 8 d s.media.depths } }

/-- The state in which the unit of a plat entry, read at the deepest depth and not rebuilt, is LOST. -/
def loseUnit (vol unit : Nat) (e : Dword) (s : State) : State :=
  let p := platPlace e
  (dropValid e (eccUncorrectable (.channel (channelOf p.group p.slot)) (e.toNat % 2 ^ 52) none s)).modVol vol fun x =>
    { x with plat := Tbl.set unit platLost x.plat }

section Codewords

variable {vol unit : Nat} {v : Vol} (hv : s.vol? vol = some v) (hmapped : platState (v.entry unit) = 1)
include hv hmapped

theorem codewordDecode_decoded (d : Fin 8) : codewordDecode vol unit (.decoded d) s = wearCheck (countDepth d.val s) := by
  simp only [codewordDecode, hv, hmapped, ne_eq, not_true_eq_false, if_false]
  rfl

theorem codewordDecode_rebuilt :
    codewordDecode vol unit .rebuilt s = wearCheck (rebuildAt (v.entry unit) (countDepth 7 s)) := by
  simp only [codewordDecode, hv, hmapped, ne_eq, not_true_eq_false, if_false]
  rfl

theorem codewordDecode_uncorrectable :
    codewordDecode vol unit .uncorrectable s = wearCheck (loseUnit vol unit (v.entry unit) (countDepth 7 s)) := by
  simp only [codewordDecode, hv, hmapped, ne_eq, not_true_eq_false, if_false]
  rfl

end Codewords

/-! ## Wordlines and the hold-up store (R259, R260) -/

/-- The superblock with a wordline of a slot closed. -/
def closeWordline (slot w now : Nat) (sb : Super) : Super :=
  { sb with closedWl := sb.closedWl ||| (1 <<< (384 * slot + w)), lastProg := now }

/-- The state in which a wordline of a superblock is programmed; with its last one the superblock closes. -/
def programWordline (gi serial slot w : Nat) (sb : Super) (s : State) : State :=
  let done := closeWordline slot w s.sys.time sb
  let counted : State := { s with media := { s.media with programmed := s.media.programmed + 196608 } }
  let u := counted.modGroup gi (PGroup.setSuper serial done)
  if done.closedWl + 1 = 1 <<< 6144 then closeSuper gi serial u else u

section Wordlines

variable {w : Nat}
  (hopen : Tbl.find? (fun _ x => x.isOpen && (nextWordline x slot).isSome) (s.pgroup gi).supers = some (serial, sb))
  (hnext : nextWordline sb slot = some w)
include hopen hnext

theorem wordlineDone_programmed : wordlineDone gi slot true s = programWordline gi serial slot w sb s := by
  simp only [wordlineDone, hopen, hnext, if_true]
  rfl

theorem wordlineDone_failed :
    wordlineDone gi slot false s =
      reprogram gi serial sb (wordlineUnits gi serial sb slot w)
        (retireBlock gi slot (sb.blocks.getD slot 0) (closeSuper gi serial s)) := by
  simp only [wordlineDone, hopen, hnext, Bool.false_eq_true, if_false]

end Wordlines

/-- The state in which the hold-up store was measured. -/
def noteHoldup (mj : Nat) (s : State) : State :=
  { s with media :=
    { s.media with holdupMj := mj, holdupAt := s.sys.time, slowAck := decide (mj < 16000) || stagingShort s } }

theorem holdupMeasure_weak {mj : Nat} (hweak : mj < 16000) :
    holdupMeasure mj s = degrade .holdup (logHw Lc.holdupWeak [mj] (noteHoldup mj s)) :=
  if_pos (decide_eq_true hweak)

theorem holdupMeasure_strong {mj : Nat} (hstrong : 16000 ≤ mj) : holdupMeasure mj s = undegrade .holdup (noteHoldup mj s) :=
  if_neg fun hweak => Nat.not_lt.2 hstrong (of_decide_eq_true hweak)

/-! ## Collection (R265, R269, R270) -/

/-- The closed superblocks of a group. -/
def closedSupers (g : PGroup) : List (Nat × Super) := g.supers.filter fun e => e.2.closed

/-- The superblock of a group that is queued for refresh. -/
def queuedSuper (g : PGroup) : Option (Nat × Super) := (closedSupers g).find? fun e => e.2.refresh

/-- Collection of a group starts, or goes on (R269). -/
def collects (s : State) (g : PGroup) : Bool :=
  decide (freeSupers g < s.media.pol.low) || (g.collecting && decide (freeSupers g < s.media.pol.high))

/-- The closed superblock of highest score. -/
def bestVictim (s : State) (g : PGroup) : Option (Nat × Super) :=
  bestOf (fun a b : Nat × Super => scoreLt (gcScore s g b.2) (gcScore s g a.2)) (closedSupers g)

section Victim

variable {e : Nat × Super} (hidle : (s.pgroup gi).victim = none)
include hidle

theorem gcStart_refresh (hqueued : queuedSuper (s.pgroup gi) = some e) :
    gcStart gi s = s.modGroup gi fun y => { y with victim := some e.1, collecting := collects s (s.pgroup gi) } := by
  rw [queuedSuper, closedSupers] at hqueued
  simp only [gcStart, hidle, hqueued, Option.isSome_none, Bool.false_eq_true, if_false]
  rfl

variable (hnone : queuedSuper (s.pgroup gi) = none)
include hnone

theorem gcStart_best (hon : collects s (s.pgroup gi) = true) (hbest : bestVictim s (s.pgroup gi) = some e) :
    gcStart gi s = s.modGroup gi fun y => { y with victim := some e.1, collecting := true } := by
  rw [queuedSuper, closedSupers] at hnone
  rw [collects] at hon
  rw [bestVictim, closedSupers] at hbest
  simp only [gcStart, hidle, hnone, hon, hbest, Option.isSome_none, Bool.false_eq_true, if_false, if_true]

theorem gcStart_enough (hoff : collects s (s.pgroup gi) = false) :
    gcStart gi s = s.modGroup gi fun y => { y with collecting := false } := by
  rw [queuedSuper, closedSupers] at hnone
  rw [collects] at hoff
  simp only [gcStart, hidle, hnone, hoff, Option.isSome_none, Bool.false_eq_true, if_false, Bool.false_and]

end Victim

theorem gcMove_moves (hvictim : (s.pgroup gi).victim = some serial) (hsuper : Tbl.get? (s.pgroup gi).supers serial = some sb)
    (hlive : sb.erasing = false) :
    gcMove gi s =
      let u := foldOver ((liveUnits s gi serial sb).take 64) (moveUnit gi serial sb) s
      if (liveUnits u gi serial sb).isEmpty then eraseIntent gi serial u else u := by
  simp only [gcMove, hvictim, hsuper, hlive, Bool.false_eq_true, if_false]

/-- A superblock's blocks by slot. -/
def slotBlocks (sb : Super) : List (Nat × Nat) := sb.blocks.mapIdx fun i b => (i, b)

/-- The group with a superblock under erase, the generation of each block that is not retired advanced (R265). -/
def beginErase (serial : Nat) (sb : Super) (g : PGroup) : PGroup :=
  ((slotBlocks sb).foldl (fun y e =>
    y.modBlock e.1 e.2 fun b => if b.st = 4 then b else { b with st := 3, erases := b.erases + 1 }) g).setSuper serial
      { sb with erasing := true }

/-- The group without a superblock, each block of it that is not retired free. -/
def freeBlocks (serial : Nat) (sb : Super) (g : PGroup) : PGroup :=
  let z := (slotBlocks sb).foldl (fun y e => y.modBlock e.1 e.2 fun b =>
    if b.st = 4 then b else { b with st := 0, reads := 0, valid := 0, rebuilds := 0 }) g
  { z with supers := Tbl.erase serial z.supers, victim := if z.victim = some serial then none else z.victim }

/-- The blocks of an erased superblock that failed or are worn out (R275). -/
def wornBlocks (g : PGroup) (sb : Super) (failed : List Nat) : List (Nat × Nat) :=
  (slotBlocks sb).filter fun e => decide (e.1 ∈ failed ∨ 20000 ≤ (g.block e.1 e.2).erases)

section Erase

variable (hsuper : Tbl.get? (s.pgroup gi).supers serial = some sb)
include hsuper

theorem eraseIntent_refused (hvalid : 0 < superValid (s.pgroup gi) sb) :
    eraseIntent gi serial s = logHw Lc.eraseRefused [gi, serial] s := by
  simp only [eraseIntent, hsuper, if_pos hvalid]

theorem eraseIntent_begins (hnone : superValid (s.pgroup gi) sb = 0) :
    eraseIntent gi serial s = s.modGroup gi (beginErase serial sb) := by
  simp only [eraseIntent, hsuper, hnone, Nat.lt_irrefl, if_false]
  rfl

end Erase

theorem eraseDone_ends {failed : List Nat}
    (herasing : Tbl.find? (fun _ q => q.erasing && decide (q.suspended = 0)) (s.pgroup gi).supers = some (serial, sb)) :
    eraseDone gi failed s =
      (foldOver (wornBlocks (s.pgroup gi) sb failed) (fun e acc => retireBlock gi e.1 e.2 acc)
        (s.modGroup gi (freeBlocks serial sb))).modGroup gi fun y =>
          { y with collecting := y.collecting && decide (freeSupers y < s.media.pol.high) } := by
  simp only [eraseDone, herasing]
  rfl

/-! ## Upkeep (R271 to R274) -/

/-- The closed superblock of lowest erase counts, of equal ones that of the oldest last program (R271). -/
def leastWorn (g : PGroup) : Option (Nat × Super) :=
  bestOf (fun a b : Nat × Super => decide (superErases g a.2 < superErases g b.2 ∨
    (superErases g a.2 = superErases g b.2 ∧ a.2.lastProg < b.2.lastProg))) (closedSupers g)

theorem wearLevel_moves {e : Nat × Super} (hspread : s.media.pol.wear < eraseSpread (s.pgroup gi))
    (hidle : (s.pgroup gi).victim = none) (hleast : leastWorn (s.pgroup gi) = some e) :
    wearLevel gi s = s.modGroup gi fun y => { y with victim := some e.1 } := by
  rw [leastWorn, closedSupers] at hleast
  simp only [wearLevel, hidle, hleast, Nat.not_le.2 hspread, Option.isSome_none, Bool.false_eq_true, or_self, if_false]

theorem wearLevel_even (hspread : eraseSpread (s.pgroup gi) ≤ s.media.pol.wear) : wearLevel gi s = s :=
  if_pos (.inl hspread)

section Refresh

variable (hsuper : Tbl.get? (s.pgroup gi).supers serial = some sb)
include hsuper

theorem readRefresh_reached
    (hread : (sb.blocks.mapIdx fun i b => ((s.pgroup gi).block i b).reads).any (fun r => decide (s.media.pol.readThr ≤ r)) =
      true) :
    readRefresh gi serial s = startRefresh gi serial s := by
  simp only [readRefresh, hsuper, hread, if_true]

variable (hclosed : sb.closed = true)
include hclosed

theorem patrolRead_due (d : Nat) (rebuilt : Bool) (hdue : sb.patrolAt + s.media.pol.patrolDays * 86400000000000 ≤ s.sys.time) :
    patrolRead gi serial d rebuilt s =
      let u := s.modGroup gi (PGroup.setSuper serial { sb with patrolAt := s.sys.time })
      if 4 ≤ d ∨ rebuilt then startRefresh gi serial u else u := by
  simp only [patrolRead, hsuper, hclosed, Nat.not_lt.2 hdue, Bool.not_true, decide_false, Bool.or_self, Bool.false_eq_true,
    if_false]
  rfl

theorem retentionRefresh_due (hdue : sb.closedAt + 7776000000000000 ≤ s.sys.time) :
    retentionRefresh gi serial s = startRefresh gi serial s := by
  simp only [retentionRefresh, hsuper, hclosed, decide_eq_true hdue, Bool.and_self, if_true]

end Refresh

/-- The superblock with the erase of a slot suspended once more (R274). -/
def suspendSlot (slot : Nat) (sb : Super) : Super :=
  { sb with
    suspended := sb.suspended ||| (1#16 <<< slot)
    suspends := Tbl.set slot (Tbl.getD sb.suspends slot 0 + 1) sb.suspends }

/-- The superblock with the erase of a slot going on from `now`. -/
def resumeSlot (slot now : Nat) (sb : Super) : Super :=
  { sb with suspended := sb.suspended &&& ~~~(1#16 <<< slot), resumedAt := Tbl.set slot now sb.resumedAt }

section Suspend

variable (herasing : erasingSuper s gi = some (serial, sb))
include herasing

theorem eraseSuspend_suspends (hruns : sb.suspended.getLsbD slot = false) (hfew : Tbl.getD sb.suspends slot 0 < 16)
    (hran : ∀ at_, Tbl.get? sb.resumedAt slot = some at_ → at_ + 500000 ≤ s.sys.time) :
    eraseSuspend gi slot s = s.modGroup gi (PGroup.setSuper serial (suspendSlot slot sb)) := by
  simp only [eraseSuspend, herasing, hruns, Nat.not_le.2 hfew, decide_false, Bool.false_or]
  cases hresumed : Tbl.get? sb.resumedAt slot with
  | none => rfl
  | some at_ =>
    simp only [decide_eq_true (hran at_ hresumed), Bool.not_true, Bool.false_eq_true, if_false]
    rfl

theorem eraseSuspend_exhausted (hmany : 16 ≤ Tbl.getD sb.suspends slot 0) : eraseSuspend gi slot s = s := by
  simp only [eraseSuspend, herasing, decide_eq_true hmany, Bool.or_true, Bool.true_or, if_true]

theorem eraseResume_resumes (hsuspended : sb.suspended.getLsbD slot = true) :
    eraseResume gi slot s = s.modGroup gi (PGroup.setSuper serial (resumeSlot slot s.sys.time sb)) := by
  simp only [eraseResume, herasing, hsuspended, if_true]
  rfl

end Suspend

end Sys2Proof.Machine

namespace Sys2Proof

open Sys2Proof.Machine

/-- Settles O38: MED_WEAR_LOG and MED_FORMAT are taken up at once and act on the state that holds their entry; a policy takes effect
once its data has landed. -/
theorem mediaCommands : Obligations.MediaCommands := by
  refine fun s c => ⟨fun hacc => ?_, fun n l hl => medPolicyLanded_eq hl, fun hacc => ?_⟩
  · have hstart := medWearStart_eq s.nextCmd (s.entered 0x0640 c)
    exact settle_deliver_accepted hacc hstart
  · have hstart := medFormatStart_eq s.nextCmd (s.entered 0x0642 c)
    rw [← startOf_medFormat] at hstart
    exact settle_deliver_accepted hacc hstart

/-- Settles O39: a codeword by how it decoded, a wordline by whether it programmed, the hold-up store by what it can deliver; then a
collection by its victim, its moves, its erase intent and its erase. The channel that an uncorrectable codeword is logged with,
and where a unit is programmed again, are the model's choice (log row 17). -/
theorem mediaWrites : Obligations.MediaWrites := by
  refine ⟨fun s => ⟨fun vol unit v k hv hmapped => ?_, fun g slot serial sb w hopen hnext => ?_, fun mj t => ?_⟩,
    fun s g => ⟨fun e hidle hqueued => ?_, fun e hidle hnone hon hbest => ?_, fun hidle hnone hoff => ?_,
      fun serial sb hvictim hsuper hlive => ?_, fun serial sb hsuper => ?_, fun serial sb failed herasing => ?_⟩⟩
  · exact ⟨fun d => next_congr (codewordDecode_decoded hv hmapped d), next_congr (codewordDecode_rebuilt hv hmapped),
      next_congr (codewordDecode_uncorrectable hv hmapped)⟩
  · exact ⟨next_settle_congr (wordlineDone_programmed hopen hnext), next_settle_congr (wordlineDone_failed hopen hnext)⟩
  · exact ⟨fun hweak => next_settle_congr (holdupMeasure_weak hweak),
      fun hstrong => next_settle_congr (holdupMeasure_strong hstrong)⟩
  · exact next_congr (gcStart_refresh hidle hqueued)
  · exact next_congr (gcStart_best hidle hnone hon hbest)
  · exact next_congr (gcStart_enough hidle hnone hoff)
  · exact next_congr (gcMove_moves hvictim hsuper hlive)
  · exact ⟨fun hvalid => eraseIntent_refused hsuper hvalid, fun hnone => eraseIntent_begins hsuper hnone⟩
  · exact next_settle_congr (eraseDone_ends herasing)

/-- Settles O40: wear levelling by the spread of erase counts, each refresh by what makes it due, and a suspended erase by its
slot. -/
theorem mediaUpkeep : Obligations.MediaUpkeep := by
  refine fun s g t => ⟨fun e hspread hidle hleast => next_congr (wearLevel_moves hspread hidle hleast),
    fun hspread => next_congr (wearLevel_even hspread),
    fun serial sb hsuper => ⟨fun hread => ?_, fun hclosed hdue d rebuilt => ?_, fun hclosed hdue => ?_⟩,
    fun serial sb slot herasing => ⟨fun hruns hfew hran => ?_, fun hmany => ?_, fun hsuspended => ?_⟩⟩
  · exact next_congr (readRefresh_reached hsuper hread)
  · have hsuper' : Tbl.get? ((s.tick t).pgroup g.val).supers serial = some sb := by rwa [pgroup_tick]
    have hread := patrolRead_due hsuper' hclosed d.val rebuilt hdue
    exact next_congr hread
  · have hsuper' : Tbl.get? ((s.tick t).pgroup g.val).supers serial = some sb := by rwa [pgroup_tick]
    exact next_congr (retentionRefresh_due hsuper' hclosed hdue)
  · exact next_congr (eraseSuspend_suspends herasing hruns hfew hran)
  · exact next_congr (eraseSuspend_exhausted herasing hmany)
  · exact next_congr (eraseResume_resumes herasing hsuspended)

end Sys2Proof
end

section
/-! The obligation on link and directory commands (chapters 11 and 12): those that take effect as they start, and those that take
effect once their data has landed. -/

namespace Sys2Proof.Machine

variable {s : State}

/-! ## Link commands (R305 to R308) -/

/-- What LNK_CONTROL does to a link, by its op (R305). -/
def controlOps : List (Nat → State → State) :=
  [linkEnable, linkDisable, linkRetrain false, linkRetrain true, releaseQuarantine]

/-- A link with the eight values of LNK_SET_POLICY in force. -/
def setPolicy (v : List Nat) (x : Link) : Link :=
  { x with
    minWidth := max 8 (v.getD 0 0), maxWidth := v.getD 1 0, powerShed := decide (v.getD 2 0 = 1), shedOneIn := v.getD 3 0,
    qCount := v.getD 4 0, qWindow := v.getD 5 0, qHold := v.getD 6 0, stallUs := v.getD 7 0 }

/-- The entries that LNK_SET_ROUTE carries. -/
def routeEntries (l : Live) : List Nat := (List.range (l.c.dataLen.toNat / 4)).map fun i => fieldAt l.data (4 * i) 4

/-- The state with route entries written to the route table. -/
def writeRoutes (es : List Nat) (s : State) : State :=
  { s with fabric := { s.fabric with
      routes := es.foldl (fun t e => Tbl.put 0 (e % 2 ^ 20) (BitVec.ofNat 8 (bits e 20 6)) t) s.fabric.routes } }

/-- A link whose next training puts the keys and salts of LNK_SET_KEY into force (R304). -/
def offerKeys (d : List Byte) (x : Link) : Link :=
  { x with newKeys := some (sliceBytes d 0 32, sliceBytes d 36 32, BitVec.ofNat 32 (fieldAt d 32 4),
      BitVec.ofNat 32 (fieldAt d 68 4)) }

section LinkCommands

variable {n : Nat} {l : Live} (hl : s.live? n = some l)
include hl

theorem lnkQueryStart_eq :
    lnkQueryStart n s = succeed n 0 (oneSegment ((maskLinks l.c).flatMap fun i => linkStatus i s)) s := by
  simp only [lnkQueryStart, hl]

theorem lnkCountersStart_eq :
    lnkCountersStart n s =
      succeed n 0 (oneSegment ((maskLinks l.c).flatMap fun i => linkCounters i s))
        (if l.c.p1 = 1 then foldOver (maskLinks l.c) (fun i acc => countLink i (fun _ => {}) acc) s else s) := by
  simp only [lnkCountersStart, hl]

theorem lnkControlStart_eq {f : Nat → State → State} (hop : controlOps[l.c.p1.toNat]? = some f) :
    lnkControlStart n s = succeed n 0 [] (foldOver (maskLinks l.c) f s) := by
  simp only [lnkControlStart, hl, Option.map_some]
  match hp : l.c.p1.toNat, hop with
  | 0, hop | 1, hop | 2, hop | 3, hop | 4, hop =>
    cases hop
    simp only [lnkControl, hl]

/-- A policy that neither is clipped nor pins the width leaves one entry in the log. -/
theorem lnkPolicyLanded_of_ok (hok : lnkPolicyOk (lnkValues l.data) = true) (hmin : 8 ≤ (lnkValues l.data).getD 0 0)
    (hfree : (lnkValues l.data).getD 0 0 < (lnkValues l.data).getD 1 0) :
    lnkPolicyLanded n s =
      succeed n 0 [] (addLog Lc.policyChanged (originWord l.c.origin) noUnit 0 [0x0712, l.c.p0.toNat]
        (foldOver (maskLinks l.c) (fun i acc => acc.modLink i (setPolicy (lnkValues l.data))) s)) := by
  have hpinned : max 8 ((lnkValues l.data).getD 0 0) ≠ (lnkValues l.data).getD 1 0 := by
    rw [Nat.max_eq_right hmin]
    exact Nat.ne_of_lt hfree
  simp only [lnkPolicyLanded, hl, if_pos hok, if_neg (Nat.not_lt.2 hmin), if_neg hpinned]
  rfl

theorem lnkPolicyLanded_of_bad (hbad : lnkPolicyOk (lnkValues l.data) = false) :
    lnkPolicyLanded n s = fail n St.badParam 0 s := by
  simp only [lnkPolicyLanded, hl, hbad, Bool.false_eq_true, if_false]

theorem lnkRouteLanded_of_ok (hgood : ∀ e ∈ routeEntries l, e < 2 ^ 26 ∧ bits e 20 5 < 24) :
    lnkRouteLanded n s = succeed n 0 [] (writeRoutes (routeEntries l) s) := by
  have hall : (routeEntries l).all (fun e => decide (e < 2 ^ 26 ∧ bits e 20 5 < 24)) = true :=
    List.all_eq_true.2 fun e he => decide_eq_true (hgood e he)
  rw [routeEntries] at hall
  simp only [lnkRouteLanded, hl, if_pos hall]
  rfl

theorem lnkKeyLanded_eq :
    lnkKeyLanded n s =
      let i := l.c.p0.toNat
      let u := addLog Lc.keyChanged (originWord l.c.origin) (unitWord (6 + i / 12) 5 i) 0 [] (s.modLink i (offerKeys l.data))
      succeed n 0 [] ((linkDown i downControl u).modLink i fun x => { x with nextFull := !x.ringsLocked }) := by
  simp only [lnkKeyLanded, hl]
  rfl

end LinkCommands

/-! ## The group directory (R330, R331) -/

/-- The directory with the changes of a GRP_SET applied in their order. -/
def changedDir (s : State) (bs : List Byte) : List DirEntry := (grpChanges (s.fabric.dirGen + 1) bs).foldl dirApply s.fabric.dir

/-- The reserved fields of the changes are zero. -/
def zeroFields (bs : List Byte) : Bool :=
  (List.range (bs.length / 32)).all fun i =>
    decide (fieldAt bs (32 * i + 4) 4 = 0 ∧ fieldAt bs (32 * i + 24) 4 < 2 ^ 20)

/-- An entry of a directory ends at or before its first position. -/
def anyEmptyRange (dir : List DirEntry) : Bool := dir.any fun e => decide (e.stop ≤ e.first)

/-- The state with a directory of the next generation. -/
def setDir (dir : List DirEntry) (s : State) : State :=
  { s with fabric := { s.fabric with dir := dir, dirGen := s.fabric.dirGen + 1 } }

section Directory

variable {n : Nat} {l : Live} (hl : s.live? n = some l)
include hl

theorem grpSetLanded_of_reserved (hzeros : zeroFields l.data = false) : grpSetLanded n s = fail n St.violation 0 s := by
  rw [zeroFields] at hzeros
  simp only [grpSetLanded, hl, hzeros, Bool.not_false, if_true]

theorem grpSetLanded_of_bad (hzeros : zeroFields l.data = true)
    (hbad : dirOverlaps (changedDir s l.data) = true ∨ anyEmptyRange (changedDir s l.data) = true ∨
      1048576 < (changedDir s l.data).length) :
    grpSetLanded n s = fail n St.badParam 0 s := by
  rw [zeroFields] at hzeros
  rw [anyEmptyRange, changedDir] at hbad
  simp only [grpSetLanded, hl, hzeros, Bool.not_true, Bool.false_eq_true, if_false, if_pos hbad]

theorem grpSetLanded_of_ok (hzeros : zeroFields l.data = true) (happart : dirOverlaps (changedDir s l.data) = false)
    (hranges : anyEmptyRange (changedDir s l.data) = false) (hroom : (changedDir s l.data).length ≤ 1048576) :
    grpSetLanded n s =
      succeed n (s.fabric.dirGen + 1) [] (addLog Lc.configChanged (originWord l.c.origin) noUnit 0 [0x0721, s.fabric.dirGen + 1]
        (setDir (changedDir s l.data) s)) := by
  rw [zeroFields] at hzeros
  rw [changedDir] at happart hroom
  rw [anyEmptyRange, changedDir] at hranges
  simp only [grpSetLanded, hl, hzeros, happart, hranges, Nat.not_lt.2 hroom, Bool.not_true, Bool.false_eq_true, or_self, if_false]
  rfl

theorem grpLookupStart_found {e : DirEntry} (hfound : dirFind s l.c.object l.c.offset.toNat = some e) :
    grpLookupStart n s = succeed n 0 [(0, e.toBytes)] s := by
  simp only [grpLookupStart, hl, hfound]

theorem grpDumpStart_eq :
    grpDumpStart n s =
      succeed n 0 (oneSegment (((s.fabric.dir.drop l.c.offset.toNat).take l.c.length.toNat).flatMap DirEntry.toBytes)) s := by
  simp only [grpDumpStart, hl]

end Directory

end Sys2Proof.Machine

namespace Sys2Proof

open Sys2Proof.Machine

/-- Settles O41: the commands without data act on the state that holds their entry; those with data by whether what landed stands
its checks. The layouts of LNK_SET_POLICY, LNK_SET_KEY and GRP_QUERY, and that a change of keys takes the link down, are the
model's choice (log rows 11 and 13). -/
theorem linkAndGroupCommands : Obligations.LinkAndGroupCommands := by
  refine fun s c => ⟨fun hacc => ?_, fun hacc => ?_, fun hacc => ?_, fun hacc => ?_, fun hacc => ?_, fun hacc => ?_,
    fun hacc => ?_, fun n l hl => ⟨fun hok hmin hfree => ?_, fun hbad => ?_, fun hgood => ?_, ?_, fun hzeros => ?_,
      fun hzeros hbad => ?_, fun hzeros hapart hranges hroom => ?_⟩, fun e hacc hfound => ?_, fun hacc => ?_, fun hacc => ?_⟩
  · have hstart := lnkQueryStart_eq (entered_live 0x0710 c s)
    exact settle_deliver_accepted hacc hstart
  · have hstart := lnkCountersStart_eq (entered_live 0x0711 c s)
    exact settle_deliver_accepted hacc hstart
  · have hstart := lnkControlStart_eq (entered_live 0x0715 { c with p1 := 0 } s) (f := linkEnable) rfl
    exact settle_deliver_accepted hacc hstart
  · have hstart := lnkControlStart_eq (entered_live 0x0715 { c with p1 := 1 } s) (f := linkDisable) rfl
    exact settle_deliver_accepted hacc hstart
  · have hstart := lnkControlStart_eq (entered_live 0x0715 { c with p1 := 2 } s) (f := linkRetrain false) rfl
    exact settle_deliver_accepted hacc hstart
  · have hstart := lnkControlStart_eq (entered_live 0x0715 { c with p1 := 3 } s) (f := linkRetrain true) rfl
    exact settle_deliver_accepted hacc hstart
  · have hstart := lnkControlStart_eq (entered_live 0x0715 { c with p1 := 4 } s) (f := releaseQuarantine) rfl
    exact settle_deliver_accepted hacc hstart
  · exact lnkPolicyLanded_of_ok hl hok hmin hfree
  · exact lnkPolicyLanded_of_bad hl hbad
  · exact lnkRouteLanded_of_ok hl hgood
  · exact lnkKeyLanded_eq hl
  · exact grpSetLanded_of_reserved hl hzeros
  · exact grpSetLanded_of_bad hl hzeros hbad
  · exact grpSetLanded_of_ok hl hzeros hapart hranges hroom
  · have hstart := grpLookupStart_found (entered_live 0x0720 c s) hfound
    exact settle_deliver_accepted hacc hstart
  · have hstart := grpDumpStart_eq (entered_live 0x0722 c s)
    exact settle_deliver_accepted hacc hstart
  · exact settle_deliver_accepted hacc rfl

end Sys2Proof
end

section
/-! The obligation on link traffic (chapters 11 and 12): flits received and sent, acknowledgements and replay, grants, segments and
credit. -/

namespace Sys2Proof.Machine

variable {s : State} {l : Nat} {k : Link}

/-- The passing of time changes no link. -/
@[simp] theorem link_tick (s : State) (t l : Nat) : (s.tick t).link l = s.link l := by
  simp only [State.link, tick_links]

/-! ## Flits that arrive (R287 to R290) -/

section Receive

/-- A link's counters once the bytes that the FEC of a flit corrected are counted. -/
def countCorrected (chk : FlitCheck) (x : LinkCtr) : LinkCtr :=
  { x with
    corrected := x.corrected + (chk.correctedBy.map Prod.snd).sum
    perLambda := chk.correctedBy.foldl (fun t e => Tbl.put 0 e.1.val (sat32 (Tbl.getD t e.1.val 0) e.2) t) x.perLambda }

/-- A link's counters after a flit whose FEC failed. -/
def countUncorrectable (x : LinkCtr) : LinkCtr := { x with uncorrectable := x.uncorrectable + 1 }

/-- A link's counters after a flit whose CRC failed. -/
def countBadCrc (x : LinkCtr) : LinkCtr := { x with uncorrectable := x.uncorrectable + 1, crcFail := sat32 x.crcFail 1 }

/-- The CRC of a flit is that of its bytes. -/
def crcMatches (flit : List Byte) : Bool := decide ((crc32c (sliceBytes flit 0 240)).toNat = fieldAt flit 240 4)

/-- A first slot of a flit has a bit of its route word set that is reserved. -/
def badRouteWord (h : Nat) (body : List Byte) : Bool :=
  (List.range 7).any fun i => decide ((slotDesc h i).1 = 1) && decide (32 * i < body.length) &&
    decide (fieldAt body (32 * i + 7) 1 ≠ 0)

variable {flit : List Byte} {chk : FlitCheck} (hk : s.link l = k) (hup : k.st = .up)
include hk hup

theorem payloadFlit_bad_parity (hfec : chk.fecOk = false) :
    payloadFlit l flit chk s = (nackFlit l (countLink l countUncorrectable (countLink l (countCorrected chk) s)), []) := by
  simp only [payloadFlit, hk, hup, hfec, ne_eq, not_true_eq_false, false_and, if_false, Bool.not_false, if_true]
  rfl

variable (hfec : chk.fecOk = true)
include hfec

theorem payloadFlit_bad_crc (hcrc : crcMatches flit = false) :
    payloadFlit l flit chk s = (nackFlit l (countLink l countBadCrc (countLink l (countCorrected chk) s)), []) := by
  rw [crcMatches] at hcrc
  simp only [payloadFlit, hk, hup, hfec, hcrc, ne_eq, not_true_eq_false, false_and, if_false, Bool.not_true, Bool.not_false,
    Bool.false_eq_true, if_true]
  rfl

variable (hcrc : crcMatches flit = true) (htype : bits (fieldAt flit 0 16) 0 4 = 1) (hclear : k.encrypted = false)
include hcrc htype hclear

theorem payloadFlit_out_of_sequence (hseq : BitVec.ofNat 12 (bits (fieldAt flit 0 16) 4 12) ≠ k.rxSeq + 1) :
    payloadFlit l flit chk s = (nackFlit l (countLink l (countCorrected chk) s), []) := by
  rw [crcMatches] at hcrc
  simp only [payloadFlit, hk, hup, hfec, hcrc, htype, hclear, if_pos hseq, ne_eq, not_true_eq_false, false_and, if_false,
    Bool.not_true, Bool.false_eq_true]
  rfl

theorem payloadFlit_in_sequence (hseq : BitVec.ofNat 12 (bits (fieldAt flit 0 16) 4 12) = k.rxSeq + 1)
    (hroute : badRouteWord (fieldAt flit 0 16) (flitSlots k flit) = false) :
    payloadFlit l flit chk s =
      acceptFlit l (fieldAt flit 0 16) (flitSlots k flit) (countLink l (countCorrected chk) s) := by
  rw [crcMatches] at hcrc
  rw [badRouteWord] at hroute
  simp only [payloadFlit, hk, hup, hfec, hcrc, htype, hclear, hseq, hroute, ne_eq, not_true_eq_false, false_and, if_false,
    Bool.not_true, Bool.false_eq_true]
  rfl

end Receive

/-- A row for a flit takes, in order, the units that the flit completed. -/
theorem exec_payloadFlit {l : LinkIx} {flit : List Byte} {chk : FlitCheck} {a : State × List Arrived}
    (h : payloadFlit l.val flit chk s = a) :
    exec (.payloadFlitReceive l flit chk) s = .next (settle (foldOver a.2 (takeUnit l) a.1)) := by
  subst h
  rfl

/-- A row for a flit that is not accepted takes no unit. -/
theorem exec_payloadFlit_dropped {l : LinkIx} {flit : List Byte} {chk : FlitCheck} {u : State}
    (h : payloadFlit l.val flit chk s = (u, [])) : exec (.payloadFlitReceive l flit chk) s = .next (settle u) := by
  rw [exec_payloadFlit h]
  rfl

/-! ## Acknowledgement and credit (R288 to R290, R296) -/

section Acknowledge

/-- The state in which a valid flit has reached a link. -/
def hearFlit (l : Nat) (s : State) : State := s.modLink l fun x => { x with flitAt := s.sys.time }

/-- A link that sends its replay buffer again from `now` on. -/
def startReplay (now : Nat) (x : Link) : Link :=
  { x with
    resend := true, replayFails := x.replayFails + 1, ackAt := now
    ctr := { x.ctr with replays := sat32 x.ctr.replays 1 } }

variable (hk : s.link l = k) (hup : k.st = .up)
include hk hup

theorem idleFlit_taken {header : Nat} (htype : bits header 0 4 = 2) :
    idleFlit l header s = takeHeader l header (hearFlit l s) := by
  subst hk
  exact if_pos ⟨.inl hup, htype⟩

theorem replayLate_due (hdue : k.ackAt + 2000 ≤ s.sys.time) (hsome : k.replay ≠ []) (hfew : k.replayFails < 8) :
    replayLate l s = s.modLink l (startReplay s.sys.time) := by
  have hkept : k.replay.isEmpty = false := List.isEmpty_eq_false_iff.2 hsome
  simp only [replayLate, replayOnce, hk, hup, hdue, hkept, Nat.not_le.2 hfew, true_or, true_and, if_true, if_false,
    Bool.false_eq_true]
  rfl

end Acknowledge

theorem exec_creditReturn_up {l : LinkIx} (slots : List Nat) (hup : (s.link l.val).st = .up) :
    exec (.creditReturnReceive l slots) s =
      .next (addCredits l.val (slots.map fun n => n % 65536) (hearFlit l.val s)) :=
  next_congr (if_pos (.inl hup))

theorem exec_ackInterval_due {l : LinkIx} {t : Nat} (hk : (s.tick t).link l.val = k) (hup : k.st = .up) (howed : 0 < k.unacked)
    (hdue : k.ackSentAt + 50 ≤ (s.tick t).sys.time) :
    exec (.ackIntervalExpiry l t) s = .next (sendAck l.val false (s.tick t)) := by
  subst hk
  exact next_congr (if_pos ⟨.inl hup, howed, hdue⟩)

/-! ## Slots that leave (R296, R297) -/

section Send

/-- The link once one slot of a unit of its own, of class `c` and level `h`, has left for the flit being filled; `k` is the link
before, whose credit the slot took. -/
def sendOwnSlot (k : Link) (c h now : Nat) (x : OutUnit) (y : Link) : Link :=
  let rest := Tbl.getD k.credits (4 * c + h) 0 - 1
  let place := k.waiting.findIdx fun v => decide (v = x)
  { y with
    waiting := if decide (x.sent + 1 = x.slots) then y.waiting.eraseIdx place else y.waiting.set place { x with sent := x.sent + 1 }
    credits := Tbl.put 0 (4 * c + h) rest y.credits
    stalled := if rest = 0 then Tbl.set (4 * c + h) now y.stalled else y.stalled
    lastIn := if x.sent = 0 then Tbl.set (4 * c + h) 24 y.lastIn else y.lastIn
    sinceC0 := if c = 0 then 0 else y.sinceC0 + 1
    filling := y.filling ++ [((slotOf x).1 + 4 * c + 16 * h, (slotOf x).2)]
    ctr := { y.ctr with localTx := y.ctr.localTx + 32 } }

/-- The flit being filled is sent when it is full or nothing else can leave. -/
def closeIfDone (l : Nat) (s : State) : State :=
  if (if (s.link l).encrypted then 6 else 7) ≤ (s.link l).filling.length ∨ (pickSlot (s.link l)).isNone then closeFlit l s else s

variable (hk : s.link l = k) (hup : k.st = .up) (hroom : k.replay.length < 2047)
include hk hup hroom

theorem sendSlot_none (hnone : pickSlot k = none) :
    sendSlot l s = if k.filling.isEmpty then s else closeFlit l s := by
  simp only [sendSlot, hk, hup, hnone, Nat.not_le.2 hroom, ne_eq, not_true_eq_false, false_and, or_self, if_false]

theorem sendSlot_idle (hnone : pickSlot k = none) (hempty : k.filling = []) : sendSlot l s = s := by
  rw [sendSlot_none hk hup hroom hnone, hempty]
  rfl

theorem sendSlot_closes (hnone : pickSlot k = none) (hfilling : k.filling ≠ []) : sendSlot l s = closeFlit l s := by
  rw [sendSlot_none hk hup hroom hnone, if_neg (mt List.isEmpty_iff.1 hfilling)]

theorem sendSlot_own {c h : Nat} {x : OutUnit} (hpick : pickSlot k = some (c, h, x)) (hown : x.inLink = none)
    (hnoCmd : x.cmd = none) : sendSlot l s = closeIfDone l (s.modLink l (sendOwnSlot k c h s.sys.time x)) := by
  cases x
  cases hown
  cases hnoCmd
  simp only [sendSlot, hk, hup, hpick, Nat.not_le.2 hroom, ne_eq, not_true_eq_false, false_and, or_self, if_false,
    Option.getD_none, Option.isSome_none, Bool.false_eq_true]
  rfl

end Send

/-! ## Grants and request data (R318 to R321) -/

/-- The state with bytes of a command's request data at a position. -/
def landAt (n pos : Nat) (data : List Byte) (s : State) : State :=
  s.modLive n fun y => { y with segs := y.segs ++ [(pos, data)], landed := y.landed + data.length }

/-- What a segment's command does next depends on whether its data is whole. -/
theorem dataSegment_eq {n : Nat} {l : LinkIx} {src : BitVec 20} {tag : Half} {pos : Nat} {data : List Byte} {v : State}
    (hland : landSegment l src tag pos data s = v) (htag : findTag v (.fabric src l) tag = some n) :
    dataSegment l src tag pos data s = landIfFull n v := by
  simp only [dataSegment, hland, htag]

section Grants

variable {n : Nat} {x : Live} (hx : s.live? n = some x)
include hx

theorem rxGrant_held (hawaits : x.awaits = true) (hheld : grantDecision n x s = .held) : rxGrant n s = s := by
  simp only [rxGrant, hx, hawaits, hheld, if_true]

theorem rxGrant_refused {st : Half} (hawaits : x.awaits = true) (hrefused : grantDecision n x s = .refused st) :
    rxGrant n s = refuseGrant n x st s := by
  simp only [rxGrant, hx, hawaits, hrefused, if_true]

theorem rxGrant_granted {v : State} (hawaits : x.awaits = true) (hok : grantDecision n x s = .ok v) :
    rxGrant n s = recordGrant n v := by
  simp only [rxGrant, hx, hawaits, hok, if_true]

theorem grantTimeout_expired (hphase : x.phase = .collecting) (hopen : x.landed < x.granted) (hnone : x.landed = x.grantBase)
    (hdue : x.grantAt + 100000000 ≤ s.sys.time) : grantTimeout n s = blame x.c 319 (abort n St.violation s) := by
  simp only [grantTimeout, hx]
  exact if_pos ⟨hphase, hopen, hnone, hdue⟩

/-- Bytes that were granted, and that have not landed before, land. -/
theorem landBytes_lands {pos : Nat} {data : List Byte} (hphase : x.phase = .collecting) (hdata : data ≠ [])
    (hgranted : pos + data.length ≤ x.granted) (hnew : x.hasLanded pos data.length = false) :
    landBytes n pos data s = landAt n pos data s := by
  simp only [landBytes, hx, hphase, hdata, Nat.not_lt.2 hgranted, hnew, ne_eq, not_true_eq_false, and_false, or_self, if_false,
    Bool.false_eq_true]
  rfl

/-- A segment lands at the command of its source and tag. -/
theorem landSegment_lands {l : LinkIx} {src : BitVec 20} {tag : Half} {pos : Nat} {data : List Byte}
    (htag : findTag s (.fabric src l) tag = some n) (hphase : x.phase = .collecting) (hdata : data ≠ [])
    (hgranted : pos + data.length ≤ x.granted) (hnew : x.hasLanded pos data.length = false) :
    landSegment l src tag pos data s = landAt n pos data s := by
  simp only [landSegment, htag, hx, Option.any_some, hphase, or_true, decide_true, if_true]
  exact landBytes_lands hx hphase hdata hgranted hnew

theorem landIfFull_full (hphase : x.phase = .collecting) (hfull : x.full = true) :
    landIfFull n s = landedOf x.op.toNat n s := by
  simp only [landIfFull, hx]
  exact if_pos ⟨hphase, hfull⟩

theorem landIfFull_not_full (hpart : x.full = false) : landIfFull n s = s := by
  simp only [landIfFull, hx, hpart, Bool.false_eq_true, and_false, if_false]

end Grants

theorem strayReply_unknown {tag : Half} (hnone : s.fabric.issued.any (fun i => decide (i.tag = tag)) = false) :
    strayReply l tag s = violation l 321 s :=
  if_neg (by rw [hnone]; exact Bool.false_ne_true)

/-! ## Outputs without credit (R299) -/

section Stall

/-- The units of a class and level that wait on a link. -/
def stalledUnits (k : Link) (c h : Nat) : List OutUnit := k.waiting.filter fun x => decide (x.cls = c ∧ x.level = h)

/-- A unit of a class and level has waited on a link for its credit stall limit. -/
def stallDue (k : Link) (c h now : Nat) : Bool :=
  (stalledUnits k c h).any fun x => decide (x.since + k.stallUs * 1000 ≤ now)

/-- The link without the units of a class and level, a credit stall counted. -/
def dropStalled (c h : Nat) (x : Link) : Link :=
  { x with
    waiting := x.waiting.filter fun y => !decide (y.cls = c ∧ y.level = h)
    ctr := { x.ctr with creditStall := sat32 x.ctr.creditStall 1 } }

/-- A fold whose function leaves every state as it is. -/
theorem foldOver_fixed {α : Type} {f : α → State → State} {xs : List α} (h : ∀ x ∈ xs, ∀ acc, f x acc = acc) (s : State) :
    foldOver xs f s = s := by
  induction xs with
  | nil => rfl
  | cons x xs ih =>
    have hrest := ih fun y hy => h y (List.mem_cons_of_mem x hy)
    rw [foldOver] at hrest
    rw [foldOver, List.foldl_cons, h x List.mem_cons_self, hrest]

variable {c h : Nat} (hk : s.link l = k)
include hk

theorem creditStall_idle
    (hidle : k.st ≠ .up ∨ 0 < Tbl.getD k.credits (4 * c + h) 0 ∨ stallDue k c h s.sys.time = false) :
    creditStall l c h s = s := by
  rw [stallDue, stalledUnits] at hidle
  simp only [creditStall, hk]
  refine if_neg fun ⟨hup, hcredit, hdue⟩ => ?_
  obtain hdown | hcredits | hearly := hidle
  · exact hdown hup
  · exact Nat.ne_of_gt hcredits hcredit
  · rw [hearly, Bool.and_false] at hdue
    exact Bool.false_ne_true hdue

/-- Status replies that name no command leave nothing behind when they are discarded. -/
theorem creditStall_discards {z : Nat} (hup : k.st = .up) (hcredit : Tbl.getD k.credits (4 * c + h) 0 = 0)
    (hstalled : Tbl.get? k.stalled (4 * c + h) = some z) (hpast : z + k.stallUs * 1000 ≤ s.sys.time)
    (hdue : stallDue k c h s.sys.time = true)
    (hown : ∀ x ∈ stalledUnits k c h, x.inLink = none ∧ x.kind = 1 ∧ x.cmd = none) :
    creditStall l c h s = violation l 299 (s.modLink l (dropStalled c h)) := by
  rw [stallDue, stalledUnits] at hdue
  simp only [creditStall, hk, hup, hcredit, hstalled, Option.any_some, decide_eq_true hpast, hdue, Bool.and_self, and_self, if_true]
  refine congrArg (violation l 299) (foldOver_fixed (fun x hx acc => ?_) _)
  obtain ⟨hlocal, hreply, hnone⟩ := hown x hx
  simp only [hlocal, hreply, hnone, Option.isSome_none, Bool.false_eq_true, if_false, reduceCtorEq, Nat.reduceEqDiff,
    and_false]

end Stall

end Sys2Proof.Machine

namespace Sys2Proof

open Sys2Proof.Machine

/-- Settles O42: a flit by its parity, CRC and sequence number; a slot by what waits for credit; a grant by the decision of its
command, a segment by whether it makes its command's data whole, and units without credit by how long they have waited. That a
command has at most one grant outstanding is the model's choice (log row 12), and so are the slots owed to the peer (log row 13). -/
theorem linkTraffic : Obligations.LinkTraffic := by
  intro s l t k u
  have hu : u.link l.val = k := link_tick s t l.val
  refine ⟨fun flit chk hup => ⟨fun hfec => ?_, fun hfec hcrc => ?_, fun hfec hcrc htype hclear hseq => ?_,
      fun hfec hcrc htype hclear hseq hroute => ?_⟩, fun header hup htype => ?_, fun slots hup => ?_, fun hup howed hdue => ?_,
    fun hup hdue hsome hfew => ?_, fun hup hroom hnone hempty => ?_, fun hup hroom hnone hfilling => ?_,
    fun c h x hup hroom hpick hown hnoCmd => ?_, fun n x hx hawaits => ⟨fun hheld => ?_, fun st hrefused => ?_, fun v hok => ?_⟩,
    fun src tag pos data n x htag hx hphase hdata hgranted hnew => ?_, fun n x hx hphase hopen hnone hdue => ?_,
    fun tag hnone => ?_, fun cls level => ?_, fun cls level z => ?_⟩
  · exact exec_payloadFlit_dropped (payloadFlit_bad_parity rfl hup hfec)
  · exact exec_payloadFlit_dropped (payloadFlit_bad_crc rfl hup hfec hcrc)
  · exact exec_payloadFlit_dropped (payloadFlit_out_of_sequence rfl hup hfec hcrc htype hclear hseq)
  · exact exec_payloadFlit (payloadFlit_in_sequence rfl hup hfec hcrc htype hclear hseq hroute)
  · exact next_settle_congr (idleFlit_taken rfl hup htype)
  · exact exec_creditReturn_up slots hup
  · exact exec_ackInterval_due hu hup howed hdue
  · exact next_settle_congr (replayLate_due hu hup hdue hsome hfew)
  · exact next_congr (sendSlot_idle rfl hup hroom hnone hempty)
  · exact next_congr (sendSlot_closes rfl hup hroom hnone hfilling)
  · exact next_congr (sendSlot_own rfl hup hroom hpick hown hnoCmd)
  · exact next_settle_congr (rxGrant_held hx hawaits hheld)
  · exact next_settle_congr (rxGrant_refused hx hawaits hrefused)
  · exact next_settle_congr (rxGrant_granted hx hawaits hok)
  · intro v htagAfter
    have hseg := dataSegment_eq (landSegment_lands hx htag hphase hdata hgranted hnew) htagAfter
    exact ⟨fun y hy hstill hfull => next_settle_congr (hseg.trans (landIfFull_full hy hstill hfull)),
      fun y hy hpart => next_settle_congr (hseg.trans (landIfFull_not_full hy hpart))⟩
  · exact next_settle_congr (grantTimeout_expired hx hphase hopen hnone hdue)
  · exact next_settle_congr (strayReply_unknown hnone)
  · intro us hidle
    exact next_settle_congr (creditStall_idle hu hidle)
  · intro us hup hcredit hstalled hpast hdue hown
    exact next_settle_congr (creditStall_discards hu hup hcredit hstalled hpast hdue hown)

end Sys2Proof
end

section
/-! The obligation on the states of a link (chapter 11): how a link goes up and down, its rings, and the wavelengths that it sheds
and takes back. -/

namespace Sys2Proof.Machine

variable {s : State} {l : Nat} {k : Link}

/-! ## Going down (R286, R304, R308) -/

section Down

variable (hk : s.link l = k)
include hk

theorem linkIdle_silent (hdue : k.flitAt + 1000 ≤ s.sys.time) : linkIdle l s = linkDown l downIdle s := by
  subst hk
  exact if_pos hdue

theorem keyExhausted_spent (hencrypted : k.encrypted = true) (hup : k.st = .up) (hspent : 281474976710656 ≤ k.flitCtr) :
    keyExhausted l s = linkDown l downCounter (logLink Lc.linkKeyExhausted l [k.peer.toNat] s) := by
  subst hk
  exact if_pos ⟨hencrypted, .inl hup, .inl hspent⟩

end Down

theorem exec_quarantineHold_over {l : LinkIx} {t : Nat} (hk : (s.tick t).link l.val = k) (hhold : k.qHold ≠ 0)
    (hover : k.quarantinedAt.any (fun q => decide (q + k.qHold * 1000000000 ≤ (s.tick t).sys.time)) = true) :
    exec (.quarantineHoldExpiry l t) s = .next (releaseQuarantine l.val (s.tick t)) := by
  subst hk
  exact next_congr (if_pos ⟨hhold, hover⟩)

/-- The state with a package link marked down and its alternate routes installed (R20). -/
def markPackageLink (i : Nat) (s : State) : State :=
  { s with fabric := { s.fabric with
      pkgDown := s.fabric.pkgDown ||| (1#22 <<< i)
      pkgAlt := s.fabric.pkgAlt ++ [(i, (Config.pkgAlternate i).getD [])] } }

theorem packageLinkFail_first {i : Nat} (hwas : s.fabric.pkgDown.getLsbD i = false) :
    packageLinkFail i s = logHw Lc.linkDown [256 + i] (degrade (.packageLink i) (markPackageLink i s)) :=
  if_neg (by rw [hwas]; exact Bool.false_ne_true)

theorem packageLinkFail_again {i : Nat} (hwas : s.fabric.pkgDown.getLsbD i = true) : packageLinkFail i s = s := if_pos hwas

/-! ## Training (R284 to R286) -/

section Training

/-- The wavelengths on which a link may send after a training: usable at the peer, lit and not held out. -/
def trainedTx (k : Link) (r : TrainingResult) (now : Nat) : Word :=
  maskTake k.maxWidth (r.txUsable &&& laserMask k.laser &&& ~~~(k.barred now 0))

/-- The wavelengths on which a link receives after a training. -/
def trainedRx (k : Link) (r : TrainingResult) (now : Nat) : Word := maskTake k.maxWidth (r.rxUsable &&& ~~~(k.barred now 32))

/-- A link as T8 leaves it after a training that kept its keys: fresh sequence numbers and full credits (R284). -/
def bringUp (tx rx : Word) (peer : BitVec 20) (now : Nat) (x : Link) : Link :=
  { x with
    txMask := tx, rxMask := rx, peer := peer, encrypted := x.keys.isSome, newKeys := none,
    txSeq := 0, rxSeq := 0xFFF, nacked := false, replay := [], resend := false, replayFails := 0, ackAt := now,
    unacked := 0, ackSentAt := now, credits := fullCredits, owed := [], stalled := [], openRx := [],
    filling := [], trying := false, fails := 0, flitAt := now,
    sheds := Tbl.mapVals (fun _ y => if y.until_ ≤ now then { y with out := false, power := false } else y) x.sheds }

theorem trainEnds_fast (hk : s.link l = k) {r : TrainingResult} (hfast : r.full = false) (hlit : k.laser ≠ 0)
    (hrx : r.rxUsable ≠ 0) (hkeys : k.newKeys = none)
    (hgood : trainFault k r (trainedTx k r s.sys.time) (trainedRx k r s.sys.time) = none) :
    trainEnds l r s =
      undegrade (.link l) (setLinkSt l (if k.quarantinedAt.isSome then .quarantined else .up)
        (s.modLink l (bringUp (trainedTx k r s.sys.time) (trainedRx k r s.sys.time) r.peer s.sys.time))) := by
  rw [trainedTx, trainedRx] at hgood
  simp only [trainEnds, hfast, hk, hlit, hrx, hgood, hkeys, false_and, or_self, if_false, Bool.false_eq_true, Option.isSome_none,
    Bool.false_or]
  rfl

variable {l : LinkIx} {t : Nat}

theorem exec_retrainTimer_due (hk : (s.tick t).link l.val = k) (hst : k.st = .training) (hidle : k.trying = false)
    (hdue : k.nextTry ≤ (s.tick t).sys.time) :
    exec (.retrainTimer l t) s = .next (startTraining l.val k.nextFull (s.tick t)) := by
  subst hk
  exact next_congr (if_pos ⟨hst, hidle, hdue⟩)

/-- The state in which a DARK link has measured its laser input, and will in 100 ms again (R286). -/
def measureLaser (l : Nat) (laser : BitVec 8) (s : State) : State :=
  s.modLink l fun x => { x with laser := laser, nextTry := s.sys.time + 100000000 }

theorem exec_darkRetry_due (hk : (s.tick t).link l.val = k) (hst : k.st = .dark) (hdue : k.nextTry ≤ (s.tick t).sys.time)
    (laser : BitVec 8) :
    exec (.darkRetry l laser t) s =
      .next (if laser = 0 then measureLaser l.val laser (s.tick t)
        else startTraining l.val true (measureLaser l.val laser (s.tick t))) := by
  subst hk
  exact next_congr (if_pos ⟨hst, hdue⟩)

variable (htrying : k.trying = true) (hst : k.st = .training)
include htrying hst

theorem exec_trainingFrame_good (hk : s.link l.val = k) {r : TrainingResult}
    (hgood : trainFault k r r.txUsable r.rxUsable = none) :
    exec (.trainingFrameReceive l r) s =
      .next (setLinkSt l.val .training (s.modLink l.val fun x => { x with peer := r.peer })) := by
  subst hk
  refine next_congr ((if_pos ⟨htrying, .inr hst⟩).trans ?_)
  rw [hgood]

theorem exec_trainingFrame_bad (hk : s.link l.val = k) {r : TrainingResult} {why : Nat}
    (hbad : trainFault k r r.txUsable r.rxUsable = some why) (hframe : why ≠ 0) :
    exec (.trainingFrameReceive l r) s = .next (trainFails l.val why s) := by
  subst hk
  refine next_congr ((if_pos ⟨htrying, .inr hst⟩).trans ?_)
  rw [hbad]
  exact if_neg hframe

/-- The attempt that ends is full or fast as the link began it. -/
theorem exec_linkTraining_trying (hk : (s.tick t).link l.val = k) (r : TrainingResult) :
    exec (.linkTraining l r t) s = .next (trainEnds l.val { r with full := k.nextFull } (s.tick t)) := by
  subst hk
  exact next_congr (if_pos ⟨htrying, .inr hst⟩)

end Training

/-! ## Rings (R281, R282) -/

section Rings

/-- A ring that hops to the next resonance order because its loop asked for heater power `p`, up where that lies below zero; `q` is
the heater's power then. -/
def hopRing (p q : Int) (y : Ring) : Ring :=
  { y with heater := q, order := if p < 0 then y.order + 1 else y.order - 1, hopping := true, locked := false }

/-- The link on which a ring hops, the hop counted. -/
def hopLink (ring : Nat) (p q : Int) (x : Link) : Link :=
  { Link.modRing ring (hopRing p q) x with ctr := { x.ctr with hops := sat32 x.ctr.hops 1 } }

/-- The state in which a ring hops to a heater power that the manual does not give (log row 7). -/
def startHop (l ring : Nat) (p : Int) (s : State) : State :=
  { s with free := s.free + 1 }.modLink l (hopLink ring p ((Config.freeNat s.free % 8001 : Nat) : Int))

/-- The loop of a ring runs: its link is UP, and the ring neither failed nor hops. -/
structure Tracks (k : Link) (ring : Nat) : Prop where
  up : k.st = .up
  sound : (k.ring ring).failed = false
  settled : (k.ring ring).hopping = false

variable {ring : Nat} {p : Int} (hk : s.link l = k) (htracks : Tracks k ring)
include hk htracks

theorem ringTrack_in_range (hlow : 0 ≤ p) (hhigh : p ≤ 8000) :
    ringTrack l ring p s = s.modLink l (Link.modRing ring fun y => { y with heater := p }) := by
  obtain ⟨hup, hsound, hsettled⟩ := htracks
  simp only [ringTrack, hk, hup, hsound, hsettled, hlow, hhigh, reduceCtorEq, Bool.false_eq_true, or_self, and_self, if_false,
    if_true]

theorem ringTrack_out_of_range (hout : p < 0 ∨ 8000 < p) :
    ringTrack l ring p s = shedMask l (ring / 32 * 32) (1#32 <<< (ring % 32)) (startHop l ring p s) := by
  obtain ⟨hup, hsound, hsettled⟩ := htracks
  have hrange : ¬ (0 ≤ p ∧ p ≤ 8000) := by omega
  simp only [ringTrack, hk, hup, hsound, hsettled, if_neg hrange, reduceCtorEq, Bool.false_eq_true, or_self, if_false,
    decide_eq_true_eq]
  rfl

end Rings

theorem exec_ringHopComplete_hopping {l : LinkIx} {ring : Fin 64} (locked : Bool)
    (hhops : ((s.link l.val).ring ring.val).hopping = true) :
    exec (.ringHopComplete l ring locked) s = .next (s.modLink l.val fun x =>
      let y := Link.modRing ring.val (fun r => { r with hopping := false, locked := locked }) x
      { y with sheds := Tbl.modify ring.val (fun z => { z with clearAt := s.sys.time }) y.sheds }) :=
  next_congr (if_pos hhops)

/-! ## Wavelengths (R292 to R294) -/

section Wavelengths

/-- The link without the light of one wavelength at its laser input. -/
def loseLight (lam : Nat) (x : Link) : Link := { x with laser := x.laser &&& ~~~(1#8 <<< lam) }

/-- A wavelength on all four lanes (R278). -/
def onAllLanes (lam : Nat) : Word := (List.range 4).foldl (fun m a => m ||| (1#32 <<< (8 * a + lam))) 0

theorem laserLost_up {lam : Nat} {v : State} (hv : s.modLink l (loseLight lam) = v) (hup : (v.link l).st = .up) :
    laserLost l lam s = if (v.link l).laser = 0 then linkDown l downWidth v else shedMask l 0 (onAllLanes lam) v := by
  subst hv
  exact if_pos (.inl hup)

/-- The link with a transmit wavelength shed for power. -/
def shedForPower (i : Nat) (x : Link) : Link :=
  { x with sheds := Tbl.set i { x.shed i with power := true } x.sheds, ctr := { x.ctr with sheds := sat32 x.ctr.sheds 1 } }

/-- A use between the two thresholds changes no width. -/
theorem powerLoop_steady {use : Nat} (hlow : 30 ≤ use) (hhigh : use ≤ 70) : powerLoop l use s = s := by
  simp only [powerLoop, Nat.not_lt.2 hlow, Nat.not_lt.2 hhigh, false_and, if_false, ite_self]

variable (hk : s.link l = k)
include hk

theorem powerLoop_sheds {use i : Nat} (hup : k.st = .up) (hcool : lightLimited s l = false) (hlow : use < 30)
    (hon : k.powerShed = true) (hlast : (List.range 32).reverse.find? (fun i => k.txMask.getLsbD i) = some i)
    (hwide : k.minWidth < maskWidth k.txMask) :
    powerLoop l use s =
      setMasks l (k.txMask &&& ~~~(1#32 <<< i)) k.rxMask (s.modLink l (shedForPower i)) := by
  simp only [powerLoop, hk, hup, hcool, hlow, hon, hlast, hwide, ne_eq, not_true_eq_false, Bool.false_eq_true, or_self, and_self,
    if_false, if_true]
  rfl

theorem laneChanged_asked {mask : Word} (seq : BitVec 12) (hup : k.st = .up) (hother : k.laneAsk ≠ some mask) :
    laneChanged l mask seq s =
      setMasks l mask k.rxMask (s.modLink l fun x =>
        { x with controlOut := x.controlOut ++ [.laneAnswer mask x.txSeq] }) := by
  simp only [laneChanged, hk, hup, if_neg hother, ne_eq, not_true_eq_false, false_and, if_false]

end Wavelengths

end Sys2Proof.Machine

namespace Sys2Proof

open Sys2Proof.Machine

/-- Settles O43: what takes a link down and what a training attempt comes to, then the rings and wavelengths of a link by what is
found of them. The causes of LINK_DOWN, the sequence numbers after a training and that a mask too wide keeps its lowest
wavelengths are the model's choice (log row 13). -/
theorem linkStates : Obligations.LinkStates := by
  refine ⟨fun s l t => ?_, fun s l t => ?_⟩
  · intro k u
    have hu : u.link l.val = k := link_tick s t l.val
    refine ⟨rfl, fun hdue => ?_, fun hencrypted hup hspent => ?_, fun hst hidle hdue => ?_, fun laser hst hdue => ?_,
      fun r htrying hst => ⟨fun hgood => ?_, fun why hbad hframe => ?_, fun hfast hlit hrx hgood hkeys => ?_⟩,
      fun hhold hover => ?_, fun n hwas => ?_, fun n hwas => ?_⟩
    · exact next_settle_congr (linkIdle_silent hu hdue)
    · exact next_settle_congr (keyExhausted_spent rfl hencrypted hup hspent)
    · exact exec_retrainTimer_due hu hst hidle hdue
    · exact exec_darkRetry_due hu hst hdue laser
    · exact exec_trainingFrame_good htrying hst rfl hgood
    · exact exec_trainingFrame_bad htrying hst rfl hbad hframe
    · have hends := exec_linkTraining_trying htrying hst hu r
      rw [hfast] at hends
      exact hends.trans (next_congr (trainEnds_fast hu rfl hlit hrx hkeys hgood))
    · exact exec_quarantineHold_over hu hhold hover
    · exact next_settle_congr (packageLinkFail_first hwas)
    · exact next_settle_congr (packageLinkFail_again hwas)
  · intro k u
    refine ⟨fun ring p hup hsound hsettled => ⟨fun hlow hhigh => ?_, fun hout => ?_⟩, fun ring locked hhops => ?_,
      fun corrected carried weak => rfl, fun lam hup => ?_, fun i errors bytes => rfl,
      fun use i hup hcool hlow hon hlast hwide => ?_, fun use hlow hhigh => ?_, fun i => rfl, fun mask seq hup hother => ?_⟩
    · exact next_settle_congr (ringTrack_in_range rfl ⟨hup, hsound, hsettled⟩ hlow hhigh)
    · have htrack := ringTrack_out_of_range rfl ⟨hup, hsound, hsettled⟩ hout
      exact next_settle_congr htrack
    · exact exec_ringHopComplete_hopping locked hhops
    · intro v
      have hv : (v.link l.val).st = .up := by rw [link_modLink_same]; exact hup
      exact next_settle_congr ((laserLost_up rfl hv).trans (if_pos hv).symm)
    · exact next_congr (powerLoop_sheds rfl hup hcool hlow hon hlast hwide)
    · exact next_congr (powerLoop_steady hlow hhigh)
    · exact next_settle_congr (laneChanged_asked rfl seq hup hother)

end Sys2Proof
end

section
/-! The obligations on the step, on every row and on commands that wait for their data: what a step keeps of the log, the command
table, module time, the identity row and the queue. -/

namespace Sys2Proof.Machine

variable {s t : State}

/-! ## Every row but auxiliary power-up -/

/-- Every row but auxiliary power-up answers a next state, and keeps the queue, the order of the log and of the command table, the
direction of module time and the set bits of the identity row. -/
theorem exec_keeps {i : Instr} (s : State) (h : i ≠ .auxPowerUp) : ∃ t, exec i s = .next t ∧ Keeps s t :=
  match i with
  | .rowIssue .. => execRowIssue_keeps (.refl s)
  | .stallRelease .. => execStallRelease_keeps (.refl s)
  | .stitchOverrun .. => execStitchOverrun_keeps (.refl s)
  | .pass .. => execPass_keeps (.refl s)
  | .passChain .. => execPassChain_keeps (.refl s)
  | .drain .. => execDrain_keeps (.refl s)
  | .passFirstVectorEnters .. => execPassFirstVectorEnters_keeps (.refl s)
  | .arrayResultWrite .. => execArrayResultWrite_keeps (.refl s)
  | .passComplete .. => execPassComplete_keeps (.refl s)
  | .swatchThirdExecution .. => execSwatchThirdExecution_keeps (.refl s)
  | .swatchDecide .. => execSwatchDecide_keeps (.refl s)
  | .swatchReplay .. => execSwatchReplay_keeps (.refl s)
  | .load .. => execLoad_keeps (.refl s)
  | .store .. => execStore_keeps (.refl s)
  | .loadp .. => execLoadp_keeps (.refl s)
  | .storep .. => execStorep_keeps (.refl s)
  | .add .. => execAdd_keeps (.refl s)
  | .sub .. => execSub_keeps (.refl s)
  | .mul .. => execMul_keeps (.refl s)
  | .fma .. => execFma_keeps (.refl s)
  | .fnma .. => execFnma_keeps (.refl s)
  | .max .. => execMax_keeps (.refl s)
  | .min .. => execMin_keeps (.refl s)
  | .abs .. => execAbs_keeps (.refl s)
  | .sign .. => execSign_keeps (.refl s)
  | .scale .. => execScale_keeps (.refl s)
  | .div .. => execDiv_keeps (.refl s)
  | .sqrt .. => execSqrt_keeps (.refl s)
  | .bcast .. => execBcast_keeps (.refl s)
  | .movi .. => execMovi_keeps (.refl s)
  | .cmpLt .. => execCmpLt_keeps (.refl s)
  | .cmpEq .. => execCmpEq_keeps (.refl s)
  | .sel .. => execSel_keeps (.refl s)
  | .rsum .. => execRsum_keeps (.refl s)
  | .rmax .. => execRmax_keeps (.refl s)
  | .survey .. => execSurvey_keeps (.refl s)
  | .convert .. => execConvert_keeps (.refl s)
  | .padd .. => execPadd_keeps (.refl s)
  | .pmul .. => execPmul_keeps (.refl s)
  | .pfma .. => execPfma_keeps (.refl s)
  | .coef .. => execCoef_keeps (.refl s)
  | .update .. => execUpdate_keeps (.refl s)
  | .vectorRetire .. => execVectorRetire_keeps (.refl s)
  | .copy .. => execCopy_keeps (.refl s)
  | .fill .. => execFill_keeps (.refl s)
  | .prefetch .. => execPrefetch_keeps (.refl s)
  | .moveComplete .. => execMoveComplete_keeps (.refl s)
  | .wait .. => execWait_keeps (.refl s)
  | .waitClear .. => execWaitClear_keeps (.refl s)
  | .clearOp .. => execClearOp_keeps (.refl s)
  | .setOp .. => execSetOp_keeps (.refl s)
  | .waitSatisfied .. => execWaitSatisfied_keeps (.refl s)
  | .waitTimeout .. => execWaitTimeout_keeps (.refl s)
  | .endStream .. => execEndStream_keeps (.refl s)
  | .streamComplete .. => execStreamComplete_keeps (.refl s)
  | .branch .. => execBranch_keeps (.refl s)
  | .loop .. => execLoop_keeps (.refl s)
  | .ixSet .. => execIxSet_keeps (.refl s)
  | .ixAdd .. => execIxAdd_keeps (.refl s)
  | .stitch .. => execStitch_keeps (.refl s)
  | .markerSaveComplete .. => execMarkerSaveComplete_keeps (.refl s)
  | .trap .. => execTrap_keeps (.refl s)
  | .mark .. => execMark_keeps (.refl s)
  | .flagClear .. => execFlagClear_keeps (.refl s)
  | .placeTask .. => execPlaceTask_keeps (.refl s)
  | .preemptRequest .. => execPreemptRequest_keeps (.refl s)
  | .timeSliceExpiry .. => execTimeSliceExpiry_keeps (.refl s)
  | .starvationLimit .. => execStarvationLimit_keeps (.refl s)
  | .resumeStream .. => execResumeStream_keeps (.refl s)
  | .stoMap .. => execStoMap_keeps (.refl s)
  | .stoUnmap .. => execStoUnmap_keeps (.refl s)
  | .stoPin .. => execStoPin_keeps (.refl s)
  | .stoUnpin .. => execStoUnpin_keeps (.refl s)
  | .stoRead .. => execStoRead_keeps (.refl s)
  | .stoWrite .. => execStoWrite_keeps (.refl s)
  | .stoDiscard .. => execStoDiscard_keeps (.refl s)
  | .stoQuery .. => execStoQuery_keeps (.refl s)
  | .stoSetPolicy .. => execStoSetPolicy_keeps (.refl s)
  | .pageFetchStart .. => execPageFetchStart_keeps (.refl s)
  | .pageFetchComplete .. => execPageFetchComplete_keeps (.refl s)
  | .writebackComplete .. => execWritebackComplete_keeps (.refl s)
  | .freeReserveEvict .. => execFreeReserveEvict_keeps (.refl s)
  | .idleAgeExpiry .. => execIdleAgeExpiry_keeps (.refl s)
  | .tierDeadline .. => execTierDeadline_keeps (.refl s)
  | .prefetchLate .. => execPrefetchLate_keeps (.refl s)
  | .prgLoad .. => execPrgLoad_keeps (.refl s)
  | .prgRun .. => execPrgRun_keeps (.refl s)
  | .prgUnload .. => execPrgUnload_keeps (.refl s)
  | .shdCreate .. => execShdCreate_keeps (.refl s)
  | .shdDelete .. => execShdDelete_keeps (.refl s)
  | .shdSetGroups .. => execShdSetGroups_keeps (.refl s)
  | .shdSetCurve .. => execShdSetCurve_keeps (.refl s)
  | .shdImport .. => execShdImport_keeps (.refl s)
  | .shdExport .. => execShdExport_keeps (.refl s)
  | .shdPushGrad .. => execShdPushGrad_keeps (.refl s)
  | .chunkStepComplete .. => execChunkStepComplete_keeps (.refl s)
  | .stepLate .. => execStepLate_keeps (.refl s)
  | .shdCloseStepAbandon .. => execShdCloseStepAbandon_keeps (.refl s)
  | .shdCloseStepPartial .. => execShdCloseStepPartial_keeps (.refl s)
  | .shdStepStatus .. => execShdStepStatus_keeps (.refl s)
  | .shdReadWeights .. => execShdReadWeights_keeps (.refl s)
  | .shdEventReply _ _ k => execShdEventReply_keeps (a3 := k) (.refl s)
  | .shdEventTimeout .. => execShdEventTimeout_keeps (.refl s)
  | .parCreate .. => execParCreate_keeps (.refl s)
  | .parDelete .. => execParDelete_keeps (.refl s)
  | .parSetShares .. => execParSetShares_keeps (.refl s)
  | .parSetSwatch .. => execParSetSwatch_keeps (.refl s)
  | .parQuery .. => execParQuery_keeps (.refl s)
  | .ctxCreate .. => execCtxCreate_keeps (.refl s)
  | .ctxDelete .. => execCtxDelete_keeps (.refl s)
  | .ctxSet .. => execCtxSet_keeps (.refl s)
  | .ctxCounters .. => execCtxCounters_keeps (.refl s)
  | .ctxQuery .. => execCtxQuery_keeps (.refl s)
  | .srvOpen .. => execSrvOpen_keeps (.refl s)
  | .srvSubmit .. => execSrvSubmit_keeps (.refl s)
  | .srvCancel .. => execSrvCancel_keeps (.refl s)
  | .srvClose .. => execSrvClose_keeps (.refl s)
  | .batchAssemble .. => execBatchAssemble_keeps (.refl s)
  | .servingStepComplete .. => execServingStepComplete_keeps (.refl s)
  | .colCreate .. => execColCreate_keeps (.refl s)
  | .colDelete .. => execColDelete_keeps (.refl s)
  | .colSetCodebook .. => execColSetCodebook_keeps (.refl s)
  | .colSetParcels .. => execColSetParcels_keeps (.refl s)
  | .colInsert .. => execColInsert_keeps (.refl s)
  | .colRemove .. => execColRemove_keeps (.refl s)
  | .colPublish .. => execColPublish_keeps (.refl s)
  | .autoPublish .. => execAutoPublish_keeps (.refl s)
  | .colQuery .. => execColQuery_keeps (.refl s)
  | .parcelScanComplete .. => execParcelScanComplete_keeps (.refl s)
  | .survivorEvaluate .. => execSurvivorEvaluate_keeps (.refl s)
  | .colFetch .. => execColFetch_keeps (.refl s)
  | .colCompact .. => execColCompact_keeps (.refl s)
  | .graphLink .. => execGraphLink_keeps (.refl s)
  | .colStatus .. => execColStatus_keeps (.refl s)
  | .scnRun .. => execScnRun_keeps (.refl s)
  | .scanPage .. => execScanPage_keeps (.refl s)
  | .spanComplete .. => execSpanComplete_keeps (.refl s)
  | .scanSequenceFinish .. => execScanSequenceFinish_keeps (.refl s)
  | .scanComplete .. => execScanComplete_keeps (.refl s)
  | .scnCancel .. => execScnCancel_keeps (.refl s)
  | .scnStatus .. => execScnStatus_keeps (.refl s)
  | .scnCredit .. => execScnCredit_keeps (.refl s)
  | .volCreate .. => execVolCreate_keeps (.refl s)
  | .volDelete .. => execVolDelete_keeps (.refl s)
  | .volQuery .. => execVolQuery_keeps (.refl s)
  | .volDiscard .. => execVolDiscard_keeps (.refl s)
  | .volFlush .. => execVolFlush_keeps (.refl s)
  | .volRead .. => execVolRead_keeps (.refl s)
  | .volWrite .. => execVolWrite_keeps (.refl s)
  | .absorbDestage .. => execAbsorbDestage_keeps (.refl s)
  | .lseAcquire .. => execLseAcquire_keeps (.refl s)
  | .lseRelease .. => execLseRelease_keeps (.refl s)
  | .lseRead .. => execLseRead_keeps (.refl s)
  | .lseRecallAck _ _ k => execLseRecallAck_keeps (a3 := k) (.refl s)
  | .leaseRecallTimeout .. => execLeaseRecallTimeout_keeps (.refl s)
  | .leaseExpiry .. => execLeaseExpiry_keeps (.refl s)
  | .codewordDecode _ _ k _ => execCodewordDecode_keeps (a3 := k) (.refl s)
  | .wordlineProgramComplete .. => execWordlineProgramComplete_keeps (.refl s)
  | .blockEraseComplete .. => execBlockEraseComplete_keeps (.refl s)
  | .gcStart .. => execGcStart_keeps (.refl s)
  | .gcMoveCommit .. => execGcMoveCommit_keeps (.refl s)
  | .wearLevel .. => execWearLevel_keeps (.refl s)
  | .readThresholdRefresh .. => execReadThresholdRefresh_keeps (.refl s)
  | .patrolRead .. => execPatrolRead_keeps (.refl s)
  | .retentionRefresh .. => execRetentionRefresh_keeps (.refl s)
  | .eraseSuspend .. => execEraseSuspend_keeps (.refl s)
  | .eraseResume .. => execEraseResume_keeps (.refl s)
  | .holdupMeasure .. => execHoldupMeasure_keeps (.refl s)
  | .medWearLog .. => execMedWearLog_keeps (.refl s)
  | .medSetPolicy .. => execMedSetPolicy_keeps (.refl s)
  | .medFormat .. => execMedFormat_keeps (.refl s)
  | .payloadFlitReceive .. => execPayloadFlitReceive_keeps (.refl s)
  | .idleFlitReceive .. => execIdleFlitReceive_keeps (.refl s)
  | .trainingFrameReceive .. => execTrainingFrameReceive_keeps (.refl s)
  | .creditReturnReceive .. => execCreditReturnReceive_keeps (.refl s)
  | .laneChange .. => execLaneChange_keeps (.refl s)
  | .linkDownNotice .. => execLinkDownNotice_keeps (.refl s)
  | .replayTimeout .. => execReplayTimeout_keeps (.refl s)
  | .linkIdleTimeout .. => execLinkIdleTimeout_keeps (.refl s)
  | .retrainTimer .. => execRetrainTimer_keeps (.refl s)
  | .darkRetry .. => execDarkRetry_keeps (.refl s)
  | .linkTraining .. => execLinkTraining_keeps (.refl s)
  | .laserLoss .. => execLaserLoss_keeps (.refl s)
  | .ringTrackTick .. => execRingTrackTick_keeps (.refl s)
  | .ringHopComplete .. => execRingHopComplete_keeps (.refl s)
  | .shedCheck .. => execShedCheck_keeps (.refl s)
  | .wavelengthRestore .. => execWavelengthRestore_keeps (.refl s)
  | .powerShedTick .. => execPowerShedTick_keeps (.refl s)
  | .creditStallTimeout .. => execCreditStallTimeout_keeps (.refl s)
  | .linkKeyExhausted .. => execLinkKeyExhausted_keeps (.refl s)
  | .quarantineHoldExpiry .. => execQuarantineHoldExpiry_keeps (.refl s)
  | .slotSend .. => execSlotSend_keeps (.refl s)
  | .dataSegmentReceive .. => execDataSegmentReceive_keeps (.refl s)
  | .rxGrant .. => execRxGrant_keeps (.refl s)
  | .grantDataTimeout .. => execGrantDataTimeout_keeps (.refl s)
  | .strayReplyReceive .. => execStrayReplyReceive_keeps (.refl s)
  | .packageLinkFail .. => execPackageLinkFail_keeps (.refl s)
  | .lnkQuery .. => execLnkQuery_keeps (.refl s)
  | .lnkCounters .. => execLnkCounters_keeps (.refl s)
  | .lnkSetPolicy .. => execLnkSetPolicy_keeps (.refl s)
  | .lnkSetRoute .. => execLnkSetRoute_keeps (.refl s)
  | .lnkSetKey .. => execLnkSetKey_keeps (.refl s)
  | .lnkEnable .. => execLnkEnable_keeps (.refl s)
  | .lnkDisable .. => execLnkDisable_keeps (.refl s)
  | .lnkFastTraining .. => execLnkFastTraining_keeps (.refl s)
  | .lnkFullTraining .. => execLnkFullTraining_keeps (.refl s)
  | .lnkReleaseQuarantine .. => execLnkReleaseQuarantine_keeps (.refl s)
  | .grpLookup .. => execGrpLookup_keeps (.refl s)
  | .grpSet .. => execGrpSet_keeps (.refl s)
  | .grpDump .. => execGrpDump_keeps (.refl s)
  | .grpQuery .. => execGrpQuery_keeps (.refl s)
  | .mgtIdentify .. => execMgtIdentify_keeps (.refl s)
  | .mgtLogRead .. => execMgtLogRead_keeps (.refl s)
  | .logBatchWrite .. => execLogBatchWrite_keeps (.refl s)
  | .fwStage .. => execFwStage_keeps (.refl s)
  | .fwCommit .. => execFwCommit_keeps (.refl s)
  | .fwAbort .. => execFwAbort_keeps (.refl s)
  | .fwQuery .. => execFwQuery_keeps (.refl s)
  | .cfgRead .. => execCfgRead_keeps (.refl s)
  | .cfgWrite .. => execCfgWrite_keeps (.refl s)
  | .cfgSelect .. => execCfgSelect_keeps (.refl s)
  | .cfgSetAccess .. => execCfgSetAccess_keeps (.refl s)
  | .secOtpWrite .. => execSecOtpWrite_keeps (.refl s)
  | .errQuery .. => execErrQuery_keeps (.refl s)
  | .errInject .. => execErrInject_keeps (.refl s)
  | .errSetPolicy .. => execErrSetPolicy_keeps (.refl s)
  | .errReinstate .. => execErrReinstate_keeps (.refl s)
  | .errScan .. => execErrScan_keeps (.refl s)
  | .structuralScan .. => execStructuralScan_keeps (.refl s)
  | .wordRemapped .. => execWordRemapped_keeps (.refl s)
  | .frameRetire .. => execFrameRetire_keeps (.refl s)
  | .eccReadRaw .. => execEccReadRaw_keeps (.refl s)
  | .eccWriteSplit .. => execEccWriteSplit_keeps (.refl s)
  | .eccWrite .. => execEccWrite_keeps (.refl s)
  | .eccRead .. => execEccRead_keeps (.refl s)
  | .watchdog .. => execWatchdog_keeps (.refl s)
  | .engineReset .. => execEngineReset_keeps (.refl s)
  | .engineReopen .. => execEngineReopen_keeps (.refl s)
  | .suspectReplay .. => execSuspectReplay_keeps (.refl s)
  | .escalationTimer .. => execEscalationTimer_keeps (.refl s)
  | .partitionReset .. => execPartitionReset_keeps (.refl s)
  | .bindOffDrainExpiry .. => execBindOffDrainExpiry_keeps (.refl s)
  | .moduleReset .. => execModuleReset_keeps (.refl s)
  | .contextReleaseTimeout .. => execContextReleaseTimeout_keeps (.refl s)
  | .pwrCycleIgnored .. => execPwrCycleIgnored_keeps (.refl s)
  | .rcvResetContext .. => execRcvResetContext_keeps (.refl s)
  | .rcvResetEngine .. => execRcvResetEngine_keeps (.refl s)
  | .rcvResetPartition .. => execRcvResetPartition_keeps (.refl s)
  | .rcvResetModule .. => execRcvResetModule_keeps (.refl s)
  | .rcvQuery .. => execRcvQuery_keeps (.refl s)
  | .rcvRelease .. => execRcvRelease_keeps (.refl s)
  | .rcvDump .. => execRcvDump_keeps (.refl s)
  | .rcvDumpRead .. => execRcvDumpRead_keeps (.refl s)
  | .auxPowerUp => absurd rfl h
  | .auxPowerLoss => execAuxPowerLoss_keeps (.refl s)
  | .mainPowerFail .. => execMainPowerFail_keeps (.refl s)
  | .mainPowerReturn .. => execMainPowerReturn_keeps (.refl s)
  | .supplyOvervoltage .. => execSupplyOvervoltage_keeps (.refl s)
  | .supplyLow .. => execSupplyLow_keeps (.refl s)
  | .supplyHigh .. => execSupplyHigh_keeps (.refl s)
  | .castOn .. => execCastOn_keeps (.refl s)
  | .castOnStepEnd .. => execCastOnStepEnd_keeps (.refl s)
  | .refclkLost .. => execRefclkLost_keeps (.refl s)
  | .refclkRestored .. => execRefclkRestored_keeps (.refl s)
  | .refclkLock .. => execRefclkLock_keeps (.refl s)
  | .gateTimer .. => execGateTimer_keeps (.refl s)
  | .retainTimer .. => execRetainTimer_keeps (.refl s)
  | .dieWake .. => execDieWake_keeps (.refl s)
  | .dieWakeComplete .. => execDieWakeComplete_keeps (.refl s)
  | .capLoopTick .. => execCapLoopTick_keeps (.refl s)
  | .thermalLoopTick .. => execThermalLoopTick_keeps (.refl s)
  | .thermalLimit .. => execThermalLimit_keeps (.refl s)
  | .thermalTrip .. => execThermalTrip_keeps (.refl s)
  | .coolantHot .. => execCoolantHot_keeps (.refl s)
  | .coolantFlowLow .. => execCoolantFlowLow_keeps (.refl s)
  | .pwrQuery .. => execPwrQuery_keeps (.refl s)
  | .pwrSetPolicy .. => execPwrSetPolicy_keeps (.refl s)
  | .pwrSetDieState .. => execPwrSetDieState_keeps (.refl s)
  | .pwrSetStateOff .. => execPwrSetStateOff_keeps (.refl s)
  | .pwrSetStateOn .. => execPwrSetStateOn_keeps (.refl s)
  | .shutdownDrainTimeout .. => execShutdownDrainTimeout_keeps (.refl s)
  | .dieBlockEnWrite .. => execDieBlockEnWrite_keeps (.refl s)
  | .ctlqSqTail .. => execCtlqSqTail_keeps (.refl s)
  | .ctlqCqHead .. => execCtlqCqHead_keeps (.refl s)
  | .ctlqEnable .. => execCtlqEnable_keeps (.refl s)
  | .ctlqDisable .. => execCtlqDisable_keeps (.refl s)
  | .sqEntryTake .. => execSqEntryTake_keeps (.refl s)
  | .sqFetchFail .. => execSqFetchFail_keeps (.refl s)
  | .requestDataRead .. => execRequestDataRead_keeps (.refl s)
  | .completionWrite .. => execCompletionWrite_keeps (.refl s)
  | .cqEventWrite .. => execCqEventWrite_keeps (.refl s)
  | .cqAggTimer .. => execCqAggTimer_keeps (.refl s)
  | .rsltRelease .. => execRsltRelease_keeps (.refl s)
  | .evtForce .. => execEvtForce_keeps (.refl s)
  | .evtEnableWrite .. => execEvtEnableWrite_keeps (.refl s)
  | .modTimeLowRead => execModTimeLowRead_keeps (.refl s)
  | .modEpochOffsetWrite .. => execModEpochOffsetWrite_keeps (.refl s)
  | .mbxHostWrite .. => execMbxHostWrite_keeps (.refl s)
  | .mbxModuleWrite .. => execMbxModuleWrite_keeps (.refl s)
  | .mbxTake .. => execMbxTake_keeps (.refl s)
  | .mbxClrOverruns .. => execMbxClrOverruns_keeps (.refl s)
  | .functionReset .. => execFunctionReset_keeps (.refl s)
  | .registerWrite .. => execRegisterWrite_keeps (.refl s)
  | .sectorProgram .. => execSectorProgram_keeps (.refl s)
  | .blockErase .. => execBlockErase_keeps (.refl s)
  | .cflEraseSuspend a => execCflEraseSuspend_keeps (a1 := a) (.refl s)
  | .cflEraseResume a => execCflEraseResume_keeps (a1 := a) (.refl s)
  | .otpEnter .. => execOtpEnter_keeps (.refl s)
  | .otpExit .. => execOtpExit_keeps (.refl s)
  | .cflReset a => execCflReset_keeps (a1 := a) (.refl s)
  | .cflOperationComplete .. => execCflOperationComplete_keeps (.refl s)
  | .cflFetchDuringErase .. => execCflFetchDuringErase_keeps (.refl s)
  | .getVersion .. => execGetVersion_keeps (.refl s)
  | .getCapabilities .. => execGetCapabilities_keeps (.refl s)
  | .negotiateAlgorithms .. => execNegotiateAlgorithms_keeps (.refl s)
  | .getDigests .. => execGetDigests_keeps (.refl s)
  | .getCertificate .. => execGetCertificate_keeps (.refl s)
  | .challenge .. => execChallenge_keeps (.refl s)
  | .getMeasurements .. => execGetMeasurements_keeps (.refl s)
  | .keyExchange .. => execKeyExchange_keeps (.refl s)
  | .pldmSensorRead .. => execPldmSensorRead_keeps (.refl s)
  | .pldmFirmwareUpdate .. => execPldmFirmwareUpdate_keeps (.refl s)
  | .msixUnmask .. => execMsixUnmask_keeps (.refl s)
  | .pcieLinkUp => execPcieLinkUp_keeps (.refl s)
  | .d3hotTransition .. => execD3hotTransition_keeps (.refl s)
  | .ackIntervalExpiry .. => execAckIntervalExpiry_keeps (.refl s)
  | .shedHoldExpiry .. => execShedHoldExpiry_keeps (.refl s)
  | .coolantFlowRestored .. => execCoolantFlowRestored_keeps (.refl s)
  | .coolantInletShutdown .. => execCoolantInletShutdown_keeps (.refl s)
  | .energyChargeTick .. => execEnergyChargeTick_keeps (.refl s)
  | .scanPeriodExpiry .. => execScanPeriodExpiry_keeps (.refl s)
  | .setEndpointId .. => execSetEndpointId_keeps (.refl s)
  | .setdasa .. => execSetdasa_keeps (.refl s)

/-! ## Auxiliary power-up (R409) -/

theorem auxUp_of_present (h : s.sys.aux = true) : auxUp s = s := by simp [auxUp, h]

@[simp] theorem auxUp_pending (s : State) : (auxUp s).pending = s.pending := by
  simp only [auxUp]
  split <;> rfl

@[simp] theorem auxUp_castOns (s : State) : (auxUp s).sys.castOns = s.sys.castOns := by
  simp only [auxUp]
  split <;> rfl

@[simp] theorem auxUp_stepping (s : State) : (auxUp s).sys.stepping = s.sys.stepping := by
  simp only [auxUp]
  split <;> rfl

@[simp] theorem auxUp_slotId (s : State) : (auxUp s).sys.slotId = s.sys.slotId := by
  simp only [auxUp]
  split <;> rfl

@[simp] theorem auxUp_otp (s : State) : (auxUp s).sec.otp = s.sec.otp := by
  simp only [auxUp]
  split <;> rfl

/-- The log ring starts afresh at power-up and the lasting log stands, so a log in order stays in order. -/
theorem auxUp_log_ok (h : s.log.Ok) : (auxUp s).log.Ok := by
  obtain ⟨-, -, -, -, hlasting⟩ := id h
  simp only [auxUp]
  split
  · exact h
  · exact ⟨Nat.zero_le _, rfl, rfl, Nat.zero_le _, hlasting⟩

theorem auxUp_cmdsOk (h : s.CmdsOk) : (auxUp s).CmdsOk := by
  simp only [auxUp]
  split <;> exact h

theorem exec_auxPowerUp_keeps (s : State) : ∃ t, exec .auxPowerUp s = .next t ∧ Keeps (auxUp s) t :=
  ⟨_, rfl, settle_keeps (.refl (auxUp s))⟩

/-! ## Every row -/

/-- The state from which a row's changes are ones that `Keeps` allows: auxiliary power-up first starts the module afresh. -/
def rowStart (i : Instr) (s : State) : State := if i = .auxPowerUp then auxUp s else s

theorem exec_keeps_rowStart (i : Instr) (s : State) : ∃ t, exec i s = .next t ∧ Keeps (rowStart i s) t := by
  unfold rowStart
  by_cases h : i = .auxPowerUp
  · subst h
    simpa only [if_pos] using exec_auxPowerUp_keeps s
  · simpa only [if_neg h] using exec_keeps s h

theorem rowStart_inv (i : Instr) (h : s.Inv) : (rowStart i s).Inv := by
  unfold rowStart
  split
  · exact ⟨auxUp_log_ok h.1, auxUp_cmdsOk h.2⟩
  · exact h

theorem rowStart_of_aux (i : Instr) (h : s.sys.aux = true) : rowStart i s = s := by
  simp [rowStart, auxUp_of_present h]

@[simp] theorem rowStart_pending (i : Instr) (s : State) : (rowStart i s).pending = s.pending := by
  simp only [rowStart, apply_ite State.pending, auxUp_pending, ite_self]

/-- The state from which a step's changes are ones that `Keeps` allows. -/
theorem step_keeps_from (h : step s = .next t) :
    (s.pending = [] ∧ Keeps s t) ∨ ∃ i rest, s.pending = i :: rest ∧ Keeps (rowStart i { s with pending := rest }) t := by
  unfold step at h
  split at h
  case _ hidle =>
    cases h
    exact .inl ⟨hidle, idle_keeps (.refl s)⟩
  case _ i rest hfront =>
    obtain ⟨u, hu, hkeeps⟩ := exec_keeps_rowStart i { s with pending := rest }
    rw [hu] at h
    cases h
    exact .inr ⟨i, rest, hfront, hkeeps⟩

/-! ## The identity row (R436) -/

/-- A step from auxiliary power-up or from any other row leaves the bits of the identity row, the count of cast-ons and the straps
where they stood, or further on. -/
theorem rowStart_identity (i : Instr) (s : State) :
    (rowStart i s).sec.otp = s.sec.otp ∧ (rowStart i s).sys.castOns = s.sys.castOns ∧
      (rowStart i s).sys.stepping = s.sys.stepping ∧ (rowStart i s).sys.slotId = s.sys.slotId := by
  unfold rowStart
  split <;> simp

/-- Two of three bits decide a majority. -/
theorem majority_eq (x y z : Bool) :
    (x && y || y && z || x && z) =
      decide (2 ≤ (if x = true then 1 else 0) + (if y = true then 1 else 0) + (if z = true then 1 else 0)) := by
  decide +revert

/-- A bit of the identity row is the majority of the row's three copies. -/
theorem getLsbD_otpByte (s : State) (a i : Nat) :
    let copy (n : Nat) : Nat := if (Mem.read (s.sec.otp.getD n []) a).getLsbD i then 1 else 0
    (otpByte s a).getLsbD i = decide (2 ≤ copy 0 + copy 1 + copy 2) := by
  simp only [otpByte, BitVec.getLsbD_or, BitVec.getLsbD_and]
  exact majority_eq _ _ _

theorem otpWriteLanded_of_clear {n : Nat} {l : Live} (hl : s.live? n = some l)
    (hclear : (List.zip (otpBytes s l.c.offset.toNat l.data.length) l.data).any (fun e => decide (e.1 &&& ~~~e.2 ≠ 0)) = true) :
    otpWriteLanded n s = fail n St.notPermitted 0 s := by
  simp only [otpWriteLanded, hl, hclear, if_true]

/-! ## The empty queue and the commands' rows -/

theorem step_of_empty (h : s.pending = []) : step s = .next (idle s) := by
  unfold step
  rw [h]

/-- The row of a command delivers it by its opcode. -/
theorem exec_of_command {op : Nat} {i : Instr} {c : Capsule} (h : i.command = some (op, c)) (s : State) :
    exec i s = .next (settle (deliver op c s)) := by
  unfold Instr.command at h
  split at h <;> cases h <;> rfl

end Sys2Proof.Machine

namespace Sys2Proof

open Sys2Proof.Machine

/-- Settles O4: the state that a row starts from is in order, and what follows keeps the order. -/
theorem stepKeepsLogAndCommandTable : Obligations.StepKeepsLogAndCommandTable := by
  intro s t hs hstep
  obtain ⟨-, hk⟩ | ⟨i, rest, -, hk⟩ := step_keeps_from hstep
  · exact ⟨hk.log hs.1, hk.cmds hs.2⟩
  · have hstart := rowStart_inv i (s := { s with pending := rest }) hs
    exact ⟨hk.log hstart.1, hk.cmds hstart.2⟩

/-- Settles O5: with auxiliary power present no row starts module time afresh. -/
theorem moduleTimeNeverRunsBack : Obligations.ModuleTimeNeverRunsBack := by
  intro s t haux hstep
  obtain ⟨-, hk⟩ | ⟨i, rest, -, hk⟩ := step_keeps_from hstep
  · exact hk.time
  · have hstart := rowStart_of_aux (s := { s with pending := rest }) i haux
    exact (hstart ▸ hk).time

/-- Settles O6: auxiliary power-up leaves the row, the cast-ons and the straps as they are, and every other change only sets bits;
then a bit as a majority, a write that clears a bit, and the log entry of a write. -/
theorem identityRowOnlyGainsOnes : Obligations.IdentityRowOnlyGainsOnes := by
  refine ⟨fun s t hstep => ?_, rfl, getLsbD_otpByte, fun s n l hl hclear => otpWriteLanded_of_clear hl hclear,
    fun o a bs s => ⟨_, rfl⟩⟩
  obtain ⟨-, hk⟩ | ⟨i, rest, -, hk⟩ := step_keeps_from hstep
  · exact ⟨hk.otp, hk.casts, hk.straps⟩
  · obtain ⟨hotp, hcasts, hstepping, hslot⟩ := rowStart_identity i { s with pending := rest }
    exact ⟨hotp ▸ hk.otp, hcasts ▸ hk.casts, hk.straps.1.trans hstepping, hk.straps.2.trans hslot⟩

/-- Settles O7: the queue stands in every row, and auxiliary power-up leaves it too. -/
theorem everyRowRunsAndKeepsTheQueue : Obligations.EveryRowRunsAndKeepsTheQueue := by
  intro i s
  obtain ⟨t, ht, hk⟩ := exec_keeps_rowStart i s
  exact ⟨t, ht, hk.queue.trans (rowStart_pending i s)⟩

/-- Settles O1: the row at the front runs, by the definition of a step. -/
theorem stepRunsTheFront : Obligations.StepRunsTheFront := fun _ _ _ => rfl

/-- Settles O2: an empty queue idles. That a step without a row lets one nanosecond pass is the model's choice (log row 2). -/
theorem idleOnlyPassesTime : Obligations.IdleOnlyPassesTime := fun _ hempty => step_of_empty hempty

/-- Settles O10: the command is delivered, and its entry is the one of a command taken up at once. -/
theorem acceptedCommandStarts : Obligations.AcceptedCommandStarts :=
  fun op _ c s hcmd hacc =>
    ⟨(exec_of_command hcmd s).trans (settle_deliver_accepted hacc rfl), entered_live op c s⟩

/-- Settles O29: each of the commands starts by waiting for its data. -/
theorem commandsAwaitTheirData : Obligations.CommandsAwaitTheirData := by
  intro c s x hx hdata hacc
  obtain ⟨hcmd, landed, hstart⟩ : x.2.command = some (x.1, c) ∧ ∃ landed, startOf x.1 = withData awaitData landed := by
    simp only [List.mem_cons, List.not_mem_nil, or_false] at hx
    obtain rfl | rfl | rfl | rfl | rfl | rfl | rfl | rfl | rfl | rfl | rfl | rfl | rfl | rfl | rfl | rfl |
      rfl | rfl | rfl | rfl | rfl | rfl := hx <;> exact ⟨rfl, _, rfl⟩
  have hawaits : startOf x.1 s.nextCmd (s.entered x.1 c) = s.entered x.1 c := by
    rw [hstart]
    exact withData_awaits (entered_live x.1 c s) hdata
  exact (exec_of_command hcmd s).trans (settle_deliver_accepted hacc hawaits)

end Sys2Proof
end

section
/-! The obligation on the swatch procedure (chapter 14): a comparison that fails, the third execution, the decision between both
versions and the replay. -/

namespace Sys2Proof.Machine

variable {s : State} {d : Nat} {x : Stream} {w : Swatch}

@[simp] theorem dieIx_val (d : DieIx) : dieIx d.val = d := Fin.ext (Nat.mod_eq_of_lt d.isLt)

/-! ## A comparison that fails (R89, R384) -/

/-- What the procedure keeps of a first mismatch: the pair, both versions and the place of the pass. -/
def newSwatch (c sw : Nat) (p : Pass) (prim dup : List Byte) : Swatch :=
  { prim := c, dup := sw, primBytes := prim, dupBytes := dup, logical := p.logical, ordinal := p.ordinal, vec := p.next, step := 1,
    third := none }

/-- The state in which both clusters of a mismatch are out of service, and the mismatch is logged. -/
def logMismatch (d c sw : Nat) (p : Pass) (x : Stream) (s : State) : State :=
  takeOut (.cluster (dieIx d) (clusterIx sw)) (takeOut (.cluster (dieIx d) (clusterIx c))
    (addLog Lc.swatchMismatch 0x50000000 (unitWord d 1 c) (ctxWord (some x.ctx.toNat) none) [c, sw, p.plan.toNat, p.next] s))

theorem swatchMismatch_first {c sw : Nat} {p : Pass} {prim dup : List Byte} (hx : (s.die d).stream = some x)
    (hfirst : x.mismatches = 0) :
    swatchMismatch d c sw p prim dup s =
      (logMismatch d c sw p x s).modDie d fun y =>
        { y.abandon with stream := some { x with swatch := some (newSwatch c sw p prim dup), mismatches := x.mismatches + 1 } } := by
  simp [swatchMismatch, hx, hfirst, logMismatch, newSwatch]

/-! ## The third execution, the decision and the replay (R384, R385) -/

section Procedure

variable (hx : (s.die d).stream = some x) (hw : x.swatch = some w)
include hx hw

/-- The clusters that may take the logical clusters beside the third execution's. -/
def thirdOthers (s : State) (d t : Nat) (w : Swatch) : List Nat :=
  (List.range 16).filter fun c => ((inServiceClusters s d).contains c || c == w.dup) && c != t

/-- The stream's clusters with the primary's logical cluster on `t`. -/
def thirdMap (s : State) (d t : Nat) (x : Stream) (w : Swatch) : List Nat :=
  (List.range x.map.length).map fun i =>
    if i = w.logical then t else (thirdOthers s d t w).getD (if i < w.logical then i else i - 1) 16

theorem thirdExecution_replays {t : Nat} {r : List Nat} (hstep : w.step = 1)
    (hthird : (inServiceClusters s d).filter (fun c => decide (w.prim < c)) ++ inServiceClusters s d = t :: r)
    (hroom : x.map.length ≤ (thirdOthers s d t w).length + 1) :
    thirdExecution d s =
      replayOn d { x with map := thirdMap s d t x w, swatch := some { w with step := 2, third := some t } } s := by
  have hfits : ¬ (thirdOthers s d t w).length + 1 < x.map.length := Nat.not_lt.mpr hroom
  unfold thirdOthers at hfits
  simp only [thirdExecution, hx, hw, hstep, hthird, List.head?_cons, thirdMap, thirdOthers, hfits, ne_eq, not_true_eq_false,
    if_false]

theorem swatchDecide_third {bs f : List Byte} (hstep : w.step = 2) (hthird : thirdVector s d w (w.third.getD 16) = some bs) :
    swatchDecide d f true false false s =
      if flipped bs f = w.primBytes ∧ flipped bs f ≠ w.dupBytes then retirePair d w.dup w.prim x w s
      else retirePair d w.prim w.dup x w s := by
  simp only [swatchDecide, hx, hw, hstep, hthird]
  by_cases hdup : flipped bs f = w.dupBytes <;> simp [hdup]

theorem swatchReplay_plain {m : List Nat} (hstep : w.step = 4) (hm : clusterMap s d x.map.length false = some m) :
    swatchReplay d s = replayOn d { x with map := m, swatch := none } s := by
  simp [swatchReplay, hx, hw, hstep, hm]

end Procedure

end Sys2Proof.Machine

namespace Sys2Proof

open Sys2Proof.Machine

/-- Settles O26: a mismatch that is the stream's first, then the third execution, the decision and the replay by the step that the
procedure has reached. -/
theorem swatchProcedure : Obligations.SwatchProcedure := by
  intro s d x hx
  refine ⟨fun c p prim dup sw hfirst => ?_, fun w t r hw hstep hthird => ?_, fun w bs f hw hstep hthird => ?_,
    fun w m hw hstep hm => ?_⟩
  · rw [swatchMismatch_first hx hfirst, logMismatch, dieIx_val]
    rfl
  · intro others hroom
    exact next_settle_congr (thirdExecution_replays hx hw hstep hthird hroom)
  · exact next_settle_congr (congrArg dropUnplaceable (swatchDecide_third hx hw hstep hthird))
  · exact next_settle_congr (swatchReplay_plain hx hw hstep hm)

end Sys2Proof
end

section
/-! The obligation on the ECC test port (chapter 14): a gated block, the causes of a refusal, and what each of the four operations
does. -/

namespace Sys2Proof.Machine

variable {s : State} {d op : Nat} {r : EccReq} {u : HwUnit}

/-! ## What stops an operation (R375, R418) -/

theorem eccPort_gated (hu : eccUnit d r = some u) (hoff : s.enabled u = false) :
    eccPort op d r s = if r.futis.isSome then s else logUnit Lc.blockGated u [] s := by
  simp only [eccPort, hu, hoff, Option.filter_some, Bool.not_false, if_true]

theorem eccRefusal_not_permitted (h : eccPermitted d r s = false) : eccRefusal op d r s = some 1 := by
  simp [eccRefusal, h]

section Permitted

variable (hperm : eccPermitted d r s = true)
include hperm

theorem eccRefusal_out_of_range (h : eccInRange r = false) : eccRefusal op d r s = some 3 := by
  simp [eccRefusal, hperm, h]

theorem eccRefusal_busy (hin : eccInRange r = true) (h : eccBusy d r s = true) : eccRefusal op d r s = some 2 := by
  simp [eccRefusal, hperm, hin, h]

theorem eccRefusal_full (hin : eccInRange r = true) (hidle : eccBusy d r s = false)
    (hfull : 16 ≤ (s.errs.injected.filter fun e => decide (e.die = d)).length)
    (hnew : s.errs.injected.any (fun e => e.names d r) = false) : eccRefusal 1 d r s = some 2 := by
  simp [eccRefusal, hperm, hin, hidle, hfull, hnew]

theorem eccRefusal_none (hin : eccInRange r = true) (hidle : eccBusy d r s = false)
    (hroom : op = 1 → (s.errs.injected.filter fun e => decide (e.die = d)).length < 16) : eccRefusal op d r s = none := by
  have hfits : ¬ (op = 1 ∧ 16 ≤ (s.errs.injected.filter fun e => decide (e.die = d)).length ∧
      !(s.errs.injected.any fun e => e.names d r)) := fun h => absurd h.2.1 (Nat.not_le.mpr (hroom h.1))
  simp only [eccRefusal, hperm, hin, hidle, hfits, Bool.not_true, Bool.false_eq_true, if_false]

end Permitted

/-! ## The four operations (R374, R375) -/

/-- The words of a request, as many as its target takes. -/
def eccRequestWords (r : EccReq) : List Dword := (r.data ++ List.replicate 8 0).take (eccWords r.target)

/-- The state in which the word is not on the injection list. -/
def unlistWord (d : Nat) (r : EccReq) (s : State) : State :=
  { s with errs := { s.errs with injected := s.errs.injected.filter fun e => !e.names d r } }

/-- The state in which the word is at the end of the injection list, with the check bits of the request. -/
def listWord (d : Nat) (r : EccReq) (s : State) : State :=
  let e : Injected :=
    { die := d, target := targetCode r.target, unit := r.unit.toNat, addr := r.addr.toNat, data := eccRequestWords r,
      chk := if r.target = .hbm then r.chk else r.chk &&& 0xFF }
  { s with errs := { s.errs with injected := s.errs.injected ++ [e] } }

section Enabled

variable (hon : ∀ u, eccUnit d r = some u → s.enabled u = true)
include hon

theorem eccUnit_filter_gated : ((eccUnit d r).filter fun u => !s.enabled u) = none := by
  cases hu : eccUnit d r with
  | none => rfl
  | some u => simp [hon u hu]

theorem eccPort_refused {cause : Nat} (h : eccRefusal op d r s = some cause) : eccPort op d r s = refusePort d cause r s := by
  simp only [eccPort, eccUnit_filter_gated hon, h]

theorem eccPort_writeSplit (h : eccRefusal 1 d r s = none) :
    eccPort 1 d r s = setPort d (eccStat 0 false 0 0x7F) r.chk r.data
      (listWord d r (unlistWord d r (eccPut d r (eccRequestWords r) s))) := by
  simp only [eccPort, eccUnit_filter_gated hon, h, if_true, listWord, unlistWord, eccRequestWords]

theorem eccPort_write (h : eccRefusal 2 d r s = none) :
    eccPort 2 d r s =
      setPort d (eccStat 0 false 0 0x7F) r.chk r.data (unlistWord d r (eccPut d r (eccRequestWords r) s)) := by
  simp [eccPort, eccUnit_filter_gated hon, h, unlistWord, eccRequestWords]

theorem eccPort_readRaw (h : eccRefusal 0 d r s = none) :
    eccPort 0 d r s =
      setPort d (eccStat 0 false 0 0x7F) (eccStored d r s).2.2 (eccStored d r s).2.1 (eccStored d r s).1 := by
  simp [eccPort, eccUnit_filter_gated hon, h]

theorem eccPort_read_word (h : eccRefusal 3 d r s = none) (hword : r.target ≠ .hbm) :
    eccPort 3 d r s =
      let q := eccStored d r s
      let f := checkWord (q.2.1.headD 0) q.2.2
      setPort d (eccStat f.1 false 0 f.2.1) (if f.1 = 1 then eccChk r.target [f.2.2] else q.2.2) [f.2.2] q.1 := by
  simp [eccPort, eccUnit_filter_gated hon, h, hword]

theorem eccPort_read_line (h : eccRefusal 3 d r s = none) (hline : r.target = .hbm) :
    eccPort 3 d r s =
      let q := eccStored d r s
      let f := checkLine q.2.1 q.2.2
      setPort d (eccStat f.1 false 0 f.2.1) (if f.1 = 1 then eccChk .hbm f.2.2 else q.2.2) f.2.2 q.1 := by
  simp [eccPort, eccUnit_filter_gated hon, h, hline]

end Enabled

theorem eccStored_of_unlisted (h : eccListed d r (eccData d r s).2 s = none) :
    eccStored d r s = ((eccData d r s).1, (eccData d r s).2, eccChk r.target (eccData d r s).2) := by
  simp only [eccStored, h]

/-- What is stored are the data held at the address, with the check bits of the injection list or else those of the data. -/
theorem eccStored_eq (d : Nat) (r : EccReq) (s : State) :
    eccStored d r s = ((eccData d r s).1, (eccData d r s).2,
      match eccListed d r (eccData d r s).2 s with
      | some e => e.chk
      | none => eccChk r.target (eccData d r s).2) := by
  simp only [eccStored]
  split <;> simp_all

end Sys2Proof.Machine

namespace Sys2Proof

open Sys2Proof.Machine

/-- Settles O44: a gated block and the causes of a refusal for any operation, then each operation that nothing refuses. What the
port reads of a memory that is kept nowhere else, and that a READ does not write back, is the model's choice (log row 21). -/
theorem testPort : Obligations.TestPort := by
  intro s d r at_
  refine ⟨fun x hx => ?_, fun hon hfree hin => ?_⟩
  · have hrun : exec x.2 s = .next (eccPort x.1 d.val r (at_ x.1)) := by
      simp only [List.mem_cons, List.not_mem_nil, or_false] at hx
      obtain rfl | rfl | rfl | rfl := hx <;> rfl
    simp only [hrun]
    refine ⟨fun u hu hoff => next_congr (eccPort_gated hu hoff), fun hon => ⟨fun hperm => ?_, fun hperm hout => ?_,
      fun hperm hin hbusy => ?_⟩⟩
    · exact next_congr (eccPort_refused hon (eccRefusal_not_permitted hperm))
    · exact next_congr (eccPort_refused hon (eccRefusal_out_of_range hperm hout))
    · exact next_congr (eccPort_refused hon (eccRefusal_busy hperm hin hbusy))
  · intro ws off
    have hgo {op : Nat} (hop : op ≠ 1) : eccRefusal op d.val r (at_ op) = none :=
      eccRefusal_none (hfree op).1 hin (hfree op).2 fun h => absurd h hop
    refine ⟨fun hfull hnew => ?_, fun hroom => ?_, ?_, ?_, fun hword hnone => ?_, fun hline => ?_⟩
    · exact next_congr (eccPort_refused (hon 1) (eccRefusal_full (hfree 1).1 hin (hfree 1).2 hfull hnew))
    · exact next_congr (eccPort_writeSplit (hon 1) (eccRefusal_none (hfree 1).1 hin (hfree 1).2 fun _ => hroom))
    · exact next_congr (eccPort_write (hon 2) (hgo (by decide)))
    · refine next_congr ((eccPort_readRaw (hon 0) (hgo (by decide))).trans ?_)
      rw [eccStored_eq] <;> rfl
    · refine next_congr ((eccPort_read_word (hon 3) (hgo (by decide)) hword).trans ?_)
      rw [eccStored_of_unlisted hnone]
    · exact next_congr (eccPort_read_line (hon 3) (hgo (by decide)) hline)

end Sys2Proof
end

section
/-! The obligation on control queues (chapter 13): doorbells, CTLQ_CFG, submission entries, completions, events, the aggregation timer
and the request data of packets. -/

namespace Sys2Proof.Machine

variable {s : State} {n : Nat} {v : Word}

/-! ## Rows of BAR0 while the PCIe link is down (R336) -/

/-- What a register's row does while the PCIe link is up. -/
theorem next_of_pcieUp {u : State} (hup : s.sys.pcieUp = true) :
    (.next (if s.sys.pcieUp then u else s) : Host.Outcome State Fault Refusal) = .next u := next_congr (if_pos hup)

/-- A register's row is discarded while the PCIe link is down. -/
theorem next_of_pcieDown {u : State} (hdown : s.sys.pcieUp = false) :
    (.next (if s.sys.pcieUp then u else s) : Host.Outcome State Fault Refusal) = .next s :=
  next_congr (if_neg (by simp [hdown]))

/-! ## Doorbells (R345, R346, R353) -/

theorem sqTail_not_served (h : (s.queue n).served = false) : sqTail n v s = s := by simp [sqTail, h]

theorem cqHead_not_served (h : (s.queue n).served = false) : cqHead n v s = s := by simp [cqHead, h]

section Served

variable (hserved : (s.queue n).served = true)
include hserved

theorem sqTail_beyond (h : (s.queue n).depth ≤ v.toNat % 4096) : sqTail n v s = stopQueue n 3 s := by
  simp [sqTail, hserved, h]

theorem sqTail_within (h : v.toNat % 4096 < (s.queue n).depth) :
    sqTail n v s = s.modQueue n fun x => { x with tail := v.toNat % 4096 } := by
  simp [sqTail, hserved, Nat.not_le.mpr h]

theorem cqHead_beyond (h : (s.queue n).cqSize ≤ v.toNat % 8192) : cqHead n v s = stopQueue n 3 s := by
  simp [cqHead, hserved, h]

theorem cqHead_within (h : v.toNat % 8192 < (s.queue n).cqSize) :
    cqHead n v s = s.modQueue n fun x =>
      { x with cqHead := v.toNat % 8192, written := x.written.drop ((v.toNat % 8192 + x.cqSize - x.cqHead) % x.cqSize) } := by
  simp [cqHead, hserved, Nat.not_le.mpr h]

end Served

/-! ## CTLQ_CFG (R345) -/

/-- The bits of CTLQ_CFG that hold the depth. -/
def depthMask : Word := 0x1FFE

/-- CTLQ_CFG as a write leaves it: the depth moves only while the queue is open to it. -/
def newCfg (q : CtlQ) (v : Word) : Word := if q.open' then v else (v &&& ~~~depthMask) ||| (q.cfg &&& depthMask)

/-- A queue that is served from index 0. -/
def servedAfresh (cfg : Word) (x : CtlQ) : CtlQ :=
  { x with cfg := cfg, sqHead := 0, tail := 0, cqHead := 0, cqTail := 0, phase := true, written := [], unsignalled := 0,
           cqDead := false }

/-- A queue with a new CTLQ_CFG that is not taken up: an error ends where nothing is outstanding. -/
def storeCfg (cfg : Word) (x : CtlQ) : CtlQ :=
  if !cfg.getLsbD 0 && decide (x.outstanding = 0) then { x with cfg := cfg, error := false, cause := 0 } else { x with cfg := cfg }

/-- A write of CTLQ_CFG leaves bit 0 as it is written. -/
theorem getLsbD_newCfg_enable (q : CtlQ) (v : Word) : (newCfg q v).getLsbD 0 = v.getLsbD 0 := by
  unfold newCfg
  split
  · rfl
  · simp [depthMask]

section Disabled

variable (hoff : (s.queue n).enable = false) (hrise : v.getLsbD 0 = true)
include hoff hrise

theorem writeCfg_at_rest (herror : (s.queue n).error = false) (hnone : (s.queue n).outstanding = 0) :
    writeCfg n v s = s.modQueue n (servedAfresh v) := by
  have hopen : (s.queue n).open' = true := by simp [CtlQ.open', CtlQ.served, CtlQ.draining, hoff, herror, hnone]
  have hidle : (s.queue n).draining = false := by simp [CtlQ.draining, hnone]
  simp only [writeCfg, hopen, if_true, hrise, hoff, hidle, herror, Bool.not_false, Bool.and_self, Bool.or_self,
    Bool.and_false, Bool.false_eq_true, if_false]
  rfl

theorem writeCfg_held_back (hheld : (s.queue n).error = true ∨ 0 < (s.queue n).outstanding) :
    writeCfg n v s = s.modQueue n fun x =>
      { x with cfg := ((v &&& ~~~depthMask) ||| ((s.queue n).cfg &&& depthMask)) &&& ~~~1#32 } := by
  have hclosed : (s.queue n).open' = false := by
    obtain h | h := hheld <;> simp [CtlQ.open', CtlQ.draining, hoff, h]
  have hstop : ((s.queue n).draining || (s.queue n).error) = true := by
    obtain h | h := hheld <;> simp [CtlQ.draining, hoff, h]
  have hcfg := getLsbD_newCfg_enable (s.queue n) v
  simp only [newCfg, hclosed, Bool.false_eq_true, if_false, depthMask, hrise] at hcfg
  simp only [writeCfg, hclosed, Bool.false_eq_true, if_false, hcfg, hoff, hstop, Bool.not_false, Bool.and_self, if_true,
    depthMask]

end Disabled

theorem writeCfg_clears (hon : (s.queue n).enable = true) :
    writeCfg n v s = s.modQueue n (storeCfg (newCfg (s.queue n) v)) := by
  simp only [writeCfg, hon, Bool.not_true, Bool.and_false, Bool.false_and, Bool.false_eq_true, if_false]
  rfl

/-! ## Submission entries (R346 to R348, R353) -/

/-- The state in which the oldest entry of a queue is fetched. -/
def fetchEntry (n : Nat) (s : State) : State := s.modQueue n fun x => { x with sqHead := (x.sqHead + 1) % x.depth }

section Entries

variable {q : QueueIx} {packet : List Byte}

theorem takeEntry_held (h : mayTake q.val s = false) : takeEntry q packet s = s := by simp [takeEntry, h]

theorem takeEntry_wrong_type (h : mayTake q.val s = true) (htype : fieldAt packet 8 1 ≠ 1) :
    takeEntry q packet s =
      refuse (opcodeOf packet) (capsuleOf (.ctlq q) packet) (St.violation, 0) (fetchEntry q.val s) := by
  simp [takeEntry, h, htype, fetchEntry]

theorem takeEntry_command (h : mayTake q.val s = true) (htype : fieldAt packet 8 1 = 1) :
    takeEntry q packet s = deliver (opcodeOf packet) (capsuleOf (.ctlq q) packet) (fetchEntry q.val s) := by
  simp [takeEntry, h, htype, fetchEntry]

theorem exec_sqFetchFail_not_served (write : Bool) (h : (s.queue q.val).served = false) :
    exec (.sqFetchFail q write) s = .next s := next_congr (if_neg (by simp [h]))

theorem exec_sqFetchFail_served (write : Bool) (h : (s.queue q.val).served = true) :
    exec (.sqFetchFail q write) s = .next (stopQueue q.val (if write then 2 else 1)
      (s.modQueue q.val fun x => { x with cqDead := x.cqDead || write })) := next_congr (if_pos h)

end Entries

/-! ## Completions (R350, R353, R356) -/

/-- The completion entry of an answer, with `count` bytes in its slot. -/
def doneEntry (d : CqDone) (used : Bool) (count : Nat) : CqEntry :=
  { sqHead := 0, phase := false, slot := d.slot, slotUsed := used, kind := 1, opcode := d.opcode, tag := d.tag,
    status := d.status, detail := d.detail, count := BitVec.ofNat 32 count }

/-- The slot of an answer as DONE. -/
def doneSlot (d : CqDone) (x : Slot) : Slot :=
  { state := 2, status := d.status, length := (d.data.take 4096).length, tag := d.tag, opcode := d.opcode, seq := x.seq + 1,
    payload := d.data.take 4096 }

/-- The state in which the oldest answer of a queue is taken up, and its command has left the table. -/
def takeDone (n : Nat) (d : CqDone) (more : List CqDone) (s : State) : State :=
  let w := s.modQueue n fun x => { x with done := more, outstanding := x.outstanding - 1 }
  { w with cmds := Tbl.erase d.seq w.cmds }

theorem completionWrite_none (h : (s.queue n).done = []) : completionWrite n s = s := by simp [completionWrite, h]

theorem completionWrite_unreachable (h : s.sys.d3hot = true ∨ s.sys.pcieUp = false) : completionWrite n s = s := by
  simp only [completionWrite, if_pos h]
  split <;> rfl

section Answer

variable {d : CqDone} {more : List CqDone} (hdone : (s.queue n).done = d :: more) (hd0 : s.sys.d3hot = false)
  (hup : s.sys.pcieUp = true) (hlive : d.wasLive = true)
include hdone hd0 hup hlive

theorem completionWrite_discards (hdead : (s.queue n).cqDead = true) (hslot : d.slotEn = true) :
    completionWrite n s = restQueue n ((takeDone n d more s).modSlot (64 * n + d.slot.toNat) fun x =>
      { x with state := 0, status := 0 }) := by
  simp [completionWrite, hdone, hd0, hup, hlive, hdead, hslot, takeDone]

theorem completionWrite_with_slot (hserved : (s.queue n).cqDead = false) (hslot : d.slotEn = true) :
    completionWrite n s = restQueue n (writeEntry n (doneEntry d true (d.data.take 4096).length)
      ((takeDone n d more s).modSlot (64 * n + d.slot.toNat) (doneSlot d))) := by
  simp only [completionWrite, hdone, hd0, hup, hlive, hserved, hslot, Bool.true_eq_false, Bool.false_eq_true, or_self, if_false,
    Bool.and_self, if_true]
  rfl

theorem completionWrite_without_slot (hserved : (s.queue n).cqDead = false) (hslot : d.slotEn = false) :
    completionWrite n s = restQueue n (writeEntry n (doneEntry d false 0) (takeDone n d more s)) := by
  simp only [completionWrite, hdone, hd0, hup, hlive, hserved, hslot, Bool.true_eq_false, Bool.false_eq_true, or_self, if_false,
    Bool.false_and, if_true]
  rfl

end Answer

/-! ## The aggregation timer and events (R351, R352) -/

section Timer

variable {q : QueueIx} {t : Nat}

theorem exec_cqAggTimer_not_due
    (h : ((s.tick t).queue q.val).irqEn = false ∨ ((s.tick t).queue q.val).unsignalled = 0 ∨
      ((s.tick t).queue q.val).aggTime = 0 ∨
      (s.tick t).sys.time < ((s.tick t).queue q.val).firstAt + 4000 * ((s.tick t).queue q.val).aggTime) :
    exec (.cqAggTimer q t) s = .next (s.tick t) := by
  refine next_congr (if_neg ?_)
  rintro ⟨hirq, hsome, hagg, hdue⟩
  obtain h | h | h | h := h
  · simp [h] at hirq
  all_goals omega

theorem exec_cqAggTimer_due (hirq : ((s.tick t).queue q.val).irqEn = true) (hsome : 0 < ((s.tick t).queue q.val).unsignalled)
    (hagg : 0 < ((s.tick t).queue q.val).aggTime)
    (hdue : ((s.tick t).queue q.val).firstAt + 4000 * ((s.tick t).queue q.val).aggTime ≤ (s.tick t).sys.time) :
    exec (.cqAggTimer q t) s = .next (signalQueue q.val (s.tick t)) := next_congr (if_pos ⟨hirq, hsome, hagg, hdue⟩)

end Timer

theorem eventWrite_held (h : (s.queue n).events = [] ∨ s.sys.d3hot = true) : eventWrite n s = s := by
  obtain h | h := h
  · simp [eventWrite, h]
  · simp only [eventWrite, h, if_true]
    split <;> rfl

section Event

variable {code : Half} {value : Dword} {object : Word} {more : List (Half × Dword × Word)}
  (hevents : (s.queue n).events = (code, value, object) :: more) (hd0 : s.sys.d3hot = false)
include hevents hd0

theorem eventWrite_room (hroom : (s.queue n).load + 1 ≤ (s.queue n).cqSize) (hon : (s.queue n).enable = true)
    (hserved : (s.queue n).cqDead = false) (hup : s.sys.pcieUp = true) :
    eventWrite n s = writeEntry n
      { sqHead := 0, phase := false, slot := 0, slotUsed := false, kind := 4, opcode := code, tag := 0, status := 0,
        detail := value, count := object } (s.modQueue n fun x => { x with events := more }) := by
  simp [eventWrite, hevents, hd0, hroom, hon, hserved, hup]

theorem eventWrite_lost (h : (s.queue n).cqSize < (s.queue n).load + 1 ∨ (s.queue n).enable = false ∨
      (s.queue n).cqDead = true ∨ s.sys.pcieUp = false) :
    eventWrite n s = addLog Lc.cqEventLost (0x10000000#32 + BitVec.ofNat 32 n) noUnit 0 [n]
      (setFlag Ev.cqEventLost (s.modQueue n fun x => { x with events := more })) := by
  have hfull : ¬ ((s.queue n).load + 1 ≤ (s.queue n).cqSize ∧ (s.queue n).enable = true ∧ (s.queue n).cqDead = false ∧
      s.sys.pcieUp = true) := by
    rintro ⟨hroom, hon, hserved, hup⟩
    obtain h | h | h | h := h
    · omega
    all_goals simp_all
  simp only [eventWrite, hevents, hd0, Bool.false_eq_true, if_false, if_neg hfull]

end Event

/-! ## Request data of packets (R349) -/

/-- An origin without a node and a link is none of the fabric. -/
theorem origin_ne_fabric {o : Origin} (h : fabricOf o = none) (node : BitVec 20) (k : LinkIx) : o = .fabric node k → False := by
  rintro rfl
  cases h

section RequestData

variable {l : Live} {bs : List Byte}

theorem requestDataRead_unknown {data : Option (List Byte)} (h : s.live? n = none) : requestDataRead n data s = s := by
  simp [requestDataRead, h]

/-- The state in which all request data of a command is read. -/
def readWhole (n : Nat) (bs : List Byte) (now : Nat) (s : State) : State :=
  s.modLive n fun x =>
    { x with granted := bs.length, landed := bs.length, segs := [(0, bs)], grantAt := now, phase := .collecting }

/-- What a whole read leaves, by what the grant decides. -/
def afterGrant (n : Nat) (bs : List Byte) (s : State) : Grant → State
  | .held => s
  | .refused st => abort n st s
  | .ok w => landIfFull n (readWhole n bs s.sys.time w)

variable (hl : s.live? n = some l) (horigin : fabricOf l.c.origin = none) (hawaits : l.awaits = true)
include hl horigin hawaits

theorem requestDataRead_failed : requestDataRead n none s = fail n St.violation 4 (stopWork n s) := by
  cases ho : l.c.origin with
  | fabric node k => exact absurd ho (origin_ne_fabric horigin node k)
  | _ => simp [requestDataRead, hl, hawaits, ho]

theorem requestDataRead_part (hpart : bs.length ≠ l.c.dataLen.toNat) : requestDataRead n (some bs) s = s := by
  cases ho : l.c.origin with
  | fabric node k => exact absurd ho (origin_ne_fabric horigin node k)
  | _ => simp [requestDataRead, hl, hawaits, ho, hpart]

theorem requestDataRead_whole (hwhole : bs.length = l.c.dataLen.toNat) :
    requestDataRead n (some bs) s = afterGrant n bs s (grantDecision n l s) := by
  cases ho : l.c.origin with
  | fabric node k => exact absurd ho (origin_ne_fabric horigin node k)
  | _ =>
    simp only [requestDataRead, hl, hawaits, ho, hwhole, afterGrant, readWhole]
    cases grantDecision n l s <;> simp

end RequestData

end Sys2Proof.Machine

namespace Sys2Proof

open Sys2Proof.Machine

/-- Settles O52: doorbells and CTLQ_CFG by whether the queue is served, entries by the packet's type, completions and events by whether
the completion queue can be written, the timer by what has passed, and request data by what the grant decides. That an enable is not
taken up while the queue drains or stands stopped, and the room that a refused packet takes, is the model's choice (log row 19). -/
theorem controlQueues : Obligations.ControlQueues := by
  intro s n v t q at_ stop
  refine ⟨fun hdown i hi => ?_, fun hup => ⟨fun hserved => ⟨?_, ?_⟩, fun hserved => ⟨fun h => ?_, fun h => ?_, fun h => ?_,
      fun h => ?_⟩, fun hoff herror hnone => ?_, fun hoff hheld => ?_, fun hon => ?_⟩, fun packet => ⟨fun h => ?_, fun h => ?_⟩,
    fun hserved w => exec_sqFetchFail_not_served w hserved,
    fun hserved => ⟨exec_sqFetchFail_served false hserved, exec_sqFetchFail_served true hserved⟩, ?_, fun h => ?_,
    fun code value object more hevents hd0 => ⟨fun hroom hon hserved hup => ?_, fun h => ?_⟩, fun k data => ⟨fun h => ?_,
      fun l hl horigin hawaits => ⟨fun hdata => ?_, fun bs hdata hpart => ?_, fun bs hdata hwhole hg => ?_,
        fun bs st hdata hwhole hg => ?_, fun bs w hdata hwhole hg => ?_⟩⟩⟩
  · simp only [List.mem_cons, List.not_mem_nil, or_false] at hi
    obtain rfl | rfl | rfl | rfl := hi <;> exact next_of_pcieDown hdown
  · exact (next_of_pcieUp hup).trans (next_congr (sqTail_not_served hserved))
  · exact (next_of_pcieUp hup).trans (next_congr (cqHead_not_served hserved))
  · exact (next_of_pcieUp hup).trans (next_congr (sqTail_beyond hserved h))
  · exact (next_of_pcieUp hup).trans (next_congr (sqTail_within hserved h))
  · exact (next_of_pcieUp hup).trans (next_congr (cqHead_beyond hserved h))
  · exact (next_of_pcieUp hup).trans (next_congr (cqHead_within hserved h))
  · exact (next_of_pcieUp hup).trans (next_congr (writeCfg_at_rest hoff (by simp) herror hnone))
  · exact (next_of_pcieUp hup).trans (next_congr (writeCfg_held_back hoff (by simp) hheld))
  · exact (next_of_pcieUp hup).trans (next_congr (writeCfg_clears hon))
  · exact next_settle_congr (takeEntry_held h)
  · exact ⟨fun htype => next_settle_congr (takeEntry_wrong_type h htype),
      fun htype => next_settle_congr (takeEntry_command h htype)⟩
  · intro u p rest
    refine ⟨fun h => next_congr (completionWrite_none h), fun h => next_congr (completionWrite_unreachable h),
      fun d more hdone hd0 hup hlive => ⟨fun hdead hslot => ?_, fun hserved hslot => ?_, fun hserved hslot => ?_⟩,
      fun h => exec_cqAggTimer_not_due h, fun hirq hsome hagg hdue => exec_cqAggTimer_due hirq hsome hagg hdue⟩
    · exact next_congr (completionWrite_discards hdone hd0 hup hlive hdead hslot)
    · exact next_congr (completionWrite_with_slot hdone hd0 hup hlive hserved hslot)
    · exact next_congr (completionWrite_without_slot hdone hd0 hup hlive hserved hslot)
  · exact next_congr (eventWrite_held h)
  · exact next_congr (eventWrite_room hevents hd0 hroom hon hserved hup)
  · exact next_congr (eventWrite_lost hevents hd0 h)
  · exact next_settle_congr (requestDataRead_unknown h)
  · subst hdata
    exact next_settle_congr (requestDataRead_failed hl horigin hawaits)
  · subst hdata
    exact next_settle_congr (requestDataRead_part hl horigin hawaits hpart)
  all_goals
    subst hdata
    exact next_settle_congr ((requestDataRead_whole hl horigin hawaits hwhole).trans (congrArg (afterGrant _ _ _) hg))

end Sys2Proof
end

section
/-! The obligations on the registers of the function (chapter 13): the release of a result slot, module time, events, MSI-X, mailboxes,
function resets, and writes of 4 and 8 bytes. -/

namespace Sys2Proof.Machine

variable {s : State} {v : Word} {i j : Nat}

/-! ## Reads of a slot (R355, R357) -/

theorem fieldAt_zero_of_zeros {bs : List Byte} {pos n : Nat} (h : ∀ b ∈ sliceBytes bs pos n, b = 0) : fieldAt bs pos n = 0 := by
  unfold fieldAt
  generalize sliceBytes bs pos n = cs at h
  induction cs with
  | nil => rfl
  | cons c cs ih =>
    have hc : c = 0 := h c List.mem_cons_self
    rw [leNat, hc, ih fun b hb => h b (List.mem_cons_of_mem _ hb)]
    rfl

theorem slotPayload_of_not_done (h : (s.slot i).state ≠ 2) (pos : Nat) : slotPayload s i pos = 0 :=
  if_neg fun hp => h hp.1

/-- The first word of a slot's header holds its state and its status. -/
theorem bar0Read_slotHeader (hi : i < 4096) : bar0Read (0x30000 + 16 * i) s = wordAt (slotHeader (s.slot i)) 0 := by
  have hoff (n : Nat) (hn : n < 0x30000) : ¬ 0x30000 + 16 * i = n := by omega
  have hin : 0x30000 ≤ 0x30000 + 16 * i ∧ 0x30000 + 16 * i < 0x40000 := by omega
  have hix : (0x30000 + 16 * i - 0x30000) / 16 = i := by omega
  have hmod : (0x30000 + 16 * i) % 16 = 0 := by omega
  have hevt : ¬ 0x30000 + 16 * i < 0x1180 := by omega
  have hvec : ¬ 0x30000 + 16 * i < 0x1280 := by omega
  have hctlq : ¬ 0x30000 + 16 * i < 0x3000 := by omega
  have hmbx : ¬ 0x30000 + 16 * i < 0x10200 := by omega
  simp only [bar0Read, hoff, Nat.reduceLT, false_or, hevt, hvec, hctlq, hmbx, and_false, if_false, hin, and_self, if_true, hix,
    hmod]

/-- A word of a slot's payload. -/
theorem bar0Read_slotPayload (hi : i < 4096) (hj : j < 1024) :
    bar0Read (0x1000000 + 4096 * i + 4 * j) s = wordAt ((List.range 4).map fun k => slotPayload s i (4 * j + k)) 0 := by
  have hoff (n : Nat) (hn : n < 0x1000000) : ¬ 0x1000000 + 4096 * i + 4 * j = n := by omega
  have hbelow (n : Nat) (hn : n < 0x1000000) : ¬ 0x1000000 + 4096 * i + 4 * j < n := by omega
  have hin : 0x1000000 ≤ 0x1000000 + 4096 * i + 4 * j ∧ 0x1000000 + 4096 * i + 4 * j < 0x2000000 := by omega
  have hix : (0x1000000 + 4096 * i + 4 * j - 0x1000000) / 4096 = i := by omega
  have hpos : (0x1000000 + 4096 * i + 4 * j) % 4096 = 4 * j := by omega
  simp only [bar0Read, hoff, hbelow, Nat.reduceLT, false_or, and_false, if_false, hin, and_self, if_true, hix, hpos]

/-- A slot that is FREE with status 0. -/
def SlotFree (s : State) (i : Nat) : Prop := (s.slot i).state = 0 ∧ (s.slot i).status = 0

theorem slotHeader_reads_free (h : SlotFree s i) (hi : i < 4096) : bar0Read (0x30000 + 16 * i) s = 0 := by
  obtain ⟨hstate, hstatus⟩ := h
  rw [bar0Read_slotHeader hi, wordAt, fieldAt_zero_of_zeros, BitVec.ofNat_eq_ofNat]
  simp [sliceBytes, slotHeader, leBytes, hstate, hstatus]

theorem slotPayload_reads_free (h : SlotFree s i) (hi : i < 4096) (hj : j < 1024) :
    bar0Read (0x1000000 + 4096 * i + 4 * j) s = 0 := by
  have hzero (pos : Nat) : slotPayload s i pos = 0 := slotPayload_of_not_done (by rw [h.1]; decide) pos
  rw [bar0Read_slotPayload hi hj, wordAt, fieldAt_zero_of_zeros, BitVec.ofNat_eq_ofNat]
  simp [sliceBytes, hzero, List.range_succ]

/-! ## Releases (R358) -/

/-- A slot as a release leaves it. -/
def freedSlot (x : Slot) : Slot := { x with state := 0, status := 0, length := 0, payload := [] }

/-- A state with a bad release recorded. -/
def recordBadRelease (i : Nat) (s : State) : State :=
  { s with host := { s.host with badRelease := true, badSlot := BitVec.ofNat 12 i } }

theorem releaseSlot_done (h : (s.slot (v.toNat % 4096)).state = 2) :
    releaseSlot v s = s.modSlot (v.toNat % 4096) freedSlot := if_pos h

theorem releaseSlot_bad (h : (s.slot (v.toNat % 4096)).state ≠ 2) :
    releaseSlot v s = setFlag Ev.releaseError (recordBadRelease (v.toNat % 4096) s) :=
  if_neg h

theorem slotFree_modSlot_freed (s : State) (i : Nat) : SlotFree (s.modSlot i freedSlot) i := by
  simp [SlotFree, freedSlot]

/-- A vector's signal changes MSI-X alone. -/
theorem signalVector_host (x : BitVec 6) (s : State) : ∃ m, (signalVector x s).host = { s.host with msix := m } := by
  unfold signalVector
  dsimp only
  split <;> exact ⟨_, rfl⟩

/-- Setting a flag changes events and MSI-X alone, and the flag stands. -/
theorem setFlag_host (k : Nat) (s : State) :
    ∃ e m, (setFlag k s).host = { s.host with evt := e, msix := m } ∧ e.flags = s.host.evt.flags ||| (1#32 <<< k) := by
  unfold setFlag
  dsimp only
  split
  · obtain ⟨m, hm⟩ := signalVector_host _ _
    exact ⟨_, m, hm, rfl⟩
  · exact ⟨_, _, rfl, rfl⟩

theorem setFlag_slot (k : Nat) (s : State) (i : Nat) : (setFlag k s).slot i = s.slot i := by
  obtain ⟨e, m, h, -⟩ := setFlag_host k s
  simp only [State.slot, h]

/-! ## Mailboxes (R359, R360) -/

section Mailbox

variable {n : Nat}

theorem mbxSend_full (h : (s.mailbox n).full = true) :
    mbxSend n v s = s.modMailbox n fun x =>
      { x with overruns := if x.overruns = 0xFFFF then x.overruns else x.overruns + 1 } := by
  simp only [mbxSend, h, if_true]

theorem mbxSend_empty (h : (s.mailbox n).full = false) :
    mbxSend n v s =
      let z := s.modMailbox n fun x => { x with word := v, full := true }
      if 16 ≤ n then setFlag Ev.mbxToHost z else z := by
  simp only [mbxSend, h, Bool.false_eq_true, if_false]

theorem mbxTake_full (h : (s.mailbox n).full = true) :
    mbxTake n s =
      let z := s.modMailbox n fun x => { x with full := false }
      if n < 16 then setFlag Ev.mbxToModule z else z := by
  simp only [mbxTake, h, if_true]

theorem mbxTake_empty (h : (s.mailbox n).full = false) : mbxTake n s = s := by simp [mbxTake, h]

/-- A row that sends a word to a channel its sender may write sends it. -/
theorem exec_mbxWrite {n : MbxIx} {i : Instr}
    (h : (i = .mbxHostWrite n v ∧ n.val < 16 ∧ s.sys.pcieUp = true) ∨ (i = .mbxModuleWrite n v ∧ 16 ≤ n.val)) :
    exec i s = .next (mbxSend n.val v s) := by
  obtain ⟨rfl, hn, hup⟩ | ⟨rfl, hn⟩ := h
  · exact next_congr (if_pos ⟨hup, hn⟩)
  · exact next_congr (if_pos hn)

end Mailbox

/-! ## Accesses (R5, R335, R336) -/

section Access

variable {four : Nat → Word → State → State} {off : Nat} {w : Dword}

theorem barWrite_pcieDown (eight : Bool) (h : s.sys.pcieUp = false) : barWrite four off eight w s = s := by simp [barWrite, h]

theorem barWrite_misaligned4 (h : off % 4 ≠ 0) : barWrite four off false w s = s := by simp [barWrite, h]

theorem barWrite_misaligned8 (h : off % 8 ≠ 0) : barWrite four off true w s = s := by simp [barWrite, h]

theorem barWrite_word (hup : s.sys.pcieUp = true) (h : off % 4 = 0) :
    barWrite four off false w s = four off (BitVec.ofNat 32 w.toNat) s := by simp [barWrite, hup, h]

theorem barWrite_dword (hup : s.sys.pcieUp = true) (h : off % 8 = 0) :
    barWrite four off true w s =
      four (off + 4) (BitVec.ofNat 32 (w.toNat / 4294967296)) (four off (BitVec.ofNat 32 w.toNat) s) := by
  simp [barWrite, hup, h]

theorem bar0Access_not_epoch {eight : Bool} (h : ¬ (off = 0x18 ∧ eight = true ∧ s.sys.pcieUp = true)) :
    bar0Access off eight w s = barWrite bar0Write off eight w s := if_neg h

theorem bar0Access_epoch (hup : s.sys.pcieUp = true) : bar0Access 0x18 true w s = writeEpoch w s := if_pos ⟨rfl, rfl, hup⟩

theorem windowWrite_word {d : AllDieIx} (h : off % 4 = 0) :
    windowWrite d off false w s = windowWord d off (BitVec.ofNat 32 w.toNat) s := by simp [windowWrite, h]

theorem windowWrite_dword {d : AllDieIx} (h : off % 8 = 0) (hplain : 16 ≤ off) :
    windowWrite d off true w s =
      windowWord d (off + 4) (BitVec.ofNat 32 (w.toNat / 4294967296)) (windowWord d off (BitVec.ofNat 32 w.toNat) s) := by
  have h0 : off ≠ 0 := by omega
  have h8 : off ≠ 8 := by omega
  simp [windowWrite, h, h0, h8]

/-- A misaligned access is discarded, whatever it reaches. -/
theorem exec_registerWrite_misaligned {sp : RegSpace} {eight : Bool} (h : off % (if eight then 8 else 4) ≠ 0) :
    exec (.registerWrite sp off eight w) s = .next (settle s) := by
  have hepoch : ¬ (off = 0x18 ∧ eight = true ∧ s.sys.pcieUp = true) := by
    rintro ⟨rfl, rfl, -⟩
    exact h rfl
  have hbar (f : Nat → Word → State → State) : barWrite f off eight w s = s := by
    cases eight
    · exact barWrite_misaligned4 h
    · exact barWrite_misaligned8 h
  refine next_settle_congr ?_
  cases sp with
  | bar0 => exact (bar0Access_not_epoch hepoch).trans (hbar _)
  | bar4 => exact hbar _
  | dieWindow d => cases eight <;> exact if_pos h

theorem bar0Write_vector (k : Fin 32) (v : Word) (s : State) :
    bar0Write (0x1200 + 4 * k.val) v s =
      { s with host := { s.host with evt :=
        { s.host.evt with vectors := Tbl.put 0 k.val (BitVec.ofNat 6 (v.toNat % 64)) s.host.evt.vectors } } } := by
  have hoff (n : Nat) (hn : n < 0x1200) : ¬ 0x1200 + 4 * k.val = n := by omega
  have hin : 0x1200 ≤ 0x1200 + 4 * k.val ∧ 0x1200 + 4 * k.val < 0x1280 := by omega
  have hix : (0x1200 + 4 * k.val - 0x1200) / 4 = k.val := by omega
  simp only [bar0Write, hoff, Nat.reduceLT, if_false, hin, and_self, if_true, hix]

/-- Offsets between the vectors and the control queues are no register's. -/
theorem bar0Write_below_queues (hlow : 0x1280 ≤ off) (hhigh : off < 0x2000) (v : Word) (s : State) : bar0Write off v s = s := by
  have hne (n : Nat) (hn : n < 0x1280 ∨ 0x2000 ≤ n) : ¬ off = n := by omega
  have hvec : ¬ off < 0x1280 := by omega
  have hctlq : ¬ 0x2000 ≤ off := by omega
  have hmbx : ¬ 0x10000 ≤ off := by omega
  simp [bar0Write, hne, hvec, hctlq, hmbx]

/-- Offsets above the log's registers are no register's of a write. -/
theorem bar0Write_above_log (h : 0x80018 < off) (v : Word) (s : State) : bar0Write off v s = s := by
  have hne (n : Nat) (hn : n ≤ 0x80018) : ¬ off = n := by omega
  have hbelow (n : Nat) (hn : n ≤ 0x80018) : ¬ off < n := by omega
  simp [bar0Write, hne, hbelow]

end Access

end Sys2Proof.Machine

namespace Sys2Proof

open Sys2Proof.Machine

/-- Settles O53: a DONE slot reads as FREE after its release, and any other release records the slot and raises its flag. -/
theorem releaseOfASlot : Obligations.ReleaseOfASlot := by
  intro s v hup i
  have hi : i < 4096 := Nat.mod_lt _ (by decide)
  refine ⟨fun hdone => ?_, fun hbad => ?_⟩
  · have hfree := slotFree_modSlot_freed s i
    exact ⟨_, (next_of_pcieUp hup).trans (next_congr (releaseSlot_done hdone)), rfl, hfree.1, hfree.2,
      slotPayload_of_not_done (by rw [hfree.1]; decide), slotHeader_reads_free hfree hi,
      fun j hj => slotPayload_reads_free hfree hi hj, fun k hk => slot_modSlot_other s _ hk⟩
  · obtain ⟨e, m, hhost, hflags⟩ := setFlag_host Ev.releaseError (recordBadRelease i s)
    refine ⟨_, (next_of_pcieUp hup).trans (next_congr (releaseSlot_bad hbad)), rfl, fun k => setFlag_slot _ _ k, ?_, ?_, ?_⟩
    · rw [hhost]
      rfl
    · rw [hhost]
      rfl
    · rw [hhost]
      simp [hflags, Ev.releaseError]

/-- Settles O54: the latch by what the last read of the low half left, and the epoch offset beside the module's time. -/
theorem timeRegisters : Obligations.TimeRegisters := by
  intro s v hup
  refine ⟨⟨_, next_of_pcieUp hup, rfl, fun u hu => ?_⟩, rfl, fun hnone => ?_, rfl, ⟨_, next_of_pcieUp hup, ?_, rfl⟩⟩
  · show u.sys.timeLatch.getD _ = _
    rw [hu]
    rfl
  · show s.sys.timeLatch.getD _ = _
    rw [hnone]
    rfl
  · exact addLog_sys _ _ _ _ _ _

/-- Settles O55: the function's rows by whether the PCIe link is up, a mailbox by whether it is full, a function reset by its kind, and
an access by its size, its alignment and its offset. The effect of a function reset and of D3hot on MSI-X is the model's choice (log
row 19), as are access sizes (log row 29). -/
theorem functionRegisters : Obligations.FunctionRegisters := by
  refine ⟨fun s v w n vec => ?_, fun s off v d => ?_⟩
  · intro flush
    refine ⟨fun hdown i hi => ?_, fun hup => ⟨fun h => ?_, fun h => ?_, next_of_pcieUp hup, next_of_pcieUp hup,
        next_of_pcieUp hup, next_of_pcieUp hup, next_of_pcieUp hup, fun h => ?_, fun into => next_of_pcieUp hup⟩,
      fun into hdown => next_of_pcieDown hdown, fun haux => next_congr (if_pos haux),
      fun haux => next_congr (if_neg (by simp [haux])), fun i hi => ⟨fun hfull => ?_, fun hempty => ?_⟩, fun hn => ?_,
      fun hempty => next_congr (mbxTake_empty hempty), fun hfull => next_congr (mbxTake_full hfull), rfl, fun k => ?_⟩
    · simp only [List.mem_cons, List.not_mem_nil, or_false] at hi
      obtain rfl | rfl | rfl | rfl | rfl | rfl | rfl := hi
      · exact next_of_pcieDown hdown
      · exact next_of_pcieDown hdown
      · exact next_of_pcieDown hdown
      · exact next_of_pcieDown hdown
      · exact next_of_pcieDown hdown
      · exact next_of_pcieDown hdown
      · exact next_congr (if_neg (by simp [hdown]))
    · exact (next_of_pcieUp hup).trans (next_congr (releaseSlot_done h))
    · exact (next_of_pcieUp hup).trans (next_congr (releaseSlot_bad h))
    · exact next_congr (if_neg fun hboth => absurd hboth.2 (Nat.not_lt.mpr h))
    · exact (exec_mbxWrite hi).trans (next_congr (mbxSend_full hfull))
    · exact (exec_mbxWrite hi).trans (next_congr (mbxSend_empty hempty))
    · exact next_congr (if_neg (Nat.not_le.mpr hn))
    · cases k <;> rfl
  · intro lo hi
    refine ⟨fun hdown eight => ⟨?_, ?_⟩, fun sp h => exec_registerWrite_misaligned h,
      fun sp h => exec_registerWrite_misaligned h, fun hup h => ⟨?_, ?_⟩, fun hup h hne => ?_, fun hup => ?_, rfl,
      fun k => bar0Write_vector k lo s, rfl, fun hlow hhigh => bar0Write_below_queues hlow hhigh lo s,
      fun h => bar0Write_above_log h lo s, fun h => next_settle_congr (windowWrite_word h), rfl, rfl,
      fun h hplain => next_settle_congr (windowWrite_dword h hplain)⟩
    · exact next_settle_congr ((bar0Access_not_epoch (by simp [hdown])).trans (barWrite_pcieDown eight hdown))
    · exact next_settle_congr (barWrite_pcieDown eight hdown)
    · exact next_settle_congr ((bar0Access_not_epoch (by simp)).trans (barWrite_word hup h))
    · exact next_settle_congr (barWrite_word hup h)
    · exact next_settle_congr ((bar0Access_not_epoch (by simp [hne])).trans (barWrite_dword hup h))
    · exact next_settle_congr (bar0Access_epoch hup)

end Sys2Proof
end

section
/-! The obligation on the commands of errors and recovery (chapters 14 and 15): queries, policies, test port operations, reinstatement
and scans, resets, releases and dumps. -/

namespace Sys2Proof.Machine

variable {s : State} {n : Nat} {l : Live}

/-- A row whose command is taken up at once, with the row's own start, leaves what that start does to the state that holds its
entry. -/
theorem settle_command_accepted {op : Nat} {c : Capsule} {start : Nat → State → State} {u : State} (hacc : accepted op c s = true)
    (hstart : start s.nextCmd (s.entered op c) = u) :
    (.next (settle (command op c (checkOf op c) start s)) : Host.Outcome State Fault Refusal) = .next (settle u) :=
  next_settle_congr ((command_accepted start hacc).trans hstart)

/-! ## Error administration (R377, R381, R382) -/

/-- The values of an ERR_SET_POLICY in their ranges: minutes between swatch scans, hours between idle scans, the residue limit. -/
def errPolicyValues (c : Capsule) (s : State) : Nat × Nat × Nat :=
  (clampTo 1 1440 (kept c.p0 (s.errs.swatchPeriod / 60)), clampTo 1 720 (kept c.p1 (s.errs.idlePeriod / 3600)),
    clampTo 1 4 (kept c.p2 s.errs.residueLimit))

/-- The state with an ERR_SET_POLICY's values, each logged as held or clipped, and the change of policy logged. -/
def setErrPolicy (c : Capsule) (s : State) : State :=
  let v := errPolicyValues c s
  let t : State :=
    { s with errs := { s.errs with swatchPeriod := 60 * v.1, idlePeriod := 3600 * v.2.1, residueLimit := v.2.2 } }
  addLog Lc.policyChanged (originWord c.origin) noUnit 0 [0x0652]
    (logLoop c.origin c.p2 2 v.2.2 (logLoop c.origin c.p1 1 v.2.1 (logLoop c.origin c.p0 0 v.1 t)))

/-- The state in which a retired unit is in service again. -/
def returnUnit (u : HwUnit) (s : State) : State :=
  { s with
    errs := { s.errs with retired := s.errs.retired.filter fun y => decide (y ≠ u)
                          repair := (s.errs.repair.1, s.errs.repair.2.filter fun y => decide (y ≠ u)) }
    media := { s.media with deadChannels :=
      s.media.deadChannels.filter fun ch => decide (unitOf u ≠ unitWord (4 + ch / 64) 4 ch) } }

section Administration

variable (hl : s.live? n = some l)
include hl

theorem errQueryStart_eq :
    errQueryStart n s = succeed n 0 (oneSegment (windowOf l.c (errRecord (l.c.p0.toNat % 8) s))) s := by
  simp only [errQueryStart, hl]

theorem errPolicyStart_eq : errPolicyStart n s = succeed n 0 [] (setErrPolicy l.c s) := by
  simp only [errPolicyStart, hl, setErrPolicy, errPolicyValues]

theorem errReinstateStart_unnamed (passes : Bool) (h : reinstated l.c.p0 s = none) :
    errReinstateStart passes n s = fail n St.notPermitted 0 s := by
  simp only [errReinstateStart, hl, h]

theorem errReinstateStart_failing : errReinstateStart false n s = fail n St.notPermitted 0 s := by
  cases h : reinstated l.c.p0 s with
  | none => exact errReinstateStart_unnamed hl false h
  | some x => simp only [errReinstateStart, hl, h, Bool.not_false, if_true]

theorem errReinstateStart_unit {u : HwUnit} (h : reinstated l.c.p0 s = some (.inl u)) :
    errReinstateStart true n s = succeed n 0 [] (undegrade (.unit u) (returnUnit u s)) := by
  simp only [errReinstateStart, hl, h, Bool.not_true, Bool.false_eq_true, if_false, returnUnit]

theorem errReinstateStart_frame {d : Nat} (h : reinstated l.c.p0 s = some (.inr d)) (hfew : (s.die d).retired ≤ 1024) :
    errReinstateStart true n s =
      succeed n 0 [] (undegrade (.frames d) (s.modDie d fun x => { x with retired := (s.die d).retired - 1 })) := by
  have hbelow : (s.die d).retired - 1 < 1024 := by omega
  simp only [errReinstateStart, hl, h, Bool.not_true, Bool.false_eq_true, if_false, hbelow, if_true]

section Scan

variable (passes : Bool) (pattern : Nat)

theorem errScanStart_scannable {u : HwUnit} (hu : unitOfWord l.c.p0 = some u) (h : scannable s u = true) :
    errScanStart passes pattern n s = succeed n 0 [] (scanResult u passes pattern s) := by
  simp only [errScanStart, hl, hu, h, if_true]

theorem errScanStart_in_use {u : HwUnit} (hu : unitOfWord l.c.p0 = some u) (h : scannable s u = false) :
    errScanStart passes pattern n s = fail n St.notPermitted 0 s := by
  simp only [errScanStart, hl, hu, h, Bool.false_eq_true, if_false]

theorem errScanStart_unnamed (hu : unitOfWord l.c.p0 = none) : errScanStart passes pattern n s = fail n St.badParam 0 s := by
  simp only [errScanStart, hl, hu]

end Scan

/-- The reply of an ERR_INJECT: STAT, CHK and DATA of the port. -/
def portReply (d : Nat) (s : State) : List Byte :=
  let ws := (Tbl.getD s.errs.portData d [] ++ List.replicate 8 0).take 8
  leBytes 4 (Tbl.getD s.errs.portStat d 0x1FC0).toNat ++ leBytes 4 0 ++ leBytes 8 (Tbl.getD s.errs.portChk d 0).toNat ++
    ws.flatMap fun w => leBytes 8 w.toNat

/-- The state with an ERR_INJECT answered. -/
def answerInject (n d : Nat) (s : State) : State := succeed n 0 (oneSegment (portReply d s)) s

theorem errInjectLanded_runs {r : EccReq} (hr : injectReq l.c l.data = some r) :
    errInjectLanded n s =
      answerInject n (l.c.p0.toNat % 8) (portRuns (bits l.c.p1.toNat 1 2) (l.c.p0.toNat % 8) r s) := by
  simp only [errInjectLanded, hl, hr, answerInject, portReply]

theorem errInjectLanded_reserved (hr : injectReq l.c l.data = none) :
    errInjectLanded n s = answerInject n (l.c.p0.toNat % 8)
      (setPort (l.c.p0.toNat % 8) (eccStat 0 true 4 0x7F) (BitVec.ofNat 64 (capDword l.c 4)) [] s) := by
  simp only [errInjectLanded, hl, hr, answerInject, portReply]

end Administration

/-! ## Recovery commands (R397, R403, R406) -/

section Recovery

variable (hl : s.live? n = some l)
include hl

theorem rcvResetStart_context (hlevel : l.c.p0 = 0) :
    rcvResetStart n s = contextReset l.c.p1.toNat (succeed n 0 [] s) := by
  simp [rcvResetStart, hl, hlevel]

theorem rcvResetStart_engine {u : HwUnit} (hlevel : l.c.p0 = 1) (hu : unitOfWord l.c.p1 = some u) :
    rcvResetStart n s = engineReset u false Lc.engineReset (succeed n 0 [] s) := by
  simp [rcvResetStart, hl, hlevel, hu]

theorem rcvResetStart_partition (hlevel : l.c.p0 = 2) :
    rcvResetStart n s = partitionReset l.c.p1.toNat Lc.partitionReset (succeed n 0 [] s) := by
  simp [rcvResetStart, hl, hlevel]

theorem rcvResetStart_module (hlevel : l.c.p0 = 3) :
    rcvResetStart n s = startModuleReset 3 (l.c.p2.getLsbD 0) false Lc.engineReset (succeed n 0 [] s) := by
  simp [rcvResetStart, hl, hlevel]

theorem rcvQueryStart_eq : rcvQueryStart n s = succeed n 0 (oneSegment (windowOf l.c (rcvRecord s))) s := by
  simp only [rcvQueryStart, hl]

theorem rcvReleaseStart_eq :
    rcvReleaseStart n s = succeed n 0 [] (holdContext (BitVec.ofNat 8 l.c.p0.toNat) false s) := by
  simp only [rcvReleaseStart, hl]

theorem rcvDumpStart_eq (unreadable : List HwUnit) :
    rcvDumpStart unreadable n s = succeed n 0 [] (takeDump 2 0 0 ((dumpNamed l.c).filterMap id) unreadable s) := by
  simp only [rcvDumpStart, hl]

theorem rcvDumpReadStart_found {bs : List Byte} (hbs : dumpSource l.c s = some bs) :
    rcvDumpReadStart n s = succeed n 0 (oneSegment ((bs.drop l.c.offset.toNat).take l.c.length.toNat)) s := by
  simp only [rcvDumpReadStart, hl, hbs, Option.getD_some]

end Recovery

end Sys2Proof.Machine

namespace Sys2Proof

open Sys2Proof.Machine

/-- Settles O45: each command is taken up at once and acts on the state that holds its entry. That a policy value of all ones is kept
is the model's choice (log row 11), as are the layouts of ERR_QUERY, RCV_QUERY and the reply of ERR_INJECT (log row 22). -/
theorem errorCommands : Obligations.ErrorCommands := by
  refine ⟨fun s c => ⟨fun hacc => ?_, fun hacc hdata => ?_, fun n l hl => ?_, fun hacc => ?_, fun hacc => ?_, fun hacc => ?_⟩,
    fun s c => ⟨fun hacc => ?_, fun u hacc hu => ?_, fun hacc => ?_, fun hacc => ?_, fun id _ => rfl, fun hacc => ?_,
      fun hacc => ?_, fun us hacc => ?_, fun bs hacc hbs => ?_⟩⟩
  · have hstart := errQueryStart_eq (entered_live 0x0650 c s)
    exact settle_deliver_accepted hacc hstart
  · exact settle_deliver_accepted hacc (withData_awaits (entered_live 0x0651 c s) hdata)
  · intro d answer
    exact ⟨fun r hr => errInjectLanded_runs hl hr, fun hr => errInjectLanded_reserved hl hr⟩
  · have hstart := errPolicyStart_eq (entered_live 0x0652 c s)
    exact settle_deliver_accepted hacc hstart
  · intro b
    have hl := entered_live 0x0653 c s
    exact ⟨fun passes h => settle_command_accepted hacc (errReinstateStart_unnamed hl passes h),
      settle_command_accepted hacc (errReinstateStart_failing hl),
      fun u h => settle_command_accepted hacc (errReinstateStart_unit hl h),
      fun d h hfew => settle_command_accepted hacc (errReinstateStart_frame hl h hfew)⟩
  · intro b
    have hl := entered_live 0x0654 c s
    exact ⟨fun passes pattern u hu h => settle_command_accepted hacc (errScanStart_scannable hl passes pattern hu h),
      fun passes pattern u hu h => settle_command_accepted hacc (errScanStart_in_use hl passes pattern hu h),
      fun passes pattern hu => settle_command_accepted hacc (errScanStart_unnamed hl passes pattern hu)⟩
  · have hstart := rcvResetStart_context (entered_live 0x0660 { c with p0 := 0 } s) rfl
    exact settle_deliver_accepted hacc hstart
  · have hstart := rcvResetStart_engine (entered_live 0x0660 { c with p0 := 1 } s) rfl hu
    exact settle_deliver_accepted hacc hstart
  · have hstart := rcvResetStart_partition (entered_live 0x0660 { c with p0 := 2 } s) rfl
    exact settle_deliver_accepted hacc hstart
  · have hstart := rcvResetStart_module (entered_live 0x0660 { c with p0 := 3 } s) rfl
    exact settle_deliver_accepted hacc hstart
  · have hstart := rcvQueryStart_eq (entered_live 0x0661 c s)
    exact settle_deliver_accepted hacc hstart
  · have hstart := rcvReleaseStart_eq (entered_live 0x0662 c s)
    exact settle_deliver_accepted hacc hstart
  · have hstart := rcvDumpStart_eq (entered_live 0x0663 c s) us
    exact settle_command_accepted hacc hstart
  · have hstart := rcvDumpReadStart_found (entered_live 0x0664 c s) hbs
    exact settle_deliver_accepted hacc hstart

end Sys2Proof
end

section
/-! The obligation on hard faults and scans (chapter 14): remapped words, retired frames, the structural scan and its periods. -/

namespace Sys2Proof.Machine

variable {s : State}

/-! ## Remapped words (R370, R371) -/

section Remap

variable {d sram addr : Nat} {u : HwUnit}

/-- Remap entries that an SRAM has in use. -/
def remapEntries (s : State) (d sram : Nat) : Nat := (s.errs.remaps.filter fun e => decide (e.1 = d ∧ e.2.1 = sram)).length

/-- The state with a remap entry installed and recorded. -/
def installRemap (e : Nat × Nat × Nat) (s : State) : State :=
  { s with errs := { s.errs with remaps := s.errs.remaps ++ [e], repair := (s.errs.repair.1 ++ [e], s.errs.repair.2) } }

theorem wordRemapped_again (h : (d, sram, addr) ∈ s.errs.remaps) : wordRemapped d sram addr u s = s := if_pos h

theorem wordRemapped_installs (hnew : (d, sram, addr) ∉ s.errs.remaps) (hroom : remapEntries s d sram < 8) :
    wordRemapped d sram addr u s = logUnit Lc.wordRemapped u [d, sram, addr] (installRemap (d, sram, addr) s) := by
  unfold remapEntries at hroom
  simp only [wordRemapped, if_neg hnew, if_neg (Nat.not_le.mpr hroom), installRemap]

theorem wordRemapped_full (hnew : (d, sram, addr) ∉ s.errs.remaps) (hfull : 8 ≤ remapEntries s d sram) :
    wordRemapped d sram addr u s = remapFull d sram u s := by
  unfold remapEntries at hfull
  simp only [wordRemapped, if_neg hnew, if_pos hfull]

end Remap

/-! ## Retired frames (R372) -/

section Frames

variable {d p pg : Nat} {g : Page}

/-- The state in which a page's frame has left its die. -/
def loseFrame (d p pg : Nat) (s : State) : State :=
  let n := (s.die d).retired + 1
  let v := addLog Lc.frameRetired 0x50000000 (unitWord d 0 0) (ctxWord none (some p)) [pg]
    (s.modDie d fun x => { x with retired := n })
  if 1024 ≤ n then degrade (.frames d) v else v

theorem frameRetire_unmapped (h : Tbl.get? (s.store p).pages pg = none) : frameRetire d p pg s = s := by
  simp only [frameRetire, h]

section Mapped

variable (hg : Tbl.get? (s.store p).pages pg = some g)
include hg

theorem frameRetire_poisoned (h : g.st = .poisoned) : frameRetire d p pg s = loseFrame d p pg s := by
  simp only [frameRetire, hg, if_pos h, loseFrame]

theorem frameRetire_copied (hsound : g.st ≠ .poisoned) (hframed : g.framed = true) (hdie : g.die = d)
    (hfree : 0 < freeFrames s d) : frameRetire d p pg s = loseFrame d p pg s := by
  simp only [frameRetire, hg, if_neg hsound, hframed, hdie, decide_true, Bool.and_self, if_true, if_pos hfree, loseFrame]

end Mapped

end Frames

/-! ## The structural scan and its periods (R381, R382) -/

section Scan

variable {u : HwUnit}

/-- The state in which a unit's last scan is now. -/
def noteScan (u : HwUnit) (s : State) : State :=
  { s with errs := { s.errs with scannedAt := (s.errs.scannedAt.filter fun e => decide (e.1 ≠ u)) ++ [(u, s.sys.time)] } }

theorem scanResult_barred (passes : Bool) (pattern : Nat) (h : scannable s u = false ∨ u ∈ s.errs.retired) :
    scanResult u passes pattern s = s := by
  obtain h | h := h <;> simp [scanResult, h]

section Runs

variable (pattern : Nat) (hfree : scannable s u = true) (hkept : u ∉ s.errs.retired)
include hfree hkept

theorem scanResult_passes : scanResult u true pattern s = putBack u (noteScan u s) := by
  simp [scanResult, hfree, hkept, noteScan]

theorem scanResult_fails : scanResult u false pattern s = retireFor u (logUnit Lc.scanFail u [pattern] (noteScan u s)) := by
  simp [scanResult, hfree, hkept, noteScan]

end Runs

/-- A unit's scan is due after a number of seconds. -/
def ScanDue (s : State) (u : HwUnit) (sec : Nat) : Prop := scannedAt s u + 1000000000 * sec ≤ s.sys.time

/-- A die with no stream on it and none parked. -/
def DieFree (s : State) (d : DieIx) : Prop := (s.die d.val).stream = none ∧ (s.die d.val).parked = []

theorem dieFree_iff (s : State) (d : DieIx) :
    DieFree s d ↔ ((s.die d.val).stream.isNone && (s.die d.val).parked.isEmpty) = true := by
  simp [DieFree, List.isEmpty_iff]

theorem scanPeriod_out_of_service (h : s.inService u = false) : scanPeriod u s = s := by simp [scanPeriod, h]

theorem scanPeriod_vector {d : DieIx} {j : EngIx} (hin : s.inService (.vector d j) = true) (hfree : DieFree s d)
    (hdue : ScanDue s (.vector d j) s.errs.idlePeriod) : scanPeriod (.vector d j) s = takeOut (.vector d j) s := by
  rw [dieFree_iff] at hfree
  unfold ScanDue at hdue
  simp only [scanPeriod, hin, hfree, hdue, decide_true, Bool.and_self, if_true]

theorem scanPeriod_vector_not_due {d : DieIx} {j : EngIx} (h : ¬ DieFree s d ∨ ¬ ScanDue s (.vector d j) s.errs.idlePeriod) :
    scanPeriod (.vector d j) s = s := by
  rw [dieFree_iff] at h
  unfold ScanDue at h
  simp only [scanPeriod]
  obtain h | h := h <;> simp [h]

section Cluster

variable {d : DieIx} {i : ClusterIx} (hin : s.inService (.cluster d i) = true)
include hin

theorem scanPeriod_cluster_idle (hfree : DieFree s d) (hdue : ScanDue s (.cluster d i) s.errs.idlePeriod) :
    scanPeriod (.cluster d i) s = takeOut (.cluster d i) s := by
  rw [dieFree_iff] at hfree
  unfold ScanDue at hdue
  simp only [scanPeriod, hin, hfree, hdue, decide_true, Bool.and_self, Bool.or_true, if_true]

theorem scanPeriod_cluster_swatch (hswatch : (swatchClusters s d.val).contains i.val = true)
    (hdue : ScanDue s (.cluster d i) s.errs.swatchPeriod)
    (hquiet : (s.die d.val).clusters.any (fun k => k.2.flight.any fun p => decide (p.mirror = some i.val)) = false) :
    scanPeriod (.cluster d i) s = takeOut (.cluster d i) s := by
  unfold ScanDue at hdue
  simp only [scanPeriod, hin, hswatch, hdue, hquiet, decide_true, Bool.not_false, Bool.and_self, Bool.true_or, if_true]

end Cluster

end Scan

end Sys2Proof.Machine

namespace Sys2Proof

open Sys2Proof.Machine

/-- Settles O46: a failing word by the entries that its SRAM has, a frame by its page, a scan by its result, and a scan period by the
unit's kind. -/
theorem hardFaultsAndScans : Obligations.HardFaultsAndScans := by
  refine fun s => ⟨fun d sram addr u h => next_settle_congr (wordRemapped_again h),
    fun d sram addr u hnew hroom => next_settle_congr (wordRemapped_installs hnew hroom), fun d sram addr k hnew hfull => ?_,
    fun d p pg => ?_, fun u passes pattern => ?_, fun u t => ?_⟩
  · exact ⟨fun i => next_settle_congr (wordRemapped_full hnew hfull), fun i => next_settle_congr (wordRemapped_full hnew hfull)⟩
  · intro out
    exact ⟨fun h => next_settle_congr (frameRetire_unmapped h), fun g hg h => next_settle_congr (frameRetire_poisoned hg h),
      fun g hg hsound hframed hdie hfree => next_settle_congr (frameRetire_copied hg hsound hframed hdie hfree)⟩
  · intro e
    exact ⟨fun h => next_settle_congr (scanResult_barred passes pattern h), fun hfree hkept =>
      ⟨next_settle_congr (scanResult_passes pattern hfree hkept), next_settle_congr (scanResult_fails pattern hfree hkept)⟩⟩
  · intro v out due idle
    refine ⟨fun h => next_congr (scanPeriod_out_of_service h), fun d j hu hin hfree hdue => ?_, fun d j hu h => ?_,
      fun d i hu hin hfree hdue => ?_, fun d i hu hin hswatch hdue hquiet => ?_⟩ <;> subst hu
    · exact next_congr (scanPeriod_vector hin hfree hdue)
    · exact next_congr (scanPeriod_vector_not_due h)
    · exact next_congr (scanPeriod_cluster_idle hin hfree hdue)
    · exact next_congr (scanPeriod_cluster_swatch hin hswatch hdue hquiet)

end Sys2Proof
end

section
/-! The obligation on engine resets (chapter 15): how a reset of an engine starts and ends, what abandons its work, watchdogs, and the
replay of suspects. -/

namespace Sys2Proof.Machine

variable {s : State} {u : HwUnit}

/-! ## The start of an engine reset (R390 to R392, R402) -/

/-- An engine reset merges into one of the module, of the engine's partition, or of the engine itself. -/
def resetMerged (s : State) (u : HwUnit) : Bool :=
  (resetOf s .whole).isSome || s.resetting u || (unitOwner s u).any fun p => (resetOf s (.partition (partIx p))).isSome

/-- The engine was reset within the last 100 µs. -/
def resetSoon (s : State) (u : HwUnit) : Bool :=
  (Tbl.get? s.rcv.resetAt (unitKey u)).any fun z => decide (s.sys.time < z + 100000)

/-- The state in which an engine reset is under way: its timer runs, and the engine's generation has advanced. -/
def armEngine (u : HwUnit) (hang : Bool) (cause : Half) (s : State) : State :=
  let s1 := advanceGen u (armReset (.engine u) hang cause s)
  { s1 with rcv := { s1.rcv with resetAt := Tbl.set (unitKey u) s.sys.time s1.rcv.resetAt } }

section Start

variable (hang : Bool) (cause : Half)

theorem engineReset_barred (h : isEngine u = false ∨ resetMerged s u = true ∨ resetSoon s u = true) :
    engineReset u hang cause s = s := by
  have hbar : (!isEngine u || resetMerged s u || resetSoon s u) = true := by
    obtain h | h | h := h <;> simp [h]
  exact if_pos hbar

theorem engineReset_starts (hengine : isEngine u = true) (hmerged : resetMerged s u = false) (hsoon : resetSoon s u = false) :
    engineReset u hang cause s = abandonWork u (armEngine u hang cause s) := by
  have hfree : ¬ (!isEngine u || resetMerged s u || resetSoon s u) = true := by simp [hengine, hmerged, hsoon]
  exact if_neg hfree

end Start

/-! ## Work in flight (R392, R394) -/

/-- A stream as it waits for its replay. -/
def awaitReplay (x : Stream) : Stream := { x with stall := none, preempt := false, swatch := none }

/-- The state in which a die's stream is parked for its replay, and its context is a suspect. -/
def parkSuspect (d : Nat) (u : HwUnit) (x : Stream) (s : State) : State :=
  addSuspect { ctx := x.ctx, cmd := x.cmd, unit := u, pos := x.row } ((vacate d s).modDie d fun y =>
    { y with parked := y.parked ++ [awaitReplay x], replaying := true })

theorem suspectStream_running {d : Nat} {x : Stream} (hx : (s.die d).stream = some x) :
    suspectStream d u s = parkSuspect d u x s := by
  simp only [suspectStream, hx, parkSuspect, awaitReplay, suspectOf]

theorem abandonWork_futisCompute {d : DieIx} {i : Fin 8} {x : Stream} (hx : (s.die d.val).stream = some x) :
    abandonWork (.futisCompute d i false) s = abort x.cmd St.computeFault s := by
  simp only [abandonWork, Bool.false_eq_true, if_false, hx]

/-! ## The end of an engine reset (R391, R393) -/

/-- The state in which a reset engine is open again, and its reset is logged. -/
def logReopened (u : HwUnit) (r : Reset) (s : State) : State :=
  logUnit Lc.engineReset u [r.cause.toNat, (s.sys.time - r.started) / 1000] (clearEngine u (clearReset (.engine u) s))

theorem engineReopen_none (h : resetOf s (.engine u) = none) : engineReopen u s = s := by simp only [engineReopen, h]

section Reopen

variable {r : Reset} (hr : resetOf s (.engine u) = some r)
include hr

theorem engineReopen_asked (hhang : r.hang = false) : engineReopen u s = logReopened u r s := by
  simp only [engineReopen, hr, hhang, Bool.false_eq_true, if_false, logReopened]

theorem engineReopen_charged (hhang : r.hang = true) (hnone : s.rcv.suspects.any (fun x => decide (x.unit = u)) = false) :
    engineReopen u s = chargeEngine u (logReopened u r s) := by
  simp only [engineReopen, hr, hhang, hnone, Bool.false_eq_true, if_true, if_false, logReopened]

theorem engineReopen_suspected (hhang : r.hang = true) (hsome : s.rcv.suspects.any (fun x => decide (x.unit = u)) = true) :
    engineReopen u s =
      { logReopened u r s with rcv :=
        { (logReopened u r s).rcv with charge := (logReopened u r s).rcv.charge ++ [(u, false)] } } := by
  simp only [engineReopen, hr, hhang, hsome, if_true, logReopened]

end Reopen

/-! ## Watchdogs (R389) -/

section Watchdog

variable {ns : Nat}

theorem watchdog_alive (h : ns < hangLimit u ∨ mayHang s u = false) : watchdog u ns s = s := by
  have hbar : (decide (ns < hangLimit u) || !mayHang s u) = true := by
    obtain h | h := h <;> simp [h]
  exact if_pos hbar

/-- A unit has made no progress for its limit. -/
theorem hung_of_past_limit (hpast : hangLimit u ≤ ns) (hwork : mayHang s u = true) :
    ¬ (decide (ns < hangLimit u) || !mayHang s u) = true := by
  simp [hwork, Nat.not_lt.mpr hpast]

theorem watchdog_engine (hengine : isEngine u = true) (hpast : hangLimit u ≤ ns) (hwork : mayHang s u = true) :
    watchdog u ns s = engineReset u true Lc.watchdog (logUnit Lc.watchdog u [0] s) := by
  simp only [watchdog, if_neg (hung_of_past_limit hpast hwork)]
  cases u with
  | sequencer d => cases hengine
  | dieManager d => cases hengine
  | mgmtCore => cases hengine
  | _ => rfl

theorem watchdog_sequencer {d : DieIx} {p : Nat} (hpast : 10000000 ≤ ns) (hwork : mayHang s (.sequencer d) = true)
    (howner : ownerOf s d.val = some p) :
    watchdog (.sequencer d) ns s = partitionReset p Lc.watchdog (logUnit Lc.watchdog (.sequencer d) [1] s) := by
  simp only [watchdog, if_neg (hung_of_past_limit (u := .sequencer d) hpast hwork), howner]

theorem watchdog_dieManager_restarts {d : AllDieIx} (hpast : 10000000 ≤ ns) (hsoon : ns < 11000000) :
    watchdog (.dieManager d) ns s = logUnit Lc.watchdog (.dieManager d) [2] s := by
  simp only [watchdog, if_neg (hung_of_past_limit (u := .dieManager d) hpast rfl), if_pos hsoon]

theorem watchdog_dieManager_escalates {d : AllDieIx} (hpast : 11000000 ≤ ns) :
    watchdog (.dieManager d) ns s =
      startModuleReset 1 false false Lc.watchdog (logUnit Lc.watchdog (.dieManager d) [3] s) := by
  have hlimit : hangLimit (.dieManager d) ≤ ns := Nat.le_trans (by decide : (10000000 : Nat) ≤ 11000000) hpast
  simp only [watchdog, if_neg (hung_of_past_limit (u := .dieManager d) hlimit rfl), if_neg (Nat.not_lt.mpr hpast)]

theorem watchdog_mgmtCore (hpast : 100000000 ≤ ns) :
    watchdog .mgmtCore ns s = startModuleReset 1 false false Lc.watchdog (logUnit Lc.watchdog .mgmtCore [3] s) := by
  simp only [watchdog, if_neg (hung_of_past_limit (u := .mgmtCore) hpast rfl)]

end Watchdog

/-! ## Suspects (R394, R395) -/

section Replay

/-- An engine that is reset, or whose die runs a stream, replays no suspect. -/
def replayBarred (s : State) (u : HwUnit) : Bool := s.resetting u || (streamDie u).any fun d => (s.die d).stream.isSome

/-- The state in which a suspect is off the list. -/
def dropSuspect (x : Suspect) (s : State) : State := { s with rcv := { s.rcv with suspects := s.rcv.suspects.erase x } }

/-- The state in which every charge owed of an engine is reproduced. -/
def markReproduced (u : HwUnit) (s : State) : State :=
  { s with rcv := { s.rcv with charge := s.rcv.charge.map fun e => if e.1 = u then (e.1, true) else e } }

theorem suspectReplay_none (reproduced : Bool) (h : s.rcv.suspects.find? (fun x => decide (x.unit = u)) = none) :
    suspectReplay u reproduced s = s := by
  simp only [suspectReplay, h]

variable {x : Suspect} (hx : s.rcv.suspects.find? (fun x => decide (x.unit = u)) = some x)
include hx

theorem suspectReplay_barred (reproduced : Bool) (h : ¬ replayBarred s u = false) : suspectReplay u reproduced s = s := by
  rw [Bool.not_eq_false] at h
  unfold replayBarred at h
  simp only [suspectReplay, hx, h, if_true]

theorem suspectReplay_reproduced (hfree : replayBarred s u = false) :
    suspectReplay u true s = suspectsOver u (recurred u (holdContext x.ctx true
      (addLog Lc.suspectHeld 0x50000000 (unitOf u) (ctxWord (some x.ctx.toNat) none) [x.pos]
        (abort x.cmd St.computeFault (markReproduced u (dropSuspect x s)))))) := by
  unfold replayBarred at hfree
  simp only [suspectReplay, hx, hfree, Bool.false_eq_true, if_true, if_false, dropSuspect, markReproduced]

theorem suspectReplay_released {d : Nat} (hfree : replayBarred s u = false) (hd : streamDie u = some d)
    (hlast : (dropSuspect x s).rcv.suspects.any (fun y => decide (y.ctx = x.ctx)) = false) :
    suspectReplay u false s =
      suspectsOver u (releaseStream d x.cmd (holdContext x.ctx false (dropSuspect x s))) := by
  unfold replayBarred at hfree
  unfold dropSuspect at hlast
  simp only [suspectReplay, hx, hfree, hlast, Bool.false_eq_true, if_false]
  simp only [hd, dropSuspect]

end Replay

end Sys2Proof.Machine

namespace Sys2Proof

open Sys2Proof.Machine

/-- Settles O47: a reset by what it merges into, abandoned work by the engine's kind, a reopening by its suspects, a watchdog by its
unit, and a replay by whether it reproduces the fault. That a die manager has 11 ms before the module is reset, and that a
mover is reset on leaving, is the model's choice (log row 30). -/
theorem engineResets : Obligations.EngineResets := by
  intro s u t v k merged soon starts
  refine ⟨fun h => ?_, fun hengine hmerged hsoon => ?_, fun w => ⟨fun l hu => ?_, fun m e hu => ?_, fun d i x hu hx => ?_,
      fun d i x hu hx => ?_, fun d i x hu hx => ?_⟩, fun h => ?_, fun r hr => ?_, fun ns => ⟨fun h => ?_,
      fun hengine hpast hwork => ?_, fun d p hu hpast hwork howner => ?_, fun d hu hpast hsoon => ?_, fun d hu hpast => ?_,
      fun hu hpast => ?_⟩, fun d e m f l c => ⟨rfl, rfl, rfl, rfl, rfl⟩, fun reproduced h => ?_, fun x hx => ?_⟩
  · have hbarred := engineReset_barred false Lc.engineReset h
    exact next_settle_congr hbarred
  · have hstarts := engineReset_starts false Lc.engineReset hengine hmerged hsoon
    exact next_settle_congr hstarts
  · rw [hu]
    rfl
  · rw [hu]
    rfl
  · subst hu
    exact suspectStream_running hx
  · subst hu
    exact suspectStream_running hx
  · subst hu
    exact abandonWork_futisCompute hx
  · exact next_settle_congr (engineReopen_none h)
  · intro w suspected
    exact ⟨fun hhang => next_settle_congr (engineReopen_asked hr hhang),
      fun hhang hnone => next_settle_congr (engineReopen_charged hr hhang hnone),
      fun hhang hsome => next_settle_congr (engineReopen_suspected hr hhang hsome)⟩
  · exact next_settle_congr (watchdog_alive h)
  · exact next_settle_congr (watchdog_engine hengine hpast hwork)
  · subst hu
    exact next_settle_congr (watchdog_sequencer hpast hwork howner)
  · subst hu
    exact next_settle_congr (watchdog_dieManager_restarts hpast hsoon)
  · subst hu
    exact next_settle_congr (watchdog_dieManager_escalates hpast)
  · subst hu
    exact next_settle_congr (watchdog_mgmtCore hpast)
  · exact next_settle_congr (suspectReplay_none reproduced h)
  · intro free w
    exact ⟨fun reproduced h => next_settle_congr (suspectReplay_barred hx reproduced h),
      fun hfree => next_settle_congr (suspectReplay_reproduced hx hfree),
      fun d hfree hd hlast => next_settle_congr (suspectReplay_released hx hfree hd hlast)⟩

end Sys2Proof
end

section
/-! The obligation on partition and module resets (chapter 15): their drain, what a module reset takes away, and escalation. -/

namespace Sys2Proof.Machine

variable {s : State} {p : Nat}

/-! ## Partition resets (R398) -/

theorem partitionReset_merged (cause : Half)
    (h : (resetOf s .whole).isSome = true ∨ (resetOf s (.partition (partIx p))).isSome = true) : partitionReset p cause s = s := by
  have hmerged : ((s.part? p).isNone || (resetOf s .whole).isSome || (resetOf s (.partition (partIx p))).isSome) = true := by
    obtain h | h := h <;> simp [h]
  exact if_pos hmerged

theorem partitionReset_of_part_none (cause : Half) (h : s.part? p = none) : partitionReset p cause s = s := by
  simp only [partitionReset, h, Option.isNone_none, Bool.true_or, if_true]

theorem bindOff_fenced {x : Part} (hx : s.part? p = some x) (hfenced : x.fencedAt.isSome = true) : bindOff p s = s := by
  simp only [bindOff, hx, hfenced, if_true]

/-- The state in which a partition is fenced from now on. -/
def fencePart (p : Nat) (s : State) : State := refreshFenced (s.modPart p fun y => { y with fencedAt := some s.sys.time })

theorem fencePart_die (d : Nat) : (fencePart p s).die d = s.die d := by
  simp only [fencePart, State.die, refreshFenced_dies, modPart_dies]

theorem bindOff_without_streams {x : Part} (hx : s.part? p = some x) (hopen : x.fencedAt = none)
    (hidle : ∀ d, d < 4 → (s.die d).stream = none) : bindOff p s = fencePart p s := by
  have hnone : ((List.range 4).filter fun d =>
      ((fencePart p s).die d).stream.any fun y => decide (streamPart (fencePart p s) y = p)) = [] := by
    refine List.filter_eq_nil_iff.mpr fun d hd => ?_
    rw [fencePart_die, hidle d (List.mem_range.mp hd)]
    exact Bool.false_ne_true
  simp only [bindOff, hx, hopen, Option.isSome_none, Bool.false_eq_true, if_false]
  exact (congrArg (fun ds => foldOver ds preemptRequest (fencePart p s)) hnone).trans (foldOver_nil _ _)

section PartitionReset

variable {x : Part} (cause : Half) (hx : s.part? p = some x) (hwhole : resetOf s .whole = none)
  (hpart : resetOf s (.partition (partIx p)) = none)
include hx hwhole hpart

theorem partitionReset_starts :
    partitionReset p cause s = bindOff p (armReset (.partition (partIx p)) false cause s) := by
  simp only [partitionReset, hx, hwhole, hpart, Option.isNone_some, Option.isSome_none, Bool.or_self, Bool.false_eq_true, if_false]

theorem partitionReset_of_fenced (hfenced : x.fencedAt.isSome = true) :
    partitionReset p cause s = armReset (.partition (partIx p)) false cause s :=
  (partitionReset_starts cause hx hwhole hpart).trans (bindOff_fenced hx hfenced)

theorem partitionReset_without_streams (hopen : x.fencedAt = none) (hidle : ∀ d, d < 4 → (s.die d).stream = none) :
    partitionReset p cause s = fencePart p (armReset (.partition (partIx p)) false cause s) :=
  (partitionReset_starts cause hx hwhole hpart).trans (bindOff_without_streams hx hopen hidle)

end PartitionReset

theorem bindOffDrain_of_part_none (units : List HwUnit) (h : s.part? p = none) : bindOffDrain p units s = s := by
  simp only [bindOffDrain, h, Option.bind_none]

section Drain

variable {x : Part} {t0 : Nat} (units : List HwUnit) (hx : s.part? p = some x) (ht : x.fencedAt = some t0)
include hx ht

theorem bindOffDrain_early (hearly : s.sys.time < t0 + 10000000) : bindOffDrain p units s = s := by
  simp only [bindOffDrain, hx, Option.bind_some, ht, hearly, if_true]

theorem bindOffDrain_ends (hdue : t0 + 10000000 ≤ s.sys.time) (hnone : resetOf s (.partition (partIx p)) = none) :
    bindOffDrain p units s = endPartition p s := by
  simp only [bindOffDrain, hx, Option.bind_some, ht, Nat.not_lt.mpr hdue, hnone, if_false]

theorem bindOffDrain_resets {r : Reset} (hdue : t0 + 10000000 ≤ s.sys.time)
    (hr : resetOf s (.partition (partIx p)) = some r) :
    bindOffDrain p units s =
      addLog Lc.partitionReset 0x50000000 noUnit (ctxWord none (some p)) [(s.sys.time - r.started) / 1000000]
        (refreshFenced ((clearReset (.partition (partIx p))
          (resetPartDies p (takeDump 1 p r.cause (partUnits s p) units (endPartition p s)))).modPart p fun y =>
            { y with fencedAt := none })) := by
  simp only [bindOffDrain, hx, Option.bind_some, ht, Nat.not_lt.mpr hdue, hr, if_false]

end Drain

/-! ## Module resets (R399) -/

section ModuleReset

variable (units : List HwUnit)

theorem moduleReset_held (hheld : s.sys.heldReset = true) (hcommit : s.sec.commitStep ≠ 0) : moduleReset units s = s := by
  have hbar : (s.sys.heldReset && decide (s.sec.commitStep ≠ 0)) = true := by simp [hheld, hcommit]
  exact if_pos hbar

theorem moduleReset_free (hfree : s.sys.heldReset = false) :
    moduleReset units s = resetModule units
      (startModuleReset (s.rcv.whole.getD (1, false)).1 (s.rcv.whole.getD (1, false)).2 false Lc.resetEscalated s) := by
  simp only [moduleReset, hfree, Bool.false_and, Bool.false_eq_true, if_false]

theorem startModuleReset_merged {code : BitVec 4} {noDump escalation : Bool} {cause : Half} {r : Reset}
    (hr : resetOf s .whole = some r) : startModuleReset code noDump escalation cause s = s := by
  simp only [startModuleReset, hr, Option.isSome_some, if_true]

/-- The state in which a module reset waits for the commit that writes the flash. -/
def holdModuleReset (code : BitVec 4) (noDump : Bool) (s : State) : State :=
  { s with rcv := { s.rcv with whole := some (code, noDump) }, sys := { s.sys with heldReset := true } }

theorem startModuleReset_waits {code : BitVec 4} {noDump : Bool} {cause : Half} (hnone : resetOf s .whole = none)
    (hcommit : s.sec.commitStep ≠ 0) : startModuleReset code noDump false cause s = holdModuleReset code noDump s := by
  have hwaits : (decide (s.sec.commitStep ≠ 0) && !false) = true := by simp [hcommit]
  simp only [startModuleReset, hnone, Option.isSome_none, Bool.false_eq_true, if_false]
  exact if_pos hwaits

theorem resetModule_of_reset_none (hnone : resetOf s .whole = none) : resetModule units s = s := by
  unfold resetModule
  split
  next h => rw [hnone] at h; cases h
  next => rfl

theorem resetModule_of_code_none (hnone : s.rcv.whole = none) : resetModule units s = s := by
  simp only [resetModule, hnone]

theorem moduleReset_waits (hfree : s.sys.heldReset = false) (hnone : resetOf s .whole = none) (hcode : s.rcv.whole = none)
    (hcommit : s.sec.commitStep ≠ 0) : moduleReset units s = holdModuleReset 1 false s := by
  rw [moduleReset_free units hfree, hcode, startModuleReset_waits hnone hcommit]
  exact resetModule_of_reset_none units hnone

variable {r : Reset} (hfree : s.sys.heldReset = false) (hr : resetOf s .whole = some r)
include hfree hr

theorem moduleReset_of_reset : moduleReset units s = resetModule units s :=
  (moduleReset_free units hfree).trans (congrArg (resetModule units) (startModuleReset_merged hr))

theorem moduleReset_done (hcode : s.rcv.whole = none) : moduleReset units s = s :=
  (moduleReset_of_reset units hfree hr).trans (resetModule_of_code_none units hcode)

/-- The module as it stands after a reset, before its cast-on. -/
def clearModule (code : BitVec 4) (w : State) : State :=
  { w with
    host := { w.host with mbx := Tbl.mapVals (fun _ m => { Mbx.fresh with bind := m.bind }) w.host.mbx }
    links := Tbl.mapVals (fun _ x => cutLink false x) w.links
    rcv := { w.rcv with whole := none }
    sec := { w.sec with commitStep := 0, waitingCfg := [] }
    sys := { w.sys with
      lastReset := code, thermalOff := false, tripLatched := false, faultPin := false, dataOn := w.sys.main,
      dataFenced := false, heldReset := false, offAsked := false, shutdownAt := none, pwrCycleReq := none } }

theorem moduleReset_without_dump {code : BitVec 4} (hcode : s.rcv.whole = some (code, true)) (hcool : s.sys.thermalOff = false) :
    moduleReset units s = refreshFenced (castFrom 1 (clearModule code (loseWork (flushStaging s)))) := by
  rw [moduleReset_of_reset units hfree hr]
  simp only [resetModule, hcode, hr, hcool, Bool.false_and, Bool.false_eq_true, if_true, if_false, clearModule]

end ModuleReset

/-! ## Escalation (R401) -/

section Escalation

variable {r : ResetTarget} {e : Reset}

theorem escalate_none (h : resetOf s r = none) : escalate r s = s := by
  simp only [escalate, h]

theorem escalate_early (he : resetOf s r = some e) (hearly : s.sys.time < e.deadline) : escalate r s = s := by
  simp only [escalate, he, hearly, if_true]

theorem escalate_context {c : Byte} (he : resetOf s (.context c) = some e) (hdue : e.deadline ≤ s.sys.time) :
    escalate (.context c) s = clearReset (.context c) (logHw Lc.resetEscalated [1] s) := by
  simp only [escalate, he, Nat.not_lt.mpr hdue, if_false]

section Engine

variable {u : HwUnit} (he : resetOf s (.engine u) = some e) (hdue : e.deadline ≤ s.sys.time)
include he hdue

theorem escalate_engine_of_partition {p : Nat} (howner : unitOwner s u = some p) :
    escalate (.engine u) s = partitionReset p Lc.resetEscalated (logUnit Lc.resetEscalated u [2] s) := by
  simp only [escalate, he, Nat.not_lt.mpr hdue, if_false, howner]

theorem escalate_engine_of_module (howner : unitOwner s u = none) :
    escalate (.engine u) s =
      startModuleReset 1 false true Lc.resetEscalated (clearReset (.engine u) (logUnit Lc.resetEscalated u [2] s)) := by
  simp only [escalate, he, Nat.not_lt.mpr hdue, if_false, howner]

end Engine

theorem escalate_partition {p : PartIx} (he : resetOf s (.partition p) = some e) (hdue : e.deadline ≤ s.sys.time) :
    escalate (.partition p) s = startModuleReset 1 false true Lc.resetEscalated
      (addLog Lc.resetEscalated 0x50000000 noUnit (ctxWord none (some p.val)) [3] s) := by
  simp only [escalate, he, Nat.not_lt.mpr hdue, if_false]

/-- The state in which a power cycle is asked for, and the data domains are fenced. -/
def requestCycle (s : State) : State :=
  allLinksDown downControl false (refreshFenced
    (logHw Lc.pwrCycleReq [] { s with sys := { s.sys with pwrCycleReq := some s.sys.time, dataFenced := true } }))

theorem askPowerCycle_first (h : s.sys.pwrCycleReq = none) : askPowerCycle s = requestCycle s := by
  simp only [askPowerCycle, h, Option.isSome_none, Bool.false_eq_true, if_false, requestCycle]

theorem escalate_whole (he : resetOf s .whole = some e) (hdue : e.deadline ≤ s.sys.time) (hfirst : s.sys.pwrCycleReq = none) :
    escalate .whole s = requestCycle (logHw Lc.resetEscalated [4] s) := by
  simp only [escalate, he, Nat.not_lt.mpr hdue, if_false]
  exact askPowerCycle_first (by simp [logHw, hfirst])

end Escalation

section ReleaseTimeout

variable {c : Byte} {u : HwUnit}

theorem releaseTimeout_none (h : resetOf s (.context c) = none) : releaseTimeout c u s = s := by
  simp only [releaseTimeout, h]

variable {r : Reset} (hr : resetOf s (.context c) = some r)
include hr

theorem releaseTimeout_early (hearly : s.sys.time < r.deadline) : releaseTimeout c u s = s := by
  simp only [releaseTimeout, hr, Nat.not_le.mpr hearly, if_false]

theorem releaseTimeout_due (hdue : r.deadline ≤ s.sys.time) :
    releaseTimeout c u s = dropSuspects (fun x => decide (x.ctx = c))
      (engineReset u false Lc.resetEscalated (logUnit Lc.resetEscalated u [1] (clearReset (.context c) s))) := by
  simp only [releaseTimeout, hr, hdue, if_true]

end ReleaseTimeout

theorem powerCycleIgnored_none (h : s.sys.pwrCycleReq = none) : powerCycleIgnored s = s := by
  simp only [powerCycleIgnored, h]

section PowerCycle

variable {t0 : Nat} (ht : s.sys.pwrCycleReq = some t0)
include ht

theorem powerCycleIgnored_waits (h : s.sys.main = false ∨ s.sys.time < t0 + 10000000000) : powerCycleIgnored s = s := by
  have hwaits : ¬ (s.sys.main && decide (t0 + 10000000000 ≤ s.sys.time)) = true := by
    obtain h | h := h <;> simp [h]
  simp only [powerCycleIgnored, ht, if_neg hwaits]

theorem powerCycleIgnored_due (hmain : s.sys.main = true) (hdue : t0 + 10000000000 ≤ s.sys.time) :
    powerCycleIgnored s = allLinksDown downControl false (refreshFenced
      (logHw Lc.pwrCycleIgnored [] { s with sys := { s.sys with dataFenced := true } })) := by
  simp only [powerCycleIgnored, ht, hmain, hdue, decide_true, Bool.and_self, if_true]

end PowerCycle

end Sys2Proof.Machine

namespace Sys2Proof

open Sys2Proof.Machine

/-- Settles O48: a partition reset by what it merges into and by its fence, a module reset by what holds it, and a reset past its
deadline by its level. -/
theorem domainResets : Obligations.DomainResets := by
  intro s t v
  refine ⟨fun p x hx => ⟨fun h => next_settle_congr (partitionReset_merged Lc.partitionReset h), fun hwhole hpart => ?_⟩,
    fun p hp => ⟨next_settle_congr (partitionReset_of_part_none Lc.partitionReset hp), fun us => ?_⟩,
    fun p x t0 us hx ht => ⟨fun hearly => ?_, fun hdue hnone => ?_, fun r hdue hr => ?_⟩,
    fun hheld hcommit us => next_settle_congr (moduleReset_held us hheld hcommit),
    fun us hfree hnone hcode hcommit => next_settle_congr (moduleReset_waits us hfree hnone hcode hcommit),
    fun us r hfree hr hcode => next_settle_congr (moduleReset_done us hfree hr hcode),
    fun us r code hfree hr hcode hcool => next_settle_congr (moduleReset_without_dump us hfree hr hcode hcool),
    fun r h => next_settle_congr (escalate_none h), fun r e he hearly => next_settle_congr (escalate_early he hearly),
    fun r e he hdue => ⟨fun c hr => ?_, fun u p hr howner => ?_, fun u hr howner => ?_, fun p hr => ?_, fun hr hfirst => ?_⟩,
    fun c u => ⟨fun h => next_settle_congr (releaseTimeout_none h),
      fun r hr hearly => next_settle_congr (releaseTimeout_early hr hearly), fun r hr hdue => ?_⟩,
    fun h => next_settle_congr (powerCycleIgnored_none h), fun t0 ht h => next_settle_congr (powerCycleIgnored_waits ht h),
    fun t0 ht hmain hdue => next_settle_congr (powerCycleIgnored_due ht hmain hdue)⟩
  · intro e w
    exact ⟨fun hfenced => next_settle_congr (partitionReset_of_fenced Lc.partitionReset hx hwhole hpart hfenced),
      fun hopen hidle => next_settle_congr (partitionReset_without_streams Lc.partitionReset hx hwhole hpart hopen hidle)⟩
  · exact next_settle_congr (bindOffDrain_of_part_none us hp)
  · exact next_settle_congr (bindOffDrain_early us hx ht hearly)
  · exact next_settle_congr (bindOffDrain_ends us hx ht hdue hnone)
  · exact next_settle_congr (bindOffDrain_resets us hx ht hdue hr)
  · subst hr
    exact next_settle_congr (escalate_context he hdue)
  · subst hr
    exact next_settle_congr (escalate_engine_of_partition he hdue howner)
  · subst hr
    exact next_settle_congr (escalate_engine_of_module he hdue howner)
  · subst hr
    exact next_settle_congr (escalate_partition he hdue)
  · subst hr
    exact next_settle_congr (escalate_whole he hdue hfirst)
  · exact next_settle_congr (releaseTimeout_due hr hdue)

end Sys2Proof

end

section
/-! The obligation on supplies and cast-on (chapter 16): the rows of the two supplies, the steps of cast-on, and the clock
monitor. -/

namespace Sys2Proof.Machine

variable {s : State}

/-! ## The auxiliary supply (R409) -/

theorem auxUp_on (h : s.sys.aux = true) : auxUp s = s := if_pos h

/-- The state in which auxiliary power has come up: time, log and host face stand at reset, and what is kept is kept. -/
def startAux (s : State) : State :=
  let r := State.reset
  { s with
    sys := { r.sys with
      main := s.sys.main, refclk := s.sys.refclk, status := 0x10, castStep := 0, castOns := s.sys.castOns,
      stepping := s.sys.stepping, dataOn := false, pcieUp := false, slotId := s.sys.slotId,
      flushed := s.sys.flushed, cleanMark := s.sys.cleanMark, node := s.sys.node }
    log := { r.log with lasting := s.log.lasting }
    host := r.host
    rcv := { r.rcv with summaries := s.rcv.summaries, region := s.rcv.region, nextDump := s.rcv.nextDump }
    sec := { s.sec with commitStep := 0, waitingCfg := [], staging := none, spdm := [], replies := [] } }

theorem auxUp_off (h : s.sys.aux = false) : auxUp s = startAux s := if_neg (Bool.eq_false_iff.mp h)

theorem auxLoss_off (h : s.sys.aux = false) : auxLoss s = s := if_neg (Bool.eq_false_iff.mp h)

/-- The state in which auxiliary power is lost, and nothing runs. -/
def stopAux (w : State) : State :=
  { w with
    links := Tbl.mapVals (fun _ x => cutLink false x) w.links
    sys := { w.sys with
      aux := false, dataOn := false, status := 0, degraded := [], castStep := 0, stepFailed := false, faultPin := false,
      pwrCycleReq := none, pcieUp := false, off := false, offAsked := false, shutdownAt := none, thermalOff := false,
      tripLatched := false, cycled := false, i3cAddr := none } }

theorem auxLoss_on (h : s.sys.aux = true) :
    auxLoss s = stopAux (loseWork (if s.sys.main && s.sys.dataOn then flushStaging s else s)) := if_pos h

/-! ## The 48 V input (R410) -/

theorem mainLost_absent (h : s.sys.main = false) : mainLost s = s := by
  simp only [mainLost, h, Bool.not_false, if_true]

section Loss

variable {mv held : Nat}

theorem mainFail_ignored (h : 36000 ≤ mv ∨ held < 2000 ∨ s.sys.main = false) : mainFail mv held s = s := by
  obtain h | h | h := h
  · exact if_neg fun hlow => absurd hlow.1 (by omega)
  · exact if_neg fun hlow => absurd hlow.2 (by omega)
  · exact (ite_congr rfl (fun _ => mainLost_absent h) fun _ => rfl).trans (ite_self s)

theorem overVoltage_ignored (h : mv ≤ 66000 ∨ held < 10000 ∨ s.sys.main = false) : overVoltage mv held s = s := by
  obtain h | h | h := h
  · exact if_neg fun hhigh => absurd hhigh.1 (by omega)
  · exact if_neg fun hhigh => absurd hhigh.2 (by omega)
  · exact (ite_congr rfl (fun _ => mainLost_absent h) fun _ => rfl).trans (ite_self s)

/-- 48 V below 36 V for 2 µs, and above 66 V for 10 µs, is lost. -/
theorem exec_loses_main {i : Instr}
    (h : (i = .mainPowerFail mv held ∧ mv < 36000 ∧ 2000 ≤ held) ∨ (i = .supplyOvervoltage mv held ∧ 66000 < mv ∧ 10000 ≤ held)) :
    exec i s = .next (settle (mainLost s)) := by
  obtain ⟨rfl, hlow⟩ | ⟨rfl, hhigh⟩ := h
  · exact next_settle_congr (if_pos hlow)
  · exact next_settle_congr (if_pos hhigh)

end Loss

/-- The state in which 48 V is gone: the dies are off, a power cycle asked for is noted, and no module reset is pending. -/
def dropMain (s : State) : State :=
  let a := logHw Lc.mainPowerLost [] (undegrade .supplyLow { s with sys := { s.sys with main := false } })
  let b := if s.sys.dataOn then diesOff (flushStaging a) else a
  { b with
    sys := { b.sys with pwrCycleReq := none, cycled := b.sys.cycled || s.sys.pwrCycleReq.isSome }
    rcv := { b.rcv with whole := none } }

section MainLost

variable (hmain : s.sys.main = true)
include hmain

theorem mainLost_without_aux (haux : s.sys.aux = false) : mainLost s = { s with sys := { s.sys with main := false } } := by
  simp only [mainLost, hmain, haux, Bool.not_true, Bool.not_false, Bool.false_eq_true, if_true, if_false]

theorem mainLost_with_aux (haux : s.sys.aux = true) :
    mainLost s = if decide (s.sys.castStep.toNat < 2) || s.sys.thermalOff || s.statusBit Sb.recovery then dropMain s
      else castFrom 2 (dropMain s) := by
  simp only [mainLost, hmain, haux, Bool.not_true, Bool.false_eq_true, if_false, dropMain]

theorem mainLost_stays (haux : s.sys.aux = true)
    (h : s.sys.castStep.toNat < 2 ∨ s.sys.thermalOff = true ∨ s.statusBit Sb.recovery = true) : mainLost s = dropMain s := by
  refine (mainLost_with_aux hmain haux).trans (if_pos ?_)
  obtain h | h | h := h <;> simp [h]

theorem mainLost_waits (haux : s.sys.aux = true) (hstep : 2 ≤ s.sys.castStep.toNat) (hcool : s.sys.thermalOff = false)
    (hboot : s.statusBit Sb.recovery = false) : mainLost s = castFrom 2 (dropMain s) := by
  refine (mainLost_with_aux hmain haux).trans (if_neg ?_)
  simp [hcool, hboot, Nat.not_lt.mpr hstep]

end MainLost

section Return

variable {mv : Nat}

theorem mainReturn_out_of_range (h : mv < 36000 ∨ 66000 < mv) : mainReturn mv s = s := if_pos h

/-- The state in which 48 V is present. -/
def raiseMain (s : State) : State := { s with sys := { s.sys with main := true } }

variable (hlow : 36000 ≤ mv) (hhigh : mv ≤ 66000)
include hlow hhigh

/-- A voltage in the range of the input. -/
theorem main_in_range : ¬ (mv < 36000 ∨ 66000 < mv) := by omega

theorem mainReturn_present (hmain : s.sys.main = true) (haux : s.sys.aux = true) (hgood : 40000 ≤ mv) :
    mainReturn mv s = undegrade .supplyLow s := by
  simp only [mainReturn, if_neg (main_in_range hlow hhigh), hmain, haux, if_true, if_pos hgood]

variable (hmain : s.sys.main = false)
include hmain

theorem mainReturn_without_aux (haux : s.sys.aux = false) : mainReturn mv s = raiseMain s := by
  simp only [mainReturn, if_neg (main_in_range hlow hhigh), hmain, haux, Bool.not_false, Bool.false_eq_true, if_true, if_false,
    raiseMain]

theorem mainReturn_cycled (haux : s.sys.aux = true) (hcycled : s.sys.cycled = true) :
    mainReturn mv s =
      refreshFenced (afterCycle { raiseMain s with sys := { (raiseMain s).sys with dataOn := true } }) := by
  simp only [mainReturn, if_neg (main_in_range hlow hhigh), hmain, haux, hcycled, Bool.not_true, Bool.false_eq_true, if_true,
    if_false, raiseMain]

theorem mainReturn_held (haux : s.sys.aux = true) (hcycled : s.sys.cycled = false)
    (h : s.sys.thermalOff = true ∨ s.statusBit Sb.recovery = true) : mainReturn mv s = raiseMain s := by
  have hheld : (s.sys.thermalOff || s.statusBit Sb.recovery) = true := by
    obtain h | h := h <;> simp [h]
  simp only [mainReturn, if_neg (main_in_range hlow hhigh), hmain, haux, hcycled, hheld, Bool.not_true, Bool.false_eq_true, if_true,
    if_false, raiseMain]

theorem mainReturn_goes_on (haux : s.sys.aux = true) (hcycled : s.sys.cycled = false) (hcool : s.sys.thermalOff = false)
    (hboot : s.statusBit Sb.recovery = false) :
    mainReturn mv s = { raiseMain s with sys := { (raiseMain s).sys with dataOn := true, castAt := s.sys.time } } := by
  simp only [mainReturn, if_neg (main_in_range hlow hhigh), hmain, haux, hcycled, hcool, hboot, Bool.not_true, Bool.or_self,
    Bool.false_eq_true, if_false, raiseMain]

end Return

/-! ## A supply that is low or high -/

theorem minuteOver_false {last : Option Nat} {now z : Nat} (hz : last = some z) (hsoon : now < z + 60000000000) :
    minuteOver last now = false := by
  simp only [minuteOver, hz, decide_eq_false (Nat.not_le.mpr hsoon)]

theorem minuteOver_true {last : Option Nat} {now : Nat} (h : ∀ z, last = some z → z + 60000000000 ≤ now) :
    minuteOver last now = true := by
  cases last with
  | none => rfl
  | some z => exact decide_eq_true (h z rfl)

section Supply

variable {mv : Nat}

theorem supplyLow_ignored (h : s.sys.aux = false ∨ s.sys.main = false ∨ mv < 36000 ∨ 40000 ≤ mv) : supplyLow mv s = s := by
  refine if_neg ?_
  simp only [Bool.and_eq_true, decide_eq_true_eq, not_and]
  rintro ⟨haux, hmain⟩ hlow
  simp only [haux, hmain, Bool.true_eq_false, false_or] at h
  omega

theorem supplyHigh_ignored (h : s.sys.aux = false ∨ s.sys.main = false ∨ mv ≤ 60000 ∨ 66000 < mv) : supplyHigh mv s = s := by
  refine if_neg ?_
  simp only [Bool.and_eq_true, decide_eq_true_eq, not_and]
  rintro ⟨⟨haux, hmain⟩, hlow, hhigh⟩
  simp only [haux, hmain, Bool.true_eq_false, false_or] at h
  omega

variable (haux : s.sys.aux = true) (hmain : s.sys.main = true)
include haux hmain

theorem supplyLow_degrades (hlow : 36000 ≤ mv) (hhigh : mv < 40000) :
    supplyLow mv s =
      if minuteOver s.sys.lowLogged s.sys.time then
        logHw Lc.supplyLow [mv] { degrade .supplyLow s with sys := { (degrade .supplyLow s).sys with lowLogged := some s.sys.time } }
      else degrade .supplyLow s := by
  refine if_pos ?_
  simp [haux, hmain, hlow, hhigh]

theorem supplyHigh_in_range (hlow : 60000 < mv) (hhigh : mv ≤ 66000) :
    supplyHigh mv s =
      if minuteOver s.sys.highLogged s.sys.time then
        logHw Lc.supplyHigh [mv] { s with sys := { s.sys with highLogged := some s.sys.time } }
      else s := by
  simp only [supplyHigh, haux, hmain, hlow, hhigh, and_self, decide_true, Bool.and_self, Bool.true_and]

end Supply

/-! ## Cast-on (R411 to R414) -/

theorem castOn_starts (haux : s.sys.aux = true) (hclock : s.sys.refclk = true) (hsafe : s.statusBit Sb.safeClock = false)
    (hstep : s.sys.castStep = 0) : castOn s = castFrom 1 s := by
  refine if_pos ?_
  simp [haux, hclock, hsafe, hstep]

theorem castOn_ignored (h : s.sys.aux = false ∨ s.sys.refclk = false ∨ s.statusBit Sb.safeClock = true ∨ s.sys.castStep ≠ 0) :
    castOn s = s := by
  refine if_neg ?_
  simp only [Bool.and_eq_true, Bool.not_eq_true', decide_eq_true_eq, not_and, and_imp]
  intro haux hclock hsafe hstep
  simp only [haux, hclock, hsafe, hstep, Bool.true_eq_false, Bool.false_eq_true, ne_eq, not_true_eq_false, or_self] at h

/-- No step of cast-on ends now. -/
def castIdle (s : State) : Bool :=
  !s.statusBit Sb.castOnBusy || s.sys.stepFailed || decide (s.sys.castStep.toNat = 0 ∨ 8 < s.sys.castStep.toNat) ||
    (decide (s.sys.castStep.toNat ≠ 1) && !s.sys.dataOn)

theorem castStepEnd_idle (found : List StepResult)
    (h : s.statusBit Sb.castOnBusy = false ∨ s.sys.stepFailed = true ∨ s.sys.castStep.toNat = 0 ∨ 8 < s.sys.castStep.toNat ∨
      (s.sys.castStep.toNat ≠ 1 ∧ s.sys.dataOn = false)) : castStepEnd found s = s := by
  have hidle : castIdle s = true := by
    unfold castIdle
    obtain h | h | h | h | ⟨hstep, hdata⟩ := h
    · simp [h]
    · simp [h]
    · simp [h]
    · simp [h]
    · simp [hdata, decide_eq_true hstep]
  exact if_pos hidle

section StepEnd

variable {found : List StepResult} (hbusy : s.statusBit Sb.castOnBusy = true) (hgoing : s.sys.stepFailed = false)
include hbusy hgoing

theorem castIdle_step_one (hstep : s.sys.castStep.toNat = 1) : castIdle s = false := by
  simp [castIdle, hbusy, hgoing, hstep]

theorem castIdle_later_step (hlow : 2 ≤ s.sys.castStep.toNat) (hhigh : s.sys.castStep.toNat ≤ 8) (hdata : s.sys.dataOn = true) :
    castIdle s = false := by
  have hrange : ¬ (s.sys.castStep.toNat = 0 ∨ 8 < s.sys.castStep.toNat) := by omega
  simp only [castIdle, hbusy, hgoing, hdata, decide_eq_false hrange, Bool.not_true, Bool.and_false, Bool.or_self]

theorem castStepEnd_boots (hstep : s.sys.castStep.toNat = 1) : castStepEnd found s = stepBoot found s :=
  (if_neg (Bool.eq_false_iff.mp (castIdle_step_one hbusy hgoing hstep))).trans (if_pos hstep)

section Later

variable (hlow : 2 ≤ s.sys.castStep.toNat) (hhigh : s.sys.castStep.toNat ≤ 8) (hdata : s.sys.dataOn = true)
include hlow hhigh hdata

theorem castStepEnd_stops (hfatal : stepStops s.sys.castStep.toNat found = true) : castStepEnd found s = castStops noUnit s :=
  (if_neg (Bool.eq_false_iff.mp (castIdle_later_step hbusy hgoing hlow hhigh hdata))).trans
    ((if_neg (by omega)).trans (if_pos hfatal))

/-- The state in which a step's findings and its own work have taken effect. -/
def workStep (found : List StepResult) (s : State) : State :=
  stepWork s.sys.castStep.toNat (foldOver found stepFinding s)

theorem castStepEnd_ends (hgood : stepStops s.sys.castStep.toNat found = false) :
    castStepEnd found s =
      if s.sys.castStep.toNat = 8 then castEnds (workStep found s)
      else { workStep found s with
        sys := { (workStep found s).sys with castStep := BitVec.ofNat 4 (s.sys.castStep.toNat + 1) } } :=
  (if_neg (Bool.eq_false_iff.mp (castIdle_later_step hbusy hgoing hlow hhigh hdata))).trans
    ((if_neg (by omega)).trans (if_neg (Bool.eq_false_iff.mp hgood)))

end Later

end StepEnd

theorem workStep_eight_nil (h : s.sys.castStep.toNat = 8) : workStep [] s = s := by
  simp only [workStep, h, foldOver_nil, stepWork]
  rfl

theorem castStepEnd_finishes (hbusy : s.statusBit Sb.castOnBusy = true) (hgoing : s.sys.stepFailed = false)
    (hk : s.sys.castStep.toNat = 8) (hdata : s.sys.dataOn = true) (hgood : stepStops 8 [] = false) :
    castStepEnd [] s = castEnds s := by
  rw [castStepEnd_ends hbusy hgoing (by omega) (by omega) hdata (by rwa [hk]), if_pos hk, workStep_eight_nil hk]

section Boot

variable {found : List StepResult}

theorem stepBoot_recovers (h : s.sec.committed = none ∨ StepResult.imageFailed ∈ found) : stepBoot found s = enterRecovery s := by
  cases hcommitted : s.sec.committed with
  | none => simp only [stepBoot, hcommitted]
  | some bundle =>
    have hfailed : StepResult.imageFailed ∈ found := h.resolve_left (by simp [hcommitted])
    simp only [stepBoot, hcommitted, hfailed, if_true]

/-- The state in which the committed bundle runs, and the conditions that last are kept. -/
def runBundle (bundle : Bundle) (s : State) : State :=
  { s with
    sec := { s.sec with running := bundle }
    sys := { s.sys with castStep := 2, degraded := s.sys.degraded.filter lasting, dataOn := s.sys.main }
    dies := Tbl.mapVals (fun _ x => { x with dead := false }) s.dies }

theorem stepBoot_boots {bundle : Bundle} (hcommitted : s.sec.committed = some bundle) (hgood : StepResult.imageFailed ∉ found) :
    stepBoot found s = castConfig (setStatus Sb.degraded (!(s.sys.degraded.filter lasting).isEmpty)
      (setStatus Sb.recovery false (runBundle bundle s))) := by
  simp only [stepBoot, hcommitted, hgood, if_false, runBundle]

end Boot

/-! ## The clock monitor (R420 to R422) -/

/-- The state after the loss of REFCLK: the oscillator drives, links are down, the function is reset, and work is lost. -/
def loseRefclk (s : State) : State :=
  let w := logHw Lc.refclkLost [] { s with sys := { s.sys with refclk := false, dataFenced := true } }
  let x := resetFunction resetKindModule true (allLinksDown downControl false (setStatus Sb.safeClock true w))
  let y := if s.sys.dataOn then loseWork (flushStaging x) else x
  refreshFenced { y with links := Tbl.mapVals (fun _ z => cutLink true z) y.links }

theorem refclkLost_seen {quiet off : Nat} (haux : s.sys.aux = true) (hclock : s.sys.refclk = true) (hstep : s.sys.castStep ≠ 0)
    (hfault : 40 ≤ quiet ∨ 20000 < off) : refclkLost quiet off s = loseRefclk s := by
  refine if_pos ?_
  simp only [haux, hclock, decide_eq_true hstep, decide_eq_true hfault, Bool.and_self]

theorem refclkLost_ignored {quiet off : Nat}
    (h : s.sys.aux = false ∨ s.sys.refclk = false ∨ s.sys.castStep = 0 ∨ (quiet < 40 ∧ off ≤ 20000)) : refclkLost quiet off s = s := by
  refine if_neg ?_
  simp only [Bool.and_eq_true, decide_eq_true_eq, not_and, and_imp]
  intro haux hclock hstep
  simp only [haux, hclock, hstep, Bool.true_eq_false, false_or] at h
  omega

section Clock

variable {stable : Nat}

theorem refclkRestored_stable (haux : s.sys.aux = true) (hsafe : s.statusBit Sb.safeClock = true) (hstep : s.sys.castStep ≠ 0)
    (hstable : 100000000 ≤ stable) :
    refclkRestored stable s = startModuleReset 4 false false Lc.refclkRestored
      (logHw Lc.refclkRestored [] (setStatus Sb.safeClock false { s with sys := { s.sys with refclk := true } })) := by
  refine if_pos ?_
  simp only [haux, hsafe, decide_eq_true hstep, decide_eq_true hstable, Bool.and_self]

theorem refclkRestored_ignored (h : s.statusBit Sb.safeClock = false ∨ stable < 100000000) : refclkRestored stable s = s := by
  refine if_neg ?_
  obtain h | h := h <;> simp [h]

theorem refclkLock_stable (haux : s.sys.aux = true) (hsafe : s.statusBit Sb.safeClock = true) (hstep : s.sys.castStep = 0)
    (hstable : 10000000 ≤ stable) :
    refclkLock stable s = setStatus Sb.safeClock false { s with sys := { s.sys with refclk := true } } := by
  refine if_pos ?_
  simp [haux, hsafe, hstep, hstable]

theorem refclkLock_ignored (h : s.statusBit Sb.safeClock = false ∨ stable < 10000000) : refclkLock stable s = s := by
  refine if_neg ?_
  obtain h | h := h <;> simp [h]

end Clock

end Sys2Proof.Machine

namespace Sys2Proof

open Sys2Proof.Machine

/-- Settles O49: the two supplies by their ranges, cast-on by its step and what the step found, and the clock monitor by its
times. What cast-on starts afresh is the model's choice (log row 28). -/
theorem suppliesAndCastOn : Obligations.SuppliesAndCastOn := by
  refine ⟨fun s mv held t => ?_, fun s found a b t => ?_⟩
  · intro v
    refine ⟨fun h => next_settle_congr (auxUp_on h), fun h => next_settle_congr (auxUp_off h),
      fun h => next_settle_congr (auxLoss_off h), fun h => next_settle_congr (auxLoss_on h),
      fun h => next_settle_congr (mainFail_ignored h), fun h => next_settle_congr (overVoltage_ignored h),
      fun i hi hmain => ⟨fun haux => ?_, fun haux => ?_⟩, fun h => next_settle_congr (mainReturn_out_of_range h),
      fun hlow hhigh => ?_, fun h => next_congr (supplyLow_ignored h), fun haux hmain hlow hhigh => ?_,
      fun h => next_congr (supplyHigh_ignored h), fun haux hmain hlow hhigh => ⟨fun z hz hsoon => ?_, fun hlate => ?_⟩⟩
    · rw [exec_loses_main hi, mainLost_without_aux hmain haux]
    · intro x y z
      rw [exec_loses_main hi]
      exact ⟨fun h => next_settle_congr (mainLost_stays hmain haux h),
        fun hstep hcool hboot => next_settle_congr (mainLost_waits hmain haux hstep hcool hboot)⟩
    · intro m
      exact ⟨fun hmain haux => next_settle_congr (mainReturn_without_aux hlow hhigh hmain haux),
        fun hmain haux hcycled h => next_settle_congr (mainReturn_held hlow hhigh hmain haux hcycled h),
        fun hmain haux hcycled hcool hboot =>
          next_settle_congr (mainReturn_goes_on hlow hhigh hmain haux hcycled hcool hboot),
        fun hmain haux hcycled => next_settle_congr (mainReturn_cycled hlow hhigh hmain haux hcycled),
        fun hmain haux hgood => next_settle_congr (mainReturn_present hlow hhigh hmain haux hgood)⟩
    · have hlower := supplyLow_degrades (mv := mv) haux hmain hlow hhigh
      exact ⟨fun z hz hsoon => next_congr (hlower.trans (if_neg (Bool.eq_false_iff.mp (minuteOver_false hz hsoon)))),
        fun hlate => next_congr (hlower.trans (if_pos (minuteOver_true hlate)))⟩
    · exact next_congr ((supplyHigh_in_range haux hmain hlow hhigh).trans
        (if_neg (Bool.eq_false_iff.mp (minuteOver_false hz hsoon))))
    · exact next_congr ((supplyHigh_in_range haux hmain hlow hhigh).trans (if_pos (minuteOver_true hlate)))
  · intro v k
    refine ⟨fun haux hclock hsafe hstep => next_congr (castOn_starts haux hclock hsafe hstep),
      fun h => next_congr (castOn_ignored h), fun h => next_settle_congr (castStepEnd_idle found h),
      fun hbusy hgoing => ⟨fun hk h => ?_, fun bundle hk hcommitted hgood => ?_, fun hlow hhigh hdata hfatal => ?_,
        fun hlow hhigh hdata hgood => ?_, fun hk hdata hgood hnone => ?_⟩,
      fun haux hclock hstep hfault => next_settle_congr (refclkLost_seen haux hclock hstep hfault),
      fun h => next_settle_congr (refclkLost_ignored h), fun haux hsafe => ⟨fun hstep hstable => ?_, fun hstep hstable => ?_,
        fun hearly => next_settle_congr (refclkRestored_ignored (.inr hearly)),
        fun hearly => next_congr (refclkLock_ignored (.inr hearly))⟩,
      fun hsafe => ⟨next_settle_congr (refclkRestored_ignored (.inl hsafe)), next_congr (refclkLock_ignored (.inl hsafe))⟩⟩
    · exact next_settle_congr ((castStepEnd_boots hbusy hgoing hk).trans (stepBoot_recovers h))
    · exact next_settle_congr ((castStepEnd_boots hbusy hgoing hk).trans (stepBoot_boots hcommitted hgood))
    · exact next_settle_congr (castStepEnd_stops hbusy hgoing hlow hhigh hdata hfatal)
    · exact next_settle_congr ((castStepEnd_ends hbusy hgoing hlow (by omega) hdata hgood).trans (if_neg (by omega)))
    · subst hnone
      exact next_settle_congr (castStepEnd_finishes hbusy hgoing hk hdata hgood)
    · exact next_settle_congr (refclkRestored_stable haux hsafe hstep hstable)
    · exact next_congr (refclkLock_stable haux hsafe hstep hstable)

end Sys2Proof

end

section
/-! The obligation on the power loops (chapter 16): the cap loop, the thermal loop and its limits, coolant, and the power states of
a compute die. -/

namespace Sys2Proof.Machine

variable {s : State}

/-! ## The cap loop (R427, R428) -/

/-- The state in which the input power is recorded. -/
def setInput (mw : Nat) (s : State) : State := { s with power := { s.power with inputMw := mw } }

/-- The state in which the input has been below every cap since a time, or is not. -/
def setBelow (since : Option Nat) (s : State) : State := { s with power := { s.power with belowSince := since } }

section Cap

variable {mw : Nat} {parts : List Nat}

theorem capTick_limit (h : 2400000 < mw) :
    capTick mw parts s = settleSteps (logHw Lc.powerLimitHit [mw] (setBelow none
      (foldOver [0, 1, 2, 3] (fun d acc => acc.modDie d fun x => { x with capK := kLow }) (setInput mw s)))) := if_pos h

theorem capTick_lowers {d : Nat} (hlimit : mw ≤ 2400000) (hcap : moduleCap (setInput mw s) * 1000 < mw)
    (hd : bestDie (fun a b => decide (b < a)) (fun d => decide (kLow < ((setInput mw s).die d).k)) [0, 1, 2, 3] (setInput mw s) = some d) :
    capTick mw parts s = settleSteps (setBelow none ((setInput mw s).modDie d fun x => { x with capK := x.k - 1 })) := by
  unfold setInput at hcap hd
  simp only [capTick, if_neg (Nat.not_lt.mpr hlimit), decide_eq_true hcap, Bool.true_or, if_true, hd, setBelow, setInput]

section Below

variable (hcap : mw ≤ moduleCap (setInput mw s) * 1000) (hlimit : mw ≤ 2400000) (hparts : overParts parts (setInput mw s) = [])
include hcap hlimit hparts

theorem capTick_near (hnear : wellBelow mw parts (setInput mw s) = false) : capTick mw parts s = setBelow none (setInput mw s) := by
  unfold setInput at hcap hparts hnear
  simp only [capTick, if_neg (Nat.not_lt.mpr hlimit), decide_eq_false (Nat.not_lt.mpr hcap), hparts, hnear, List.isEmpty_nil,
    Bool.not_true, Bool.or_self, Bool.false_eq_true, if_false, setBelow, setInput]

variable (hbelow : wellBelow mw parts (setInput mw s) = true)
include hbelow

theorem capTick_begins (hnone : s.power.belowSince = none) :
    capTick mw parts s = setBelow (some s.sys.time) (setInput mw s) := by
  unfold setInput at hcap hparts hbelow
  have hearly : ¬ s.sys.time + 1000000 ≤ s.sys.time := by omega
  have hsince : s.power.belowSince.getD s.sys.time = s.sys.time := by rw [hnone, Option.getD_none]
  simp only [capTick, if_neg (Nat.not_lt.mpr hlimit), decide_eq_false (Nat.not_lt.mpr hcap), hparts, hbelow, List.isEmpty_nil,
    Bool.not_true, Bool.or_self, Bool.false_eq_true, if_false, if_true, hsince, if_neg hearly, setBelow, setInput]

theorem capTick_raises {z d : Nat} (hz : s.power.belowSince = some z) (hlate : z + 1000000 ≤ s.sys.time)
    (hd : bestDie (fun a b => decide (a < b)) (fun d => decide (((setInput mw s).die d).capK < ((setInput mw s).die d).kmax))
      [0, 1, 2, 3] (setInput mw s) = some d) :
    capTick mw parts s =
      settleSteps ((setBelow (some z) (setInput mw s)).modDie d fun x => { x with capK := x.capK + 1 }) := by
  unfold setInput at hcap hparts hbelow hd
  have hsince : s.power.belowSince.getD s.sys.time = z := by rw [hz, Option.getD_some]
  simp only [capTick, if_neg (Nat.not_lt.mpr hlimit), decide_eq_false (Nat.not_lt.mpr hcap), hparts, hbelow, List.isEmpty_nil,
    Bool.not_true, Bool.or_self, Bool.false_eq_true, if_false, if_true, hsince, if_pos hlate, hd, setBelow, setInput]

end Below

end Cap

/-! ## Temperatures (R429) -/

section Thermal

variable {mc : Int}

/-- The state in which a die's junction temperature is recorded. -/
def setJunction (d : Nat) (mc : Int) (s : State) : State := s.modDie d fun y => { y with milliC := mc }

variable {d : Nat}

theorem thermalTick_hot (h : 1000 * (s.power.targetC : Int) < mc) :
    thermalTick d mc s = settleSteps ((setJunction d mc s).modDie d fun y => { y with thermK := max kLow (y.k - 1) }) := if_pos h

theorem thermalTick_cool (h : mc ≤ 1000 * (s.power.targetC : Int) - 3000) :
    thermalTick d mc s = settleSteps ((setJunction d mc s).modDie d fun y => { y with thermK := min 16 (y.thermK + 1) }) :=
  (if_neg (show ¬ 1000 * (s.power.targetC : Int) < mc by omega)).trans (if_pos h)

theorem thermalTick_near (hlow : 1000 * (s.power.targetC : Int) - 3000 < mc) (hhigh : mc ≤ 1000 * (s.power.targetC : Int)) :
    thermalTick d mc s = setJunction d mc s :=
  (if_neg (show ¬ 1000 * (s.power.targetC : Int) < mc by omega)).trans
    (if_neg (show ¬ mc ≤ 1000 * (s.power.targetC : Int) - 3000 by omega))

variable {x : Sensor}

/-- The state in which a sensor's throttle is lifted. -/
def unthrottle (x : Sensor) (s : State) : State :=
  { s with power := { s.power with limited := s.power.limited.filter fun y => decide (y ≠ x) } }

/-- The state in which a sensor's reading throttles what it measures. -/
def throttle (x : Sensor) (s : State) : State :=
  { s with power := { s.power with limited := (s.power.limited.filter fun y => decide (y ≠ x)) ++ [x] } }

theorem thermalLimit_below (h : mc < hardLimit x) : thermalLimit x mc s = unthrottle x (setTemp x mc s) :=
  if_neg (Int.not_le.mpr h)

theorem thermalLimit_compute {i : DieIx} (h : 105000 ≤ mc) :
    thermalLimit (.compute i) mc s =
      settleSteps ((setTemp (.compute i) mc s).modDie i.val fun y => { y with thermK := kLow }) :=
  if_pos (show hardLimit (.compute i) ≤ mc from h)

theorem thermalLimit_light {l : Fin 2} (h : 95000 ≤ mc) :
    thermalLimit (.light l) mc s =
      foldOver ((List.range 12).map fun i => 12 * l.val + i) shedToEight (throttle (.light l) (setTemp (.light l) mc s)) :=
  if_pos (show hardLimit (.light l) ≤ mc from h)

theorem thermalLimit_nand {g : GroupIx} (h : 70000 ≤ mc) :
    thermalLimit (.nand g) mc s = throttle (.nand g) (setTemp (.nand g) mc s) :=
  if_pos (show hardLimit (.nand g) ≤ mc from h)

theorem thermalShutdown_again {detail : List Nat} (h : s.sys.thermalOff = true) : thermalShutdown detail s = s := if_pos h

/-- The state in which a trip has powered the dies off, and FAULT# is driven. -/
def tripModule (z : State) : State :=
  { z with sys := { z.sys with thermalOff := true, tripLatched := true, faultPin := z.sys.aux } }

theorem thermalShutdown_first {detail : List Nat} (h : s.sys.thermalOff = false) :
    thermalShutdown detail s = tripModule (diesOff (flushStaging (logHw Lc.thermalTrip detail s))) := by
  refine (if_neg (Bool.eq_false_iff.mp h)).trans ?_
  simp only [drivePins, Bool.or_true, Bool.and_true, tripModule]

section Trip

variable (hx : ∀ g, x ≠ .nand g)
include hx

theorem thermalTrip_eq :
    thermalTrip x mc s =
      if tripLimit x ≤ mc then thermalShutdown (sensorWords x ++ [mc.toNat]) (setTemp x mc s) else setTemp x mc s := by
  cases x with
  | nand g => exact absurd rfl (hx g)
  | compute => rfl
  | media => rfl
  | light => rfl
  | hbm => rfl

theorem thermalTrip_below (h : mc < tripLimit x) : thermalTrip x mc s = setTemp x mc s :=
  (thermalTrip_eq hx).trans (if_neg (Int.not_le.mpr h))

theorem thermalTrip_at (h : tripLimit x ≤ mc) :
    thermalTrip x mc s = thermalShutdown (sensorWords x ++ [mc.toNat]) (setTemp x mc s) :=
  (thermalTrip_eq hx).trans (if_pos h)

end Trip

end Thermal

/-! ## Coolant (R432) -/

section Coolant

variable {mc : Int}

/-- The state in which the inlet temperature is recorded, and the cap falls with it. -/
def setInlet (mc : Int) (s : State) : State :=
  { s with power := { s.power with inletMc := mc, hotW := ((mc - 40000).toNat + 9) / 10 } }

theorem coolantHot_cool (h : mc ≤ 40000) : coolantHot mc s = setInlet mc s := by
  have hnone : ¬ 0 < (mc - 40000).toNat := by omega
  exact if_neg hnone

theorem coolantHot_hot (h : 40000 < mc) : coolantHot mc s = logHw Lc.coolantHot [mc.toNat] (setInlet mc s) := by
  have hsome : 0 < (mc - 40000).toNat := by omega
  exact if_pos hsome

theorem inletShutdown_ignored {held : Nat} (h : mc ≤ 45000 ∨ held < 1000000000) : inletShutdown mc held s = setInlet mc s :=
  if_neg (by omega)

theorem inletShutdown_hot {held : Nat} (hmc : 45000 < mc) (hheld : 1000000000 ≤ held) :
    inletShutdown mc held s = thermalShutdown [5, 0, mc.toNat] (setInlet mc s) := if_pos ⟨hmc, hheld⟩

variable {flow mw held : Nat}

/-- The state in which the coolant's flow is recorded. -/
def setFlow (flow : Nat) (s : State) : State := { s with power := { s.power with flow := flow } }

/-- The state in which the limit for low flow is in force, or is lifted. -/
def setLowFlow (low : Bool) (s : State) : State := { s with power := { s.power with lowFlow := low } }

theorem flowLow_low (hflow : flow < 3600) (hmw : 600000 < mw) (hheld : 1000000000 ≤ held) :
    flowLow flow mw held s =
      logHw Lc.coolantFlowLow [flow] (degrade .flow (setLowFlow true (setInput mw (setFlow flow s)))) :=
  if_pos ⟨hflow, hmw, hheld⟩

theorem flowLow_ignored (h : 3600 ≤ flow ∨ mw ≤ 600000 ∨ held < 1000000000) :
    flowLow flow mw held s = setInput mw (setFlow flow s) := if_neg (by omega)

theorem flowRestored_high (hlow : s.power.lowFlow = true) (hflow : 4000 < flow) (hheld : 10000000000 ≤ held) :
    flowRestored flow held s = undegrade .flow (setLowFlow false (setFlow flow s)) := if_pos ⟨hlow, hflow, hheld⟩

theorem flowRestored_ignored (h : s.power.lowFlow = false ∨ flow ≤ 4000 ∨ held < 10000000000) :
    flowRestored flow held s = setFlow flow s := by
  refine if_neg ?_
  rintro ⟨hlow, hflow, hheld⟩
  replace hlow : s.power.lowFlow = true := hlow
  simp only [hlow, Bool.true_eq_false, false_or] at h
  omega

end Coolant

/-! ## Power states of a compute die (R423, R424) -/

section DieStates

variable {d : Nat}

/-- The conditions under which a die's gate timer runs. -/
def mayGate (s : State) (d : Nat) : Bool :=
  s.sys.dataOn && decide ((s.die d).pstate = .run) && (s.die d).wakingAt.isNone && dieIdle s d

theorem gateTimer_eq :
    gateTimer d s =
      if mayGate s d && decide (idleSince s d + s.power.gateUs * 1000 ≤ s.sys.time) then enterState d .gate s else s := rfl

theorem gateTimer_barred
    (h : s.sys.dataOn = false ∨ (s.die d).pstate ≠ .run ∨ (s.die d).wakingAt.isSome = true ∨ dieIdle s d = false) :
    gateTimer d s = s := by
  have hbar : mayGate s d = false := by
    unfold mayGate
    obtain h | h | h | h := h
    · simp [h]
    · simp [h]
    · simp [Option.isNone_eq_false_iff.mpr h]
    · simp [h]
  simp only [gateTimer_eq, hbar, Bool.false_and, Bool.false_eq_true, if_false]

theorem gateTimer_early (hearly : s.sys.time < idleSince s d + s.power.gateUs * 1000) : gateTimer d s = s := by
  simp only [gateTimer_eq, decide_eq_false (Nat.not_le.mpr hearly), Bool.and_false, Bool.false_eq_true, if_false]

section Gate

variable (hdata : s.sys.dataOn = true) (hrun : (s.die d).pstate = .run) (hwake : (s.die d).wakingAt = none)
  (hidle : dieIdle s d = true)
include hdata hrun hwake hidle

theorem mayGate_of_idle : mayGate s d = true := by
  simp [mayGate, hdata, hrun, hwake, hidle]

theorem gateTimer_due (hdue : idleSince s d + s.power.gateUs * 1000 ≤ s.sys.time) :
    gateTimer d s = s.modDie d fun y => { y with pstate := .gate, enteredAt := s.sys.time } := by
  simp only [gateTimer_eq, mayGate_of_idle hdata hrun hwake hidle, decide_eq_true hdue, Bool.and_self, if_true]
  rfl

end Gate

theorem retainTimer_barred (h : s.power.retainMs = none ∨ (s.die d).pstate ≠ .gate ∨ (s.die d).wakingAt.isSome = true) :
    retainTimer d s = s := by
  cases hr : s.power.retainMs with
  | none => simp only [retainTimer, hr]
  | some r =>
    have hbar : (decide ((s.die d).pstate = .gate) && (s.die d).wakingAt.isNone) = false := by
      obtain h | h | h := h
      · simp [hr] at h
      · simp [h]
      · simp [Option.isNone_eq_false_iff.mpr h]
    simp only [retainTimer, hr, hbar, Bool.false_and, Bool.false_eq_true, if_false]

section Retain

variable {r : Nat} (hr : s.power.retainMs = some r) (hgate : (s.die d).pstate = .gate) (hwake : (s.die d).wakingAt = none)
include hr

theorem retainTimer_early (hearly : s.sys.time < idleSince s d + r * 1000000) : retainTimer d s = s := by
  simp only [retainTimer, hr, decide_eq_false (Nat.not_le.mpr hearly), Bool.and_false, Bool.false_eq_true, if_false]

include hgate hwake

theorem retainTimer_due (hdue : idleSince s d + r * 1000000 ≤ s.sys.time) :
    retainTimer d s = s.modDie d fun y =>
      { y with pstate := .retain, enteredAt := s.sys.time, pad := [], regs := [], undef := 0 } := by
  simp only [retainTimer, hr, hgate, hwake, decide_eq_true hdue, decide_true, Option.isNone_none, Bool.and_self, if_true]
  rfl

end Retain

theorem wakeComplete_none (h : (s.die d).wakingAt = none) : wakeComplete d s = s := by
  simp only [wakeComplete, h]

section Wake

variable {z : Nat} (hz : (s.die d).wakingAt = some z)
include hz

theorem wakeComplete_early (hearly : s.sys.time < z) : wakeComplete d s = s := by
  simp only [wakeComplete, hz, if_neg (Nat.not_le.mpr hearly)]

theorem wakeComplete_due (hdue : z ≤ s.sys.time) :
    wakeComplete d s = s.modDie d fun y => { y with pstate := .run, wakingAt := none, idleAt := some s.sys.time } := by
  simp only [wakeComplete, hz, if_pos hdue]

end Wake

end DieStates

end Sys2Proof.Machine

namespace Sys2Proof

open Sys2Proof.Machine

/-- Settles O50: the cap loop by the input against the caps, the thermal loop and the limits by the reading, coolant by its
limits, and the states of a die by its timers. One die and one step per tick, the order of the caps, the rounding of the 100 W
per kelvin and the start of the retain timer are the model's choice (log row 27). -/
theorem powerLoopsAndStates : Obligations.PowerLoopsAndStates := by
  intro s d t v x
  refine ⟨fun mw parts => ?_, fun mc => ?_, fun mc sensor => ?_, fun mc => ?_, fun flow mw held => ?_,
    fun hdata hrun hwake hidle => ⟨fun hdue => next_congr (gateTimer_due hdata hrun hwake hidle hdue),
      fun hearly => next_congr (gateTimer_early hearly)⟩,
    fun h => next_congr (gateTimer_barred h), fun h => next_congr (retainTimer_barred h),
    fun r hr hgate hwake => ⟨fun hdue => next_congr (retainTimer_due hr hgate hwake hdue),
      fun hearly => next_congr (retainTimer_early hr hearly)⟩,
    rfl, fun h => next_settle_congr (wakeComplete_none h),
    fun z hz => ⟨fun hearly => next_settle_congr (wakeComplete_early hz hearly),
      fun hdue => next_settle_congr (wakeComplete_due hz hdue)⟩⟩
  · intro w since
    exact ⟨fun hlimit => next_congr (capTick_limit hlimit),
      fun e hlimit hcap he => next_congr (capTick_lowers hlimit hcap he),
      fun e z hcap hlimit hparts hbelow hz hlate he => next_congr (capTick_raises hcap hlimit hparts hbelow hz hlate he),
      fun hcap hlimit hparts hnear => next_congr (capTick_near hcap hlimit hparts hnear),
      fun hcap hlimit hparts hbelow hnone => next_congr (capTick_begins hcap hlimit hparts hbelow hnone)⟩
  · intro w target
    exact ⟨fun hhot => next_congr (thermalTick_hot hhot), fun hcool => next_congr (thermalTick_cool hcool),
      fun hlow hhigh => next_congr (thermalTick_near hlow hhigh)⟩
  · intro w rest on
    refine ⟨fun h => next_congr (thermalLimit_below h), fun i hi h => ?_, fun l hl h => ?_, fun g hg h => ?_,
      fun hx h => next_settle_congr (thermalTrip_below hx h), fun hx h hoff => ?_, fun hx h hon => ?_, fun g hg => ?_⟩
    · subst hi
      exact next_congr (thermalLimit_compute h)
    · subst hl
      exact next_congr (thermalLimit_light h)
    · subst hg
      exact next_congr (thermalLimit_nand h)
    · exact next_settle_congr ((thermalTrip_at hx h).trans (thermalShutdown_again hoff))
    · exact next_settle_congr ((thermalTrip_at hx h).trans (thermalShutdown_first hon))
    · subst hg
      rfl
  · intro w
    exact ⟨fun h => next_congr (coolantHot_cool h), fun h => next_congr (coolantHot_hot h),
      fun held h => next_settle_congr (inletShutdown_ignored h),
      fun held hmc hheld => next_settle_congr (inletShutdown_hot hmc hheld)⟩
  · intro w z
    exact ⟨fun hflow hmw hheld => next_congr (flowLow_low hflow hmw hheld), fun h => next_congr (flowLow_ignored h),
      fun hlow hflow hheld => next_congr (flowRestored_high hlow hflow hheld), fun h => next_congr (flowRestored_ignored h)⟩

end Sys2Proof

end

section
/-! The obligation on the power commands (chapter 16): policy, forced states, the clean shutdown, and block enables. -/

namespace Sys2Proof.Machine

variable {s : State} {n : Nat} {l : Live}

/-! ## Power commands (R430) -/

section Commands

variable (hl : s.live? n = some l)
include hl

theorem pwrQueryStart_eq :
    pwrQueryStart n s = succeed n 0 (oneSegment (windowOf l.c (pwrRecord s))) { s with free := s.free + 16 } := by
  simp only [pwrQueryStart, hl]

/-- The values that a PWR_SET_POLICY carries. -/
def pwrValues (l : Live) : List Nat := (List.range 20).map fun i => fieldAt l.data (4 * i) 4

theorem pwrPolicyLanded_bad (hbad : pwrOk (pwrValues l) = false) : pwrPolicyLanded n s = fail n St.badParam 0 s := by
  unfold pwrValues at hbad
  simp only [pwrPolicyLanded, hl, hbad, Bool.false_eq_true, if_false]

theorem pwrPolicyLanded_good (hgood : pwrOk (pwrValues l) = true) :
    pwrPolicyLanded n s = succeed n 0 [] (addLog Lc.policyChanged (originWord l.c.origin) noUnit 0 [0x0671]
      (addLog (if pwrClips (pwrValues l) then Lc.policyClipped else Lc.loopHeld) (originWord l.c.origin) noUnit 0 [0x0671]
        (pwrApply (pwrValues l) s))) := by
  simp only [pwrPolicyLanded, hl]
  exact if_pos hgood

theorem pwrStateStart_die (hdie : l.c.p0.toNat < 4) : pwrStateStart n s = forceDie n l.c s := by
  simp only [pwrStateStart, hl, hdie, if_true]

/-- The state in which a change of the module's power state is logged and answered. -/
def answerState (n : Nat) (l : Live) (s : State) : State :=
  succeed n 0 [] (addLog Lc.policyChanged (originWord l.c.origin) noUnit 0 [0x0672, 4, l.c.p1.toNat] s)

section Off

variable (hmodule : ¬ l.c.p0.toNat < 4) (hoff : l.c.p1 = 1)
include hmodule hoff

theorem pwrStateStart_off_again (h : s.sys.off = true ∨ s.sys.offAsked = true) : pwrStateStart n s = answerState n l s := by
  have hagain : (s.sys.off || s.sys.offAsked) = true := by
    obtain h | h := h <;> simp [h]
  simp only [pwrStateStart, hl, if_neg hmodule, if_pos hoff, hagain, if_true, answerState]

/-- The state in which a clean shutdown is asked for. -/
def askOff (s : State) : State := { s with sys := { s.sys with offAsked := true } }

theorem pwrStateStart_off (hon : s.sys.off = false) (hfirst : s.sys.offAsked = false) :
    pwrStateStart n s = foldOver ((answerState n l s).parts.map Prod.fst) bindOff (askOff (answerState n l s)) := by
  simp only [pwrStateStart, hl, if_neg hmodule, if_pos hoff, hon, hfirst, Bool.or_self, Bool.false_eq_true, if_false, answerState,
    askOff]

end Off

section On

variable (hmodule : ¬ l.c.p0.toNat < 4) (hon : ¬ l.c.p1 = 1)
include hmodule hon

theorem pwrStateStart_on_again (h : s.sys.off = false) : pwrStateStart n s = answerState n l s := by
  simp only [pwrStateStart, hl, if_neg hmodule, if_neg hon, h, Bool.false_eq_true, if_false, answerState]

theorem pwrStateStart_on (h : s.sys.off = true) :
    pwrStateStart n s =
      { castFrom 2 (answerState n l s) with
        sys := { (castFrom 2 (answerState n l s)).sys with dataOn := s.sys.main } } := by
  simp only [pwrStateStart, hl, if_neg hmodule, if_neg hon, h, if_true, answerState]

end On

end Commands

theorem forceDie_run {c : Capsule} (h : c.p1 = 0) :
    forceDie n c s = succeed n 0 [] (addLog Lc.policyChanged (originWord c.origin) (unitWord c.p0.toNat 0 0) 0 [0x0672, 0]
      (wakeDie c.p0.toNat s)) := by
  simp only [forceDie, h, if_true]
  rfl

/-- The state in which a die that was waking stands in GATE. -/
def forceGate (d : Nat) (s : State) : State :=
  (s.modDie d fun x => { x with wakingAt := none }).modDie d fun x => { x with pstate := .gate, enteredAt := s.sys.time }

theorem forceDie_gate {c : Capsule} (h : c.p1 = 1) :
    forceDie n c s = succeed n 0 [] (addLog Lc.policyChanged (originWord c.origin) (unitWord c.p0.toNat 0 0) 0 [0x0672, 1]
      (forceGate c.p0.toNat s)) := by
  have hwake : ¬ (1 : Word) = 0 := by decide
  simp only [forceDie, h, if_neg hwake, if_true]
  rfl

/-! ## Clean shutdown (R425) -/

theorem shutdownTimeout_none (h : s.sys.shutdownAt = none) : shutdownTimeout s = s := by
  simp only [shutdownTimeout, h]

section Shutdown

variable {z : Nat} (hz : s.sys.shutdownAt = some z)
include hz

theorem shutdownTimeout_early (hearly : s.sys.time < z + 60000000000) : shutdownTimeout s = s := by
  simp only [shutdownTimeout, hz, if_neg (Nat.not_le.mpr hearly)]

/-- The state in which the module is off, and its shutdown was not clean. -/
def offUnclean (w : State) : State :=
  { w with sys := { w.sys with off := true, offAsked := false, shutdownAt := none, cleanMark := false } }

theorem shutdownTimeout_due (hdue : z + 60000000000 ≤ s.sys.time) :
    shutdownTimeout s = offUnclean (diesOff (flushStaging s)) := by
  simp only [shutdownTimeout, hz, if_pos hdue, offUnclean]

end Shutdown

/-! ## Block enables (R418, R419) -/

section Blocks

variable {d : AllDieIx} {w : Dword}

/-- Whether a block of a die is enabled after a write: a retired unit stays off, and a busy one stays on. -/
def staysEnabled (d : AllDieIx) (w : Dword) (s : State) (b : Nat) : Bool :=
  match bitUnit d false b with
  | none => w.getLsbD b
  | some u =>
    if w.getLsbD b then decide (u ∉ s.errs.retired)
    else (Tbl.getD s.power.blockEn d.val 0xFFFFFFFFFFFFFFFF).getLsbD b && unitBusy s u

/-- The bits of the block enable register of a die. -/
def blockCount (d : AllDieIx) : Nat := if d.val < 4 then 35 else if d.val < 6 then 15 else 14

theorem blockBits_false : blockBits d false = blockCount d := by
  simp only [blockBits, Bool.false_eq_true, if_false, blockCount]

theorem blockCount_ne_zero : blockCount d ≠ 0 := by
  unfold blockCount
  split
  · decide
  · split <;> decide

/-- The block enables of a die after a write. -/
def enabledBits (d : AllDieIx) (w : Dword) (s : State) : Dword :=
  ((List.range (blockCount d)).filter (staysEnabled d w s)).foldl (fun m b => m ||| (1#64 <<< b)) (0#64)

theorem blockWrite_blocks :
    blockWrite d false w s =
      { s with power := { s.power with blockEn := Tbl.set d.val (enabledBits d w s) s.power.blockEn } } := by
  unfold enabledBits
  rw [← blockBits_false]
  exact if_neg (blockBits_false ▸ blockCount_ne_zero)

theorem blockWrite_no_channels (h : ¬ (4 ≤ d.val ∧ d.val < 6)) : blockWrite d true w s = s := by
  have hnone : blockBits d true = 0 := by
    unfold blockBits
    split
    · rfl
    · rw [if_neg (by omega)]
      rfl
  exact if_pos hnone

end Blocks

end Sys2Proof.Machine

namespace Sys2Proof

open Sys2Proof.Machine

/-- Settles O51: each power command by its parameters, the drain of a shutdown by its 60 s, and a write of block enables bit by
bit. The codes of PWR_SET_STATE and what PWR_SET_POLICY refuses or clips are the model's choice (log row 27), as is the record
of PWR_QUERY (log row 22). -/
theorem powerCommands : Obligations.PowerCommands := by
  intro s c
  refine ⟨fun hacc => ?_, fun hacc hdata => ?_, fun n l hl => ?_, fun hacc hdie => ?_, fun hacc => ?_, fun hacc => ?_, fun t => ?_,
    fun d w => ?_⟩
  · have hstart := pwrQueryStart_eq (entered_live 0x0670 c s)
    exact settle_deliver_accepted hacc hstart
  · exact settle_deliver_accepted hacc (withData_awaits (entered_live 0x0671 c s) hdata)
  · intro vs o
    exact ⟨fun hbad => pwrPolicyLanded_bad hl hbad, fun hgood => pwrPolicyLanded_good hl hgood⟩
  · intro b d o
    have hforce := pwrStateStart_die (entered_live 0x0672 c s) hdie
    refine ⟨fun hp => ?_, fun hp => ?_⟩
    · have hstart := hforce.trans (forceDie_run hp)
      exact settle_deliver_accepted hacc hstart
    · have hstart := hforce.trans (forceDie_gate hp)
      exact settle_deliver_accepted hacc hstart
  · intro c1 b e
    have hl := entered_live 0x0672 { c with p0 := 4, p1 := 1 } s
    have hmodule : ¬ (4 : Word).toNat < 4 := by decide
    refine ⟨fun h => ?_, fun hon hfirst => ?_⟩
    · have hstart := pwrStateStart_off_again hl hmodule rfl h
      exact settle_deliver_accepted hacc hstart
    · have hstart := pwrStateStart_off hl hmodule rfl hon hfirst
      exact settle_deliver_accepted hacc hstart
  · intro c1 e b
    have hl := entered_live 0x0672 { c with p0 := 4, p1 := 0 } s
    have hmodule : ¬ (4 : Word).toNat < 4 := by decide
    have hon : ¬ (0 : Word) = 1 := by decide
    refine ⟨fun h => ?_, fun h => ?_⟩
    · have hstart := pwrStateStart_on_again hl hmodule hon h
      exact settle_deliver_accepted hacc hstart
    · have hstart := pwrStateStart_on hl hmodule hon h
      exact settle_deliver_accepted hacc hstart
  · intro v
    exact ⟨fun h => next_settle_congr (shutdownTimeout_none h),
      fun z hz => ⟨fun hearly => next_settle_congr (shutdownTimeout_early hz hearly),
        fun hdue => next_settle_congr (shutdownTimeout_due hz hdue)⟩⟩
  · intro old keeps m bits
    exact ⟨next_congr blockWrite_blocks, fun h => next_congr (blockWrite_no_channels h)⟩

end Sys2Proof

end

section
/-! The obligation on the configuration flash (chapter 17): its sequences, suspended erases, and the ends of its operations. -/

namespace Sys2Proof.Machine

variable {s : State} {w : List (BitVec 28 × Byte)}

theorem cflNow_without_fetch (h : s.sec.cfl.fetchAt = none) : cflNow s = s := by
  simp only [cflNow, h]

theorem cflNow_after_fetch {z : Nat} (hz : s.sec.cfl.fetchAt = some z) :
    cflNow s = if z + 100000 ≤ s.sys.time then s.modCfl fun x => { x with suspended := false, fetchAt := none } else s := by
  simp only [cflNow, hz]

/-! ## Sequences (R456) -/

section Program

theorem sectorProgram_malformed (h : programAt w = none) : sectorProgram w s = seqError (cflNow s) := by
  simp only [sectorProgram, h]

/-- A program of a sector is barred by an active operation, by the region of the certificates, or by the block that is
erased. -/
def programBarred (base : Nat) (s : State) : Bool :=
  s.sec.cfl.active || (!(s.sec.cfl.otp && decide (base < 4096)) && cflProtected base) ||
    s.sec.cfl.eraseAt.any fun b => decide (b ≤ base ∧ base < b + cflBlock)

variable {base : Nat}

theorem programBarred_of_active (h : s.sec.cfl.active = true) : programBarred base s = true := by
  simp only [programBarred, h, Bool.true_or]

theorem programBarred_of_protected (hotp : s.sec.cfl.otp = false) (hlow : 0x4100000 ≤ base) (hhigh : base < 0x4200000) :
    programBarred base s = true := by
  have hprotected : cflProtected base = true := decide_eq_true ⟨hlow, hhigh⟩
  simp only [programBarred, hotp, hprotected, Bool.false_and, Bool.not_false, Bool.and_self, Bool.or_true, Bool.true_or]

theorem programBarred_of_erasing {b : Nat} (hb : s.sec.cfl.eraseAt = some b) (hlow : b ≤ base) (hhigh : base < b + 65536) :
    programBarred base s = true := by
  have hin : b ≤ base ∧ base < b + cflBlock := ⟨hlow, hhigh⟩
  simp only [programBarred, hb, Option.any_some, decide_eq_true hin, Bool.or_true]

theorem not_programBarred (hidle : s.sec.cfl.active = false) (hopen : 0x4100000 ≤ base → 0x4200000 ≤ base)
    (houtside : ∀ b, s.sec.cfl.eraseAt = some b → b ≤ base → b + 65536 ≤ base) : programBarred base s = false := by
  have hprotected : cflProtected base = false := decide_eq_false fun h => absurd (hopen h.1) (Nat.not_le.mpr h.2)
  have hfree : (s.sec.cfl.eraseAt.any fun b => decide (b ≤ base ∧ base < b + cflBlock)) = false := by
    cases hb : s.sec.cfl.eraseAt with
    | none => rfl
    | some b => exact decide_eq_false fun h => absurd (houtside b hb h.1) (Nat.not_le.mpr h.2)
  simp only [programBarred, hidle, hprotected, hfree, Bool.and_false, Bool.or_self]

variable (hbase : programAt w = some base)
include hbase

theorem sectorProgram_barred (h : programBarred base (cflNow s) = true) : sectorProgram w s = seqError (cflNow s) := by
  simp only [sectorProgram, hbase]
  exact if_pos h

theorem sectorProgram_starts (h : programBarred base (cflNow s) = false) :
    sectorProgram w s =
      (cflNow s).modCfl fun x => { x with progAt := some base, data := ((w.drop 3).take cflSector).map Prod.snd } := by
  simp only [sectorProgram, hbase]
  exact if_neg (Bool.eq_false_iff.mp h)

end Program

section Erase

theorem blockErase_malformed (h : eraseAtOf w = none) : blockErase w s = seqError (cflNow s) := by
  simp only [blockErase, h]

variable {base : Nat} (hbase : eraseAtOf w = some base)
include hbase

theorem blockErase_barred
    (h : (cflNow s).sec.cfl.active = true ∨ (cflNow s).sec.cfl.eraseAt.isSome = true ∨ cflProtected base = true) :
    blockErase w s = seqError (cflNow s) := by
  have hbar : ((cflNow s).sec.cfl.active || (cflNow s).sec.cfl.eraseAt.isSome || cflProtected base) = true := by
    obtain h | h | h := h <;> simp [h]
  simp only [blockErase, hbase, hbar, if_true]

theorem blockErase_starts (hidle : (cflNow s).sec.cfl.active = false) (hnone : (cflNow s).sec.cfl.eraseAt = none)
    (hopen : cflProtected base = false) :
    blockErase w s = countErase (base / cflBlock)
      ((cflNow s).modCfl fun x => { x with eraseAt := some base, suspended := false, fetchAt := none }) := by
  simp only [blockErase, hbase, hidle, hnone, hopen, Option.isSome_none, Bool.or_self, Bool.false_eq_true, if_false]

end Erase

theorem cflSuspend_running (hsome : (cflNow s).sec.cfl.eraseAt.isSome = true) (hrun : (cflNow s).sec.cfl.suspended = false) :
    cflSuspend s = (cflNow s).modCfl fun x => { x with suspended := true, fetchAt := none } := by
  refine if_pos ?_
  simp only [hsome, hrun, Bool.not_false, Bool.and_self]

theorem cflSuspend_barred (h : (cflNow s).sec.cfl.eraseAt = none ∨ (cflNow s).sec.cfl.suspended = true) :
    cflSuspend s = seqError (cflNow s) := by
  refine if_neg ?_
  obtain h | h := h <;> simp [h]

theorem cflResume_suspended (hsome : (cflNow s).sec.cfl.eraseAt.isSome = true) (hheld : (cflNow s).sec.cfl.suspended = true)
    (hnone : (cflNow s).sec.cfl.progAt = none) :
    cflResume s = (cflNow s).modCfl fun x => { x with suspended := false, fetchAt := none } := by
  refine if_pos ?_
  simp only [hsome, hheld, hnone, Option.isNone_none, Bool.and_self]

theorem cflResume_barred
    (h : (cflNow s).sec.cfl.eraseAt = none ∨ (cflNow s).sec.cfl.suspended = false ∨ (cflNow s).sec.cfl.progAt.isSome = true) :
    cflResume s = seqError (cflNow s) := by
  refine if_neg ?_
  obtain h | h | h := h
  · simp [h]
  · simp [h]
  · simp [Option.isNone_eq_false_iff.mpr h]

/-! ## The identity row (R456) -/

theorem otpEnter_security (hidle : (cflNow s).sec.cfl.active = false) :
    otpEnter true (unlock 0x88) s = (cflNow s).modCfl fun x => { x with otp := true } := by
  refine if_pos ?_
  simp only [hidle, decide_true, Bool.not_false, Bool.and_self]

theorem otpEnter_barred {security : Bool} (h : security = false ∨ w ≠ unlock 0x88) :
    otpEnter security w s = seqError (cflNow s) := by
  refine if_neg ?_
  obtain h | h := h
  · simp [h]
  · simp only [decide_eq_false h, Bool.and_false, Bool.false_and, Bool.false_eq_true, not_false_eq_true]

theorem otpExit_security {a : BitVec 28} (hidle : (cflNow s).sec.cfl.active = false) :
    otpExit true (unlock 0x90 ++ [(a, 0)]) s = (cflNow s).modCfl fun x => { x with otp := false } := by
  refine if_pos ?_
  have hexit : (unlock 0x90 ++ [(a, 0)]).take 3 = unlock 0x90 ∧ (unlock 0x90 ++ [(a, 0)]).length = 4 ∧
      ((unlock 0x90 ++ [(a, 0)]).drop 3).map Prod.snd = [0x00] := ⟨rfl, rfl, rfl⟩
  rw [decide_eq_true hexit, hidle]
  rfl

theorem otpExit_other : otpExit false w s = seqError (cflNow s) := rfl

/-! ## Fetches during an erase (R457) -/

section Fetch

variable {a : BitVec 28}

theorem fetchDuringErase_none (h : (cflNow s).sec.cfl.eraseAt = none) : fetchDuringErase a s = cflNow s := by
  simp only [fetchDuringErase, h]

variable {base : Nat} (hbase : (cflNow s).sec.cfl.eraseAt = some base)
include hbase

theorem fetchDuringErase_suspends (hrun : (cflNow s).sec.cfl.suspended = false) :
    fetchDuringErase a s =
      (cflNow s).modCfl fun x => { x with suspended := true, fetchAt := some (cflNow s).sys.time } := by
  simp only [fetchDuringErase, hbase, hrun, Bool.not_false, if_true]

theorem fetchDuringErase_inside (hheld : (cflNow s).sec.cfl.suspended = true) (hlow : base ≤ a.toNat)
    (hhigh : a.toNat < base + 65536) : fetchDuringErase a s = cflFault 2 a (cflNow s) := by
  have hin : base ≤ a.toNat ∧ a.toNat < base + cflBlock := ⟨hlow, hhigh⟩
  simp only [fetchDuringErase, hbase, hheld, Bool.not_true, Bool.false_eq_true, if_false, if_pos hin]

end Fetch

/-! ## Ends of operations (R456, R458) -/

theorem cflComplete_idle {ok : Bool} (hprog : s.sec.cfl.progAt = none) (herase : s.sec.cfl.eraseAt = none)
    (hcommit : s.sec.commitStep = 0) : cflComplete ok s = s := by
  simp only [cflComplete, hprog, herase, Option.isSome_none, Bool.false_and, Bool.or_self, Bool.false_eq_true, if_false, hcommit,
    ne_eq, not_true_eq_false]

theorem cflComplete_program {ok : Bool} {base : Nat} (hprog : s.sec.cfl.progAt = some base) :
    cflComplete ok s = flashDone ok s := by
  simp only [cflComplete, hprog, Option.isSome_some, Bool.true_or, if_true]

theorem cflComplete_erase {ok : Bool} {base : Nat} (herase : s.sec.cfl.eraseAt = some base)
    (hrun : s.sec.cfl.suspended = false) : cflComplete ok s = flashDone ok s := by
  simp only [cflComplete, herase, hrun, Option.isSome_some, Bool.not_false, Bool.and_self, Bool.or_true, if_true]

section Done

variable {base : Nat}

/-- The state in which a sector's program has cleared the bits that its data clears. -/
def programSector (base : Nat) (s : State) : State :=
  let old := cflBytes s base cflSector
  let data := s.sec.cfl.data
  s.modCfl fun x =>
    { x with progAt := none, data := [],
             opError := x.opError || (List.zip old data).any fun e => decide (e.2 &&& ~~~e.1 ≠ 0)
             mem := cflPut base (List.zipWith (fun a b => a &&& b) old data) x.mem }

theorem flashDone_program (hprog : (cflNow s).sec.cfl.progAt = some base) (hotp : (cflNow s).sec.cfl.otp = false) :
    flashDone true s = programSector base (cflNow s) := by
  simp only [flashDone, hprog, hotp, Bool.false_and, Bool.false_eq_true, if_false, if_true, programSector, State.modCfl]

/-- A program of the identity row would clear a bit. -/
def rowClears (base : Nat) (s : State) : Bool :=
  (List.zip (otpBytes s base cflSector) s.sec.cfl.data).any fun e => decide (e.1 &&& ~~~e.2 ≠ 0)

/-- The state in which a program of the identity row has ended, with its verdict. -/
def endRowProgram (clears : Bool) (s : State) : State :=
  s.modCfl fun x => { x with progAt := none, data := [], opError := x.opError || false || clears }

section Row

variable (hprog : (cflNow s).sec.cfl.progAt = some base) (hotp : (cflNow s).sec.cfl.otp = true) (hrow : base < 4096)
include hprog hotp hrow

theorem flashDone_row_sets (hsets : rowClears base (cflNow s) = false) :
    flashDone true s = otpSet 0x50000000 base (cflNow s).sec.cfl.data (endRowProgram false (cflNow s)) := by
  unfold rowClears at hsets
  simp only [flashDone, hprog, hotp, decide_eq_true hrow, hsets, Bool.and_self, Bool.not_true, Bool.not_false, if_true,
    endRowProgram]

theorem flashDone_row_clears (hclears : rowClears base (cflNow s) = true) :
    flashDone true s = endRowProgram true (cflNow s) := by
  unfold rowClears at hclears
  simp only [flashDone, hprog, hotp, decide_eq_true hrow, hclears, Bool.and_self, Bool.not_true, Bool.and_false,
    Bool.false_eq_true, if_true, if_false, endRowProgram]

end Row

theorem flashDone_erase (hprog : (cflNow s).sec.cfl.progAt = none) (herase : (cflNow s).sec.cfl.eraseAt = some base)
    (hrun : (cflNow s).sec.cfl.suspended = false) :
    flashDone true s = (cflNow s).modCfl fun x => { x with eraseAt := none, mem := cflErased base cflBlock x.mem } := by
  simp only [flashDone, hprog, herase, hrun, Bool.false_eq_true, if_false, if_true]

end Done

end Sys2Proof.Machine

namespace Sys2Proof

open Sys2Proof.Machine

/-- Settles O56: each sequence by what bars it, a fetch by the erase it meets, and the end of an operation by what was under way.
That a whole sequence comes in one row is the model's choice (log row 24), as is an erase that runs on 100 µs after the last
fetch (log row 26). -/
theorem configurationFlash : Obligations.ConfigurationFlash := by
  intro s w a t v c bad
  refine ⟨fun h => cflNow_without_fetch h, fun z hz => cflNow_after_fetch hz, fun h => next_congr (sectorProgram_malformed h),
    fun base hbase => ⟨fun h => ?_, fun hotp hlow hhigh => ?_, fun b hb hlow hhigh => ?_, fun hidle hopen houtside => ?_⟩,
    fun h => next_congr (blockErase_malformed h),
    fun base hbase => ⟨fun h => next_congr (blockErase_barred hbase h),
      fun hidle hnone hopen => next_congr (blockErase_starts hbase hidle hnone hopen)⟩,
    fun hsome hrun => next_congr (cflSuspend_running hsome hrun), fun h => next_congr (cflSuspend_barred h),
    fun hsome hheld hnone => next_congr (cflResume_suspended hsome hheld hnone), fun h => next_congr (cflResume_barred h),
    fun hidle => next_congr (otpEnter_security hidle), fun hidle => next_congr (otpExit_security hidle),
    next_congr (otpEnter_barred (.inl rfl)), next_congr otpExit_other, fun h => next_congr (otpEnter_barred (.inr h)), rfl,
    ?_, ?_⟩
  · exact next_congr (sectorProgram_barred hbase (programBarred_of_active h))
  · exact next_congr (sectorProgram_barred hbase (programBarred_of_protected hotp hlow hhigh))
  · exact next_congr (sectorProgram_barred hbase (programBarred_of_erasing hb hlow hhigh))
  · exact next_congr (sectorProgram_starts hbase (not_programBarred hidle hopen houtside))
  · intro u k
    exact ⟨fun h => next_congr (fetchDuringErase_none h),
      fun base hbase => ⟨fun hrun => next_congr (fetchDuringErase_suspends hbase hrun),
        fun hheld hlow hhigh => next_congr (fetchDuringErase_inside hbase hheld hlow hhigh)⟩⟩
  · intro x y z
    refine ⟨fun hprog herase hcommit ok => next_settle_congr (cflComplete_idle hprog herase hcommit),
      fun base hprog hnow hotp => next_settle_congr ((cflComplete_program hprog).trans (flashDone_program hnow hotp)),
      fun base hprog hnow hotp hrow => ?_, fun base hprog herase hrun hsame => ?_⟩
    · intro clear
      exact ⟨fun hsets => next_settle_congr ((cflComplete_program hprog).trans (flashDone_row_sets hnow hotp hrow hsets)),
        fun hclears => next_settle_congr ((cflComplete_program hprog).trans (flashDone_row_clears hnow hotp hrow hclears))⟩
    · have hnow : (cflNow s).sec.cfl = s.sec.cfl := hsame
      exact next_settle_congr ((cflComplete_erase herase hrun).trans
        (flashDone_erase (hnow ▸ hprog) (hnow ▸ herase) (hnow ▸ hrun)))

end Sys2Proof

end

section
/-! The obligation on the management commands (chapter 17): identity and log, firmware, configuration, and the identity row. -/

namespace Sys2Proof.Machine

variable {s : State} {n : Nat} {l : Live}

/-! ## Identity and log (R463) -/

section Management

variable (hl : s.live? n = some l)
include hl

/-- What MGT_IDENTIFY reads: the identity row, the node id, and the versions of the running and the committed bundle. -/
def identity (s : State) : List Byte :=
  otpBytes s 0 4096 ++ leBytes 4 s.sys.node.toNat ++ leBytes 4 s.sec.running.version.toNat ++
    leBytes 4 ((s.sec.committed.map fun b => b.version.toNat).getD 0)

theorem identifyStart_eq :
    identifyStart n s = succeed n 0 (oneSegment (((identity s).drop l.c.offset.toNat).take l.c.length.toNat)) s := by
  simp only [identifyStart, hl, identity]

/-- The entries that MGT_LOG_READ answers. -/
def logEntries (c : Capsule) (s : State) : List LogEntry :=
  (s.log.lasting.filter fun e => decide (c.offset.toNat ≤ e.seq)).take (c.length.toNat / 64)

theorem logReadStart_eq :
    logReadStart n s = succeed n 0 (oneSegment ((logEntries l.c s).flatMap LogEntry.toBytes)) s := by
  simp only [logReadStart, hl, logEntries]

end Management

theorem logBatch_nil (h : s.log.buffer = []) : logBatch s = s := by
  simp only [logBatch, h]

section LogBatch

variable {e : LogEntry} {rest : List LogEntry} (he : s.log.buffer = e :: rest)
include he

theorem logBatch_cons :
    logBatch s =
      if 16 ≤ s.log.buffer.length ∨ e.time + 1000000000 ≤ s.sys.time then writeLogBatch s else s := by
  simp only [logBatch, he]

theorem logBatch_due (h : 16 ≤ s.log.buffer.length ∨ e.time + 1000000000 ≤ s.sys.time) : logBatch s = writeLogBatch s :=
  (logBatch_cons he).trans (if_pos h)

theorem logBatch_early (hfew : s.log.buffer.length < 16) (hearly : s.sys.time < e.time + 1000000000) : logBatch s = s :=
  (logBatch_cons he).trans (if_neg (by omega))

end LogBatch

/-! ## Staging (R442) -/

section Staging

variable {o : Origin}

theorem takeStaging_held (h : s.sec.staging.isSome = true) : takeStaging o s = s := if_pos h

theorem takeStaging_first (hnone : s.sec.staging = none) (hboot : s.statusBit Sb.recovery = false) :
    takeStaging o s =
      { s.modDie 0 (fun x => { x with moduleFrames := x.moduleFrames + 32 }) with
        sec := { s.sec with staging := some (o, [], 0) } } := by
  simp only [takeStaging, hnone, hboot, Option.isSome_none, Bool.false_eq_true, if_false]

theorem freeStaging_held (hsome : s.sec.staging.isSome = true) (hboot : s.statusBit Sb.recovery = false) :
    freeStaging s =
      { s.modDie 0 (fun x => { x with moduleFrames := x.moduleFrames - 32 }) with sec := { s.sec with staging := none } } := by
  simp only [freeStaging, hsome, hboot, Bool.not_false, Bool.and_self, if_true]

end Staging

section FwStage

variable (hl : s.live? n = some l)
include hl

theorem withData_fwStage_awaits (hdata : l.c.dataLen ≠ 0) :
    withData fwStageStart fwStageLanded n s = takeStaging l.c.origin s := by
  simp only [withData, hl, if_neg hdata, fwStageStart]

theorem fwStageLanded_barred (h : s.sec.staging = none ∨ s.sec.commitStep ≠ 0) :
    fwStageLanded n s = fail n St.notPermitted 0 s := by
  have hbar : (s.sec.staging.isNone || decide (s.sec.commitStep ≠ 0)) = true := by
    obtain h | h := h <;> simp [h]
  simp only [fwStageLanded, hl]
  exact if_pos hbar

/-- The state in which a staging area holds data at an offset besides what it held. -/
def stageData (g : Origin × Mem × Nat) (off : Nat) (bs : List Byte) (s : State) : State :=
  { s with sec := { s.sec with staging := some (g.1, Mem.writeBytes off bs g.2.1, g.2.2 + bs.length) } }

theorem fwStageLanded_stores {g : Origin × Mem × Nat} (hg : s.sec.staging = some g) (hidle : s.sec.commitStep = 0)
    (hboot : s.statusBit Sb.recovery = false) :
    fwStageLanded n s = succeed n 0 [] (addLog Lc.fwStaged (originWord l.c.origin) noUnit 0 [l.c.offset.toNat, l.c.dataLen.toNat]
      (stageData g l.c.offset.toNat l.data s)) := by
  simp only [fwStageLanded, hl, hg, hidle, hboot, Option.isNone_some, ne_eq, not_true_eq_false, decide_false, Bool.or_self,
    Bool.false_and, Bool.false_eq_true, if_false, putStaged, Option.map_some, stageData]

end FwStage

/-! ## The commit (R440, R443) -/

/-- The state in which a commit answers to who asked for it. -/
def nameCommit (who : Nat ⊕ Byte) (opts : Nat) (s : State) : State :=
  { s with sec := { s.sec with commitFor := who, commitOpts := opts, commitAgain := false } }

/-- The state in which a commit is at a step. -/
def atCommitStep (k : Nat) (s : State) : State := { s with sec := { s.sec with commitStep := k } }

section Commit

variable {who : Nat ⊕ Byte} {opts : Nat}

theorem commitBegins_refused {k : Nat} {st : Half} (h : bundleCheck (stagedBytes s) s = some (k, st)) :
    commitBegins who opts s = commitAnswer st k (logHw Lc.fwRejected [k] (nameCommit who opts s)) := by
  unfold commitBegins
  rw [h]
  rfl

theorem commitBegins_passes (h : bundleCheck (stagedBytes s) s = none) :
    commitBegins who opts s = atCommitStep 2 (nameCommit who opts s) := by
  unfold commitBegins
  rw [h]
  rfl

theorem fwCommitStart_running (hl : s.live? n = some l) (hboot : s.statusBit Sb.recovery = false) :
    fwCommitStart n s = commitBegins (.inl n) l.c.p0.toNat s := by
  simp only [fwCommitStart, hl, hboot, Bool.false_eq_true, if_false]

/-- The state in which step C2 of a commit has erased the commit block. -/
def eraseCommitted (s : State) : State :=
  let u := s.modCfl fun c => { c with mem := cflErased 0x4000000 cflBlock c.mem }
  countErase 1024 { u with sec := { u.sec with committed := none } }

/-- The state in which step C4 of a commit has written the staged bundle to flash. -/
def writeBundle (s : State) : State :=
  s.modCfl fun c => { c with mem := cflPut 0 (stagedBytes s 0 (bundleLen (stagedBytes s))) c.mem }

variable {ok : Bool}

theorem commitStep_two (h : s.sec.commitStep = 2) : commitStep ok s = atCommitStep 3 (eraseCommitted s) := by
  unfold commitStep
  rw [h]
  rfl

theorem commitStep_four (h : s.sec.commitStep = 4) : commitStep ok s = atCommitStep 5 (writeBundle s) := by
  unfold commitStep
  rw [h]
  rfl

theorem commitStep_five_ok (h : s.sec.commitStep = 5) : commitStep true s = atCommitStep 6 s := by
  simp only [commitStep, h, if_true, atCommitStep]

/-- The state in which a commit writes the bundle a second time. -/
def retryCommit (s : State) : State := { s with sec := { s.sec with commitAgain := true } }

theorem commitStep_five_again (h : s.sec.commitStep = 5) (hfirst : s.sec.commitAgain = false) :
    commitStep false s = atCommitStep 3 (retryCommit s) := by
  simp only [commitStep, h, hfirst, Bool.false_eq_true, if_false, atCommitStep, retryCommit]

/-- With no operation of the flash under way, a step of a commit that is not its last one goes to the next. -/
theorem cflComplete_commitStep {k : Nat} {u : State} (hprog : s.sec.cfl.progAt = none) (herase : s.sec.cfl.eraseAt = none)
    (hrun : s.sec.commitStep ≠ 0) (hmore : s.sec.commitStep ≠ 6) (hk : k ≠ 0) (hstep : commitStep ok s = atCommitStep k u) :
    cflComplete ok s = atCommitStep k u := by
  have hgoing : ¬ (s.sec.commitStep ≠ 0 ∧ (atCommitStep k u).sec.commitStep = 0) := fun h => hk h.2
  simp only [cflComplete, hprog, herase, Option.isSome_none, Bool.false_and, Bool.or_self, Bool.false_eq_true, if_false,
    if_pos hrun, commitGoes, if_neg hmore, hstep, if_neg hgoing]

end Commit

/-- What FW_QUERY answers. -/
def firmwareRecord (s : State) : List Byte :=
  bundleRecord (some s.sec.running) ++ bundleRecord s.sec.committed ++
    bundleRecord (s.sec.staging.map fun _ => bundleOf (stagedBytes s)) ++
    leBytes 4 ((s.sec.staging.map fun g => (originWord g.1).toNat).getD 0) ++
    leBytes 4 ((s.sec.staging.map fun g => g.2.2).getD 0) ++ leBytes 4 s.sec.commitStep ++ leBytes 4 0

theorem fwQueryStart_eq : fwQueryStart n s = succeed n 0 (oneSegment (firmwareRecord s)) s := rfl

/-! ## Configuration (R453, R460, R462) -/

section Config

variable (hl : s.live? n = some l)
include hl

/-- The image, or the running values, that a CFG_READ of `k` reads. -/
def configBytes (k : Nat) (s : State) : List Byte :=
  if k = 17 then runningItems s
  else ((newestImage (if k = 0 then s.sec.base else Tbl.getD s.sec.overlays (k - 1) [])).map imageBytes).getD []

theorem cfgReadStart_eq :
    cfgReadStart n s =
      succeed n 0 (oneSegment (((configBytes l.c.p0.toNat s).drop l.c.offset.toNat).take l.c.length.toNat)) s := by
  simp only [cfgReadStart, hl, configBytes]

/-- The state in which a configuration command waits for the commit that runs. -/
def waitCommit (n : Nat) (s : State) : State :=
  let late : State := s.modLive n fun x => { x with phase := .running }
  { late with sec := { late.sec with waitingCfg := late.sec.waitingCfg ++ [n] } }

omit hl in
theorem cfgOrWait_waits {go : State → State} (h : s.sec.commitStep ≠ 0) : cfgOrWait n go s = waitCommit n s := if_neg h

omit hl in
theorem cfgOrWait_now {go : State → State} (h : s.sec.commitStep = 0) : cfgOrWait n go s = go s := if_pos h

theorem cfgWriteLanded_waits (h : s.sec.commitStep ≠ 0) : cfgWriteLanded n s = waitCommit n s := by
  simp only [cfgWriteLanded, hl]
  exact cfgOrWait_waits h

theorem cfgAccessLanded_waits (h : s.sec.commitStep ≠ 0) : cfgAccessLanded n s = waitCommit n s := by
  simp only [cfgAccessLanded, hl]
  exact cfgOrWait_waits h

section Now

variable (hidle : s.sec.commitStep = 0)
include hidle

theorem cfgWriteLanded_now : cfgWriteLanded n s = cfgWriteNow n l.data s := by
  simp only [cfgWriteLanded, hl]
  exact cfgOrWait_now hidle

theorem cfgAccessLanded_now : cfgAccessLanded n s = cfgAccessNow n l.data s := by
  simp only [cfgAccessLanded, hl]
  exact cfgOrWait_now hidle

theorem cfgWriteLanded_malformed (h : imageItems l.c.p0.toNat l.data = none) :
    cfgWriteLanded n s = fail n St.badParam 0 s := by
  rw [cfgWriteLanded_now hl hidle]
  simp only [cfgWriteNow, hl, h]

section Image

variable {items : List (Nat × List Byte)} (hitems : imageItems l.c.p0.toNat l.data = some items)
include hitems

theorem cfgWriteLanded_unsigned (h : imageSigned l.data s = false) : cfgWriteLanded n s = fail n St.signatureInvalid 0 s := by
  rw [cfgWriteLanded_now hl hidle]
  simp only [cfgWriteNow, hl, hitems, h, Bool.not_false, if_true]

/-- The value that an item list sets for an id. -/
def itemValue (xs : List (Nat × List Byte)) (id : Nat) : Option (List Byte) :=
  (xs.find? fun e => decide (e.1 = id)).map Prod.snd

/-- The state in which the base is a new image, and the change is logged. -/
def setBase (l : Live) (items : List (Nat × List Byte)) (s : State) : State :=
  addLog Lc.configChanged (originWord l.c.origin) noUnit 0 (0 :: changedIds (itemValue (itemsOf s.sec.base)) (itemValue items))
    { s with sec := { s.sec with base := pushImage items l.data s.sec.base } }

theorem cfgWriteLanded_base (hsigned : imageSigned l.data s = true) (hk : l.c.p0.toNat = 0) :
    cfgWriteLanded n s = succeed n 0 [] (changeNow (effItem s s.sec.active) (setBase l items s)) := by
  rw [hk] at hitems
  rw [cfgWriteLanded_now hl hidle]
  simp only [cfgWriteNow, hl, hitems, hsigned, hk, Bool.not_true, Bool.false_eq_true, if_false, if_true]
  rfl

/-- The state in which overlay `k - 1` is a new image, and the change is logged. -/
def setOverlay (l : Live) (items : List (Nat × List Byte)) (k : Nat) (s : State) : State :=
  let old := Tbl.getD s.sec.overlays (k - 1) []
  addLog Lc.overlayChanged (originWord l.c.origin) noUnit 0 (k :: changedIds (itemValue (itemsOf old)) (itemValue items))
    { s with sec := { s.sec with overlays := Tbl.set (k - 1) (pushImage items l.data old) s.sec.overlays } }

theorem cfgWriteLanded_overlay (hsigned : imageSigned l.data s = true) (hk : l.c.p0.toNat ≠ 0) :
    cfgWriteLanded n s =
      succeed n 0 [] (changeNow (effItem s s.sec.active) (setOverlay l items l.c.p0.toNat s)) := by
  rw [cfgWriteLanded_now hl hidle]
  simp only [cfgWriteNow, hl, hitems, hsigned, if_neg hk, Bool.not_true, Bool.false_eq_true, if_false]
  rfl

end Image

theorem cfgAccessLanded_malformed (h : accessShape l.data = false) : cfgAccessLanded n s = fail n St.violation 0 s := by
  rw [cfgAccessLanded_now hl hidle]
  simp only [cfgAccessNow, hl, h, Bool.not_false, if_true]

section Access

variable (hshape : accessShape l.data = true)
include hshape

theorem cfgAccessLanded_locks (h : accessKeeps (accessTable l.data) = false) :
    cfgAccessLanded n s = fail n St.notPermitted 0 s := by
  rw [cfgAccessLanded_now hl hidle]
  simp only [cfgAccessNow, hl, hshape, h, Bool.not_true, Bool.not_false, Bool.false_eq_true, if_false, if_true]

/-- The state in which the access table is a new one, and the change is logged. -/
def setAccess (l : Live) (s : State) : State :=
  addLog Lc.accessChanged (originWord l.c.origin) noUnit 0 [l.data.length / 16]
    { s with sec := { s.sec with access := accessTable l.data } }

theorem cfgAccessLanded_replaces (h : accessKeeps (accessTable l.data) = true) :
    cfgAccessLanded n s = succeed n 0 [] (setAccess l s) := by
  rw [cfgAccessLanded_now hl hidle]
  simp only [cfgAccessNow, hl, hshape, h, Bool.not_true, Bool.false_eq_true, if_false, setAccess]

end Access

/-- An overlay of a set carries an image whose signature is missing or wrong. -/
def unsignedOverlay (m : BitVec 16) (s : State) : Bool :=
  ((List.range 16).filter fun i => m.getLsbD i).any fun i =>
    (newestImage (Tbl.getD s.sec.overlays i [])).any fun x => !imageSigned x.raw s

theorem cfgSelectStart_unsigned (h : unsignedOverlay (BitVec.ofNat 16 l.c.p0.toNat) s = true) :
    cfgSelectStart n s = fail n St.signatureInvalid 0 s := by
  refine (cfgOrWait_now hidle).trans ?_
  simp only [cfgSelectNow, hl]
  exact if_pos h

/-- The state in which a set of overlays is active, and the change is logged. -/
def selectOverlays (c : Capsule) (m : BitVec 16) (s : State) : State :=
  addLog Lc.overlayChanged (originWord c.origin) noUnit 0 (m.toNat :: changedIds (effItem s s.sec.active) (effItem s m))
    { s with sec := { s.sec with active := m } }

theorem cfgSelectStart_selects (h : unsignedOverlay (BitVec.ofNat 16 l.c.p0.toNat) s = false) :
    cfgSelectStart n s = succeed n 0 [] (changeNow (effItem s s.sec.active)
      (selectOverlays l.c (BitVec.ofNat 16 l.c.p0.toNat) s)) := by
  refine (cfgOrWait_now hidle).trans ?_
  simp only [cfgSelectNow, hl]
  exact if_neg (Bool.eq_false_iff.mp h)

end Now

end Config

/-! ## The identity row (R436, R449) -/

section OtpWrite

/-- Data for the identity row would clear a bit. -/
def dataClears (l : Live) (s : State) : Bool :=
  (List.zip (otpBytes s l.c.offset.toNat l.data.length) l.data).any fun e => decide (e.1 &&& ~~~e.2 ≠ 0)

variable (hl : s.live? n = some l) (hsets : dataClears l s = false)
include hl hsets

theorem otpWriteLanded_reserved (ha : l.c.offset.toNat = 0xA0) (hbits : 8 ≤ leNat l.data) :
    otpWriteLanded n s = fail n St.violation 0 s := by
  unfold dataClears at hsets
  simp only [otpWriteLanded, hl, hsets, Bool.false_eq_true, if_false, if_pos (And.intro ha hbits)]

theorem otpWriteLanded_policy (ha : l.c.offset.toNat = 0xA0) (hbits : leNat l.data < 8) :
    otpWriteLanded n s = succeed n 0 [] (otpSet (originWord l.c.origin) l.c.offset.toNat l.data s) := by
  unfold dataClears at hsets
  have hgood : ¬ (l.c.offset.toNat = 0xA0 ∧ 8 ≤ leNat l.data) := by omega
  have hpolicy : ¬ l.c.offset.toNat = 0x60 := by omega
  simp only [otpWriteLanded, hl, hsets, Bool.false_eq_true, if_false, if_neg hgood, if_neg hpolicy]

/-- The state in which the session that claimed the module is closed. -/
def closeClaim (u : State) : State :=
  let closed (x : Spdm) : Spdm := if x.session = some (0, true) then { x with session := none } else x
  { u with sec := { u.sec with spdm := Tbl.mapVals (fun _ x => closed x) u.sec.spdm } }

theorem otpWriteLanded_owner (ha : l.c.offset.toNat = 0x60) :
    otpWriteLanded n s = closeClaim (succeed n 0 [] (otpSet (originWord l.c.origin) l.c.offset.toNat l.data s)) := by
  unfold dataClears at hsets
  have hgood : ¬ (l.c.offset.toNat = 0xA0 ∧ 8 ≤ leNat l.data) := by omega
  simp only [otpWriteLanded, hl, hsets, Bool.false_eq_true, if_false, if_neg hgood, if_pos ha, closeClaim]

end OtpWrite

end Sys2Proof.Machine

namespace Sys2Proof

open Sys2Proof.Machine

/-- Settles O57: each management command by its data and by what stands in its way, and the steps of a commit one by one. The
layout of FW_QUERY (log row 22), the options of a commit (log row 25), and the layouts of items and images with the codes of
CFG_READ (log row 26) are the model's choice. -/
theorem configurationCommands : Obligations.ConfigurationCommands := by
  refine ⟨fun s c => ?_, fun s c => ?_⟩
  · refine ⟨fun hacc => ?_, fun hacc => ?_, fun t => ?_, fun hacc hdata => ?_, fun o hnone hboot => takeStaging_first hnone hboot,
      fun o h => takeStaging_held h, fun n l hl => ?_, fun hacc hboot => ?_,
      fun hprog herase => ⟨fun h ok => ?_, fun h ok => ?_, fun h => ⟨?_, fun hfirst => ?_⟩⟩, fun hacc => ⟨fun hsome hboot hsec => ?_, ?_⟩,
      fun hacc => ?_⟩
    · have hstart := identifyStart_eq (entered_live 0x0601 c s)
      exact settle_deliver_accepted hacc hstart
    · have hstart := logReadStart_eq (entered_live 0x0602 c s)
      exact settle_deliver_accepted hacc hstart
    · intro v
      exact ⟨fun h => next_congr (logBatch_nil h), fun e rest he => ⟨fun h => next_congr (logBatch_due he h),
        fun hfew hearly => next_congr (logBatch_early he hfew hearly)⟩⟩
    · have hstart := withData_fwStage_awaits (entered_live 0x0610 c s) hdata
      exact settle_deliver_accepted hacc hstart
    · intro o
      exact ⟨fun h => fwStageLanded_barred hl h, fun g hg hidle hboot => fwStageLanded_stores hl hg hidle hboot⟩
    · intro b u
      have hbegins := fwCommitStart_running (entered_live 0x0611 c s) hboot
      refine ⟨fun k st h => ?_, fun h => ?_⟩
      · have hstart := hbegins.trans (commitBegins_refused h)
        exact settle_deliver_accepted hacc hstart
      · have hstart := hbegins.trans (commitBegins_passes h)
        exact settle_deliver_accepted hacc hstart
    · exact next_settle_congr
        (cflComplete_commitStep hprog herase (by simp [h]) (by simp [h]) (by decide) (commitStep_two h))
    · exact next_settle_congr
        (cflComplete_commitStep hprog herase (by simp [h]) (by simp [h]) (by decide) (commitStep_four h))
    · exact next_settle_congr
        (cflComplete_commitStep hprog herase (by simp [h]) (by simp [h]) (by decide) (commitStep_five_ok h))
    · exact next_settle_congr
        (cflComplete_commitStep hprog herase (by simp [h]) (by simp [h]) (by decide) (commitStep_five_again h hfirst))
    · have hstart : fwAbortStart s.nextCmd (s.entered 0x0612 c) = _ :=
        congrArg (succeed s.nextCmd 0 []) (freeStaging_held (hsec ▸ hsome) hboot)
      rw [hsec] at hstart
      exact settle_deliver_accepted hacc hstart
    · exact settle_deliver_accepted hacc rfl
    · have hstart := fwQueryStart_eq (n := s.nextCmd) (s := s.entered 0x0613 c)
      exact settle_deliver_accepted hacc hstart
  · refine ⟨fun hacc => ?_, fun hacc hdata => ?_, fun hacc hdata => ?_, fun hacc hdata => ?_, fun n l hl => ?_, fun hacc => ?_⟩
    · have hstart := cfgReadStart_eq (entered_live 0x0620 c s)
      exact settle_deliver_accepted hacc hstart
    · exact settle_deliver_accepted hacc (withData_awaits (entered_live 0x0621 c s) hdata)
    · exact settle_deliver_accepted hacc (withData_awaits (entered_live 0x0623 c s) hdata)
    · exact settle_deliver_accepted hacc (withData_awaits (entered_live 0x0630 c s) hdata)
    · intro o k a late
      refine ⟨fun op hop hrun => ?_, fun hidle => ⟨fun h => cfgWriteLanded_malformed hl hidle h,
        fun items hitems h => cfgWriteLanded_unsigned hl hidle hitems h, fun items hitems hsigned => ?_,
        fun h => cfgAccessLanded_malformed hl hidle h, fun hshape h => cfgAccessLanded_locks hl hidle hshape h,
        fun hshape h => cfgAccessLanded_replaces hl hidle hshape h⟩, ?_⟩
      · simp only [List.mem_cons, List.not_mem_nil, or_false] at hop
        obtain rfl | rfl := hop
        · exact cfgWriteLanded_waits hl hrun
        · exact cfgAccessLanded_waits hl hrun
      · intro find
        exact ⟨fun hk => cfgWriteLanded_base hl hidle hitems hsigned hk,
          fun hk => cfgWriteLanded_overlay hl hidle hitems hsigned hk⟩
      · intro clear
        exact ⟨fun h => otpWriteLanded_of_clear hl h, fun hsets ha hbits => otpWriteLanded_reserved hl hsets ha hbits,
          fun hsets ha hbits => otpWriteLanded_policy hl hsets ha hbits, fun hsets ha => otpWriteLanded_owner hl hsets ha⟩
    · intro b m unsigned
      have hl := entered_live 0x0622 c s
      refine ⟨fun hidle h => ?_, fun hidle h => ?_⟩
      · have hstart := cfgSelectStart_unsigned hl hidle h
        exact settle_deliver_accepted hacc hstart
      · have hstart := cfgSelectStart_selects hl hidle h
        exact settle_deliver_accepted hacc hstart

end Sys2Proof

end

section
/-! The obligation on trust and the sideband (chapter 17): attestation, sessions, PLDM, and addresses. -/

namespace Sys2Proof.Machine

variable {s : State} {eid : Byte}

/-! ## Attestation (R447, R448) -/

theorem getCapabilities_early (h : (s.conn eid).step = 0) : getCapabilities eid s = spdmError eid 4 s :=
  if_neg (by omega)

theorem getCapabilities_versioned (h : 1 ≤ (s.conn eid).step) :
    getCapabilities eid s = reply eid 0x61 (leBytes 4 0x3D6) (setConn eid { s.conn eid with step := 2 } s) := if_pos h

section Negotiate

variable {dsa shake kem : Bool}

theorem negotiate_early (h : (s.conn eid).step < 2) : negotiate eid dsa shake kem s = spdmError eid 4 s := if_pos h

variable (h : 2 ≤ (s.conn eid).step)
include h

theorem negotiate_offered :
    negotiate eid true true kem s =
      reply eid 0x63 [if kem then 1 else 0] (setConn eid { s.conn eid with step := if kem then 4 else 3 } s) :=
  (if_neg (Nat.not_lt.mpr h)).trans (if_pos rfl)

theorem negotiate_without (hno : (dsa && shake) = false) : negotiate eid dsa shake kem s = spdmError eid 7 s :=
  (if_neg (Nat.not_lt.mpr h)).trans (if_neg (Bool.eq_false_iff.mp hno))

end Negotiate

/-- Before the algorithms are negotiated, digests, certificates, challenges and measurements are requests out of order. -/
theorem exec_before_negotiation {slot : BitVec 4} {nonce : List Byte} (h : (s.conn eid).step < 3) :
    ∀ i ∈ [Instr.getDigests eid, .getCertificate eid slot 0 0, .challenge eid slot nonce, .getMeasurements eid 0 nonce],
      exec i s = .next (spdmError eid 4 s) := by
  intro i hi
  simp only [List.mem_cons, List.not_mem_nil, or_false] at hi
  obtain rfl | rfl | rfl | rfl := hi
  · exact next_congr (if_pos h)
  · exact next_congr (if_pos h)
  · exact next_congr (if_pos h)
  · exact next_congr (if_pos h)

section Negotiated

variable (h : 3 ≤ (s.conn eid).step)
include h

theorem getDigests_negotiated : getDigests eid s = reply eid 0x01 (shake256 (chain s) 64) s := if_neg (Nat.not_lt.mpr h)

section Slots

variable {slot : BitVec 4} {off len : Half} {nonce : List Byte}

theorem getCertificate_slot_zero :
    getCertificate eid 0 off len s = reply eid 0x02 (((chain s).drop off.toNat).take len.toNat) s :=
  (if_neg (Nat.not_lt.mpr h)).trans (if_neg fun hslot => hslot rfl)

theorem getCertificate_other_slot (hslot : slot ≠ 0) : getCertificate eid slot off len s = spdmError eid 1 s :=
  (if_neg (Nat.not_lt.mpr h)).trans (if_pos hslot)

theorem challenge_other_slot (hslot : slot ≠ 0) : challenge eid slot nonce s = spdmError eid 1 s :=
  (if_neg (Nat.not_lt.mpr h)).trans (if_pos hslot)

omit h in
/-- The answer that carries data with its signature; a signature is a choice of the module's. -/
def replySigned (eid : Byte) (code : Nat) (body : List Byte) (s : State) : State :=
  reply eid code (body ++ Config.mlDsaSign body s.free) { s with free := s.free + 1 }

theorem challenge_slot_zero :
    challenge eid 0 nonce s = addLog Lc.attested (0x20000000#32 + eid.zeroExtend 32) noUnit 0 []
      (replySigned eid 0x03 (shake256 (chain s) 64 ++ nonce) s) :=
  (if_neg (Nat.not_lt.mpr h)).trans (if_neg fun hslot => hslot rfl)

end Slots

section Measurements

variable {index : Byte} {nonce : List Byte}

theorem getMeasurements_no_block (hhigh : 6 < index.toNat) (hall : index.toNat ≠ 255) :
    getMeasurements eid index nonce s = spdmError eid 1 s :=
  (if_neg (Nat.not_lt.mpr h)).trans (if_pos ⟨hhigh, hall⟩)

theorem getMeasurements_block (hlow : 1 ≤ index.toNat) (hhigh : index.toNat ≤ 6) :
    getMeasurements eid index nonce s = replySigned eid 0x60 (measurement s index.toNat ++ nonce) s := by
  have hblock : ¬ (6 < index.toNat ∧ index.toNat ≠ 255) := by omega
  have hzero : ¬ index.toNat = 0 := by omega
  have hall : ¬ index.toNat = 255 := by omega
  simp only [getMeasurements, if_neg (Nat.not_lt.mpr h), if_neg hblock, if_neg hzero, if_neg hall, List.nil_append, replySigned]

end Measurements

end Negotiated

/-! ## Sessions (R449) -/

/-- The origin of an endpoint in the log. -/
def endpointOrigin (eid : Byte) : Word := 0x20000000#32 + eid.zeroExtend 32

/-- The state in which a session of an endpoint is open. -/
def openSession (eid : Byte) (i : BitVec 4) (claim : Bool) (s : State) : State :=
  addLog Lc.sessionOpened (endpointOrigin eid) noUnit 0 [i.toNat]
    (reply eid 0x64 (leBytes 1 i.toNat) (setConn eid { s.conn eid with session := some (i, claim) } s))

/-- The state in which a requester failed to prove who it is. -/
def failSession (eid : Byte) (s : State) : State :=
  addLog Lc.authFailure (endpointOrigin eid) noUnit 0 [] (reply eid 0x7F (leBytes 2 St.authFailed.toNat) s)

section Sessions

variable {proof : List Byte}

theorem keyExchange_early {key : Option (List Byte)} (h : (s.conn eid).step < 4) :
    keyExchange eid key proof s = spdmError eid 4 s := if_pos h

variable (h : 4 ≤ (s.conn eid).step)
include h

theorem keyExchange_claim_owned (howned : owned s = true) : keyExchange eid none proof s = failSession eid s :=
  (if_neg (Nat.not_lt.mpr h)).trans (if_pos howned)

theorem keyExchange_claim (hfree : owned s = false) : keyExchange eid none proof s = openSession eid 0 true s :=
  (if_neg (Nat.not_lt.mpr h)).trans (if_neg (Bool.eq_false_iff.mp hfree))

section Key

variable {key : List Byte}

theorem keyExchange_unknown (hnone : keyIndex (shake256 key 64) s = none) :
    keyExchange eid (some key) proof s = failSession eid s := by
  refine (if_neg (Nat.not_lt.mpr h)).trans ?_
  simp only [hnone]
  rfl

variable {i : Nat} (hi : keyIndex (shake256 key 64) s = some i)
include hi

theorem keyExchange_unproved (hbad : Config.requesterGenuine (shake256 key 64) proof = false) :
    keyExchange eid (some key) proof s = failSession eid s := by
  refine (if_neg (Nat.not_lt.mpr h)).trans ?_
  simp only [hi]
  exact if_neg (Bool.eq_false_iff.mp hbad)

theorem keyExchange_proved (hgood : Config.requesterGenuine (shake256 key 64) proof = true) :
    keyExchange eid (some key) proof s = openSession eid (BitVec.ofNat 4 i) false s := by
  refine (if_neg (Nat.not_lt.mpr h)).trans ?_
  simp only [hi]
  exact if_pos hgood

end Key

end Sessions

/-! ## PLDM and addresses (R465, R466, R474) -/

section Update

variable {image : List Byte}

theorem pldmUpdate_refused (h : s.sec.commitStep ≠ 0 ∨ 67108864 < image.length) :
    pldmUpdate eid image s = reply eid 0x18 (leBytes 2 St.noResource.toNat) s := by
  refine if_pos ?_
  obtain h | h := h
  · simp only [decide_eq_true h, Bool.true_or]
  · simp only [decide_eq_true h, Bool.or_true, Bool.true_or]

/-- The state in which an endpoint's bundle is staged, and the staging is logged. -/
def stageImage (eid : Byte) (image : List Byte) (s : State) : State :=
  let a := takeStaging (.mctp eid false) s
  addLog Lc.fwStaged (originWord (.mctp eid false)) noUnit 0 [0, image.length]
    (putStaged 0 image { a with sec := { a.sec with recoveryNext := 0 } })

theorem pldmUpdate_commits (hidle : s.sec.commitStep = 0) (hlen : image.length ≤ 67108864)
    (hboot : s.statusBit Sb.recovery = false) (hnone : s.sec.staging = none) (hroom : 32 ≤ freeFrames s 0) :
    pldmUpdate eid image s = commitBegins (.inr eid) 0 (stageImage eid image s) := by
  have hbusy : ¬ s.sec.commitStep ≠ 0 := not_not_intro hidle
  simp only [pldmUpdate, decide_eq_false hbusy, hnone, hboot, decide_eq_false (Nat.not_lt.mpr hlen),
    decide_eq_false (Nat.not_lt.mpr hroom), Option.any_none, Bool.and_false, Bool.or_self, Bool.false_eq_true, if_false, stageImage]

end Update

theorem setEid_reserved {i3c : Bool} (h : eid = 0 ∨ eid = 255) : setEid eid i3c s = s := if_pos h

theorem setEid_assigned {i3c : Bool} (hzero : eid ≠ 0) (hall : eid ≠ 255) :
    setEid eid i3c s =
      if i3c then { s with sys := { s.sys with eidI3c := eid } } else { s with sys := { s.sys with eidPcie := eid } } :=
  if_neg (not_or.mpr ⟨hzero, hall⟩)

end Sys2Proof.Machine

namespace Sys2Proof

open Sys2Proof.Machine

/-- Settles O58: each request of the attestation flow by the endpoint's step, a session by what the requester shows, and a PLDM
update by the staging area. The codes of SPDM and PLDM, the nonce of a signature and the rights over I3C are the model's
choice (log row 31). -/
theorem trustAndSideband : Obligations.TrustAndSideband := by
  intro s eid slot nonce k say conn
  refine ⟨rfl, fun h => next_congr (getCapabilities_early h), fun h => next_congr (getCapabilities_versioned h),
    fun kem => ⟨fun dsa shake h => next_congr (negotiate_early h), fun h => ⟨next_congr (negotiate_offered h),
      fun dsa => next_congr (negotiate_without h (Bool.and_false dsa)), fun shake => next_congr (negotiate_without h rfl)⟩⟩,
    fun h => exec_before_negotiation h,
    fun h => ⟨next_congr (getDigests_negotiated h), fun off len => next_congr (getCertificate_slot_zero h),
      fun off len hslot => next_congr (getCertificate_other_slot h hslot), fun hslot => next_congr (challenge_other_slot h hslot),
      next_congr (challenge_slot_zero h), fun index => ⟨fun hhigh hall => next_congr (getMeasurements_no_block h hhigh hall),
        fun hlow hhigh => next_congr (getMeasurements_block h hlow hhigh)⟩⟩,
    fun key proof => ?_, fun x => rfl, fun image => ⟨fun h => next_congr (pldmUpdate_refused h), fun hidle hlen hboot hnone hroom => ?_⟩,
    fun h b => next_congr (setEid_reserved h),
    fun hzero hall => ⟨next_congr (setEid_assigned hzero hall), next_congr (setEid_assigned hzero hall)⟩,
    fun a d => ⟨fun h => next_congr (if_pos h), fun h => next_congr (if_neg h)⟩⟩
  · intro who opens bad
    refine ⟨fun h => next_congr (keyExchange_early h), fun h => ⟨fun howned => next_congr (keyExchange_claim_owned h howned),
      fun hfree => next_congr (keyExchange_claim h hfree), fun x hx hnone => ?_, fun x i hx hi hbad => ?_,
      fun x i hx hi hgood => ?_⟩⟩
    · subst hx
      exact next_congr (keyExchange_unknown h hnone)
    · subst hx
      exact next_congr (keyExchange_unproved h hi hbad)
    · subst hx
      exact next_congr (keyExchange_proved h hi hgood)
  · exact next_congr (pldmUpdate_commits hidle hlen hboot hnone hroom)

end Sys2Proof

end
